-- ==== Sys2Proof/Word.lean ====
section
/-! DEFINITION. The word types of the ZV9620 model and the plainest arithmetic on them. -/

namespace Sys2Proof

/-- One byte, the smallest unit of every buffer, ring and message (00_scope R5). -/
abbrev Byte := BitVec 8

/-- A 64-bit word: a Scaesh scalar register, a wide register, a counter. -/
abbrev Word := BitVec 64

/-- The 32 bits of an FP32 value, or of a 32-bit register. -/
abbrev W32 := BitVec 32

/-- A byte string, lowest address first. -/
abbrev Bytes := List Byte

/-- A sparse table by number: a list of pairs with strictly rising keys. -/
abbrev Tab (α : Type) := List (Nat × α)

/-- A byte from a number, modulo 256. -/
abbrev byte (n : Nat) : Byte := BitVec.ofNat 8 n

/-- A word from a number, modulo 2^64. -/
abbrev word (n : Nat) : Word := BitVec.ofNat 64 n

end Sys2Proof
end

