-- ==== Sys2Proof/Syntax.lean ====
section
/-! DEFINITION. The commands the block takes: one constructor for each row of the spec's table of operations and events. -/

namespace Sys2Proof

/-- Where a Scaesh instruction issues: core 0–255 and context 0–3 (09_scaesh_model R227). -/
structure Site where
  core : Nat
  ctx : Nat
  deriving DecidableEq, Repr

/-- The fields of a format G instruction word below its opcode (10_scaesh R248). -/
structure GWord where
  pg : Nat := 0
  pgn : Bool := false
  d : Nat := 0
  a : Nat := 0
  b : Nat := 0
  c : Nat := 0
  f : Nat := 0
  i : Nat := 0
  deriving DecidableEq, Repr

/-- The strap pins as a latch reads them (18_power R474): XO_DLY code, SRIS_A, SRIS_B. -/
structure Straps where
  xo : Nat
  a : Bool
  b : Bool
  deriving DecidableEq, Repr

/-- What a page walk or an access to a block finds (03_state_fabric R66, R89, R90; 04_undercoat_directory R119): nothing wrong, or the check
of a leaf pointer, of a descriptor, of the entry's record or of the block itself that fails. -/
inductive PageCheck where
  | ok | leaf | desc | record | page
  deriving DecidableEq, Repr

/-- The commands of the table. A host command names its queue set `qk` (function × 64 + number); `data` are the bytes its buffer
gives the device. -/
inductive Instr where
  /-- SESS_OPEN (R30): Host command that allocates the lowest FREE entry of the partition and opens a session. -/
  | sessOpen (qk : Nat)
  /-- SESS_APPEND (R40): Host command that logs prompt tokens or text; on a fresh session it starts the directory match. -/
  | sessAppend (qk : Nat) (data : Bytes)
  /-- SESS_GENERATE (R41): Host command that starts a generate and moves the session to RUNNING. -/
  | sessGenerate (qk : Nat)
  /-- SESS_PARK (R36): Host command that starts a park of the session's non-undercoat blocks to tier 2 or tier 3. -/
  | sessPark (qk : Nat)
  /-- SESS_STRIP (R36): Host command that releases all blocks and keeps only the token log. -/
  | sessStrip (qk : Nat)
  /-- SESS_RESUME (R36): Host command that revives a parked session or rebuilds a stripped one. -/
  | sessResume (qk : Nat)
  /-- SESS_HINT (R42): Host command that arms, replaces or clears a wake hint. -/
  | sessHint (qk : Nat)
  /-- SESS_CANCEL (R45): Host command that cancels a generate or a held command. -/
  | sessCancel (qk : Nat)
  /-- SESS_CLOSE (R36): Host command that ends a session and queues its resources for release. -/
  | sessClose (qk : Nat)
  /-- SESS_EXPORT (R360): Host command that starts moving a session to another unit over a native port. -/
  | sessExport (qk : Nat)
  /-- DIR_PUBLISH (R111): Host command that publishes a session's first positions as undercoat. -/
  | dirPublish (qk : Nat)
  /-- DIR_RETIRE (R120): Host command that retires a directory entry and its subtree. -/
  | dirRetire (qk : Nat)
  /-- DIR_RETIRE_DOMAIN (R120): Host command that retires every entry of a domain and model. -/
  | dirRetireDomain (qk : Nat)
  /-- STENCIL_LOAD (R178): Host command that checks and loads a stencil set into the emit store. -/
  | stencilLoad (qk : Nat) (data : Bytes)
  /-- STENCIL_UNLOAD (R175): Host command that unloads a stencil set. -/
  | stencilUnload (qk : Nat)
  /-- SAMP_LOAD (R183): Host command that checks and loads or replaces a sampler profile. -/
  | sampLoad (qk : Nat) (data : Bytes)
  /-- SAMP_UNLOAD (R175): Host command that unloads a sampler profile. -/
  | sampUnload (qk : Nat)
  /-- STOP_LOAD (R219): Host command that checks and loads a stop-string set into the text store. -/
  | stopLoad (qk : Nat) (data : Bytes)
  /-- STOP_UNLOAD (R202): Host command that unloads a stop set. -/
  | stopUnload (qk : Nat)
  /-- TOK_LOAD (R205): Host command that checks and loads a model's tokeniser image. -/
  | tokLoad (qk : Nat) (data : Bytes)
  /-- TOK_UNLOAD (R202): Host command that unloads a tokeniser image. -/
  | tokUnload (qk : Nat)
  /-- TOK_ENCODE (R211): Host command that tokenises text into a buffer without a session. -/
  | tokEncode (qk : Nat) (data : Bytes)
  /-- PROG_LOAD (R235): Host command that checks and writes a Scaesh image to every core of the partition. -/
  | progLoad (qk : Nat) (data : Bytes)
  /-- PROG_UNLOAD (R237): Host command that unloads a customer program or restores a standard one. -/
  | progUnload (qk : Nat)
  /-- PROG_CALL (R239): Host command that queues one invocation on each core of a core set. -/
  | progCall (qk : Nat)
  /-- PROG_CANCEL (R242): Host command that cancels every invocation of a CALL. -/
  | progCancel (qk : Nat)
  /-- INDEX_CREATE (R297): Host command that creates a vector index from an image. -/
  | indexCreate (qk : Nat) (data : Bytes)
  /-- INDEX_WRITE (R300): Host command that inserts, replaces or deletes index records. -/
  | indexWrite (qk : Nat) (data : Bytes)
  /-- SEARCH (R303): Host command that starts a near-channel vector search. -/
  | search (qk : Nat) (data : Bytes)
  /-- INDEX_COMPACT (R309): Host command that starts compaction of an index. -/
  | indexCompact (qk : Nat)
  /-- INDEX_DROP (R310): Host command that makes an index DROPPING. -/
  | indexDrop (qk : Nat)
  /-- PART_CREATE (R371): PF0 command that creates a partition in composable mode. -/
  | partCreate (qk : Nat) (data : Bytes)
  /-- PART_DESTROY (R372): PF0 command that stops a partition and starts releasing everything it holds. -/
  | partDestroy (qk : Nat)
  /-- PART_RECOMPOSE (R377): PF0 command that checks and accepts a new composition of partitions. -/
  | partRecompose (qk : Nat) (data : Bytes)
  /-- PART_BIND (R373): PF0 command that binds or unbinds a host VF or Cunis port. -/
  | partBind (qk : Nat)
  /-- DOM_BIND (R375): Command that binds a share domain to the caller's partition. -/
  | domBind (qk : Nat)
  /-- DOM_UNBIND (R375): Command that retires a domain's entries and removes its binding. -/
  | domUnbind (qk : Nat)
  /-- METER_REPORT (R383): Command that writes an 80-byte composition meter report. -/
  | meterReport (qk : Nat)
  /-- CKPT_TAKE (R425): PF0 command that starts a checkpoint into a named slot. -/
  | ckptTake (qk : Nat)
  /-- CKPT_RESTORE (R426): PF0 command that verifies and stages a restore from a checkpoint slot. -/
  | ckptRestore (qk : Nat) (a b : Nat)
  /-- CMD_DOORBELL (R320): Write of a command-ring tail doorbell in BAR2. -/
  | cmdDoorbell (fn page width value : Nat)
  /-- CPL_DOORBELL (R320): Write of a completion-ring head doorbell, freeing completion entries. -/
  | cplDoorbell (fn page width value : Nat)
  /-- EMIT_DOORBELL (R320): Write of an emit-ring head doorbell, freeing emit units and releasing HOST_LATE stalls. -/
  | emitDoorbell (fn page width value : Nat)
  /-- CMD_FETCH (R323): Device fetches the next command of a queue set once a completion entry is reserved and runs the
  common checks. `loads` are the session entries it loads, each with the 64-bit words it reads (R33). -/
  | cmdFetch (qk : Nat) (raw : Bytes) (loads : List (Nat × List Nat))
  /-- QS_ENABLE (R319): Setting QS_CTRL.EN resets heads, tails and phases and starts the queue set. -/
  | qsEnable (fn q value : Nat)
  /-- QS_DISABLE (R331): Clearing QS_CTRL.EN stops the queue set and cancels its generates. -/
  | qsDisable (fn q value : Nat)
  /-- QS_WORK_DRAINED (R331): The last work of a stopped queue set ends and BUSY clears. -/
  | qsWorkDrained (qk : Nat)
  /-- MSIX_COALESCE_TIMER (R332): COAL_T expires after the first unsignalled entry and one MSI-X message is sent. -/
  | msixCoalesceTimer (qk : Nat) (emit : Bool)
  /-- FLR (R331): Function Level Reset or return from D3hot stops the function's queue sets. -/
  | flr (fn : Nat)
  /-- PCIE_LINK_DOWN (R331): A PCIe port's link goes down and every queue set of the port stops. -/
  | pcieLinkDown (port : Nat)
  /-- PERST_ASSERT (R471): PERST_x_N or Hot Reset resets one PCIe port's block and functions. -/
  | perstAssert (port : Nat)
  /-- PERST_DEASSERT (R463): PERST_x_N goes high and the port starts link training. -/
  | perstDeassert (port : Nat)
  /-- MBX_GO (R335): Write of GO sends a mailbox message to the hawk. -/
  | mbxGo (fn n len : Nat)
  /-- PUPOAC_DATAGRAM (R447): A Pupoac datagram arrives and is checked and queued or dropped. -/
  | pupoacDatagram (data : Bytes)
  /-- INFO (R445): Management service returning identity, serial, health state and firmware slots. -/
  | info
  /-- HEALTH_STATE (R445): Management service returning HLTH_STATE and HLTH_STACK. -/
  | healthState
  /-- HEALTH_SENSORS (R445): Management service returning the 32 sensor entries. -/
  | healthSensors
  /-- HEALTH_POWER (R445): Management service returning HLTH_PWR. -/
  | healthPower
  /-- WEAR (R454): Management service returning the 59 wear entries. -/
  | wear
  /-- ATTEST_START (R408): Management service that queues an attestation report and returns a ticket. -/
  | attestStart
  /-- ATTEST_READ (R409): Management service that returns attestation report bytes. -/
  | attestRead
  /-- ATTEST_SIGNED (R409): The hawk finishes signing a queued attestation report. -/
  | attestSigned
  /-- METER (R383): Pupoac service returning an authenticated meter report. -/
  | meter
  /-- BOOTCFG_GET (R444): Management service returning the record in force and the pending record. -/
  | bootcfgGet
  /-- BOOTCFG_SET (R444): Management service that writes a new boot configuration record to both copies. -/
  | bootcfgSet
  /-- FIRMWARE_BEGIN (R448): Management service that erases the inactive firmware slot for staging. -/
  | firmwareBegin
  /-- FIRMWARE_WRITE (R448): Management service that writes staged firmware bytes at an offset. -/
  | firmwareWrite
  /-- FIRMWARE_COMMIT (R448): Management service that verifies the staged firmware image. -/
  | firmwareCommit
  /-- FIRMWARE_STATUS (R448): Management service returning staging state and slot validity. -/
  | firmwareStatus
  /-- PUPOAC_RESET_MGMT (R448): Pupoac RESET OP 1 restarts the management domain after replying. -/
  | pupoacResetMgmt
  /-- PUPOAC_RESET_MODULE (R448): Pupoac RESET OP 2 performs a module reset after replying. -/
  | pupoacResetModule
  /-- CLAIM (R338): Write of YK_LEASE.CLAIM to take the recovery lease. -/
  | claim (port : Nat)
  /-- RENEW (R338): Write of YK_LEASE.RENEW by the holder to reset AGE. -/
  | renew (port : Nat)
  /-- RELEASE (R338): Write of YK_LEASE.RELEASE by the holder to free the lease. -/
  | release (port : Nat)
  /-- MGMT_DOMAIN_RESET (R339): Valid YK_MDR.RESET write from the lease holder starts a management-domain reset. -/
  | mgmtDomainReset (port value : Nat)
  /-- HAWK_READY (R440): Hawk firmware finishes its start-up and declares itself ready. -/
  | hawkReady
  /-- HEARTBEAT (R441): Every 10 management ticks the hawk increments YK_HB and HLTH_HB. -/
  | heartbeat
  /-- MGMT_TICK (R382): Each management tick adds held capacity to the open compositions' meters and ages the lease. -/
  | mgmtTick
  /-- WEAR_SAMPLE (R454): Hourly the hawk stores each wear entry's RAW sample. -/
  | wearSample (raws : List Nat)
  /-- RST_REQ (R451): I3C write of 0xA5 to RST_REQ requests a module reset. -/
  | rstReq (value : Nat)
  /-- DYNAMIC_ADDRESS_ASSIGN (R450): SETDASA or ENTDAA gives the I3C target a dynamic address. -/
  | dynamicAddressAssign (addr : Nat)
  /-- THERMAL_SAMPLE (R452): Every 100,000 ticks the thermal monitor samples all sensors and the power average. -/
  | thermalSample (temps : List Int) (avg input vin : Nat)
  /-- INPUT_UP (R462): The 52 V input passes 44.0 V, latching straps and starting inrush and XO_DLY. -/
  | inputUp (straps : Straps)
  /-- INPUT_LOCKOUT (R460): The input falls below 42.0 V or rises above 58.0 V and the module powers off. -/
  | inputLockout (high : Bool)
  /-- BULK_CHARGED (R462): The bulk capacitance reaches the input voltage and the rails start. -/
  | bulkCharged
  /-- RAIL_REGULATION (R462): A rail group reaches regulation and the next group starts. -/
  | railRegulation
  /-- RAIL_TIMEOUT (R462): A rail group misses regulation within 1 ms and all rails turn off. -/
  | railTimeout
  /-- RAIL_RETRY (R462): 100 ms after a rail failure the rail sequence runs again. -/
  | railRetry
  /-- XO_DLY_EXPIRY (R464): The XO_DLY timer expires. -/
  | xoDlyExpiry
  /-- FB_CLK_CHECK (R465): The 4,096-period check of FB_CLK completes, passing or scheduling a retry. -/
  | fbClkCheck (pass : Bool)
  /-- CLOCK_LOCK (R462): The clock generator locks to FB_CLK and the tick counters start. -/
  | clockLock
  /-- MOD_RESET_N_RELEASE (R462): MOD_RESET_N high in step 6 releases internal reset and drives MOD_OK_N low. -/
  | modResetNRelease
  /-- MOD_RESET_N (R472): Valid assertion of MOD_RESET_N asserts internal reset. -/
  | modResetN (ns : Nat) (straps : Straps)
  /-- MODULE_RESET (R471): Module reset of every die, memory and register, recording RST_CAUSE. -/
  | moduleReset (straps : Straps)
  /-- FB_CLK_LOST (R466): FB_CLK stops or fails and the reference switches or the device enters the safe state. -/
  | fbClkLost
  /-- CDR_LOCK_LOST (R466): The clock port's CDR loses lock and the reference returns to FB_CLK or the safe state. -/
  | cdrLockLost (port : Nat)
  /-- AUTO_RETURN (R466): The clock port has held lock for 1,000,000 ticks and the reference switches to it. -/
  | autoReturn
  /-- RETURN (R466): Write of CLK_CFG.RETURN switches at once to the recovered clock. -/
  | returnClk (fn : Nat)
  /-- FORCE_FB (R466): Setting CLK_CFG.FORCE_FB switches the reference to FB_CLK. -/
  | forceFb (fn : Nat)
  /-- LINK_CLKSEL_WRITE (R466): Write of LINK_CLKSEL.PORT restarts the lock count or leaves the recovered clock. -/
  | linkClkselWrite (fn value : Nat)
  /-- SLEW_DONE (R467): The clock generator finishes slewing to the new source. -/
  | slewDone
  /-- CLOCK_LOSS_RECOVERY (R470): After FB_CLK is valid again and a further XO_DLY, the device performs a module reset with
  cause 4. -/
  | clockLossRecovery (straps : Straps)
  /-- PHY_UP (R354): A Cunis port's PHY comes up and HELLO starts. -/
  | phyUp (port : Nat)
  /-- PHY_DOWN (R354): A Cunis port's PHY goes down and the port leaves UP. -/
  | phyDown (port : Nat)
  /-- HELLO (R354): Receipt of a peer HELLO: version agreement, refusal or UP. -/
  | hello (port : Nat)
  /-- HELLO_RESEND (R354): Every 100,000 ticks until UP or REFUSED the port sends HELLO again. -/
  | helloResend (port : Nat)
  /-- LINK_RESTART (R364): Write of LINK_CFG.RESTART takes the port out of UP and restarts HELLO. -/
  | linkRestart (fn port value : Nat)
  /-- LINK_EN (R364): Write of LINK_CFG.EN starts the port or idles it to DOWN. -/
  | linkEn (fn port value : Nat)
  /-- LINK_FRAMING (R364): Write of LINK_CFG.FRAMING changes framing and restarts the port. -/
  | linkFraming (fn port value : Nat)
  /-- RX_FRAME (R350): A frame or flit arrives and passes or fails the receive checks and credit check. -/
  | rxFrame (port corr : Nat) (fecBad : Bool) (frame : Bytes)
  /-- CREDIT (R351): Receipt of a CREDIT message updates unspent credit per VC. -/
  | credit (port : Nat)
  /-- CREDIT_SEND (R351): Freed credit reaches 8 or ages 10,000 ticks and a CREDIT message is sent. -/
  | creditSend (port vc : Nat)
  /-- EGRESS_FRAME (R162): At a frame boundary egress starts the next frame by VC order, gate, credit and shaper. -/
  | egressFrame (port : Nat)
  /-- BEAT (R155): Receipt of a BEAT message on the beat port, checked and held pending until tick 0. -/
  | beat (port : Nat)
  /-- BEAT_TICK0 (R157): A pending beat reaches tick 0 and is taken or dropped; windows, carries and admission follow.
  `loads` are the session entries it loads, each with the 64-bit words it reads (R33). -/
  | beatTick0 (loads : List (Nat × List Nat))
  /-- ROSTER (R166): By tick 64 + n the roster is fixed and sent as CTRL ROSTER. -/
  | roster (part : Nat)
  /-- PREFILL_WINDOW_OPEN (R159): The prefill-chunk window opens at tick d of the beat. -/
  | prefillWindowOpen (part : Nat)
  /-- BULK_WINDOW_OPEN (R159): The bulk window opens at tick d + f of the beat. -/
  | bulkWindowOpen (part : Nat)
  /-- SYNTHETIC_BEAT (R168): No beat by tick P + TOL and the device makes a synthetic beat. -/
  | syntheticBeat
  /-- BEAT_HOLD (R169): No beat after the eighth synthetic beat and the device enters a beat hold. -/
  | beatHold
  /-- RESYNC (R158): Write of BEAT_CFG.RESYNC arms taking the next beat whatever its number. -/
  | resync (fn : Nat)
  /-- BEAT_NOW_READ (R172): A read of BEAT_NOW latches BEAT_TICK. -/
  | beatNowRead (fn : Nat)
  /-- STALL_TIMEOUT (R88): A stall open since beat b0 reaches SF_STALL_LIMIT and the session is taken out of the step. -/
  | stallTimeout (sess : Nat)
  /-- CARRY_LIMIT (R167): A step waiting on the accelerator reaches CARRY_LIMIT and is taken out with STALL_TIMEOUT. -/
  | carryLimit (sess : Nat)
  /-- DUST_LATCH (R403): At beats that are multiples of 2^EPOCH_LOG2 the coarsened counters are latched. -/
  | dustLatch
  /-- Q_SUBMIT (R139): Receipt of a Q_SUBMIT, checked and queued for dealing or answered at once. -/
  | qSubmit (port vc : Nat)
  /-- KV_APPEND (R132): Receipt of a KV_APPEND, checked and written or held for block space. -/
  | kvAppend (port : Nat)
  /-- LEARN (R114): A completed appended block is learned into the directory. -/
  | learn (sess : Nat)
  /-- LOGITS (R187): Receipt of a LOGITS piece, checked, stencil-applied and ranked. -/
  | logits (port : Nat)
  /-- STENCIL_FETCH (R181): The fetch of a session's mask into the stencil cache completes. -/
  | stencilFetch (sess : Nat)
  /-- KV_READ (R369): Receipt of a CTRL KV_READ, checked by the KVSVC program. -/
  | kvRead (port : Nat)
  /-- KV_DATA_SEND (R369): The requested rows are read and KV_DATA is sent on REPLY_VC. -/
  | kvDataSend (sess : Nat)
  /-- MOVE_OFFER (R361): Destination receives an export OFFER and answers it. -/
  | moveOffer (port : Nat)
  /-- MOVE_ACCEPT (R360): Source receives ACCEPT and commits the session to MOVING (export). -/
  | moveAccept (port : Nat)
  /-- MOVE_REFUSE (R360): Source receives REFUSE and ends or acknowledges the export. -/
  | moveRefuse (port : Nat)
  /-- MOVE_LOG (R361): Destination stages token-log entries and applies the first append when complete. -/
  | moveLog (port : Nat)
  /-- MOVE_LOGGED (R360): Source receives LOGGED and starts sending KV. -/
  | moveLogged (port : Nat)
  /-- MOVE_KV (R361): Destination applies a KV message as a KV_APPEND. -/
  | moveKv (port : Nat)
  /-- MOVE_DONE (R361): Destination receives DONE and sends ACK when LENGTH equals KVLEN. -/
  | moveDone (port : Nat)
  /-- MOVE_ACK (R360): Source receives ACK and the exported session goes to FREE. -/
  | moveAck (port : Nat)
  /-- MOVE_ABANDON (R362): Destination receives ABANDON and ends its reservation. -/
  | moveAbandon (port : Nat)
  /-- DEAL (R142): Every 16 ticks a cluster dispatcher deals queued decode requests to cores. -/
  | deal (cluster : Nat)
  /-- DECODE_ITEM (R265): A core starts an ATT_DECODE invocation for one dealt block. -/
  | decodeItem (core : Nat) (check : PageCheck) (late : Bool)
  /-- PREFILL_UNIT (R148): A core starts a prefill unit that fits the prefill window. -/
  | prefillUnit (core : Nat) (late : Bool) (check : PageCheck)
  /-- MERGE_CONTINUATION (R272): A partial arrives where its partner has posted and a merge continuation starts. -/
  | mergeContinuation (core : Nat)
  /-- RANKED_RESULT (R265): Ranking completes and the EMIT_DRAW invocation starts. -/
  | rankedResult (sess : Nat)
  /-- CALL_INVOCATION (R230): A queued CALL invocation starts in its context. -/
  | callInvocation (core ctx : Nat)
  /-- WATCHDOG (R244): An invocation reaches MAX_BEATS and faults. -/
  | watchdog (core ctx : Nat)
  /-- PROG_SWITCH (R236): At tick 0 of the next beat a loaded image becomes callable and PROG_LOAD completes. -/
  | progSwitch
  /-- TAG_COMPLETE (R251): An asynchronous engine operation completes and sets its tag's value. -/
  | tagComplete (core ctx tag : Nat)
  /-- ADD (R255): Scaesh add. -/
  | add (site : Site) (w : GWord)
  /-- SUB (R255): Scaesh subtract. -/
  | sub (site : Site) (w : GWord)
  /-- MUL (R255): Scaesh low multiply. -/
  | mul (site : Site) (w : GWord)
  /-- MULHU (R255): Scaesh high unsigned multiply. -/
  | mulhu (site : Site) (w : GWord)
  /-- AND (R255): Scaesh bitwise and. -/
  | and (site : Site) (w : GWord)
  /-- OR (R255): Scaesh bitwise or. -/
  | or (site : Site) (w : GWord)
  /-- XOR (R255): Scaesh bitwise xor. -/
  | xor (site : Site) (w : GWord)
  /-- SHL (R255): Scaesh shift left. -/
  | shl (site : Site) (w : GWord)
  /-- SHR (R255): Scaesh logical shift right. -/
  | shr (site : Site) (w : GWord)
  /-- SRA (R255): Scaesh arithmetic shift right. -/
  | sra (site : Site) (w : GWord)
  /-- MIN (R255): Scaesh signed minimum. -/
  | min (site : Site) (w : GWord)
  /-- MAX (R255): Scaesh signed maximum. -/
  | max (site : Site) (w : GWord)
  /-- MINU (R255): Scaesh unsigned minimum. -/
  | minu (site : Site) (w : GWord)
  /-- MAXU (R255): Scaesh unsigned maximum. -/
  | maxu (site : Site) (w : GWord)
  /-- SLT (R255): Scaesh signed set-less-than. -/
  | slt (site : Site) (w : GWord)
  /-- SLTU (R255): Scaesh unsigned set-less-than. -/
  | sltu (site : Site) (w : GWord)
  /-- ADDI (R255): Scaesh add immediate. -/
  | addi (site : Site) (w : GWord)
  /-- ANDI (R255): Scaesh and immediate. -/
  | andi (site : Site) (w : GWord)
  /-- ORI (R255): Scaesh or immediate. -/
  | ori (site : Site) (w : GWord)
  /-- XORI (R255): Scaesh xor immediate. -/
  | xori (site : Site) (w : GWord)
  /-- SHLI (R255): Scaesh shift left immediate. -/
  | shli (site : Site) (w : GWord)
  /-- SHRI (R255): Scaesh logical shift right immediate. -/
  | shri (site : Site) (w : GWord)
  /-- SRAI (R255): Scaesh arithmetic shift right immediate. -/
  | srai (site : Site) (w : GWord)
  /-- SLTI (R255): Scaesh signed set-less-than immediate. -/
  | slti (site : Site) (w : GWord)
  /-- LI (R255): Scaesh load 47-bit immediate. -/
  | li (site : Site) (w : GWord)
  /-- DIVU (R255): Scaesh unsigned divide. -/
  | divu (site : Site) (w : GWord)
  /-- REMU (R255): Scaesh unsigned remainder. -/
  | remu (site : Site) (w : GWord)
  /-- CLZ (R255): Scaesh count leading zeros. -/
  | clz (site : Site) (w : GWord)
  /-- POPC (R255): Scaesh population count. -/
  | popc (site : Site) (w : GWord)
  /-- CRC (R255): Scaesh CRC-32C step over 8 bytes. -/
  | crc (site : Site) (w : GWord)
  /-- INSH (R255): Scaesh insert immediate into bits 63:40. -/
  | insh (site : Site) (w : GWord)
  /-- BEQ (R256): Scaesh branch if equal. -/
  | beq (site : Site) (w : GWord)
  /-- BNE (R256): Scaesh branch if not equal. -/
  | bne (site : Site) (w : GWord)
  /-- BLT (R256): Scaesh branch if signed less. -/
  | blt (site : Site) (w : GWord)
  /-- BGE (R256): Scaesh branch if signed greater or equal. -/
  | bge (site : Site) (w : GWord)
  /-- BLTU (R256): Scaesh branch if unsigned less. -/
  | bltu (site : Site) (w : GWord)
  /-- BGEU (R256): Scaesh branch if unsigned greater or equal. -/
  | bgeu (site : Site) (w : GWord)
  /-- JAL (R256): Scaesh jump and link. -/
  | jal (site : Site) (w : GWord)
  /-- JR (R256): Scaesh jump to register. -/
  | jr (site : Site) (w : GWord)
  /-- END (R256): Scaesh end of invocation with a status; completes the CALL when it is the last member. -/
  | endInv (site : Site) (w : GWord)
  /-- NOP (R256): Scaesh no operation. -/
  | nop (site : Site) (w : GWord)
  /-- LD (R257): Scaesh 64-bit LDM load. -/
  | ld (site : Site) (w : GWord)
  /-- ST (R257): Scaesh 64-bit LDM store. -/
  | st (site : Site) (w : GWord)
  /-- CLD (R257): Scaesh CWS or merge-area load. -/
  | cld (site : Site) (w : GWord)
  /-- CST (R257): Scaesh CWS store. -/
  | cst (site : Site) (w : GWord)
  /-- CADD (R257): Scaesh atomic CWS fetch-and-add. -/
  | cadd (site : Site) (w : GWord)
  /-- CCAS (R257): Scaesh atomic CWS compare-and-swap. -/
  | ccas (site : Site) (w : GWord)
  /-- RDS (R257): Scaesh read special register. -/
  | rds (site : Site) (w : GWord)
  /-- VADD (R258): Scaesh vector add. -/
  | vadd (site : Site) (w : GWord)
  /-- VSUB (R258): Scaesh vector subtract. -/
  | vsub (site : Site) (w : GWord)
  /-- VMUL (R258): Scaesh vector multiply. -/
  | vmul (site : Site) (w : GWord)
  /-- VFMA (R258): Scaesh vector fused multiply-add. -/
  | vfma (site : Site) (w : GWord)
  /-- VMAX (R258): Scaesh vector maximum. -/
  | vmax (site : Site) (w : GWord)
  /-- VMIN (R258): Scaesh vector minimum. -/
  | vmin (site : Site) (w : GWord)
  /-- VEXP (R258): Scaesh vector exponential. -/
  | vexp (site : Site) (w : GWord)
  /-- VLOG (R258): Scaesh vector natural logarithm. -/
  | vlog (site : Site) (w : GWord)
  /-- VRCP (R258): Scaesh vector reciprocal. -/
  | vrcp (site : Site) (w : GWord)
  /-- VCVT (R258): Scaesh vector type conversion. -/
  | vcvt (site : Site) (w : GWord)
  /-- VRMAX (R258): Scaesh vector reduce maximum. -/
  | vrmax (site : Site) (w : GWord)
  /-- VRSUM (R258): Scaesh vector reduce sum. -/
  | vrsum (site : Site) (w : GWord)
  /-- VSCL (R258): Scaesh vector scale by a power of two. -/
  | vscl (site : Site) (w : GWord)
  /-- VSEL (R258): Scaesh vector select by predicate. -/
  | vsel (site : Site) (w : GWord)
  /-- VLD (R259): Scaesh 256-byte LDM vector load. -/
  | vld (site : Site) (w : GWord)
  /-- VST (R259): Scaesh 256-byte LDM vector store. -/
  | vst (site : Site) (w : GWord)
  /-- VCLD (R259): Scaesh CWS or merge-area vector load. -/
  | vcld (site : Site) (w : GWord)
  /-- VCST (R259): Scaesh CWS vector store. -/
  | vcst (site : Site) (w : GWord)
  /-- VGET (R259): Scaesh extract a vector lane to a scalar. -/
  | vget (site : Site) (w : GWord)
  /-- VPUT (R259): Scaesh insert a scalar into a vector lane. -/
  | vput (site : Site) (w : GWord)
  /-- VSPL (R259): Scaesh splat a scalar to every lane. -/
  | vspl (site : Site) (w : GWord)
  /-- VBIT (R259): Scaesh vector bitwise operation. -/
  | vbit (site : Site) (w : GWord)
  /-- PAND (R260): Scaesh predicate and. -/
  | pand (site : Site) (w : GWord)
  /-- POR (R260): Scaesh predicate or. -/
  | por (site : Site) (w : GWord)
  /-- PXOR (R260): Scaesh predicate xor. -/
  | pxor (site : Site) (w : GWord)
  /-- PNOT (R260): Scaesh predicate not. -/
  | pnot (site : Site) (w : GWord)
  /-- PCMP (R260): Scaesh vector compare into a predicate. -/
  | pcmp (site : Site) (w : GWord)
  /-- PFX (R260): Scaesh predicate prefix of set lanes. -/
  | pfx (site : Site) (w : GWord)
  /-- PCNT (R260): Scaesh count set predicate bits. -/
  | pcnt (site : Site) (w : GWord)
  /-- BIND (R232): Scaesh bind a handle into a session slot after the R28 check. -/
  | bind (site : Site) (w : GWord)
  /-- UNBIND (R261): Scaesh empty a session slot. -/
  | unbind (site : Site) (w : GWord)
  /-- BDESC (R262): Scaesh read a block summary. -/
  | bdesc (site : Site) (w : GWord) (check : PageCheck)
  /-- BSESS (R261): Scaesh read one word of a session entry. -/
  | bsess (site : Site) (w : GWord)
  /-- BLD (R263): Scaesh block load of rows or scales into LDM or CWS. -/
  | bld (site : Site) (w : GWord) (check : PageCheck)
  /-- BST (R264): Scaesh block store of positions as a KV_APPEND. -/
  | bst (site : Site) (w : GWord) (check : PageCheck)
  /-- AQK (R268): Scaesh attention score tile from query and K rows. -/
  | aqk (site : Site) (w : GWord) (check : PageCheck)
  /-- ASMX (R269): Scaesh online-softmax step on a tile. -/
  | asmx (site : Site) (w : GWord)
  /-- APV (R270): Scaesh weighted V accumulation into output rows. -/
  | apv (site : Site) (w : GWord) (check : PageCheck)
  /-- AMRG (R271): Scaesh merge of two partial records. -/
  | amrg (site : Site) (w : GWord)
  /-- AFIN (R271): Scaesh final normalisation and log-sum-exp. -/
  | afin (site : Site) (w : GWord)
  /-- APOST (R272): Scaesh post of a partial up the merge tree. -/
  | apost (site : Site) (w : GWord)
  /-- AOUT (R273): Scaesh answer of a Q_SUBMIT, sending or placing the O_RETURN. -/
  | aout (site : Site) (w : GWord)
  /-- ATZ (R266): Scaesh zero a tile. -/
  | atz (site : Site) (w : GWord)
  /-- ATLD (R266): Scaesh load a tile from LDM. -/
  | atld (site : Site) (w : GWord)
  /-- ATST (R266): Scaesh store a tile to LDM. -/
  | atst (site : Site) (w : GWord)
  /-- SKEY (R275): Scaesh build composite ranking keys. -/
  | skey (site : Site) (w : GWord)
  /-- SSORT (R274): Scaesh bitonic sort of 256 entries. -/
  | ssort (site : Site) (w : GWord)
  /-- SMERGE (R274): Scaesh merge a sorted group into a best list. -/
  | smerge (site : Site) (w : GWord)
  /-- SSTAGE (R276): Scaesh one bitonic network stage. -/
  | sstage (site : Site) (w : GWord)
  /-- SCNT (R274): Scaesh count nonzero entries. -/
  | scnt (site : Site) (w : GWord)
  /-- ESTN (R278): Scaesh stencil, allow-list and bias apply to logits. -/
  | estn (site : Site) (w : GWord)
  /-- EPHX (R279): Scaesh Philox4x32-10 evaluation. -/
  | ephx (site : Site) (w : GWord)
  /-- ECMT (R280): Scaesh commit of the drawn token to the emit block. -/
  | ecmt (site : Site) (w : GWord)
  /-- EDTK (R281): Scaesh write of a token's string bytes. -/
  | edtk (site : Site) (w : GWord)
  /-- ESEAM (R282): Scaesh seam step on a program seam buffer. -/
  | eseam (site : Site) (w : GWord)
  /-- ENEXT (R277): Scaesh grammar next-state lookup. -/
  | enext (site : Site) (w : GWord)
  /-- DSRCH (R284): Scaesh mask-3 directory search. -/
  | dsrch (site : Site) (w : GWord)
  /-- HRD (R285): Scaesh host DMA read from the CALL buffer. -/
  | hrd (site : Site) (w : GWord) (data : Bytes)
  /-- HWR (R285): Scaesh host DMA write to the CALL buffer. -/
  | hwr (site : Site) (w : GWord)
  /-- MSEND (R287): Scaesh send of a core message. -/
  | msend (site : Site) (w : GWord)
  /-- MRECV (R287): Scaesh wait for and receive a core message. -/
  | mrecv (site : Site) (w : GWord)
  /-- MPOLL (R287): Scaesh poll for a core message. -/
  | mpoll (site : Site) (w : GWord)
  /-- LSEND (R288): Scaesh send of a CTRL APP message on a Cunis port. -/
  | lsend (site : Site) (w : GWord)
  /-- DBELL (R289): Scaesh post of a NOTIFY completion and MSI-X. -/
  | dbell (site : Site) (w : GWord)
  /-- TWAIT (R290): Scaesh wait for a tag's completion value. -/
  | twait (site : Site) (w : GWord)
  /-- TPOLL (R290): Scaesh poll a tag's completion value. -/
  | tpoll (site : Site) (w : GWord)
  /-- FENCEC (R290): Scaesh cluster fence. -/
  | fencec (site : Site) (w : GWord)
  /-- FENCED (R290): Scaesh device fence. -/
  | fenced (site : Site) (w : GWord)
  /-- BARC (R243): Scaesh cluster barrier. -/
  | barc (site : Site) (w : GWord)
  /-- BARP (R243): Scaesh partition barrier. -/
  | barp (site : Site) (w : GWord)
  /-- WBEAT (R290): Scaesh wait for the next beat's tick 0. -/
  | wbeat (site : Site) (w : GWord)
  /-- WWIN (R290): Scaesh wait for a window of a class to open. -/
  | wwin (site : Site) (w : GWord)
  /-- WLEFT (R290): Scaesh read ticks left in a window. -/
  | wleft (site : Site) (w : GWord)
  /-- GDECL (R290): Scaesh declare the invocation's gate class. -/
  | gdecl (site : Site) (w : GWord)
  /-- CORE_DBG_HALT (R246): Write of CORE_DBG.HALT halts or releases contexts. -/
  | coreDbgHalt (fn core value : Nat)
  /-- CORE_DBG_STEP (R246): Write of CORE_DBG.STEP issues one instruction on a halted context. -/
  | coreDbgStep (fn core value : Nat)
  /-- CORE_FAULT_CLEAR (R246): W1C of CORE_FAULT.VALID re-enables fault recording. -/
  | coreFaultClear (fn core value : Nat)
  /-- CORE_WINDOW_WRITE (R246): Write into a core window, applied to the customer LDM region or ignored and counted. -/
  | coreWindowWrite (fn core offset width value : Nat)
  /-- OWNER_BYTE_WRITE (R52): Aperture write to owner bytes of an entry, or ignored and counted in SESS_BADWR. -/
  | ownerByteWrite (fn offset width value : Nat)
  /-- SF_PL_SEL_WRITE (R93): Write of SF_PL_SEL triggers a descriptor lookup into SF_PL_DESC. -/
  | sfPlSelWrite (fn value : Nat)
  /-- SF_PROBE_SEL_WRITE (R93): Write of SF_PROBE_SEL captures a session's victim key. -/
  | sfProbeSelWrite (fn value : Nat)
  /-- DIR_REC_SEL_WRITE (R123): Write of DIR_REC_SEL copies a directory record into DIR_REC. -/
  | dirRecSelWrite (fn value : Nat)
  /-- TEXT_HELD_SEL_WRITE (R222): Write of TEXT_HELD_SEL copies a session's seam record. -/
  | textHeldSelWrite (fn value : Nat)
  /-- SESS_TOK_SEL_WRITE (R430): Write of SESS_TOK_SEL copies 16 token-log entries. -/
  | sessTokSelWrite (fn value : Nat)
  /-- ATT_TURN_CLR (R153): Write of ATT_TURN_CLR.CLR sets ATT_TURN.MAX to 0. -/
  | attTurnClr (fn value : Nat)
  /-- REG_WRITE (R7): Write to any register without a row of its own, applied per its access codes and range checks. -/
  | regWrite (fn addr width value : Nat)
  /-- LANE_TOKENISE (R212): A tokeniser lane finishes tokenising an appended text or TOK_ENCODE. -/
  | laneTokenise (cluster : Nat)
  /-- CHAIN_STEP (R99): A cluster's chain-hash lane finishes one CHAIN key. -/
  | chainStep (cluster : Nat)
  /-- DIR_SEARCH_SLOT (R107): A lookup's mask-0 search takes its slot, moves its reference and may end the walk. -/
  | dirSearchSlot (part : Nat) (bad : Bool)
  /-- LOOKUP_TAIL_SLOT (R107): A lookup's single tail slot compares the tail and takes its reference. -/
  | lookupTailSlot (part : Nat) (bad : Bool)
  /-- PUBLISH_SLOT (R112): One slot step of a publish: reserve, adopt, write, link or validate. -/
  | publishSlot (part : Nat)
  /-- RETIRE_SLOT (R120): One slot step of a retirement or domain sweep. -/
  | retireSlot (part : Nat)
  /-- DIR_REBUILD_SLOT (R122): One slot of the rebuild of a partition's keys after recomposition. -/
  | dirRebuildSlot (part : Nat)
  /-- FAULT_SCAN_ENTRY (R119): Every 8 bulk-window ticks the engine scans one entry for holders of a faulted record. -/
  | faultScanEntry (part : Nat)
  /-- SCRAPER_RECLAIM_T0 (R79): A slice below T0_LOW starts demotions until T0_HIGH. -/
  | scraperReclaimT0 (part : Nat)
  /-- SCRAPER_RECLAIM_T1 (R80): A tier-1 share below T1_LOW starts parks or strips of victims until T1_HIGH. -/
  | scraperReclaimT1 (part : Nat)
  /-- SCRAPER_COMMIT (R81): The scraper commits a victim choice as one step of the session-table engine. -/
  | scraperCommit (part : Nat)
  /-- PRIMER_QUEUE_REVIVE (R84): At the start beat, and once watermarks allow, the primer queues a revive in queue C. -/
  | primerQueueRevive (part : Nat)
  /-- FLOAT_UNIT (R161): The float starts one page unit of a queued move in a bulk window. -/
  | floatUnit (part : Nat) (check : Nat)
  /-- FLOAT_SWITCH (R74): A block's copy ends, reads drain, the descriptor is switched and the source released. -/
  | floatSwitch (part : Nat)
  /-- MIRROR_FLUSH (R49): The token-log staging buffer is written to the mirror tier at segment fill, RUNNING exit or 64
  beats. `read`: the segment (number `seg`) or root of a copy (1 the primary, 2 the mirror) the flush reads back, if any (R50). -/
  | mirrorFlush (sess copy seg : Nat) (read : Bytes)
  /-- TOKLOG_REMIRROR (R50): A lost token-log copy finishes being rewritten and TOKLOG_DEGRADED clears. -/
  | toklogRemirror (sess : Nat)
  /-- SEARCH_CHANNEL_SCAN (R304): A channel engine finishes its binary scan and rerank for a search. -/
  | searchChannelScan (serial channel : Nat) (lost : List Nat) (cat : Bool)
  /-- RET_MERGE (R306): The merge invocation combines channel lists, filters and writes the search result. -/
  | retMerge (serial : Nat)
  /-- INDEX_COMMIT (R301): Records are programmed and COMMIT_SEQ advances; the write completes at its last record. -/
  | indexCommit (part ix check : Nat)
  /-- COMPACT_CELL_SWITCH (R309): Compaction switches one cell's page map after writing new pages. `bad`: a page map, a
  catalogue entry or a retire entry fails its CRC (R311). -/
  | compactCellSwitch (part ix : Nat) (bad : Bool)
  /-- PART_CREATE_COMMIT (R371): At tick 0 of the next beat the new partition's first beat starts and PART_CREATE completes.
  -/
  | partCreateCommit
  /-- PART_DESTROY_DONE (R372): Once everything is released the bindings go, state is zeroed and the composition sealed. -/
  | partDestroyDone
  /-- RECOMPOSE_QUIESCE (R378): At tick 0 the concerned partitions stop admitting steps. -/
  | recomposeQuiesce
  /-- RECOMPOSE_EVACUATE (R378): When no step runs, leaving clusters are evacuated and sessions rebound. -/
  | recomposeEvacuate
  /-- RECOMPOSE_SWITCH (R378): When evacuation ends the cluster sets change and SRAM is zeroed. -/
  | recomposeSwitch
  /-- RECOMPOSE_COMMIT (R378): At tick 0 of the next beat the new composition is in force and PART_RECOMPOSE completes. -/
  | recomposeCommit
  /-- CKPT_TIMER_HALF (R418): The timer half of the checkpoint trigger reaches TRIG_MS and fires. -/
  | ckptTimerHalf
  /-- CKPT_BEAT_HALF (R418): The beat half of the checkpoint trigger reaches TRIG_BEATS and fires. -/
  | ckptBeatHalf
  /-- CKPT_DEFERRED_START (R419): A deferred trigger starts its checkpoint at the first beat after the blocking work ends.
  -/
  | ckptDeferredStart
  /-- CKPT_CUT (R420): The checkpoint's cut falls and copy-on-change of entries and records begins. `bad`: the
  token-log copies that fail their CRC as they are read, as session and copy (1 the primary, 2 the mirror; R50). -/
  | ckptCut (bad : List (Nat × Nat))
  /-- CKPT_DONE (R424): The checkpoint's shards and manifest are written, or it fails. -/
  | ckptDone (fails : Bool)
  /-- RESTORE_COMMIT (R427): All shards verified and staged state becomes visible at tick 0 of the next beat. -/
  | restoreCommit
  /-- CDR_LOCK_GAINED (R466): The clock port's CDR gains lock, which sets REC_LOCK and starts the 1,000,000-tick lock count
  toward auto-return. -/
  | cdrLockGained (port : Nat)
  /-- JTAG_ATTACH (R400): A JTAG probe attaches, which sets SEC_STATE.JTAG_ATTACHED and JTAG_SEEN, or is refused while
  JTAG_LOCK is 1. -/
  | jtagAttach
  /-- JTAG_DETACH (R412): A JTAG probe detaches and SEC_STATE.JTAG_ATTACHED clears. -/
  | jtagDetach
  /-- COMPUTE_DIE_LOST (R434): A compute die or its bonded DRAM is lost, which sets DIE_LOST, strips or faults the affected
  sessions and stops decode admission (full span) or quiesces the partitions that hold it. -/
  | computeDieLost (die : Nat)
  /-- HAWK_FAILURE (R435): The hawk cores stop, so the heartbeat, meters and timer half of the checkpoint trigger stop and
  mailboxes stay full. -/
  | hawkFailure
  /-- FLASH_CHANNEL_LOST (R432): A flash channel fails, so every session with a parked block is stripped and token-log
  mirrors on the channel are rewritten. -/
  | flashChannelLost (channel : Nat)
  /-- INPUT_OV_RELEASE (R458): After an overvoltage lockout the input falls below 57.0 V and the module may power up again.
  -/
  | inputOvRelease
  deriving DecidableEq, Repr

end Sys2Proof
end

