-- ==== Sys2Proof/Decode.lean ====
section
/-! DEFINITION. The words of the table. The table gives no row any bits: a block takes commands, and no word spells one. -/

namespace Sys2Proof

/-- The command a word spells by the table's bits: the table gives bits to no row, so none. DESIGN CHOICE: 2. -/
def decodeTableWord (_nbits _w : Nat) : Option Instr := none

end Sys2Proof
end

