-- ==== Sys2Proof/Config.lean ====
section
/-! DEFINITION. What the spec leaves open: free values, opaque constants with no body. Nothing in the package can evaluate one or
prove a value of it. Each is applied to a number the state draws (`State.free`) or to the operands it depends on. -/

namespace Sys2Proof.Config

/-- The unit's serial number (19_module R493): fixed at manufacture, no value in the spec. -/
opaque serial : Word

/-- The unit's key group code (00_scope R4). -/
opaque keyGroup : W32

/-- The first of the unit's sixteen link MAC addresses (13_cunis_link R364). -/
opaque macBase : Nat

/-- The PCI vendor ID (12_host_interface R317). -/
opaque vendorId : Nat

/-- The unit's management key MK, 32 bytes (15_security R392). -/
opaque mgmtKey : Bytes

/-- The unit's identity public key as SEC_IDPUB0 to SEC_IDPUB7 show it. -/
opaque idPub : Nat → W32

/-- A random or unspecified number drawn by the device: secrets, nonces, instances, tier addresses it is free to choose. -/
opaque pick : Nat → Nat

/-- The content of a scalar register an entry leaves undefined (09_scaesh_model R240). -/
opaque xReg : Nat → Nat → Word

/-- The content of a vector register an entry leaves undefined. -/
opaque vReg : Nat → Nat → BitVec 2048

/-- The content of a predicate register an entry leaves undefined. -/
opaque pReg : Nat → Nat → BitVec 256

/-- Which of the values within the stated error an approximate operation gives (exp, log, reciprocal: relative error 2^-21). -/
opaque approx : Nat → Nat → Nat

/-- Which two terms an accumulation of unspecified grouping adds next (05_attention R152). -/
opaque order : Nat → Nat → Nat

/-- Whether a signature verifies under a key (15_security R401, R405): the algorithm's values are outside the spec. -/
opaque sigOk : Bytes → Bytes → Bytes → Bool

/-- The public key of a vendor root key (15_security R401): fixed at manufacture, no value in the spec. -/
opaque vendorKey : Nat → Bytes

/-- STDPROG_DIGEST of the standard programs bundled with the firmware of a digest (15_security R409): their images are not in the spec. -/
opaque stdDigest : Bytes → Bytes

/-- A field of a management request whose place in the payload the spec does not state (17_management R445), by service, operation and
field number. -/
opaque reqField : Nat → Nat → Nat → Bytes → Nat

/-- The NONCE of an attestation request (15_security R408), wherever it stands in the payload. -/
opaque reqNonce : Bytes → Bytes

/-- PREDICT_DAYS of a wear entry where the quotient of R454 does not fit its 16 bits. -/
opaque manyDays : Nat → Nat

/-- The signature the identity key puts on a report (15_security R409). -/
opaque sign : Bytes → Bytes

/-- The unit storage key and the key group key (15_security R392): drawn or injected at manufacture, no value in the spec. -/
opaque usk : Bytes

/-- The key group key. -/
opaque kgk : Bytes

/-- AES-256-XTS of one data unit (15_security R395 to R397, IEEE 1619): key, tweak as a number, plaintext. -/
opaque xts : Bytes → Nat → Bytes → Bytes

/-- AES-256-GCM (16_checkpoint R422): key, IV, additional authenticated data, plaintext; the ciphertext followed by the 16-byte tag. -/
opaque gcm : Bytes → Bytes → Bytes → Bytes → Bytes

end Sys2Proof.Config
end

