-- ==== Sys2Proof/Machine/Bits.lean ====
section
/-! DEFINITION. Bit fields, byte order and sign extension: the one place where bytes become numbers (00_scope R5). -/

namespace Sys2Proof.Machine

/-- Bits hi..lo of a number. -/
def bits (n lo width : Nat) : Nat := n / 2 ^ lo % 2 ^ width

/-- One bit of a number. -/
def bitAt (n i : Nat) : Bool := n / 2 ^ i % 2 == 1

/-- A Boolean as a bit. -/
def b2n (b : Bool) : Nat := if b then 1 else 0

/-- A number with a bit field replaced. -/
def setBits (n lo width v : Nat) : Nat := n - bits n lo width * 2 ^ lo + v % 2 ^ width * 2 ^ lo

/-- The number of a little-endian byte string (R5). -/
def leNat : Bytes → Nat
  | [] => 0
  | b :: t => b.toNat + 256 * leNat t

/-- The little-endian bytes of a number, a given count of them (R5). -/
def natLe : Nat → Nat → Bytes
  | 0, _ => []
  | k + 1, n => byte n :: natLe k (n / 256)

/-- The bytes of a slice; bytes past the end are absent. -/
def slice (b : Bytes) (off len : Nat) : Bytes := (b.drop off).take len

/-- A little-endian field of a byte string; absent bytes read as 0. -/
def field (b : Bytes) (off len : Nat) : Nat := leNat (slice b off len)

/-- The byte at an offset, 0 where absent. -/
def byteAt (b : Bytes) (i : Nat) : Nat := (b.getD i 0).toNat

/-- A big-endian number, for the standards that use that order. -/
def beNat (b : Bytes) : Nat := b.foldl (fun n x => n * 256 + x.toNat) 0

/-- The big-endian bytes of a number. -/
def natBe (k n : Nat) : Bytes := (natLe k n).reverse

/-- A 64-bit word as a signed integer. -/
def sgn (w : Word) : Int := w.toInt

/-- A number of `w` bits sign-extended to 64 bits. -/
def sext (w n : Nat) : Word := if bitAt n (w - 1) then word (2 ^ 64 - 2 ^ w + n % 2 ^ w) else word (n % 2 ^ w)

/-- Replace bytes of a buffer from an offset on; bytes past the end are dropped. -/
def putSlice (b : Bytes) (off : Nat) (v : Bytes) : Bytes :=
  (b.take off ++ v ++ b.drop (off + v.length)).take b.length

/-- A list brought to a length with a filler, or cut to it. -/
def fit {α : Type} (d : α) (n : Nat) (l : List α) : List α := (l ++ List.replicate (n - l.length) d).take n

/-- Cut a list into pieces of a length. -/
def chunks {α : Type} (k : Nat) : Nat → List α → List (List α)
  | 0, _ => []
  | n + 1, l => if l.isEmpty then [] else l.take k :: chunks k n (l.drop k)

/-- Whether a little-endian field reads all ones: never a valid count (00_scope R6). -/
def allOnes (n width : Nat) : Bool := n == 2 ^ width - 1

end Sys2Proof.Machine
end

