-- ==== Sys2Proof/Machine/Crypto.lean ====
section
/-! DEFINITION. The checks and functions the spec takes from standards: CRC-32C, SHA-256, HMAC-SHA-256, Philox4x32-10. -/

namespace Sys2Proof.Machine

/-- One bit of the reflected CRC-32C division, polynomial 0x82F63B78. -/
def crcBit (c : Nat) : Nat := if c % 2 = 1 then Nat.xor (c / 2) 0x82F63B78 else c / 2

/-- One byte of CRC-32C. -/
def crcByte (c : Nat) (b : Byte) : Nat :=
  crcBit (crcBit (crcBit (crcBit (crcBit (crcBit (crcBit (crcBit (Nat.xor c b.toNat))))))))

/-- CRC-32C running over bytes, without the initial and final inversion. -/
def crcRun (c : Nat) (b : Bytes) : Nat := b.foldl crcByte c

/-- CRC-32C of a byte string (initial value and final inversion all ones). -/
def crc32c (b : Bytes) : Nat := Nat.xor (crcRun 0xFFFFFFFF b) 0xFFFFFFFF

/-- One byte of a reflected CRC-32 with the IEEE 802.3 polynomial. -/
def crc32Byte (c : Nat) (b : Byte) : Nat :=
  (List.range 8).foldl (fun c _ => if c % 2 = 1 then Nat.xor (c / 2) 0xEDB88320 else c / 2) (Nat.xor c b.toNat)

/-- The CRC-32 of an Ethernet frame's FCS (13_cunis_link R341). -/
def crc32 (b : Bytes) : Nat := Nat.xor (b.foldl crc32Byte 0xFFFFFFFF) 0xFFFFFFFF

/-- One byte of CRC-16, polynomial 0x1021, most significant bit first. -/
def crc16Byte (c : Nat) (b : Byte) : Nat :=
  (List.range 8).foldl (fun c _ => if 0x8000 ≤ c then Nat.xor (c * 2 % 65536) 0x1021 else c * 2) (Nat.xor c (b.toNat * 256))

/-- The CRC-16 of a flit header (13_cunis_link R347). -/
def crc16 (b : Bytes) : Nat := b.foldl crc16Byte 0xFFFF

/-- The 64 round constants of SHA-256 (FIPS 180-4 4.2.2) as one number, the first in the top 32 bits. Each literal holds sixteen. -/
def sha256Rounds : Nat :=
  ((0x428a2f9871374491b5c0fbcfe9b5dba53956c25b59f111f1923f82a4ab1c5ed5d807aa9812835b01243185be550c7dc372be5d7480deb1fe9bdc06a7c19bf174 * 2 ^ 512 +
    0xe49b69c1efbe47860fc19dc6240ca1cc2de92c6f4a7484aa5cb0a9dc76f988da983e5152a831c66db00327c8bf597fc7c6e00bf3d5a7914706ca635114292967) * 2 ^ 512 +
    0x27b70a852e1b21384d2c6dfc53380d13650a7354766a0abb81c2c92e92722c85a2bfe8a1a81a664bc24b8b70c76c51a3d192e819d6990624f40e3585106aa070) * 2 ^ 512 +
    0x19a4c1161e376c082748774c34b0bcb5391c0cb34ed8aa4a5b9cca4f682e6ff3748f82ee78a5636f84c878148cc7020890befffaa4506cebbef9a3f7c67178f2

/-- The starting hash value (FIPS 180-4 5.3.3) as one 256-bit number, a in the top word and h in the lowest. -/
def sha256Start : Nat :=
  0x6a09e667bb67ae853c6ef372a54ff53a510e527f9b05688c1f83d9ab5be0cd19

/-- A 32-bit number turned right by n places: the low half of its doubling, moved right. -/
def turn (x n : Nat) : Nat := x * (2 ^ 32 + 1) / 2 ^ n % 2 ^ 32

/-- The schedule after one round: the sixteen words still to come as one 512-bit number, the next one on top. -/
def sha256Slide (w : Nat) : Nat :=
  let at_ : Nat → Nat := fun i => bits w (480 - 32 * i) 32
  let low := Nat.xor (Nat.xor (turn (at_ 1) 7) (turn (at_ 1) 18)) (at_ 1 / 2 ^ 3)
  let high := Nat.xor (Nat.xor (turn (at_ 14) 17) (turn (at_ 14) 19)) (at_ 14 / 2 ^ 10)
  w % 2 ^ 480 * 2 ^ 32 + (at_ 0 + low + at_ 9 + high) % 2 ^ 32

/-- One round on the 256-bit hash `v` with a round constant and the schedule's next word: every word moves down one place, the fifth
gains the first sum, the top is both sums. -/
def sha256Turn (v k w : Nat) : Nat :=
  let at_ : Nat → Nat := fun i => bits v (224 - 32 * i) 32
  let pick := Nat.xor (Nat.land (at_ 4) (at_ 5)) (Nat.land (2 ^ 32 - 1 - at_ 4) (at_ 6))
  let most := Nat.xor (Nat.xor (Nat.land (at_ 0) (at_ 1)) (Nat.land (at_ 0) (at_ 2))) (Nat.land (at_ 1) (at_ 2))
  let first := at_ 7 + Nat.xor (Nat.xor (turn (at_ 4) 6) (turn (at_ 4) 11)) (turn (at_ 4) 25) + pick + k + w
  let second := Nat.xor (Nat.xor (turn (at_ 0) 2) (turn (at_ 0) 13)) (turn (at_ 0) 22) + most
  (first + second) % 2 ^ 32 * 2 ^ 224 + setBits (v / 2 ^ 32) 96 32 (at_ 3 + first)

/-- The rounds from `64 - n` on. -/
def sha256Run : Nat → Nat → Nat → Nat
  | 0, v, _ => v
  | n + 1, v, w => sha256Run n (sha256Turn v (bits sha256Rounds (32 * n) 32) (w / 2 ^ 480)) (sha256Slide w)

/-- The hash after a block: each word of the old one added to the word the rounds gave. -/
def sha256Block (v block : Nat) : Nat :=
  let r := sha256Run 64 v block
  sumOf8 (fun i => (bits v (32 * i) 32 + bits r (32 * i) 32) % 2 ^ 32 * 2 ^ (32 * i))
where
  /-- The sum of eight terms. -/
  sumOf8 (f : Nat → Nat) : Nat := (List.range 8).foldl (fun n i => n + f i) 0

/-- SHA-256 of a byte string, 32 bytes: the message as one number, closed by a 1 bit, zeros to a whole number of blocks, and its bit
length in the last 64 bits (FIPS 180-4 5.1.1). -/
def sha256 (b : Bytes) : Bytes :=
  let blocks := (b.length + 72) / 64
  let m := (2 * beNat b + 1) * 2 ^ (512 * blocks - 8 * b.length - 1) + 8 * b.length
  natBe 32 ((List.range blocks).foldl (fun v i => sha256Block v (bits m (512 * (blocks - 1 - i)) 512)) sha256Start)

/-- HMAC-SHA-256 (RFC 2104) under a key. -/
def hmacSha256 (key msg : Bytes) : Bytes :=
  let k0 := if key.length > 64 then sha256 key else key
  let k := fit 0 64 k0
  let ipad := k.map (· ^^^ 0x36)
  let opad := k.map (· ^^^ 0x5c)
  sha256 (opad ++ sha256 (ipad ++ msg))

/-- One Philox4x32 round on the counter words with the round's key words. -/
def philoxRound (c : W32 × W32 × W32 × W32) (k : W32 × W32) : W32 × W32 × W32 × W32 :=
  let p0 := c.1.toNat * 0xD2511F53
  let p1 := c.2.2.1.toNat * 0xCD9E8D57
  (BitVec.ofNat 32 (p1 / 2 ^ 32) ^^^ c.2.1 ^^^ k.1, BitVec.ofNat 32 p1,
   BitVec.ofNat 32 (p0 / 2 ^ 32) ^^^ c.2.2.2 ^^^ k.2, BitVec.ofNat 32 p0)

/-- Philox rounds, the key raised by the Weyl constants between rounds. -/
def philoxRun : Nat → W32 × W32 × W32 × W32 → W32 × W32 → W32 × W32 × W32 × W32
  | 0, c, _ => c
  | n + 1, c, k => philoxRun n (philoxRound c k) (k.1 + 0x9E3779B9, k.2 + 0xBB67AE85)

/-- Philox4x32-10 of a counter and a key (07_sampling R194). -/
def philox (c0 c1 c2 c3 k0 k1 : Nat) : W32 × W32 × W32 × W32 :=
  philoxRun 10 (BitVec.ofNat 32 c0, BitVec.ofNat 32 c1, BitVec.ofNat 32 c2, BitVec.ofNat 32 c3)
    (BitVec.ofNat 32 k0, BitVec.ofNat 32 k1)

/-- The bytes of an ASCII string. -/
def ascii (s : String) : Bytes := s.toList.map (fun c => byte c.toNat)

/-- The length of a signature block (15_security R401). -/
def sigLen : Nat := 7872

/-- Whether a signature block verifies (R401) for a signer, a key and a context string: over SHA-256 of every byte before it and
its own first 16 bytes. -/
def sigBlockOk (signer : Nat) (key : Bytes) (context : String) (before block : Bytes) : Bool :=
  block.length == sigLen && byteAt block 0 % 16 == 1 && byteAt block 1 == 1 && byteAt block 2 == signer &&
    Config.sigOk key (ascii context ++ sha256 (before ++ block.take 16)) (block.drop 16)

end Sys2Proof.Machine
end

