-- ==== Sys2Proof/Machine/State.lean ====
section
/-! DEFINITION. The state of the ZV9620: everything the spec gives the machine, as plain data, block by block; the reasons a
step can stop; the state right after reset. -/

namespace Sys2Proof.Machine

/-! ### Status codes (12_host_interface R329) -/

/-- The master table of status codes. -/
inductive Status where
  | ok | short | stopped | grammarDead | limit | cancelled
  | badSession | badState | lenOverLimit | lenOverPages | noSpace | policed | domainDenied
  | versionUnsupported | tierFault | stallTimeout | formatInvalid | untokenisable
  | ckptIncomplete | shapeMismatch | digestMismatch | keygroupMismatch
  | secureOnly | locked | confidential
  deriving DecidableEq, Repr

/-- The code of a status. -/
def Status.code : Status → Nat
  | .ok => 0x00 | .short => 0x01 | .stopped => 0x02 | .grammarDead => 0x03 | .limit => 0x04 | .cancelled => 0x05
  | .badSession => 0x10 | .badState => 0x11 | .lenOverLimit => 0x12 | .lenOverPages => 0x13 | .noSpace => 0x14
  | .policed => 0x15 | .domainDenied => 0x16 | .versionUnsupported => 0x17 | .tierFault => 0x18
  | .stallTimeout => 0x19 | .formatInvalid => 0x1A | .untokenisable => 0x1B
  | .ckptIncomplete => 0x20 | .shapeMismatch => 0x21 | .digestMismatch => 0x22 | .keygroupMismatch => 0x23
  | .secureOnly => 0x30 | .locked => 0x31 | .confidential => 0x32

/-- The ordering codes of the part (00_scope R1). -/
inductive Order where
  | f64 | f16 | n
  deriving DecidableEq, Repr

/-! ### Host interface (12_host_interface) -/

/-- One queue set of a function: ring registers, doorbell values, entries and units in use, phases,
unsignalled entries (R319, R320, R328, R332). -/
structure QueueSet where
  cmdBase : Nat := 0
  cplBase : Nat := 0
  emitBase : Nat := 0
  cmdLog2 : Nat := 0
  cplLog2 : Nat := 0
  emitLog2 : Nat := 0
  en : Bool := false
  busy : Bool := false
  cplVec : Nat := 0
  emitVec : Nat := 0
  coalCnt : Nat := 0
  coalT : Nat := 0
  cmdHead : Nat := 0
  cmdTail : Nat := 0
  cplTail : Nat := 0
  emitTail : Nat := 0
  cplHead : Nat := 0
  emitHead : Nat := 0
  cplUsed : Nat := 0
  emitUsed : Nat := 0
  cplPhase : Bool := false
  emitPhase : Bool := false
  cplUnsig : Nat := 0
  emitUnsig : Nat := 0
  deriving DecidableEq, Repr

/-- A command the device has fetched and passed through the common checks; `qk` = function × 64 + queue set; `fresh` while its owning chapter's
checks are made (12 R323). -/
structure Cmd where
  serial : Nat
  qk : Nat
  part : Nat
  raw : Bytes
  started : Bool := false
  fresh : Bool := false
  deriving DecidableEq, Repr

/-- A completion entry before its 32 bytes are laid out (R325). -/
structure Cpl where
  kind : Nat
  status : Status
  cmdHead : Nat
  cid : Nat
  handle : Nat := 0
  res0 : Nat := 0
  res1 : Nat := 0
  res2 : Nat := 0
  phase : Bool
  deriving DecidableEq, Repr

/-- One mailbox page (R334). -/
structure Mailbox where
  data : List W32 := List.replicate 16 0
  len : Nat := 0
  go : Bool := false
  err : Bool := false
  rlen : Nat := 0
  drop : W32 := 0
  deriving DecidableEq, Repr

/-- One MSI-X table entry and its pending bit (R332). -/
structure MsixVec where
  addr : Nat := 0
  data : Nat := 0
  masked : Bool := true
  pba : Bool := false
  deriving DecidableEq, Repr

/-- One PCIe port: its reset pin, and whether its link is trained or training (R463, R471). -/
structure PciePort where
  perst : Bool := false
  training : Bool := true
  deriving DecidableEq, Repr

/-- The host interface: queue sets by `qk`, commands in flight, mailboxes by port × 64 + n, MSI-X vectors by
function × 128 + vector, the recovery lease and the management-domain reset (R318 to R340). -/
structure HostIf where
  qs : Tab QueueSet := []
  cmds : List Cmd := []
  serial : Nat := 0
  mbx : Tab Mailbox := []
  mbxPend : Tab Word := []
  msix : Tab MsixVec := []
  portA : PciePort := {}
  portB : PciePort := {}
  hb : W32 := 0
  holder : Nat := 0
  age : Nat := 0
  leaseWorb : Nat := 0
  claimedByB : Bool := false
  inReset : Bool := false
  mdrWorb : Nat := 0
  deriving DecidableEq, Repr

/-- One sparse table of 32-bit host-interface values holds the lease counters YK_IGNORED by port. -/
abbrev W32Tab := Tab W32

/-! ### Emit path (07_sampling_and_stencils) -/

/-- A loaded stencil set: its image (R177) and the emit-store pages it takes. -/
structure StencilSet where
  img : Bytes
  pages : Nat
  deriving DecidableEq, Repr

/-- A sampler profile as its image reads (R182, R183); `ver` tells a replaced image from its successor. -/
structure Profile where
  k : Nat := 1
  clamped : Bool := false
  temp : W32 := 0
  topP : W32 := 0x3F800000
  seedMode : Bool := false
  retTopk : Bool := false
  hostTopk : Bool := false
  seed : Nat := 0
  ends : List Nat := []
  bias : List (Nat × W32) := []
  allow : List Nat := []
  pages : Nat := 0
  ver : Nat := 0
  deriving DecidableEq, Repr

/-! ### Sessions (02_sessions) -/

/-- The state of a session (R35). -/
inductive SState where
  | free | opened | hot | running | idle | parked | stripped | reviving | moving | ended | faulted
  deriving DecidableEq, Repr

/-- The code of a session state (R35). -/
def SState.code : SState → Nat
  | .free => 0 | .opened => 1 | .hot => 2 | .running => 3 | .idle => 4 | .parked => 5 | .stripped => 6
  | .reviving => 7 | .moving => 8 | .ended => 9 | .faulted => 10

/-- The policy classes (R31, 03_state_fabric R67). -/
inductive Policy where
  | pinHot | preferHot | normal | cold | stripOk
  deriving DecidableEq, Repr

/-- One token-log entry (R47): TOKEN[17:0] and SRC (0 appended, 1 sampled, 2 dead token). -/
structure LogTok where
  tok : Nat
  src : Nat
  deriving DecidableEq, Repr

/-- One block descriptor of a page list (03_state_fabric R63). `blk` names the data the page array holds: the model's own
identity of a block's content, which a move does not change. -/
structure Desc where
  valid : Bool := false
  tier : Nat := 0
  cluster : Nat := 0
  shared : Bool := false
  ix : Nat := 0
  fill : Nat := 0
  hdrT : Bool := false
  base : Nat := 0
  hdr : Nat := 0
  blk : Nat := 0
  deriving DecidableEq, Repr

/-- A leaf pointer of a top page (03_state_fabric R64): LEAF_T, and LEAF in 4 KiB units. USED and the CRC follow from the page list. -/
structure Leaf where
  t1 : Bool := false
  addr : Nat := 0
  deriving DecidableEq, Repr

/-- Where one copy of a token log lies (R48, R495), in 4 KiB units of its region: the root, the segment table and its length, the
segments in order. The mirror's root has its own fixed place and lists none here. -/
structure LogCopy where
  root : Nat := 0
  tab : Nat := 0
  tabLen : Nat := 0
  segs : List Nat := []
  deriving DecidableEq, Repr

/-- A host command that a park, a revive, a lookup or a publish will complete later, by its serial number. -/
inductive Waiter where
  | none
  | cmd (serial : Nat)
  deriving DecidableEq, Repr

/-- The open generate of a session (R41): the command, tokens logged, WAKE_AFTER. -/
structure Gen where
  serial : Nat
  qk : Nat
  logged : Nat := 0
  wakeAfter : Nat := 0
  quiet : Bool := false
  deriving DecidableEq, Repr

/-- A command a session holds until its park or revive ends (R36, R46): the fetched command, generate or append, and
the bytes its buffer gave. -/
structure Held where
  serial : Nat
  isGen : Bool
  data : Bytes
  deriving DecidableEq, Repr

/-- A ranked result (07_sampling R191, R192): K_EFF, N, the two sums, the N entries in rank order as index, y and z. -/
structure Ranked where
  k : Nat
  n : Nat
  sel : W32
  left : W32
  entries : List (Nat × W32 × W32) := []
  deriving DecidableEq, Repr

/-- The emit path's work on a session's step: LOGITS pieces taken so far with the candidates and their y, the ranked result, the
token returned, whether stencil apply waits for its mask (07_sampling R186 to R195). -/
structure EmitStep where
  port : Nat := 0
  pieces : Nat := 0
  got : Nat := 0
  total : Nat := 0
  accEnd : Bool := false
  cands : List (Nat × W32) := []
  complete : Bool := false
  ranked : Option Ranked := none
  drawn : Option Nat := none
  waitStencil : Bool := false
  deriving DecidableEq, Repr

/-- A session's step in the roster (06_beat R164 to R167): what was admitted, whether it is carried, the open stall with the
beat it opened in and the causes counted (03 R87, R88), the sampler profile at admission (07 R175), the emit path's work. -/
structure InStep where
  emitOnly : Bool := false
  position : Nat := 0
  beat : Nat := 0
  carried : Bool := false
  stall : Option Nat := none
  stallBeat : Nat := 0
  stallSeen : List Nat := []
  profile : Profile := {}
  committed : Bool := false
  emit : EmitStep := {}
  deriving DecidableEq, Repr

/-- The fields of an entry's words W0 to W7 (R31). W7's CRC32C is computed from the rest when the entry is read; WAKE_BEAT
keeps all 48 bits of the primer's wake queue and SEAM_HELD is the length of the held seam bytes. -/
structure Entry where
  ver : Nat := 0
  st : SState := .free
  part : Nat := 0
  prio : Nat := 0
  domain : Nat := 0
  model : Nat := 0
  policy : Policy := .pinHot
  stoptext : Bool := false
  noLearn : Bool := false
  wakeSet : Bool := false
  cancelReq : Bool := false
  rebuild : Bool := false
  degraded : Bool := false
  conf : Bool := false
  kvsvc : Bool := false
  heldCmd : Bool := false
  length : Nat := 0
  pend : Nat := 0
  maxnew : Nat := 0
  pageRoot : Nat := 0
  home : Nat := 0
  deadline : Nat := 0
  wake : Nat := 0
  stencilSet : Nat := 0
  stencilState : Nat := 0
  profile : Nat := 0
  stopSet : Nat := 0
  undercoatIx : Nat := 0
  coatPos : Nat := 0
  tokPtr : Nat := 0
  tokPri : Nat := 0
  tokMir : Nat := 0
  seq : Nat := 0
  lastStatus : Nat := 0
  gen : Nat := 0
  deriving DecidableEq, Repr

/-- A session (`priCl` and `mirCl` are the clusters whose tier-1 shares hold the token-log copies, `pri` and `mir` where the copies lie,
`lostCopy` 1 or 2 the copy that is lost, `badSegs` the segments of it that failed their check, none where it is lost whole, `otherBad`
those of the other copy, `lateSeam` and `lateUtf8` the bytes a waiting LAST record releases): its entry, its owner bytes (R32), and what the device keeps for it outside the entry. -/
structure Sess extends Entry where
  owner : Bytes := []
  log : List LogTok := []
  mirrored : Nat := 0
  mirrorBeat : Nat := 0
  pages : List Desc := []
  leaves : List Leaf := []
  priCl : Nat := 0
  mirCl : Nat := 0
  pri : LogCopy := {}
  mir : LogCopy := {}
  lostCopy : Nat := 0
  badSegs : List Nat := []
  otherBad : List Nat := []
  marks : Tab Nat := []
  lastUse : Nat := 0
  held : Option Held := none
  open? : Option Gen := none
  step : Option InStep := none
  leftOut : Nat := 0
  lastStep : Nat := 0
  seam : Bytes := []
  utf8 : Bytes := []
  lateSeam : Bytes := []
  lateUtf8 : Bytes := []
  exporting : Bool := false
  closeSerial : Nat := 0
  learnEnded : Bool := false
  busyCmd : Bool := false
  deriving DecidableEq, Repr

/-! ### State fabric (03_state_fabric) -/

/-- The float's five queues in their order of service (R76). -/
inductive FQueue where
  | a | b | c | d | e
  deriving DecidableEq, Repr

/-- What a float request moves (R76): a revive, a park, a demotion, a promotion, a return, a copy-on-extend, a publish's tail
copy, the release of an ended session, the rewrite of a lost token-log copy, the reads of an export (13_cunis_link R360). -/
inductive FKind where
  | revive | park | demote | promote | give | copyExtend | pubTail | release | remirror | send
  deriving DecidableEq, Repr

/-- Where a block's copy goes: tier, cluster, page-array address, header tier and address. -/
structure Place where
  tier : Nat
  cluster : Nat
  base : Nat
  hdrT : Bool
  hdr : Nat
  deriving DecidableEq, Repr

/-- One float request. `onRec` says that `sess` is a directory record's IX (an undercoat block); `units` counts the page units
copied (the header first), `until_` is the tick at which the unit in progress ends, `retried` that the one second placement of R78 is used, `blk` the data of a fresh copy,
`head` that an abandoned unit put the request at the head of its queue (06_beat R161). -/
structure FReq where
  queue : FQueue
  kind : FKind
  beat : Nat
  part : Nat
  onRec : Bool := false
  sess : Nat
  block : Nat
  start : Nat := 0
  prio : Nat := 0
  dst : Option Place := none
  units : Nat := 0
  need : Nat := 0
  running : Bool := false
  until_ : Nat := 0
  copied : Bool := false
  retried : Bool := false
  blk : Nat := 0
  head : Bool := false
  deriving DecidableEq, Repr

/-- The content of a block: rows by (layer, K or V, head, position), and scales by (layer, K or V, head), as Nat keys
(05_attention R128, R129). A row is its element codes. -/
structure KvBlk where
  rows : Tab (List Nat) := []
  scales : Tab W32 := []
  deriving DecidableEq, Repr

/-- One tier-3 host window (R62, R93). -/
structure HostWin where
  addr : Nat := 0
  sizeMib : Nat := 0
  port : Nat := 0
  en : Bool := false
  part : Nat := 0
  deriving DecidableEq, Repr

/-- The state fabric: block contents by identity, float requests, host windows, stack fault counts, dies without tier 1, the
clusters whose tier-0 slice or tier-1 share the scraper is reclaiming, the victim it has chosen in a partition (R79 to R81), the
flash channels, by partition × 32 + channel, whose buffers the float waits for until a later bulk window (R86). -/
structure Fabric where
  kv : Tab KvBlk := []
  nextBlk : Nat := 1
  float : List FReq := []
  wins : Tab HostWin := []
  stackFaults : Tab Nat := []
  scrap0 : List Nat := []
  scrap1 : List Nat := []
  choice : Tab (Nat × SState) := []
  dieT1Out : List Nat := []
  chanWait : List Nat := []
  deriving DecidableEq, Repr

/-! ### Undercoat directory (04_undercoat_directory) -/

/-- The state of an entry record (R105). -/
inductive RState where
  | free | writing | valid | retired | faulted
  deriving DecidableEq, Repr

/-- An entry record (R105); CRC32C is computed when the record is read. `home` is the home
cluster of the session that created the entry, from which its stripe cluster follows (R106); `blk` names the block's data. -/
structure Rec where
  st : RState := .free
  published : Bool := false
  tail : Bool := false
  fill : Nat := 0
  depth : Nat := 0
  refs : Nat := 0
  part : Nat := 0
  ver : Nat := 0
  domain : Nat := 0
  model : Nat := 0
  parent : Nat := 0
  root : Bool := false
  tailSet : Bool := false
  tailIx : Nat := 0
  tier : Nat := 0
  cluster : Nat := 0
  hdrT : Bool := false
  base : Nat := 0
  hdr : Nat := 0
  lastUse : Nat := 0
  chain : Nat := 0
  home : Nat := 0
  blk : Nat := 0
  deriving DecidableEq, Repr

/-- A search slot (R101); `valid` is false while a publish or rebuild writes it. -/
structure Slot where
  domain : Nat
  model : Nat
  parent : Nat
  chain : Nat
  ix : Nat
  valid : Bool := true
  deriving DecidableEq, Repr

/-- What a chain-hash lane computes for a session (R99, R107, R114). -/
inductive LaneKind where
  | chain | tail | learn
  deriving DecidableEq, Repr

/-- A request in a cluster's chain-hash lane. -/
structure LaneReq where
  sess : Nat
  kind : LaneKind
  deriving DecidableEq, Repr

/-- A lookup's phase: walking full blocks, waiting for the tail's key, waiting for the tail slot. -/
inductive WalkPhase where
  | walk | tailKey | tailSlot
  deriving DecidableEq, Repr

/-- A lookup in progress (R107, R108): the session, the command it answers, the logged count it covers, the next block to
search, the chain value of the deepest hit, keys computed and not yet searched, the deepest hit, the hits so far. -/
structure Walk where
  sess : Nat
  serial : Nat
  resume : Bool
  n : Nat
  b : Nat := 0
  chain : Nat
  keys : List Nat := []
  laneChain : Nat
  laneNext : Nat := 0
  held : Option Nat := none
  hits : List Nat := []
  phase : WalkPhase := .walk
  tailIx : Nat := 0
  tailKey : Nat := 0
  toks : List LogTok := []
  arr : Nat := 0
  deriving DecidableEq, Repr

/-- The next step of a publish (R112). -/
inductive PubStep where
  | wait | reserve (b : Nat) | adopt (b : Nat) | copy | invalidate (b : Nat) | writeRec (b : Nat) | writeKey (b : Nat)
  | writeTail | switch | link | validate (b : Nat) | done
  deriving DecidableEq, Repr

/-- A publish in progress (R112): the entries of blocks 0 to D − 1 (new or existing), the first new depth, the reserved slots,
the tail record, what the session held before the switch, the private blocks kept until the end. -/
structure Pub where
  sess : Nat
  serial : Nat
  part : Nat
  domain : Nat
  model : Nat
  d : Nat
  step : PubStep := .wait
  firstNew : Nat := 0
  chains : List Nat := []
  ixs : List Nat := []
  slots : List Nat := []
  tailIx : Option Nat := none
  tailChain : Nat := 0
  tailPlace : Option Place := none
  tailBlk : Nat := 0
  tailCopied : Bool := false
  saved : Option (List Desc × Nat × Nat) := none
  tailFill : Nat := 0
  kept : List Desc := []
  pointPassed : Bool := false
  switched : Bool := false
  arr : Nat := 0
  deriving DecidableEq, Repr

/-- A retirement in progress (R120): the command it answers (0 for the scraper or a fault), the entries still to take, the
rows still to sweep for a domain, the row to sweep next for what lies below the entry just retired. -/
structure Retire where
  serial : Nat
  part : Nat
  domain : Nat := 0
  model : Nat := 0
  sweepRow : Option Nat := none
  todo : List Nat := []
  below : Option (Nat × Nat) := none
  count : Nat := 0
  arr : Nat := 0
  deriving DecidableEq, Repr

/-- A scan for the holders of a faulted record (R119): the record and the next entry number. -/
structure FaultScan where
  part : Nat
  ix : Nat
  next : Nat
  deriving DecidableEq, Repr

/-- A learning in progress (R114): the session and block whose key the lane computes, or the key computed. -/
structure Learn where
  sess : Nat
  block : Nat
  key : Option Nat := none
  arr : Nat := 0
  deriving DecidableEq, Repr

/-- The undercoat directory. Each request for search slots carries in `arr` the moment it began to wait for its next slot, on the
count `clock`: a partition's slots serve its requests in that order (R103); `rebuildArr` holds it for a partition's rebuild. -/
structure Directory where
  slots : Tab Slot := []
  recs : Tab Rec := []
  lanes : Tab (List LaneReq) := []
  walks : List Walk := []
  pubs : List Pub := []
  retires : List Retire := []
  scans : List FaultScan := []
  learns : List Learn := []
  rebuild : List (Nat × Nat) := []
  rebuildArr : Tab Nat := []
  clock : Nat := 1
  deriving DecidableEq, Repr

/-! ### Attention (05_attention) -/

/-- One entry of a partition's model table: ATT_MODEL_GEOM by field, and ATT_MODEL_SMSCALE (R125, R153). -/
structure ModelEnt where
  layers : Nat := 0
  qheads : Nat := 0
  kvheads : Nat := 0
  headDim : Nat := 0
  kvFmt : Nat := 0
  headroom : Nat := 0
  valid : Bool := false
  smscale : W32 := 0
  vocab : Nat := 0
  deriving DecidableEq, Repr

/-- A KV_APPEND as received (R130): port, VC, body fields and data bytes. -/
structure KvMsg where
  port : Nat
  vc : Nat
  handle : Nat
  pos : Nat
  layer : Nat
  bodyVer : Nat
  count : Nat
  kvIn : Nat
  data : Bytes
  mark : Nat := 0
  cost : Nat := 0
  deriving DecidableEq, Repr

/-- A partial posted and waiting for its partner (R145, 10 R272): its row group, the tree node it waits at, the pages it covers, the
cluster whose merge area holds it and its reference. -/
structure Partial where
  row : Nat
  level : Nat
  node : Nat
  cover : Nat
  cluster : Nat
  ref : Nat
  deriving DecidableEq, Repr

/-- One page of a request's work: cluster, block, first row of its row group, rows (R142, R147). -/
structure AttUnit where
  cluster : Nat
  block : Nat
  row : Nat := 0
  rows : Nat := 1
  deriving DecidableEq, Repr

/-- A Q_SUBMIT in flight (R137 to R149): its fields, the pages not yet dealt, row group and core of each page dealt, the
partials waiting for their partner, output and log-sum-exp bytes of each row group placed; the blocks it still reads of a session that
has lost them; whether a page of it came late (R146); the answer a learning in progress withholds (04 R114). -/
structure QReq where
  id : Nat
  part : Nat
  port : Nat
  vc : Nat
  handle : Nat
  pos : Nat
  layer : Nat
  chunk : Nat
  qFmt : Nat
  wantLse : Bool
  data : Bytes
  arrived : Nat := 0
  todo : List AttUnit := []
  dealt : List (Nat × Nat) := []
  groups : List (Nat × Nat) := []
  parts : List Partial := []
  outs : Tab (Bytes × Bytes) := []
  kept : Tab KvBlk := []
  late : Bool := false
  ready : Option (Bytes × Bool) := none
  deriving DecidableEq, Repr

/-- Attention work queued on a core: a page of a request with its row group, or a merge continuation with the node, cover and the
references of its partials (R142, R147, 10 R272). -/
structure AttItem where
  req : Nat
  block : Nat := 0
  row : Nat := 0
  rows : Nat := 1
  cont : Bool := false
  level : Nat := 0
  node : Nat := 0
  cover : Nat := 1
  ref1 : Nat := 0
  ref2 : Nat := 0
  deriving DecidableEq, Repr

/-- A KV_READ accepted and not yet answered (14_partitions R369): it counts as a read in flight, and carries the rows it reads. -/
structure KvRead where
  port : Nat
  handle : Nat
  sess : Nat
  pos : Nat
  layer : Nat
  count : Nat
  replyVc : Nat
  data : Bytes := []
  deriving DecidableEq, Repr

/-- The attention engines' state: model tables by partition × 256 + model, held KV_APPENDs in order (R133), requests in
flight, the decode and prefill queues of each core. -/
structure Attention where
  models : Tab ModelEnt := []
  reads : List KvRead := []
  held : List KvMsg := []
  reqs : List QReq := []
  nextReq : Nat := 1
  decodeQ : Tab (List AttItem) := []
  prefillQ : Tab (List AttItem) := []
  deriving DecidableEq, Repr

/-! ### Beat, windows and the step scheduler (06_beat_and_windows) -/

/-- A BEAT that passed the checks of R155 and waits for its tick 0. -/
structure PendBeat where
  num : Nat
  period : Nat
  phase0 : Nat
  left : Nat
  deriving DecidableEq, Repr

/-- The window open in a partition (R159, R169). -/
inductive Window where
  | decode | prefill | bulk
  deriving DecidableEq, Repr

/-- The windows of a partition's current beat: lengths d and f of R159, the window open, whether SCHED_OVERRUN has counted
this beat. -/
structure PWin where
  d : Nat := 0
  f : Nat := 0
  win : Window := .bulk
  overrun : Bool := false
  deriving DecidableEq, Repr

/-- The roster of a partition's beat (R166): session numbers in order, and whether it is fixed and sent. -/
structure Roster where
  steps : List Nat := []
  fixed : Bool := true
  ctrlEnd : List Nat := []
  deriving DecidableEq, Repr

/-- The beat unit (R155 to R172). `synthRun` counts synthetic beats in a row; `heldPend` says that a pending beat put off the
synthetic beat. -/
structure BeatUnit where
  num : Nat := 0
  synth : Bool := false
  lost : Bool := false
  hold : Bool := false
  none_ : Bool := true
  tick : Nat := 0
  latched : Nat := 0
  period : Nat := 0
  phase0 : Nat := 0
  port : Nat := 0
  resyncWorb : Bool := false
  resyncPend : Bool := false
  synthRun : Nat := 0
  pend : List PendBeat := []
  wins : Tab PWin := []
  rosters : Tab Roster := []
  deriving DecidableEq, Repr

/-- A mask held in a cluster's stencil cache, most recently used first (R181): partition × 65536 + set, mask, bytes. -/
structure CacheMask where
  set : Nat
  mask : Nat
  bytes : Nat
  deriving DecidableEq, Repr

/-- The emit path: sets and profiles by partition × 65536 + number, stencil caches by cluster, sessions whose mask is being
fetched. -/
structure EmitUnit where
  sets : Tab StencilSet := []
  profs : Tab Profile := []
  nextVer : Nat := 1
  cache : Tab (List CacheMask) := []
  fetch : List Nat := []
  deriving DecidableEq, Repr

/-! ### Text unit (08_text_unit) -/

/-- A job in a tokeniser lane (R210 to R212): a session's text append or a TOK_ENCODE, its command, its text. -/
structure LaneJob where
  serial : Nat
  encode : Bool
  part : Nat
  model : Nat
  handle : Nat
  text : Bytes
  room : Nat := 0
  deriving DecidableEq, Repr

/-- A LAST record that waits for emit-ring space (R218): queue set, session, record bytes, what completes after it. -/
structure WaitRec where
  qk : Nat
  sess : Nat
  rec_ : Bytes
  serial : Nat
  status : Status
  logged : Nat := 0
  deriving DecidableEq, Repr

/-- The text unit: tokeniser images by partition × 256 + model, stop sets by partition × 65536 + number, lanes by cluster, the
next cluster of each partition for TOK_ENCODE, LAST records waiting. -/
structure TextUnit where
  toks : Tab Bytes := []
  stops : Tab (List Bytes) := []
  lanes : Tab (List LaneJob) := []
  turn : Tab Nat := []
  waits : List WaitRec := []
  deriving DecidableEq, Repr

/-! ### Scaesh cores (09_scaesh_model, 10_scaesh_instructions) -/

/-- A vector register (R227). -/
abbrev Vec := BitVec 2048
/-- A predicate register, one bit per byte lane (R227). -/
abbrev Pred := BitVec 256

/-- What a context is doing (R230, R243, R246). -/
inductive CtxSt where
  | idle
  | running
  | suspended
  | waitBeat
  | waitWin (w : Window)
  | waitBar (part : Bool) (n : Nat)
  deriving DecidableEq, Repr

/-- The classes of invocations (R229). -/
inductive InvClass where
  | emit | decode | prefill | bulk | control
  deriving DecidableEq, Repr

/-- An invocation (R228 to R240): identifier, program and image, class and declared gate, its CALL and member numbers or its
event with the request, block and rows (events 1, 2) or session (event 4), arguments, the beat it started in, what it did; the entry of its
program a CALL named; whether it is suspended at the end of its wait (R230). -/
structure Inv where
  id : Nat
  part : Nat
  prog : Nat
  ver : Nat
  pc0 : Nat := 0
  cls : InvClass
  gate : InvClass
  call : Nat := 0
  member : Nat := 0
  members : Nat := 1
  event : Nat := 0
  req : Nat := 0
  sess : Nat := 0
  block : Nat := 0
  row : Nat := 0
  rows : Nat := 0
  cont : Bool := false
  level : Nat := 0
  node : Nat := 0
  cover : Nat := 1
  granted : Bool := false
  args : List Word := []
  maxBeats : Nat := 0
  startBeat : Nat := 0
  answered : Bool := false
  ecmt : Bool := false
  entry : Nat := 0
  susp : Bool := false
  deriving DecidableEq, Repr

/-- An engine operation in flight on a tag: its completion value; the engine whose order it keeps (1 AME, 2 sort, 0 another); the
tile it writes; `mark` names the message, store or frame that must leave first (R251, R252, R264, R287, R288, R289); the block
it reads, while the read counts as in flight (R14, R136). -/
structure TagOp where
  tag : Nat
  value : Nat
  engine : Nat := 0
  tile : Option Nat := none
  mark : Nat := 0
  sess : Nat := 0
  block : Nat := 0
  reads : Bool := false
  deriving DecidableEq, Repr

/-- One context of a core (R227). Registers an entry leaves undefined are not listed: they read as the free value of `seed`. -/
structure Ctx where
  st : CtxSt := .idle
  x : Tab Word := []
  v : Tab Vec := []
  p : Tab Pred := []
  h : Tab Nat := []
  tiles : Tab (Tab W32) := []
  pc : Nat := 0
  tags : Tab Nat := []
  ops : List TagOp := []
  inv : Option Inv := none
  queue : List Inv := []
  seed : Nat := 0
  deriving DecidableEq, Repr

/-- One core: its contexts, local data memory, CORE_LDM_PAGE, CORE_FAULT and CORE_DBG (R246). -/
structure Core where
  ctx0 : Ctx := {}
  ctx1 : Ctx := {}
  ctx2 : Ctx := {}
  ctx3 : Ctx := {}
  ldm : Tab Byte := []
  ldmPage : Nat := 0
  faultCause : Nat := 0
  faultCtx : Nat := 0
  faultProg : Nat := 0
  faultPc : Nat := 0
  faultValid : Bool := false
  halt : Nat := 0
  stepBits : Nat := 0
  deriving DecidableEq, Repr

/-- A loaded customer image of a partition (R234 to R237): program number, image, its LDM and CWS regions and IMEM place;
`live` from the switch on, `gone` once unloaded or replaced and waiting for its last invocation. -/
structure Prog where
  part : Nat
  id : Nat
  ver : Nat
  img : Bytes
  ldmBase : Nat
  cwsBase : Nat
  imemBase : Nat
  live : Bool := false
  gone : Bool := false
  deriving DecidableEq, Repr

/-- A program switch that waits for tick 0 of the next beat (R236, R237): the command, and the image it makes live or the
number it unloads. -/
structure ProgSwitch where
  serial : Nat
  part : Nat
  prog : Nat
  ver : Nat
  unload : Bool
  armed : Bool := false
  deriving DecidableEq, Repr

/-- How one member of a CALL ended (R241). -/
structure MemberEnd where
  member : Nat
  core : Nat
  status : Nat
  cause : Nat
  x2 : Word
  x3 : Word
  deriving DecidableEq, Repr

/-- A CALL (R239 to R243): its command, core set and identifiers, buffer, the members that have ended; whether one of them has faulted or
been cancelled, and the members that ended CANCELLED at a barrier for that. -/
structure Call where
  id : Nat
  serial : Nat
  qk : Nat
  part : Nat
  prog : Nat
  cores : List Nat
  handle : Nat := 0
  bufAddr : Nat := 0
  bufLen : Nat := 0
  ends : List MemberEnd := []
  accepted : Bool := false
  cancelled : Bool := false
  broken : Bool := false
  barred : List Nat := []
  deriving DecidableEq, Repr

/-- A core message (R287): sender core, sender invocation, program, payload. -/
structure CoreMsg where
  core : Nat
  inv : Nat
  prog : Nat
  part : Nat
  data : Bytes
  deriving DecidableEq, Repr

/-- A core message that waits for a full channel (R287). -/
structure PendSend where
  mark : Nat
  chan : Nat
  msg : CoreMsg
  deriving DecidableEq, Repr

/-- A NOTIFY that waits for room in its completion ring (R289): the queue set, and the entry's fields. -/
structure PendBell where
  mark : Nat
  qk : Nat
  cid : Nat
  inv : Nat
  member : Nat
  value : Nat
  deriving DecidableEq, Repr

/-- The cores: by core number; cluster working spaces and merge areas by cluster; merge-area pieces in use (offset, length,
request); programs, switches, numbers unloaded since (partition × 256 + number), CALLs; message channels by core × 64 + context × 16 + channel. -/
structure Cores where
  core : Tab Core := []
  cws : Tab (Tab Byte) := []
  merge : Tab (Tab Byte) := []
  areas : Tab (List (Nat × Nat × Nat)) := []
  progs : List Prog := []
  switches : List ProgSwitch := []
  unloaded : List Nat := []
  calls : List Call := []
  nextInv : Nat := 1
  nextVer : Nat := 1
  chans : Tab (List CoreMsg) := []
  sends : List PendSend := []
  bells : List PendBell := []
  nextMark : Nat := 1
  deriving DecidableEq, Repr

/-! ### Flash retrieval (11_flash_retrieval) -/

/-- The state of an index (R314). -/
inductive IxState where
  | free | ready | compacting | dropping | faulted
  deriving DecidableEq, Repr

/-- One stored index record (R295 to R301): identifier, attribute, sequence number, cell, its number in the cell's write order (which
gives its channel), the numbers of its binary page and its SQ8 page in their chains, its SQ8 code. -/
structure IxRec where
  id : Nat
  attr : Nat
  seq : Nat
  cell : Nat
  ord : Nat
  page : Nat
  sq : Nat
  code : Bytes
  deriving DecidableEq, Repr

/-- One retire-list entry (R302): the record's identifier, the sequence number of the latest change, the one before; whether a compaction
found no older record of its identifier left, so that it goes once no search needs it (R309). -/
structure IxRetire where
  id : Nat
  seq : Nat
  prev : Nat
  due : Bool := false
  deriving DecidableEq, Repr

/-- A record of an accepted INDEX_WRITE that COMMIT_SEQ does not cover yet (R301): its command, whether it is the command's first
and last record, its OP, the record. -/
structure IxPend where
  serial : Nat
  seq : Nat
  first : Bool
  last : Bool
  op : Nat
  rec_ : IxRec
  deriving DecidableEq, Repr

/-- A vector index of a partition (R295 to R302, R309): its image (header, quantiser, centroids), records by write order, the next
number of each cell's write order, retire list, pages of compacted cells that searches up to a number may still read; while a command's
records are partly committed, COMMIT_SEQ and the retire list from before its first record (R311). -/
structure Index where
  st : IxState := .free
  metric : Nat := 0
  dim : Nat := 0
  domain : Nat := 0
  cells : Nat := 0
  retireMax : Nat := 0
  img : Bytes := []
  recs : List IxRec := []
  ords : Tab Nat := []
  retire : List IxRetire := []
  nextSeq : Nat := 1
  commit : Nat := 0
  pend : List IxPend := []
  old : List (Nat × Nat) := []
  before : Option (Nat × List IxRetire) := none
  compactCell : Nat := 0
  compactSerial : Nat := 0
  deriving DecidableEq, Repr

/-- A record a channel engine sends to the merge (R304). -/
structure IxHit where
  id : Nat
  attr : Nat
  seq : Nat
  dist : W32
  deriving DecidableEq, Repr

/-- A search in progress (R303 to R308): its command, acceptance number in the partition, parameters, snapshot, cells in ascending
order, channels that have finished, the records they sent, binary records read, pages lost. -/
structure Search where
  serial : Nat
  qk : Nat
  part : Nat
  ix : Nat
  num : Nat
  k : Nat
  rerank : Nat
  fmask : Nat
  fvalue : Nat
  outAddr : Nat
  query : List W32
  snap : Nat
  cells : List Nat
  channels : List Nat := []
  hits : List IxHit := []
  scanned : Nat := 0
  lost : Nat := 0
  deriving DecidableEq, Repr

/-- Flash retrieval: indexes by partition × 256 + number, searches in acceptance order, the next acceptance number by partition. -/
structure Retrieval where
  ixs : Tab Index := []
  searches : List Search := []
  nextNum : Tab Nat := []
  deriving DecidableEq, Repr

/-! ### Cunis Link (13_cunis_link) -/

/-- The state of a port (R354, R364). -/
inductive PortSt where
  | down | hello | up | refused
  deriving DecidableEq, Repr

/-- A message waiting in egress or received: virtual channel, type, body and data bytes, the mark a tag waits for, the credits its
parts were charged, the arrival tick of the Q_SUBMIT an OK decode answer is for, whether its next frame has been counted as waiting for credit. -/
structure Msg where
  vc : Nat
  type : Nat
  body : Bytes
  data : Bytes := []
  mark : Nat := 0
  cost : Nat := 0
  since : Option Nat := none
  waited : Bool := false
  deriving DecidableEq, Repr

/-- One virtual channel of a port (R345, R347, R350 to R352). Egress: unspent credit, the peer's initial credit and the last CUM it
returned, credits charged, flit sequence, bytes of the head message already sent, whether its next frame has been counted as held to a
later window. Receive: credits charged, next flit sequence, credits in use, freed and not yet reported (since a tick), reported
in all; the message being received, what its parts were charged, whether the rest of one is discarded. -/
structure PortVc where
  credit : Nat := 0
  cumOut : Nat := 0
  fseqOut : Nat := 0
  sent : Nat := 0
  gated : Bool := false
  cumPeer : Nat := 0
  cumIn : Nat := 0
  fseqIn : Nat := 0
  freed : Nat := 0
  freedTick : Nat := 0
  back : Nat := 0
  used : Nat := 0
  skip : Bool := false
  part_ : Bytes := []
  partCost : Nat := 0
  egress : List Msg := []
  inbox : List Msg := []
  deriving DecidableEq, Repr

/-- One Cunis port (R341 to R365). `mac` is the learned address of the peer, 0 before any; `deficit` is what the shaper's bucket lacks to
its burst, in tenths of a byte, at a tick. -/
structure Port where
  en : Bool := true
  framing : Bool := false
  restartWorb : Bool := false
  phyUp : Bool := false
  cdrLock : Bool := false
  st : PortSt := .down
  ver : Nat := 0
  refusal : Nat := 0
  peerRole : Nat := 0
  peerPort : Nat := 0
  feat : Nat := 0
  peerFeat : Nat := 0
  peerKey : Nat := 0
  peerInst : Nat := 0
  mac : Nat := 0
  ackSent : Bool := false
  ackRecv : Bool := false
  vc0 : PortVc := {}
  vc1 : PortVc := {}
  vc2 : PortVc := {}
  vc3 : PortVc := {}
  deficit : Nat := 0
  bucketTick : Nat := 0
  helloTick : Nat := 0
  creditTick : Nat := 0
  deriving DecidableEq, Repr

/-- The phase of an export at its source (R360). -/
inductive MovePhase where
  | offered | logSent | doneSent
  deriving DecidableEq, Repr

/-- An export in progress at the source (R360). -/
structure MoveOut where
  sess : Nat
  serial : Nat
  port : Nat
  dst : Nat := 0
  phase : MovePhase := .offered
  prev : SState := .idle
  len : Nat := 0
  pend : Nat := 0
  deriving DecidableEq, Repr

/-- An import in progress at the destination (R361). -/
structure MoveIn where
  sess : Nat
  port : Nat
  keyGroup : Nat
  inst : Nat
  srcHandle : Nat
  total : Nat
  kvLen : Nat
  staged : List LogTok := []
  applied : Bool := false
  done : Bool := false
  deriving DecidableEq, Repr

/-- The link: ports by number, moves. -/
structure Link where
  ports : Tab Port := []
  outs : List MoveOut := []
  ins : List MoveIn := []
  deriving DecidableEq, Repr

/-! ### Partitions, admission and metering (14_partitions_and_admission) -/

/-- The meters of one composition (R382). -/
structure Meters where
  clusterMs : Nat := 0
  t0 : Nat := 0
  t1 : Nat := 0
  t2 : Nat := 0
  t3 : Nat := 0
  deriving DecidableEq, Repr

/-- A composition record of a partition number (R382, R383): what it held, its number, start and end, meters. -/
structure CompRec where
  num : Nat
  startMs : Nat
  clusters : Nat := 32
  conf : Bool := false
  pool : Nat := 0
  endMs : Option Nat := none
  m : Meters := {}
  deriving DecidableEq, Repr

/-- The state of a partition (R371, R372): not in existence, accepted and waiting for its first beat, active, being destroyed. -/
inductive PState where
  | none_ | creating | active | destroying
  deriving DecidableEq, Repr

/-- A two-rate meter (R381): rates and bursts as written, the two buckets in 10^-9 request units (one tick of a rate of one
unit a second), the tick they were last filled at. -/
structure Meter where
  cir : Nat := 0
  pir : Nat := 0
  cbs : Nat := 0
  pbs : Nat := 0
  tc : Nat := 0
  tp : Nat := 0
  at_ : Nat := 0
  deriving DecidableEq, Repr

/-- A share domain bound to a partition (R375, R381, 04 R123). -/
structure Domain where
  part : Nat
  aware : Bool := false
  meter : Meter := {}
  learn : Bool := false
  deriving DecidableEq, Repr

/-- A partition (R366 to R374, R384). -/
structure Part where
  st : PState := .none_
  clusters : List Nat := []
  groupBase : Nat := 0
  groups : Nat := 0
  pool : Nat := 0
  conf : Bool := false
  t2Quota : Nat := 0
  ixQuota : Nat := 0
  domBase : Nat := 0
  domCount : Nat := 0
  owner : Bytes := []
  secret : Nat := 0
  epoch : Nat := 0
  comps : List CompRec := []
  meter : Meter := {}
  rowBase : Nat := 0
  rows : Nat := 0
  deriving DecidableEq, Repr

/-- The stage of a recomposition (R378). -/
inductive RecompStage where
  | accepted | quiesced | evacuated | switched
  deriving DecidableEq, Repr

/-- One record of a PART_RECOMPOSE (R376). -/
structure RecompRec where
  part : Nat
  clusters : List Nat
  t2Quota : Nat
  ixQuota : Nat
  pool : Nat
  deriving DecidableEq, Repr

/-- A recomposition in progress (R377, R378): the command and the new cluster sets by partition. -/
structure Recomp where
  serial : Nat
  recs : List RecompRec
  stage : RecompStage := .accepted
  deriving DecidableEq, Repr

/-- The partition unit: mode, partitions, bindings (function → partition, port → partition), domains, the commands in
progress; `armed` says that a tick 0 has come since the command in progress began to wait for one. -/
structure PartUnit where
  composable : Bool := false
  parts : Tab Part := []
  fns : Tab Nat := []
  ports : Tab Nat := []
  doms : Tab Domain := []
  compNum : Nat := 1
  creating : Option (Nat × Nat) := none
  destroying : Option (Nat × Nat) := none
  recomp : Option Recomp := none
  armed : Bool := false
  deriving DecidableEq, Repr

/-! ### Security (15_security) -/

/-- A firmware slot of the boot store (R405, R448). -/
structure FwSlot where
  valid : Bool := false
  svn : Nat := 0
  vkey : Nat := 0
  digest : Bytes := []
  revoke : Nat := 0
  deriving DecidableEq, Repr

/-- An attestation report queued or signed (R408, R409). -/
structure Attest where
  ticket : Nat
  fn : Nat
  mgmt : Bool
  kind : Nat
  part : Nat
  nonce : Bytes
  report : Bytes := []
  ready : Bool := false
  deriving DecidableEq, Repr

/-- The security engine: fuses, the running firmware's slot, JTAG, the boot nonce (as the number of its draw), epochs of
partition numbers and windows, SEQ_HW, dust-sheet latches, attestation queue; `stdFrom` is the digest of the firmware whose standard programs the cores run. -/
structure Security where
  fuseSvn : Nat := 0
  revoked : Nat := 0
  slots : List FwSlot := [{ valid := true }, {}]
  running : Nat := 0
  jtagSeen : Bool := false
  jtagAttached : Bool := false
  jtagLock : Bool := false
  bootNonce : Nat := 0
  winEpoch : Tab Nat := []
  seqHw : Nat := 0
  latch : Tab Word := []
  attests : List Attest := []
  stdFrom : Bytes := []
  nextTicket : Nat := 1
  deriving DecidableEq, Repr

/-! ### Checkpoint and recovery (16_checkpoint_and_recovery) -/

/-- What a checkpoint holds (R414, R420 to R423): the manifest's fields, partitions with their bindings and domains, kept registers,
models, sessions with their page lists located, published records, block contents, loads. -/
structure CkImage where
  serial : Nat
  content : Nat
  beat : Nat := 0
  tick : Nat := 0
  composable : Bool := false
  parts : Tab Part := []
  fns : Tab Nat := []
  ports : Tab Nat := []
  doms : Tab Domain := []
  regs : Tab Nat := []
  models : Tab ModelEnt := []
  sess : Tab Sess := []
  recs : Tab Rec := []
  kv : Tab KvBlk := []
  sets : Tab StencilSet := []
  profs : Tab Profile := []
  toks : Tab Bytes := []
  stops : Tab (List Bytes) := []
  progs : List Prog := []
  nonce : Nat := 0
  deriving DecidableEq, Repr

/-- A checkpoint slot (R438); `valid` says that its manifest was valid when last read or written. -/
structure CkSlot where
  addr : Nat := 0
  sizeMib : Nat := 0
  port : Nat := 0
  en : Bool := false
  valid : Bool := false
  deriving DecidableEq, Repr

/-- A block a checkpoint has still to read after its cut (R420, R421): whose it was, the directory entry it holds a reference on where it was
shared, the place held once its owner has let it go, the page units read, whether a unit runs and when it ends. -/
structure CkRead where
  part : Nat
  model : Nat
  blk : Nat
  ix : Option Nat := none
  held : Option Place := none
  units : Nat := 0
  running : Bool := false
  until_ : Nat := 0
  deriving DecidableEq, Repr

/-- A checkpoint being taken: its slot, number and CONTENT, its command (0 for a trigger), whether a tick 0 has come since it was
accepted, whether its cut falls at once, what the cut holds, the blocks still to read, whether one of them was lost before it was read. -/
structure CkTake where
  slot : Nat
  serial : Nat
  content : Nat
  cmd : Nat := 0
  armed : Bool := false
  now : Bool := false
  image : Option CkImage := none
  reads : List CkRead := []
  lost : Bool := false
  deriving DecidableEq, Repr

/-- A restore being staged (R426, R427). -/
structure CkRestore where
  slot : Nat
  cmd : Nat
  image : CkImage
  armed : Bool := false
  deriving DecidableEq, Repr

/-- The checkpoint engine. `store` is what host memory holds at the places slots have been written to, by port × 2^52 + address / 4096:
the model's record of the hosts' memory, which a reset does not touch. `known` is the newest valid checkpoint known, by slot and number. -/
structure Ckpt where
  slots : Tab CkSlot := []
  store : Tab CkImage := []
  msHalf : Nat := 0
  beatHalf : Nat := 0
  deferred : Bool := false
  armed : Bool := false
  take : Option CkTake := none
  restore : Option CkRestore := none
  wslot : Nat := 0
  known : Option (Nat × Nat) := none
  lastBeat : Nat := 0
  lastTick : Nat := 0
  lastMs : Nat := 0
  lastStatus : Nat := 0
  lostDies : List Nat := []
  lostChannels : List Nat := []
  deriving DecidableEq, Repr

/-! ### Management plane and health (17_management_and_health) -/

/-- The boot configuration record (R443). -/
structure BootCfg where
  ver : Nat := 1
  composable : Bool := false
  pool : Nat := 0
  pwrLimit : Nat := 2000
  prefix_ : Nat := 0
  addr : Nat := 0
  deriving DecidableEq, Repr

/-- A Pupoac datagram that passed its checks and waits (R442, R446). -/
structure Pup where
  svc : Nat
  op : Nat
  seq : Nat
  payload : Bytes
  deriving DecidableEq, Repr

/-- Firmware staging (R448). -/
structure Staging where
  size : Nat
  data : Tab Byte := []
  got : Nat := 0
  committed : Bool := false
  deriving DecidableEq, Repr

/-- One temperature sensor in sixteenths of a degree: reading, maximum, whether it throttles (R452, R456). -/
structure Sensor where
  temp : Int := 0
  max_ : Int := 0
  throttle : Bool := false
  deriving DecidableEq, Repr

/-- The hawk and the monitors around it (R440 to R456). `cfgA`, `cfgB` are the two stored records (none: not intact); `loaded` says that
the standard programs were loaded since the module reset; `hbAt` the management tick of the last heartbeat; `coarse` the readings of the
last coarse refresh (R453). -/
structure Mgmt where
  ready : Bool := false
  failed : Bool := false
  ms : Nat := 0
  loaded : Bool := false
  hb : W32 := 0
  hbAt : Nat := 0
  cfgA : Option BootCfg := some {}
  cfgB : Option BootCfg := some {}
  cfg : BootCfg := {}
  bcDefault : Bool := false
  pup : List Pup := []
  staging : Option Staging := none
  sensors : Tab Sensor := []
  inputW : Nat := 0
  vinCv : Nat := 0
  peakW : Nat := 0
  avgW : Nat := 0
  pwrThrottle : Bool := false
  coarse : Tab Sensor := []
  coarseIn : Nat := 0
  coarsePeak : Nat := 0
  trip : Option Nat := none
  wear : Tab Nat := []
  wearRing : Tab (List Nat) := []
  wearHour : Nat := 0
  resetReq : Bool := false
  resetAt : Nat := 0
  i3cPtr : Nat := 0
  i3cDyn : Option Nat := none
  deriving DecidableEq, Repr

/-! ### Power, clocks and reset (18_power_clocks_reset) -/

/-- Where the module stands (R460, R462, R468): no input, coming up (steps 1 to 4), locking (step 5), held in step 6, running,
in a safe state after a clock loss or a thermal trip. -/
inductive PwrSt where
  | off | rising | locking | held | running | safeClock | safeTrip
  deriving DecidableEq, Repr

/-- Power, straps, reset pin and clock generator (R458 to R477): `rails` rail groups are in regulation, `recover` says that FB_CLK was
valid once since a clock loss, `cause` is RST_CAUSE, `pendCause` the cause of a module reset asked for and not yet made, `lockAt` the
tick at which the lock count of the clock port began, `clkPort` LINK_CLKSEL.PORT. -/
structure Power where
  st : PwrSt := .running
  overVolt : Bool := false
  bulk : Bool := true
  xoDone : Bool := true
  rails : Nat := 5
  railFails : Nat := 0
  railWait : Bool := false
  recover : Bool := false
  resetLow : Bool := false
  strapXo : Nat := 7
  strapA : Bool := true
  strapB : Bool := true
  cause : Nat := 0
  pendCause : Nat := 0
  recovered : Bool := false
  fbOk : Bool := true
  recLock : Bool := false
  lockAt : Nat := 0
  slewing : Bool := false
  autoReturn : Bool := true
  forceFb : Bool := false
  returnWorb : Bool := false
  clkPort : Nat := 0
  deriving DecidableEq, Repr

/-! ### The machine -/

/-- What leaves the device, newest first: the model's own record of its outputs, never read back by any command. -/
inductive Out where
  /-- Bytes 8 to 31 of a completion entry, written at a position of a queue set's ring before the rest of it (R328). -/
  | cplBody (qk pos : Nat) (data : Bytes)
  /-- A completion entry completed at a position of a queue set's ring by the write of its bytes 0 to 7 (R325, R328). -/
  | cpl (qk pos : Nat) (c : Cpl)
  /-- The bytes of an emit-ring record after byte 15, written before the rest of it (R328). -/
  | emitBody (qk unit : Nat) (data : Bytes)
  /-- An emit-ring record completed by the write of its bytes 0 to 15, from a unit on, with its phase (R220, R328). -/
  | emitRec (qk unit : Nat) (phase : Bool) (data : Bytes)
  /-- An MSI-X message of a function's vector (R332). -/
  | msix (fn vec : Nat)
  /-- Bytes written to host memory through a port (R322, R449). -/
  | hostWrite (port addr : Nat) (data : Bytes)
  /-- A mailbox emptied with its reply words (R335). -/
  | mailbox (port n : Nat) (reply : List W32)
  /-- A frame or flit started on a Cunis port (13 R345, R347). -/
  | frame (port : Nat) (data : Bytes)
  /-- A Pupoac reply datagram (R446, R447). -/
  | pupoac (data : Bytes)
  /-- Bytes returned to a register read. -/
  | regRead (fn addr value : Nat)
  /-- The level of MOD_OK_N (R475): true is driven low. -/
  | modOk (low : Bool)
  deriving DecidableEq, Repr

/-- The identity of the unit: its ordering code (00_scope R1, 19_module R494). -/
structure UnitId where
  order : Order := .f64
  deriving DecidableEq, Repr

/-- The state of the device: one structure per block of the spec, register values by key and counters by key, the count of
free values drawn, what left the device, and the queue of commands that wait. -/
structure State where
  unit : UnitId := {}
  free : Nat := 0
  tick : Nat := 0
  regs : Tab Nat := []
  ctrs : Tab Word := []
  host : HostIf := {}
  sess : Tab Sess := []
  fab : Fabric := {}
  dir : Directory := {}
  att : Attention := {}
  beat : BeatUnit := {}
  emit : EmitUnit := {}
  text : TextUnit := {}
  cores : Cores := {}
  ret : Retrieval := {}
  link : Link := {}
  part : PartUnit := {}
  sec : Security := {}
  ckpt : Ckpt := {}
  mgmt : Mgmt := {}
  pwr : Power := {}
  out : List Out := []
  pending : List Instr := []
  deriving DecidableEq, Repr

/-- The reasons a step can stop with a fault. -/
inductive Fault where
  /-- A MOD_RESET_N pulse of 1 µs to 10 µs, whose outcome the spec does not define (18 R472): raised by MOD_RESET_N. Safe: the
  machine stops where the hardware does something unknown. -/
  | undefinedPulse
  deriving DecidableEq, Repr

/-- The reasons a command has no meaning. -/
inductive Refusal where
  /-- A command of the table the model gives no meaning yet: raised by the dispatch alone. Safe. -/
  | notModelled (mnemonic : String)
  deriving DecidableEq, Repr
/-! ### Right after reset (11_flash_retrieval R293; 14_partitions R366; 15_security R405; 17_management R440; 18_power R462, R476) -/

/-- The machine right after reset: a ZV9620-F64 with the factory boot configuration and one valid firmware slot, its internal reset just
released, the links of its Cunis ports training; no partition, no session, no load. The hawk has not declared itself ready, so
YK_MDR.IN_RESET reads 1 (R405) and HAWK_READY is still to create partition 0 (R440). RET_LAYOUT reads the split of an F64 (R293). -/
def State.reset : State :=
  { free := 2
    regs := [(38 * 65536, 8192)]
    host := { inReset := true } }

end Sys2Proof.Machine
end

