-- ==== Sys2Proof/Machine/Tab.lean ====
section
/-! DEFINITION. Sparse tables with strictly rising keys: lookup, insertion, removal, and the form they keep. -/

namespace Sys2Proof.Machine

/-- The value at a key, if the table lists one. -/
def tabGet? {α : Type} : Tab α → Nat → Option α
  | [], _ => none
  | (k', v) :: t, k => if k' = k then some v else tabGet? t k

/-- The value at a key, or the default an unlisted key stands for. -/
def tabGet {α : Type} (d : α) (t : Tab α) (k : Nat) : α := (tabGet? t k).getD d

/-- The table with the value put at a key, the keys still rising. -/
def tabSet {α : Type} : Tab α → Nat → α → Tab α
  | [], k, v => [(k, v)]
  | (k', v') :: t, k, v =>
    if k < k' then (k, v) :: (k', v') :: t
    else if k = k' then (k, v) :: t
    else (k', v') :: tabSet t k v

/-- The table without a key. -/
def tabErase {α : Type} (t : Tab α) (k : Nat) : Tab α := t.filter (fun p => p.1 != k)

/-- Put a value, or list nothing where the value is the default: equal tables stay equal data. -/
def tabPut {α : Type} [DecidableEq α] (d : α) (t : Tab α) (k : Nat) (v : α) : Tab α :=
  if v = d then tabErase t k else tabSet t k v

/-- Change the value at a key, the default standing for an unlisted key. -/
def tabMod {α : Type} (d : α) (t : Tab α) (k : Nat) (f : α → α) : Tab α := tabSet t k (f (tabGet d t k))

/-- The values of a table, in the order of their keys. -/
def tabVals {α : Type} (t : Tab α) : List α := t.map (·.2)

/-- The canonical form: strictly rising keys. -/
def tabWf {α : Type} : Tab α → Bool
  | [] => true
  | [_] => true
  | (k, _) :: (k', v') :: t => decide (k < k') && tabWf ((k', v') :: t)

/-- Replace the elements of a list that meet a test. -/
def listMod {α : Type} (p : α → Bool) (f : α → α) (l : List α) : List α := l.map (fun x => if p x then f x else x)

/-- The list without its first element that meets a test. -/
def listDropFirst {α : Type} (p : α → Bool) : List α → List α
  | [] => []
  | x :: t => if p x then t else x :: listDropFirst p t

/-- Insert into a list kept in order of a comparison, behind its equals. -/
def listInsert {α : Type} (lt : α → α → Bool) (a : α) : List α → List α
  | [] => [a]
  | x :: t => if lt a x then a :: x :: t else x :: listInsert lt a t

/-- A list put in order of a comparison, equal elements in their old order. -/
def listSort {α : Type} (lt : α → α → Bool) : List α → List α
  | [] => []
  | x :: t => listInsertBack x (listSort lt t)
where
  /-- Insert in front of the equals: the element came earlier. -/
  listInsertBack (a : α) : List α → List α
    | [] => [a]
    | y :: t => if lt y a then y :: listInsertBack a t else a :: y :: t

/-- The lowest number from `base` on, within `count`, that meets a test. -/
def lowestFree (p : Nat → Bool) (base : Nat) : Nat → Option Nat
  | 0 => none
  | n + 1 => if p base then some base else lowestFree p (base + 1) n

/-- The sum of a function over a list. -/
def sumOf {α : Type} (f : α → Nat) (l : List α) : Nat := l.foldl (fun n x => n + f x) 0

/-- ⌈a / b⌉ on numbers. -/
def ceilDiv (a b : Nat) : Nat := (a + b - 1) / b

end Sys2Proof.Machine
end

