-- ==== Sys2Proof/Machine/Counters.lean ====
section
/-! DEFINITION. The event counters of every chapter, by name: where each is read, what it is one of, its width. -/

namespace Sys2Proof.Machine

/-- The event counters of the device. -/
inductive Counter where
  | hifBadcfg | hifDbBad | hifRejected | hifPoliced | sessBadwr | sfStall0 | sfStall1 | sfStall2 | sfStall3
  | sfStall4 | sfStall5 | sfStall6 | sfStallTo | sfEvtTierfault | sfEvtFloatfail | sfEvtPrimerWait | sfEvtPinSpill
  | sfEvtBadcfg | dirLookups | dirHitBlocks | dirLearned | dirLearnDrop | dirPubNospace | dirRetired
  | dirSlipped | dirFaults | attDecode | attChunks | attQReject | attKvReject | attSat | attRescale | attPfAbort
  | attEvtBadcfg | emitTokens | emitShort | emitGrammarDead | emitEndtok | emitLogitsReject | emitStencilWait
  | emitNan | emitProfMissing | emitBadcfg | textInBytes | textInTokens | textBytemode | textMergemode
  | textUntok | textRecords | textStops | textFlushWait | textUtf8Partial | textBadcfg | beatRx | beatStale
  | beatJump | beatBad | beatOtherport | beatSynth | beatHolds | schedAdmitted | schedEmitOnly | schedDueLeft
  | schedCarry | schedCarryTo | schedHoldOut | schedOverrun | gateWaitVc2 | gateWaitVc3 | gateBulkAbort
  | schedBadcfg | admGreen | admYellow | admRed | admBadcfg | hlthThrEvt | hlthPupDrop | hlthMbxServed
  | clkToFb | clkToRec | clkFbLoss | coreRetired | coreFaults | coreSuspends | coreBadwr | ykIgnored
  | retSearches | retShort | retDups | retFiltered | retRecWritten | retLostPages | retBadcfg | rxMsgs
  | txMsgs | rxFecCorr | rxFecUncorr | rxFcs | rxHdrCrc | rxAddr | rxLen | rxType | rxVc | rxOverrun
  | rxPause | txCreditWait | txDrop | helloRefused | secDenied | secMgmtReject | secSigFail | ckptTaken
  | ckptDeferred | ckptSkipped | ckptFailed | ckptRestores | ckptBytes

/-- What a counter is instanced by. -/
inductive Scope where
  | part | device | fn | port | core | hostPort
  deriving DecidableEq, Repr

/-- The number of a counter in the table of counters. -/
def Counter.num : Counter → Nat
  | .hifBadcfg => 0
  | .hifDbBad => 1
  | .hifRejected => 2
  | .hifPoliced => 3
  | .sessBadwr => 4
  | .sfStall0 => 5
  | .sfStall1 => 6
  | .sfStall2 => 7
  | .sfStall3 => 8
  | .sfStall4 => 9
  | .sfStall5 => 10
  | .sfStall6 => 11
  | .sfStallTo => 12
  | .sfEvtTierfault => 13
  | .sfEvtFloatfail => 14
  | .sfEvtPrimerWait => 15
  | .sfEvtPinSpill => 16
  | .sfEvtBadcfg => 17
  | .dirLookups => 18
  | .dirHitBlocks => 19
  | .dirLearned => 20
  | .dirLearnDrop => 21
  | .dirPubNospace => 22
  | .dirRetired => 23
  | .dirSlipped => 24
  | .dirFaults => 25
  | .attDecode => 26
  | .attChunks => 27
  | .attQReject => 28
  | .attKvReject => 29
  | .attSat => 30
  | .attRescale => 31
  | .attPfAbort => 32
  | .attEvtBadcfg => 33
  | .emitTokens => 34
  | .emitShort => 35
  | .emitGrammarDead => 36
  | .emitEndtok => 37
  | .emitLogitsReject => 38
  | .emitStencilWait => 39
  | .emitNan => 40
  | .emitProfMissing => 41
  | .emitBadcfg => 42
  | .textInBytes => 43
  | .textInTokens => 44
  | .textBytemode => 45
  | .textMergemode => 46
  | .textUntok => 47
  | .textRecords => 48
  | .textStops => 49
  | .textFlushWait => 50
  | .textUtf8Partial => 51
  | .textBadcfg => 52
  | .beatRx => 53
  | .beatStale => 54
  | .beatJump => 55
  | .beatBad => 56
  | .beatOtherport => 57
  | .beatSynth => 58
  | .beatHolds => 59
  | .schedAdmitted => 60
  | .schedEmitOnly => 61
  | .schedDueLeft => 62
  | .schedCarry => 63
  | .schedCarryTo => 64
  | .schedHoldOut => 65
  | .schedOverrun => 66
  | .gateWaitVc2 => 67
  | .gateWaitVc3 => 68
  | .gateBulkAbort => 69
  | .schedBadcfg => 70
  | .admGreen => 71
  | .admYellow => 72
  | .admRed => 73
  | .admBadcfg => 74
  | .hlthThrEvt => 75
  | .hlthPupDrop => 76
  | .hlthMbxServed => 77
  | .clkToFb => 78
  | .clkToRec => 79
  | .clkFbLoss => 80
  | .coreRetired => 81
  | .coreFaults => 82
  | .coreSuspends => 83
  | .coreBadwr => 84
  | .ykIgnored => 85
  | .retSearches => 86
  | .retShort => 87
  | .retDups => 88
  | .retFiltered => 89
  | .retRecWritten => 90
  | .retLostPages => 91
  | .retBadcfg => 92
  | .rxMsgs => 93
  | .txMsgs => 94
  | .rxFecCorr => 95
  | .rxFecUncorr => 96
  | .rxFcs => 97
  | .rxHdrCrc => 98
  | .rxAddr => 99
  | .rxLen => 100
  | .rxType => 101
  | .rxVc => 102
  | .rxOverrun => 103
  | .rxPause => 104
  | .txCreditWait => 105
  | .txDrop => 106
  | .helloRefused => 107
  | .secDenied => 108
  | .secMgmtReject => 109
  | .secSigFail => 110
  | .ckptTaken => 111
  | .ckptDeferred => 112
  | .ckptSkipped => 113
  | .ckptFailed => 114
  | .ckptRestores => 115
  | .ckptBytes => 116

/-- Part of the table of counters. -/
def counters1 : List (Counter × Nat × Scope × Nat) :=
  [(.hifBadcfg, 0x101000, .fn, 32),
   (.hifDbBad, 0x101004, .fn, 32),
   (.hifRejected, 0x101008, .fn, 32),
   (.hifPoliced, 0x10100C, .fn, 32),
   (.sessBadwr, 0x300018, .fn, 32),
   (.sfStall0, 0x400100, .part, 64),
   (.sfStall1, 0x400108, .part, 64),
   (.sfStall2, 0x400110, .part, 64),
   (.sfStall3, 0x400118, .part, 64),
   (.sfStall4, 0x400120, .part, 64),
   (.sfStall5, 0x400128, .part, 64),
   (.sfStall6, 0x400130, .part, 64),
   (.sfStallTo, 0x400138, .part, 64),
   (.sfEvtTierfault, 0x400140, .part, 64),
   (.sfEvtFloatfail, 0x400148, .part, 64)]

/-- Part of the table of counters. -/
def counters2 : List (Counter × Nat × Scope × Nat) :=
  [(.sfEvtPrimerWait, 0x400150, .part, 64),
   (.sfEvtPinSpill, 0x400158, .part, 64),
   (.sfEvtBadcfg, 0x400160, .part, 64),
   (.dirLookups, 0x500100, .part, 64),
   (.dirHitBlocks, 0x500108, .part, 64),
   (.dirLearned, 0x500110, .part, 64),
   (.dirLearnDrop, 0x500118, .part, 64),
   (.dirPubNospace, 0x500120, .part, 64),
   (.dirRetired, 0x500128, .part, 64),
   (.dirSlipped, 0x500130, .part, 64),
   (.dirFaults, 0x500138, .part, 64),
   (.attDecode, 0x600100, .part, 64),
   (.attChunks, 0x600108, .part, 64),
   (.attQReject, 0x600110, .part, 64),
   (.attKvReject, 0x600118, .part, 64)]

/-- Part of the table of counters. -/
def counters3 : List (Counter × Nat × Scope × Nat) :=
  [(.attSat, 0x600120, .part, 64),
   (.attRescale, 0x600128, .part, 64),
   (.attPfAbort, 0x600130, .part, 64),
   (.attEvtBadcfg, 0x600138, .part, 64),
   (.emitTokens, 0x700100, .part, 64),
   (.emitShort, 0x700108, .part, 64),
   (.emitGrammarDead, 0x700110, .part, 64),
   (.emitEndtok, 0x700118, .part, 64),
   (.emitLogitsReject, 0x700120, .part, 64),
   (.emitStencilWait, 0x700128, .part, 64),
   (.emitNan, 0x700130, .part, 64),
   (.emitProfMissing, 0x700138, .part, 64),
   (.emitBadcfg, 0x700140, .part, 64),
   (.textInBytes, 0x700300, .part, 64),
   (.textInTokens, 0x700308, .part, 64)]

/-- Part of the table of counters. -/
def counters4 : List (Counter × Nat × Scope × Nat) :=
  [(.textBytemode, 0x700310, .part, 64),
   (.textMergemode, 0x700318, .part, 64),
   (.textUntok, 0x700320, .part, 64),
   (.textRecords, 0x700328, .part, 64),
   (.textStops, 0x700330, .part, 64),
   (.textFlushWait, 0x700338, .part, 64),
   (.textUtf8Partial, 0x700340, .part, 64),
   (.textBadcfg, 0x700348, .part, 64),
   (.beatRx, 0xA00200, .device, 64),
   (.beatStale, 0xA00208, .device, 64),
   (.beatJump, 0xA00210, .device, 64),
   (.beatBad, 0xA00218, .device, 64),
   (.beatOtherport, 0xA00220, .device, 64),
   (.beatSynth, 0xA00228, .device, 64),
   (.beatHolds, 0xA00230, .device, 64)]

/-- Part of the table of counters. -/
def counters5 : List (Counter × Nat × Scope × Nat) :=
  [(.schedAdmitted, 0xA00300, .part, 64),
   (.schedEmitOnly, 0xA00308, .part, 64),
   (.schedDueLeft, 0xA00310, .part, 64),
   (.schedCarry, 0xA00318, .part, 64),
   (.schedCarryTo, 0xA00320, .part, 64),
   (.schedHoldOut, 0xA00328, .part, 64),
   (.schedOverrun, 0xA00330, .part, 64),
   (.gateWaitVc2, 0xA00338, .part, 64),
   (.gateWaitVc3, 0xA00340, .part, 64),
   (.gateBulkAbort, 0xA00348, .part, 64),
   (.schedBadcfg, 0xA00350, .part, 64),
   (.admGreen, 0xB00100, .part, 64),
   (.admYellow, 0xB00108, .part, 64),
   (.admRed, 0xB00110, .part, 64),
   (.admBadcfg, 0xB00118, .part, 64)]

/-- Part of the table of counters. -/
def counters6 : List (Counter × Nat × Scope × Nat) :=
  [(.hlthThrEvt, 0xE00400, .device, 64),
   (.hlthPupDrop, 0xE00408, .device, 64),
   (.hlthMbxServed, 0xE00410, .device, 64),
   (.clkToFb, 0xF00100, .device, 64),
   (.clkToRec, 0xF00108, .device, 64),
   (.clkFbLoss, 0xF00110, .device, 64),
   (.coreRetired, 0x10100, .core, 64),
   (.coreFaults, 0x10108, .core, 64),
   (.coreSuspends, 0x10110, .core, 64),
   (.coreBadwr, 0x10118, .core, 64),
   (.ykIgnored, 0x0, .hostPort, 32),
   (.retSearches, 0x800100, .part, 64),
   (.retShort, 0x800108, .part, 64),
   (.retDups, 0x800110, .part, 64),
   (.retFiltered, 0x800118, .part, 64)]

/-- Part of the table of counters. -/
def counters7 : List (Counter × Nat × Scope × Nat) :=
  [(.retRecWritten, 0x800120, .part, 64),
   (.retLostPages, 0x800128, .part, 64),
   (.retBadcfg, 0x800130, .device, 64),
   (.rxMsgs, 0x100, .port, 64),
   (.txMsgs, 0x108, .port, 64),
   (.rxFecCorr, 0x110, .port, 64),
   (.rxFecUncorr, 0x118, .port, 64),
   (.rxFcs, 0x120, .port, 64),
   (.rxHdrCrc, 0x128, .port, 64),
   (.rxAddr, 0x130, .port, 64),
   (.rxLen, 0x138, .port, 64),
   (.rxType, 0x140, .port, 64),
   (.rxVc, 0x148, .port, 64),
   (.rxOverrun, 0x150, .port, 64),
   (.rxPause, 0x158, .port, 64)]

/-- Part of the table of counters. -/
def counters8 : List (Counter × Nat × Scope × Nat) :=
  [(.txCreditWait, 0x160, .port, 64),
   (.txDrop, 0x168, .port, 64),
   (.helloRefused, 0x170, .port, 64),
   (.secDenied, 0xC00100, .fn, 64),
   (.secMgmtReject, 0xC00108, .device, 64),
   (.secSigFail, 0xC00110, .part, 64),
   (.ckptTaken, 0xD00100, .device, 64),
   (.ckptDeferred, 0xD00108, .device, 64),
   (.ckptSkipped, 0xD00110, .device, 64),
   (.ckptFailed, 0xD00118, .device, 64),
   (.ckptRestores, 0xD00120, .device, 64),
   (.ckptBytes, 0xD00128, .device, 64)]

/-- The counters with the offset they are read at (BAR0, or the core or port block), their scope and their width
(12 R340, 02 R51, 03 R94, 04 R124, 05 R154, 06 R173, 07 R200, 08 R223, 09 R247, 11 R315, 13 R365, 14 R385, 15 R413,
16 R439, 17 R457, 18 R477). -/
def counterTable : List (Counter × Nat × Scope × Nat) :=
  counters1 ++ counters2 ++ counters3 ++ counters4 ++ counters5 ++ counters6 ++ counters7 ++ counters8

/-- The key of a counter in one scope. -/
def ctrKey (c : Counter) (scope : Nat) : Nat := c.num * 65536 + scope

/-- The value of a counter. -/
def State.ctr (s : State) (c : Counter) (scope : Nat) : Word := tabGet 0 s.ctrs (ctrKey c scope)

/-- Add to a counter, modulo 2^64. -/
def State.bumpBy (s : State) (c : Counter) (scope n : Nat) : State :=
  { s with ctrs := tabPut 0 s.ctrs (ctrKey c scope) (s.ctr c scope + BitVec.ofNat 64 n) }

/-- Count one event. -/
def State.bump (s : State) (c : Counter) (scope : Nat) : State := s.bumpBy c scope 1

end Sys2Proof.Machine
end

