-- ==== Sys2Proof/Machine/Ops.lean ====
section
/-! DEFINITION. The named operations over the state that every block uses: registers, partitions and who owns what, sessions and
handles, completions and interrupts, messages handed to the link, free values. -/

namespace Sys2Proof.Machine

/-- The registers whose value is kept as written or as captured, by name (03 R93, 04 R123, 05 R153, 06 R172, 07 R199, 08 R222,
11 R314, 12 R318, 13 R364, 14 R384, 15 R412, 16 R430, R438, 02 R51). Every other register's fields have a place of their own
in the state. -/
inductive Reg where
  | hifPf0View | sessWin | sfWmark | sfStallLimit | sfPrimer | sfFreeSel | sfPlSel | sfPlDesc | sfProbeSel
  | sfProbe | sfHwinSel | dirDomSel | dirRecSel | dirRec | attModelSel | attTurn | attTurnClr | attKvLast
  | emitModelSel | emitSetSel | emitProfSel | emitLogitsLast | textTokSel | textStopSel | textUntokLast
  | textHeldSel | textHeldCnt | textHeld | schedWin | schedCfg | linkShape | admOverhead | admDomSel
  | ckptCfg | ckptSlotSel | sessTokSel | sessTokInfo | sessTok | retLayout | retIxSel | secDust
  deriving DecidableEq, Repr

/-- The number of a kept register. -/
def Reg.num : Reg → Nat
  | .hifPf0View => 0
  | .sessWin => 1
  | .sfWmark => 2
  | .sfStallLimit => 3
  | .sfPrimer => 4
  | .sfFreeSel => 5
  | .sfPlSel => 6
  | .sfPlDesc => 7
  | .sfProbeSel => 8
  | .sfProbe => 9
  | .sfHwinSel => 10
  | .dirDomSel => 11
  | .dirRecSel => 12
  | .dirRec => 13
  | .attModelSel => 14
  | .attTurn => 15
  | .attTurnClr => 16
  | .attKvLast => 17
  | .emitModelSel => 18
  | .emitSetSel => 19
  | .emitProfSel => 20
  | .emitLogitsLast => 21
  | .textTokSel => 22
  | .textStopSel => 23
  | .textUntokLast => 24
  | .textHeldSel => 25
  | .textHeldCnt => 26
  | .textHeld => 27
  | .schedWin => 28
  | .schedCfg => 29
  | .linkShape => 30
  | .admOverhead => 31
  | .admDomSel => 32
  | .ckptCfg => 33
  | .ckptSlotSel => 34
  | .sessTokSel => 35
  | .sessTokInfo => 36
  | .sessTok => 37
  | .retLayout => 38
  | .retIxSel => 39
  | .secDust => 40

/-- The reset value of a kept register, the same in every scope. -/
def Reg.reset : Reg → Nat
  | .sfWmark => 0xA050A05
  | .sfStallLimit => 0x4
  | .sfPrimer => 0x8004
  | .schedWin => 0x7D0002710019A28
  | .schedCfg => 0x8101000
  | .linkShape => 0x1400400000
  | .admOverhead => 0x40
  | .ckptCfg => 0x3100001F4
  | .secDust => 0x80A0A
  | _ => 0

/-- The kept registers kept once per function, once per port, or once; every other one is kept once per partition. -/
def deviceRegs : List Reg := [.hifPf0View, .sessWin, .sessTokSel, .sessTokInfo, .sessTok, .linkShape, .ckptCfg, .ckptSlotSel, .retLayout, .secDust]

/-- The key of a kept register in a scope. -/
def regKey (r : Reg) (scope : Nat) : Nat := r.num * 65536 + scope

/-- The value of a kept register in one scope (partition, function, port, or 0 for the device). -/
def State.reg (s : State) (r : Reg) (scope : Nat) : Nat := tabGet r.reset s.regs (regKey r scope)

/-- Set a kept register. -/
def State.setReg (s : State) (r : Reg) (scope v : Nat) : State :=
  { s with regs := tabPut r.reset s.regs (regKey r scope) v }

/-! ### Free values -/

/-- The number the next draw gives: nothing constrains it. -/
def State.drawn (s : State) : Nat := Config.pick s.free

/-- The state after a draw. -/
def State.draw (s : State) : State := { s with free := s.free + 1 }

/-- Record something that leaves the device. -/
def State.emitOut (s : State) (o : Out) : State := { s with out := o :: s.out }

/-! ### One block of the state at a time -/

/-- Change the `host` block. -/
def State.modHost (s : State) (f : HostIf → HostIf) : State := { s with host := f s.host }

/-- Change the `fab` block. -/
def State.modFab (s : State) (f : Fabric → Fabric) : State := { s with fab := f s.fab }

/-- Change the `dir` block. -/
def State.modDir (s : State) (f : Directory → Directory) : State := { s with dir := f s.dir }

/-- Change the `att` block. -/
def State.modAtt (s : State) (f : Attention → Attention) : State := { s with att := f s.att }

/-- Change the `beat` block. -/
def State.modBeat (s : State) (f : BeatUnit → BeatUnit) : State := { s with beat := f s.beat }

/-- Change the `emit` block. -/
def State.modEmit (s : State) (f : EmitUnit → EmitUnit) : State := { s with emit := f s.emit }

/-- Change the `text` block. -/
def State.modText (s : State) (f : TextUnit → TextUnit) : State := { s with text := f s.text }

/-- Change the `cores` block. -/
def State.modCores (s : State) (f : Cores → Cores) : State := { s with cores := f s.cores }

/-- Change the `ret` block. -/
def State.modRet (s : State) (f : Retrieval → Retrieval) : State := { s with ret := f s.ret }

/-- Change the `link` block. -/
def State.modLink (s : State) (f : Link → Link) : State := { s with link := f s.link }

/-- Change the `part` block. -/
def State.modPartU (s : State) (f : PartUnit → PartUnit) : State := { s with part := f s.part }

/-- Change the `sec` block. -/
def State.modSec (s : State) (f : Security → Security) : State := { s with sec := f s.sec }

/-- Change the `ckpt` block. -/
def State.modCkpt (s : State) (f : Ckpt → Ckpt) : State := { s with ckpt := f s.ckpt }

/-- Change the `mgmt` block. -/
def State.modMgmt (s : State) (f : Mgmt → Mgmt) : State := { s with mgmt := f s.mgmt }

/-- Change the `pwr` block. -/
def State.modPwr (s : State) (f : Power → Power) : State := { s with pwr := f s.pwr }

/-! ### Power -/

/-- Whether the module runs: nothing runs, counts or listens otherwise (18 R461, R462, R468). -/
def State.up (s : State) : Bool := s.pwr.st == .running

/-- An outcome that only moves to a state. -/
abbrev Out3 := Host.Outcome State Fault Refusal

/-- The effect of a command on a running module; a module that is off, in reset or in a safe state does nothing (R461, R468). -/
def whenUp (s : State) (f : State → State) : Out3 := .next (if s.up then f s else s)

/-! ### Functions, partitions, clusters -/

/-- The PCIe port of a function: 0 for A, 1 for B. Functions are numbered PF0 then VF0 to VF15, port A first. -/
def fnPort (fn : Nat) : Nat := fn / 17

/-- Whether a function is the PF0 of its port. -/
def fnIsPf0 (fn : Nat) : Bool := fn % 17 == 0

/-- The number of PF0 of port A. -/
def pf0A : Nat := 0

/-- The number of functions of both ports. -/
def fnCount : Nat := 34

/-- The partition a function serves (12 R318). -/
def State.fnPart (s : State) (fn : Nat) : Option Nat := tabGet? s.part.fns fn

/-- The partition a Cunis port is bound to (14 R373). -/
def State.portPart (s : State) (p : Nat) : Option Nat := tabGet? s.part.ports p

/-- A partition; one that does not exist reads as an empty one. -/
def State.getPart (s : State) (p : Nat) : Part := tabGet {} s.part.parts p

/-- Change a partition. -/
def State.modPart (s : State) (p : Nat) (f : Part → Part) : State :=
  { s with part := { s.part with parts := tabMod {} s.part.parts p f } }

/-- Whether a partition exists. -/
def State.partExists (s : State) (p : Nat) : Bool := (s.getPart p).st != .none_

/-- The partition that owns a cluster. -/
def State.clusterPart (s : State) (cl : Nat) : Option Nat :=
  (s.part.parts.find? (fun x => x.2.st != .none_ && x.2.clusters.contains cl)).map (·.1)

/-- The clusters of a partition in ascending order. -/
def State.clustersOf (s : State) (p : Nat) : List Nat := (s.getPart p).clusters

/-- The compute die of a cluster (01 R17). -/
def dieOf (cl : Nat) : Nat := cl / 8

/-- Whether a share domain is bound to a partition (14 R375). -/
def State.domBound (s : State) (p d : Nat) : Bool :=
  match tabGet? s.part.doms d with
  | some x => x.part == p
  | none => false

/-- Whether any confidential partition exists (15 R398). -/
def State.anyConf (s : State) : Bool := s.part.parts.any (fun x => x.2.st != .none_ && x.2.conf)

/-- Whether a partition has a cluster on a compute die that is lost (16 R434). -/
def State.dieLost (s : State) (p : Nat) : Bool := (s.clustersOf p).any (fun c => s.ckpt.lostDies.contains (dieOf c))

/-- A model table entry of a partition (05 R125). -/
def State.model (s : State) (p m : Nat) : ModelEnt := tabGet {} s.att.models (p * 256 + m)

/-! ### Sessions -/

/-- The session of an entry number; an unlisted entry is FREE with generation 0. -/
def State.getSess (s : State) (id : Nat) : Sess := tabGet {} s.sess id

/-- Put a session back. -/
def State.setSess (s : State) (id : Nat) (x : Sess) : State := { s with sess := tabPut {} s.sess id x }

/-- Change what the device keeps beside an entry. -/
def State.modSess (s : State) (id : Nat) (f : Sess → Sess) : State := s.setSess id (f (s.getSess id))

/-- One entry update (02 R53): the change, and SEQ two further, modulo 2^16. -/
def State.upd (s : State) (id : Nat) (f : Sess → Sess) : State :=
  s.modSess id (fun x => let y := f x; { y with seq := (x.seq + 2) % 65536 })

/-- The handle of an entry (R27). -/
def handleOf (id : Nat) (x : Sess) : Nat := id + x.gen * 2 ^ 20

/-- The entry number of a handle. -/
def hId (h : Nat) : Nat := h % 2 ^ 20

/-- The generation of a handle. -/
def hGen (h : Nat) : Nat := h / 2 ^ 20 % 256

/-- Whether an entry number lies in a partition's range (R28). -/
def inRange (p : Part) (id : Nat) : Bool :=
  decide (p.groupBase * 4096 ≤ id) && decide (id < (p.groupBase + p.groups) * 4096)

/-- The check of R28: the session a handle names for a partition, or none. -/
def State.handle? (s : State) (p h : Nat) : Option Nat :=
  let id := hId h
  let x := s.getSess id
  if inRange (s.getPart p) id && (x.gen == hGen h) && (x.st != .free) && h < 2 ^ 28 then some id else none

/-- The non-FREE sessions of a partition, by entry number. -/
def State.live (s : State) (p : Nat) : Tab Sess := s.sess.filter (fun x => x.2.st != .free && x.2.part == p)

/-- Positions the session has logged: LENGTH + PENDING (R47). -/
def Sess.total (x : Sess) : Nat := x.length + x.pend

/-- The bytes the seam checker holds for a session (R217, R218): those that a waiting LAST record releases stay until it is written. -/
def Sess.seamNow (x : Sess) : Bytes := if x.lateSeam.isEmpty then x.seam else x.lateSeam

/-- The bytes the UTF-8 stage holds for a session. -/
def Sess.utf8Now (x : Sess) : Bytes := if x.lateUtf8.isEmpty then x.utf8 else x.lateUtf8

/-- The most positions a session holds (R43). -/
def maxPositions : Nat := 2097152

/-! ### Queue sets, completions, interrupts -/

/-- A queue set by function × 64 + number. -/
def State.qs (s : State) (qk : Nat) : QueueSet := tabGet {} s.host.qs qk

/-- Change a queue set. -/
def State.modQs (s : State) (qk : Nat) (f : QueueSet → QueueSet) : State :=
  { s with host := { s.host with qs := tabMod {} s.host.qs qk f } }

/-- Send a vector's message, or set its pending bit where it is masked (12 R332). -/
def State.fireVec (s : State) (fn vec : Nat) : State :=
  let v := tabGet {} s.host.msix (fn * 128 + vec)
  if v.masked then { s with host := { s.host with msix := tabSet s.host.msix (fn * 128 + vec) { v with pba := true } } }
  else s.emitOut (.msix fn vec)

/-- Signal one more completion entry (R332): at once with no coalescing time, or when the count is reached. -/
def State.signalCpl (s : State) (qk : Nat) : State :=
  let q := s.qs qk
  if q.coalT = 0 ∨ q.coalCnt ≤ q.cplUnsig + 1 then
    (s.modQs qk (fun q => { q with cplUnsig := 0 })).fireVec (qk / 64) q.cplVec
  else s.modQs qk (fun q => { q with cplUnsig := q.cplUnsig + 1 })

/-- Signal one more emit record (R332). -/
def State.signalEmit (s : State) (qk : Nat) : State :=
  let q := s.qs qk
  if q.coalT = 0 ∨ q.coalCnt ≤ q.emitUnsig + 1 then
    (s.modQs qk (fun q => { q with emitUnsig := 0 })).fireVec (qk / 64) q.emitVec
  else s.modQs qk (fun q => { q with emitUnsig := q.emitUnsig + 1 })

/-- The 32 bytes of a completion entry (R325). -/
def Cpl.bytes (c : Cpl) : Bytes :=
  natLe 1 (c.kind % 4 + 128 * b2n c.phase) ++ natLe 1 c.status.code ++ natLe 2 c.cmdHead ++ natLe 4 c.cid ++ natLe 4 c.handle ++
    natLe 4 c.res0 ++ natLe 8 c.res1 ++ natLe 8 c.res2

/-- Write one completion entry at CPL_TAIL, bytes 8 to 31 first, and advance it, the phase turning at the wrap (R328); nothing is written for a
queue set that is stopped (R331). -/
def State.postCpl (s : State) (qk : Nat) (c : Cpl) : State :=
  let q := s.qs qk
  if q.en then
    let nxt := q.cplTail + 1
    let wrap := nxt == 2 ^ q.cplLog2
    let e : Cpl := { c with cmdHead := q.cmdHead, phase := q.cplPhase }
    let s1 := (s.emitOut (.cplBody qk q.cplTail (e.bytes.drop 8))).emitOut (.cpl qk q.cplTail e)
    let s2 := s1.modQs qk (fun q =>
      { q with
        cplTail := if wrap then 0 else nxt
        cplPhase := xor q.cplPhase wrap
        cplUsed := q.cplUsed + 1 })
    s2.signalCpl qk
  else s

/-- The free entries of a completion ring, by the latest head doorbell (R320, R327). -/
def cplFree (q : QueueSet) : Nat := 2 ^ q.cplLog2 - q.cplUsed

/-- The free units of an emit ring (R218, R330); a queue set without one has none. -/
def emitFree (q : QueueSet) : Nat := if q.emitLog2 = 0 then 0 else 2 ^ q.emitLog2 - q.emitUsed

/-- Commands of a queue set that still owe their FINAL. -/
def State.inFlight (s : State) (qk : Nat) : Nat := (s.host.cmds.filter (fun c => c.qk == qk)).length

/-- The command of a serial number. -/
def State.cmd? (s : State) (n : Nat) : Option Cmd := s.host.cmds.find? (fun c => c.serial == n)

/-- The command identifier of a command's bytes (R321). -/
def Cmd.cid (c : Cmd) : Nat := field c.raw 4 4

/-- The statuses with which an owning chapter's checks turn a command away (R323). DESIGN CHOICE: 55 (the others are outcomes of its
execution). -/
def Status.refuses : Status → Bool
  | .ok | .short | .stopped | .grammarDead | .limit | .cancelled | .lenOverPages | .policed | .tierFault | .stallTimeout | .untokenisable => false
  | .badSession | .badState | .lenOverLimit | .noSpace | .domainDenied | .versionUnsupported | .formatInvalid | .ckptIncomplete
  | .shapeMismatch | .digestMismatch | .keygroupMismatch | .secureOnly | .locked | .confidential => true

/-- Post a command's FINAL with its results (R325, R326) and let the command go; no effect where it is not in flight. One that its owning
chapter's checks turn away is counted (R340). -/
def State.final (s : State) (serial : Nat) (st : Status) (handle res0 res1 res2 : Nat) : State :=
  match s.cmd? serial with
  | none => s
  | some c =>
    let s0 := if c.fresh && st.refuses then s.bump .hifRejected (c.qk / 64) else s
    let s1 := { s0 with host := { s0.host with cmds := s0.host.cmds.filter (fun x => x.serial != serial) } }
    s1.postCpl c.qk { kind := 0, status := st, cmdHead := 0, cid := c.cid, handle := handle,
                      res0 := res0, res1 := res1, res2 := res2, phase := false }

/-- A FINAL that carries no result. -/
def State.done (s : State) (serial : Nat) (st : Status) : State := s.final serial st 0 0 0 0

/-- The opcodes that name a session (12 R324). -/
def opHasHandle (op : Nat) : Bool := (decide (2 ≤ op) && decide (op ≤ 10)) || op == 0x10

/-- The handle a session command names. -/
def Cmd.sess? (c : Cmd) : Option Nat := if opHasHandle (byteAt c.raw 0) then some (field c.raw 8 4) else none

/-- Whether a command waits for its session: the entry has a lookup or a tokenising in progress, or is being closed, or an earlier
command of it waits (R323: commands that name one session commit in order). -/
def State.cmdWaits (s : State) (c : Cmd) : Bool :=
  match c.sess? with
  | none => false
  | some h =>
    let x := s.getSess (hId h)
    (handleOf (hId h) x == h && (x.busyCmd || x.closeSerial != 0)) ||
      s.host.cmds.any (fun e => e.qk == c.qk && decide (e.serial < c.serial) && !e.started && e.sess? == some h)

/-- The first command of a queue set that has not started and does not wait for its session: commands start in ring order (R323). -/
def State.firstCmd (s : State) (qk : Nat) : Option Cmd := s.host.cmds.find? (fun c => c.qk == qk && !c.started && !s.cmdWaits c)

/-- Mark a command started; it stays in flight until its FINAL. Its owning chapter's checks begin. -/
def State.start (s : State) (serial : Nat) : State :=
  { s with host := { s.host with cmds := listMod (fun c => c.serial == serial) (fun c => { c with started := true, fresh := true }) s.host.cmds } }

/-- The owning chapter's checks of a command that is still in flight have passed. -/
def State.settle (s : State) (serial : Nat) : State :=
  { s with host := { s.host with cmds := listMod (fun c => c.serial == serial) (fun c => { c with fresh := false }) s.host.cmds } }

/-- Run the queue set's first waiting command if it has this opcode: the row's effect on the started command. -/
def withCmd (s : State) (qk op : Nat) (f : State → Cmd → State) : Out3 :=
  whenUp s (fun s =>
    match s.firstCmd qk with
    | some c => if byteAt c.raw 0 = op then (f (s.start c.serial) c).settle c.serial else s
    | none => s)

/-- The code of a status number in the master table, FORMAT_INVALID for any other (09 R241). -/
def statusOfCode (n : Nat) : Status :=
  let l : List Status := [.ok, .short, .stopped, .grammarDead, .limit, .cancelled, .badSession, .badState, .lenOverLimit,
    .lenOverPages, .noSpace, .policed, .domainDenied, .versionUnsupported, .tierFault, .stallTimeout, .formatInvalid,
    .untokenisable, .ckptIncomplete, .shapeMismatch, .digestMismatch, .keygroupMismatch, .secureOnly, .locked, .confidential]
  (l.find? (fun x => x.code == n)).getD .formatInvalid

/-! ### The link -/

/-- A Cunis port. -/
def State.port (s : State) (p : Nat) : Port := tabGet {} s.link.ports p

/-- Change a Cunis port. -/
def State.modPort (s : State) (p : Nat) (f : Port → Port) : State :=
  { s with link := { s.link with ports := tabMod {} s.link.ports p f } }

/-- One virtual channel of a port. -/
def Port.vc (p : Port) : Nat → PortVc
  | 0 => p.vc0
  | 1 => p.vc1
  | 2 => p.vc2
  | _ => p.vc3

/-- Put a virtual channel back. -/
def Port.setVc (p : Port) (n : Nat) (v : PortVc) : Port :=
  match n with
  | 0 => { p with vc0 := v }
  | 1 => { p with vc1 := v }
  | 2 => { p with vc2 := v }
  | _ => { p with vc3 := v }

/-- Queue a message for egress on a port's virtual channel; it leaves as EGRESS_FRAME gives (06 R162). A port bound to no partition
carries only VC0 (14 R367, R374); a port that is not UP carries only HELLO (13 R354): any other message is dropped and counted. -/
def State.send (s : State) (port : Nat) (m : Msg) : State :=
  if m.vc ≠ 0 ∧ (s.portPart port).isNone then s
  else if m.type ≠ 0 ∧ (s.port port).st ≠ .up then s.bump .txDrop port
  else s.modPort port (fun p => let v := p.vc m.vc; p.setVc m.vc { v with egress := v.egress ++ [m] })

/-- The ports bound to a partition on which HELLO has completed, ascending. -/
def State.upPorts (s : State) (p : Nat) : List Nat :=
  (s.part.ports.filter (fun x => x.2 == p && (s.port x.1).st == .up)).map (·.1)

/-- A PART_ command is in progress (14_partitions R371), or a checkpoint or restore, which such a command may not meet (16_checkpoint
R419). -/
def State.partBusy (s : State) : Bool :=
  s.part.creating.isSome || s.part.destroying.isSome || s.part.recomp.isSome || s.ckpt.take.isSome || s.ckpt.restore.isSome

/-! ### Beat -/

/-- The current beat number. -/
def State.now (s : State) : Nat := s.beat.num

/-- The window of a partition's current beat. -/
def State.pwin (s : State) (p : Nat) : PWin := tabGet {} s.beat.wins p

/-- Whether the beat's bulk window is open for a partition. -/
def State.bulkOpen (s : State) (p : Nat) : Bool := s.beat.hold || s.beat.none_ || (s.pwin p).win == .bulk

/-- Whether the bulk window has no known end: in a hold, or after tick P (06_beat R160, R161). -/
def State.bulkEndless (s : State) : Bool := s.beat.hold || s.beat.none_ || decide (s.beat.period ≤ s.beat.tick)

/-- A decode item is queued or running on a core of a die (06_beat R161, R163). -/
def State.decodeOn (s : State) (die : Nat) : Bool :=
  s.att.decodeQ.any (fun q => !q.2.isEmpty && dieOf (q.1 / 8) == die) ||
  s.cores.core.any (fun c => dieOf (c.1 / 8) == die &&
    [c.2.ctx0, c.2.ctx1, c.2.ctx2, c.2.ctx3].any (fun x => x.inv.any (fun v => v.event == 1)))

/-- The roster of a partition's current beat. -/
def State.roster (s : State) (p : Nat) : Roster := tabGet {} s.beat.rosters p

/-- Change a roster. -/
def State.modRoster (s : State) (p : Nat) (f : Roster → Roster) : State :=
  { s with beat := { s.beat with rosters := tabMod {} s.beat.rosters p f } }

end Sys2Proof.Machine
end

