-- ==== Sys2Proof/Machine/Fabric.lean ====
section
/-! DEFINITION. The state fabric's space (03_state_fabric R55 to R70, 02_sessions R47 to R50, R496): sizes of pages, blocks and
token logs, the free space of every region, placement, page lists, the release of blocks. -/

namespace Sys2Proof.Machine

/-! ### Sizes (R55, R56, 05_attention R127 to R129) -/

/-- 4 KiB. -/
def kib4 : Nat := 4096

/-- A byte count rounded up to whole 4 KiB units. -/
def up4k (n : Nat) : Nat := ceilDiv n kib4 * kib4

/-- The bytes of a row of HEAD_DIM elements (R127, R128). -/
def ModelEnt.rowBytes (m : ModelEnt) : Nat :=
  match m.kvFmt with
  | 0 => 2 * m.headDim
  | 1 => m.headDim
  | 2 => m.headDim
  | 3 => m.headDim / 32 * 25
  | 4 => m.headDim / 32 * 25
  | _ => m.headDim / 32 * 17

/-- The page size (R55). -/
def ModelEnt.pageBytes (m : ModelEnt) : Nat := up4k (64 * m.kvheads * 2 * m.rowBytes)

/-- The block size (R55). -/
def ModelEnt.blockBytes (m : ModelEnt) : Nat := m.layers * m.pageBytes

/-- The size of a block's header, in whole 4 KiB pages (R56, R129). -/
def ModelEnt.hdrBytes (m : ModelEnt) : Nat := up4k (m.layers * m.kvheads * 8)

/-- The space of a block's page array in tier 2, whose BASE unit is 256 KiB (R58, R61). -/
def ModelEnt.t2Bytes (m : ModelEnt) : Nat := ceilDiv m.blockBytes 0x40000 * 0x40000

/-- Token-log segments for a count of entries (R48). -/
def logSegs (n : Nat) : Nat := ceilDiv n 1008

/-- The bytes of a segment table in 4 KiB units. -/
def logTable (n : Nat) : Nat := up4k (8 * logSegs n)

/-- The tier-1 bytes of a primary copy: root, table, segments (R48). -/
def logPrimary (n : Nat) : Nat := kib4 + logTable n + kib4 * logSegs n

/-- The bytes of a mirror copy's table and segments (R48). -/
def logMirror (n : Nat) : Nat := logTable n + kib4 * logSegs n

/-! ### Where blocks lie -/

/-- A block's space: its model, tier and place. -/
structure Phys where
  part : Nat
  model : Nat
  tier : Nat
  cluster : Nat
  hdrT : Bool
  base : Nat
  hdr : Nat
  blk : Nat
  deriving DecidableEq, Repr

/-- The space of a session's own blocks. -/
def sessPhys (x : Sess) : List Phys :=
  (x.pages.filter (fun d => d.valid && !d.shared)).map (fun d => ⟨x.part, x.model, d.tier, d.cluster, d.hdrT, d.base, d.hdr, d.blk⟩)

/-- The tier-3 window of a tier address in BASE units (R58). -/
def winOf (base : Nat) : Nat := base / 2 ^ 20 % 256

/-- The blocks a checkpoint has still to read (16 R420). -/
def State.ckReads (s : State) : List CkRead := match s.ckpt.take with
  | some t => t.reads
  | none => []

/-- Every block's space: sessions' own blocks, directory entries' blocks (a block both of a session and of an entry still being
written counts once), blocks a publish keeps to its end, destinations of moves in progress, and the places a checkpoint holds. -/
def State.phys (s : State) : List Phys :=
  let own := (s.sess.filter (fun p => p.2.st != .free)).flatMap (fun p => sessPhys p.2)
  let kept := s.dir.pubs.flatMap (fun q =>
    q.kept.map (fun d => (⟨q.part, q.model, d.tier, d.cluster, d.hdrT, d.base, d.hdr, d.blk⟩ : Phys)))
  let recs := (s.dir.recs.filter (fun r => r.2.st != .free && r.2.blk != 0)).map (fun r =>
    (⟨r.2.part, r.2.model, r.2.tier, r.2.cluster, r.2.hdrT, r.2.base, r.2.hdr, r.2.blk⟩ : Phys))
  let tails := s.dir.pubs.filterMap (fun q => match q.tailPlace with
    | some pl => if recs.any (fun r => r.blk == q.tailBlk) then none
      else some (⟨q.part, q.model, pl.tier, pl.cluster, pl.hdrT, pl.base, pl.hdr, q.tailBlk⟩ : Phys)
    | none => none)
  let dsts := (s.fab.float.filter (fun f => f.kind != .remirror)).filterMap (fun f => match f.dst with
    | some pl => some (⟨f.part, if f.onRec then (tabGet {} s.dir.recs f.sess).model else (s.getSess f.sess).model, pl.tier,
        pl.cluster, pl.hdrT, pl.base, pl.hdr, 0⟩ : Phys)
    | none => none)
  let holds := s.ckReads.filterMap (fun r => r.held.map (fun pl =>
    (⟨r.part, r.model, pl.tier, pl.cluster, pl.hdrT, pl.base, pl.hdr, 0⟩ : Phys)))
  let mine := own ++ kept
  mine ++ recs.filter (fun r => !mine.any (fun o => o.blk == r.blk)) ++ tails ++ dsts ++ holds

/-- KV bytes of a tier-0 slice (R59). -/
def t0Size : Nat := 2812 * 2 ^ 20

/-- Header bytes of a slice's control reservation (R59). -/
def hdr0Size : Nat := 64 * 2 ^ 20

/-- Pages of a slice's page-list pool (R59). -/
def poolSize : Nat := 49152

/-- Bytes of a tier-1 share (R60). -/
def t1Size : Nat := 40 * 2 ^ 30

/-- Tier-0 bytes in use in a cluster's slice. -/
def State.t0Used (s : State) (cl : Nat) : Nat :=
  sumOf (fun x => (s.model x.part x.model).blockBytes) (s.phys.filter (fun x => x.tier == 0 && x.cluster == cl))

/-- Header bytes in use in a slice's control reservation. -/
def State.hdr0Used (s : State) (cl : Nat) : Nat :=
  sumOf (fun x => (s.model x.part x.model).hdrBytes) (s.phys.filter (fun x => !x.hdrT && x.cluster == cl))

/-- Whether the part has no tier 2 (00_scope R1, 03 R92). -/
def State.isN (s : State) : Bool := s.unit.order == .n

/-- Whether one copy of a session's token log (1 the primary, 2 the mirror) takes its space: it is not lost, or its rewrite has begun (R50). -/
def State.hasCopy (s : State) (id : Nat) (x : Sess) (k : Nat) : Bool :=
  (x.lostCopy != k && x.lostCopy != 3) ||
    (x.lostCopy == k && s.fab.float.any (fun f => f.kind == .remirror && f.sess == id && f.dst.isSome))

/-- Tier-1 bytes in use in a cluster's share (R60): page arrays, headers, leaf pages, token-log copies. -/
def State.t1Used (s : State) (cl : Nat) : Nat :=
  sumOf (fun x => (if x.tier = 1 then (s.model x.part x.model).blockBytes else 0) +
      (if x.hdrT then (s.model x.part x.model).hdrBytes else 0)) (s.phys.filter (fun x => x.cluster == cl)) +
  sumOf (fun p => (if p.2.home = cl then kib4 * (p.2.leaves.filter (·.t1)).length else 0) +
      (if p.2.priCl = cl ∧ s.hasCopy p.1 p.2 1 then logPrimary p.2.log.length else 0) +
      (if s.isN ∧ p.2.mirCl = cl ∧ s.hasCopy p.1 p.2 2 then logMirror p.2.log.length else 0))
    (s.sess.filter (fun p => p.2.st != .free))

/-- Free tier-0 KV bytes of a cluster; none on a die that is lost (16 R434). -/
def State.t0Free (s : State) (cl : Nat) : Nat :=
  if s.ckpt.lostDies.contains (dieOf cl) then 0 else t0Size - s.t0Used cl

/-- Free bytes of a cluster's tier-1 share; none once the die's tier 1 is out of service (R91). -/
def State.t1Free (s : State) (cl : Nat) : Nat :=
  if s.fab.dieT1Out.contains (dieOf cl) || s.ckpt.lostDies.contains (dieOf cl) then 0 else t1Size - s.t1Used cl

/-- Tier-2 bytes a partition holds (R61): parked page arrays and the mirrors of its token logs. -/
def State.t2Used (s : State) (p : Nat) : Nat :=
  sumOf (fun x => (s.model x.part x.model).t2Bytes) (s.phys.filter (fun x => x.tier == 2 && x.part == p)) +
    (if s.isN then 0 else sumOf (fun x => if s.hasCopy x.1 x.2 2 then logMirror x.2.log.length else 0) (s.live p))

/-- Free bytes of a partition's tier-2 quota. -/
def State.t2Free (s : State) (p : Nat) : Nat := (s.getPart p).t2Quota * 2 ^ 30 - s.t2Used p

/-- Bytes a tier-3 window holds. -/
def State.winUsed (s : State) (w : Nat) : Nat :=
  sumOf (fun x => up4k (s.model x.part x.model).blockBytes) (s.phys.filter (fun x => x.tier == 3 && winOf x.base == w))

/-- Free bytes of a window; a window that is not enabled has none (R62). -/
def State.winFree (s : State) (w : Nat) : Nat :=
  let x := tabGet {} s.fab.wins w
  if x.en then x.sizeMib * 2 ^ 20 - s.winUsed w else 0

/-- The enabled windows of a partition. -/
def State.winsOf (s : State) (p : Nat) : List Nat := (s.fab.wins.filter (fun x => x.2.en && x.2.part == p)).map (·.1)

/-- Free bytes of a partition's park tiers: its tier-2 quota and its enabled windows (R80). -/
def State.parkFree (s : State) (p : Nat) : Nat := s.t2Free p + sumOf s.winFree (s.winsOf p)

/-- Pages of a home slice's pool in use: top pages and leaf pages (R65). -/
def State.poolUsed (s : State) (cl : Nat) : Nat :=
  sumOf (fun p => if p.2.home = cl ∧ p.2.pages ≠ [] then 1 + (p.2.leaves.filter (fun l => !l.t1)).length else 0)
    (s.sess.filter (fun p => p.2.st != .free))

/-! ### Placement (R67 to R70) -/

/-- Whether a block of a model finds space on a cluster in tier 0 or 1; its header must find room in the same region (R56). -/
def State.hasRoom (s : State) (m : ModelEnt) (cl tier : Nat) : Bool :=
  if tier = 0 then decide (m.blockBytes ≤ s.t0Free cl) && decide (m.hdrBytes ≤ hdr0Size - s.hdr0Used cl)
  else decide (m.blockBytes + m.hdrBytes ≤ s.t1Free cl)

/-- The tiers a class takes, in order (R67). -/
def tierOrder : Policy → List Nat
  | .cold => [1, 0]
  | _ => [0, 1]

/-- The clusters of a partition that take new blocks: those that stay, once a recomposition has quiesced it (14 R378). -/
def State.placeClusters (s : State) (p : Nat) : List Nat :=
  match s.part.recomp with
  | some r =>
    match r.recs.find? (fun q => q.part == p) with
    | some q => if r.stage = .accepted ∨ r.stage = .switched then s.clustersOf p else (s.clustersOf p).filter q.clusters.contains
    | none => s.clustersOf p
  | none => s.clustersOf p

/-- The clusters of a partition in stripe order for a block of a session homed on a cluster (R70). -/
def State.stripe (s : State) (p home b : Nat) : List Nat :=
  let cs := s.placeClusters p
  let k := (cs.findIdx (fun c => c == home) + b) % max 1 cs.length
  cs.drop k ++ cs.take k

/-- The first cluster and tier of an order that have room. -/
def State.firstRoom (s : State) (m : ModelEnt) (tiers : List Nat) (cls : List Nat) : Option (Nat × Nat) :=
  (cls.flatMap (fun c => tiers.map (fun t => (c, t)))).find? (fun x => s.hasRoom m x.1 x.2)

/-- The state of a session as the scraper ranks it: IDLE 0, HOT 1, none otherwise (R80). -/
def stateRank : SState → Option Nat
  | .idle => some 0
  | .hot => some 1
  | _ => none

/-- The sessions that hold a directory entry. -/
def State.holders (s : State) (ix : Nat) : List (Nat × Sess) :=
  s.sess.filter (fun p => p.2.st != .free && p.2.pages.any (fun d => d.valid && d.shared && d.ix == ix))

/-- The block of a session holds a position at or above LENGTH (R75). -/
def tailish (x : Sess) (b : Nat) : Bool := decide (x.length < 64 * (b + 1))

/-- Whether a session's own block may be demoted from tier 0 (R75, R79). -/
def canDemote (x : Sess) (b : Nat) : Bool :=
  x.policy != .pinHot && (x.st == .idle || (x.st == .hot && !tailish x b))

/-- Whether an undercoat entry's block may be demoted (R79): a VALID entry's, or a RETIRED one's that is still held, where no RUNNING
session holds it. A record a publish still writes is no entry yet. -/
def State.canDemoteRec (s : State) (ix : Nat) (r : Rec) : Bool :=
  (r.st == .valid || (r.st == .retired && r.refs != 0)) && r.tier == 0 && r.blk != 0 && !(s.holders ix).any (fun h => h.2.st == .running)

/-- Whether some block of a cluster's slice is one that the scraper may demote (R79). -/
def State.demotable (s : State) (cl : Nat) : Bool :=
  s.sess.any (fun p => p.2.st != .free && (p.2.pages.zipIdx).any (fun d =>
    d.1.valid && !d.1.shared && d.1.tier == 0 && d.1.cluster == cl && canDemote p.2 d.2)) ||
  s.dir.recs.any (fun r => r.2.cluster == cl && s.canDemoteRec r.1 r.2)

/-- Where a block goes (R70): cluster, tier, and whether a PIN_HOT block spills; none where it must wait for space. -/
def State.placeBlock (s : State) (p : Nat) (m : ModelEnt) (home : Nat) (pol : Policy) (b : Nat) : Option (Nat × Nat × Bool) :=
  let order := s.stripe p home b
  match pol with
  | .pinHot =>
    match s.firstRoom m [0] order with
    | some x => some (x.1, x.2, false)
    | none =>
      if (s.placeClusters p).any s.demotable then none
      else (s.firstRoom m [1] order).map (fun x => (x.1, x.2, true))
  | _ => (s.firstRoom m (tierOrder pol) order).map (fun x => (x.1, x.2, false))

/-! ### Free addresses (R495, R58, R59) -/

/-- The free ranges of a region up to `hi`, from `lo` on, beside used ranges given by rising start. -/
def gaps (hi : Nat) : Nat → List (Nat × Nat) → List (Nat × Nat)
  | lo, [] => [(lo, hi - lo)]
  | lo, (a, n) :: t => (lo, min a hi - lo) :: gaps hi (max lo (a + n)) t

/-- How many places a range of `n` units has in some free ranges. -/
def placesIn (n : Nat) (l : List (Nat × Nat)) : Nat := sumOf (fun g => g.2 + 1 - n) l

/-- The k-th of those places. -/
def placeNo (n : Nat) : Nat → List (Nat × Nat) → Nat
  | _, [] => 0
  | k, (a, g) :: t => if k < g + 1 - n then a + k else placeNo n (k - (g + 1 - n)) t

/-- A free address for a range of `n` units in a region, the free number `k` saying which (R495). Where no one free range is long enough
the spec says nothing: the place is then any that lies in the region. -/
def freeAddr (used : List (Nat × Nat)) (lo hi n k : Nat) : Nat :=
  let g := gaps hi lo (listSort (fun (a b : Nat × Nat) => decide (a.1 < b.1)) used)
  if 0 < placesIn n g then placeNo n (k % placesIn n g) g else lo + k % (hi - lo + 1 - n)

/-- The tier-2 space all partitions share (11_flash R292, R293): USABLE_GIB − INDEX_GIB; none without flash. -/
def State.usableGib (s : State) : Nat := match s.unit.order with
  | .f64 => 57344
  | .f16 => 14336
  | .n => 0

/-- INDEX_GIB. -/
def State.indexGib (s : State) : Nat := s.reg .retLayout 0 % 2 ^ 16

/-- The 4 KiB units of a slice's KV space; the page-list pool and the headers' space follow it (R59). -/
def sliceKv : Nat := 719872

/-- The end of the page-list pool. -/
def slicePool : Nat := 769024

/-- The end of the space for headers. -/
def sliceHdr : Nat := 785408

/-- The 4 KiB units of a die's tier-1 space (R58). -/
def dieUnits : Nat := 83886080

/-- The units of the parked-state region, of 256 KiB (R58, 11_flash R292). -/
def State.parkUnits (s : State) : Nat := (s.usableGib - s.indexGib) * 4096

/-- The ranges in use in a cluster's KV space, in 4 KiB units. -/
def State.usedKv (s : State) (cl : Nat) : List (Nat × Nat) :=
  (s.phys.filter (fun x => x.tier == 0 && x.cluster == cl)).map (fun x => (x.base, (s.model x.part x.model).blockBytes / kib4))

/-- The ranges headers take in a cluster's control reservation. -/
def State.usedHdr (s : State) (cl : Nat) : List (Nat × Nat) :=
  (s.phys.filter (fun x => !x.hdrT && x.cluster == cl)).map (fun x => (x.hdr, (s.model x.part x.model).hdrBytes / kib4))

/-- The pages in use in a home cluster's page-list pool. -/
def State.usedPool (s : State) (cl : Nat) : List (Nat × Nat) :=
  (s.sess.filter (fun p => p.2.st != .free && p.2.home == cl && p.2.pageRoot != 0)).flatMap (fun p =>
    (p.2.pageRoot, 1) :: (p.2.leaves.filter (fun l => !l.t1)).map (fun l => (l.addr, 1)))

/-- The ranges one copy of a token log takes. -/
def LogCopy.ranges (c : LogCopy) (root : Bool) : List (Nat × Nat) :=
  (if root then [(c.root, 1)] else []) ++ (c.tab, c.tabLen) :: c.segs.map (fun a => (a, 1))

/-- The ranges in use in a die's tier-1 space (R60): page arrays, headers, leaf pages, token-log copies. -/
def State.usedDie (s : State) (die : Nat) : List (Nat × Nat) :=
  (s.phys.filter (fun x => dieOf x.cluster == die)).flatMap (fun x =>
    (if x.tier = 1 then [(x.base, (s.model x.part x.model).blockBytes / kib4)] else []) ++
    (if x.hdrT then [(x.hdr, (s.model x.part x.model).hdrBytes / kib4)] else [])) ++
  (s.sess.filter (fun p => p.2.st != .free)).flatMap (fun p =>
    (if dieOf p.2.home = die then (p.2.leaves.filter (·.t1)).map (fun l => (l.addr, 1)) else []) ++
    (if dieOf p.2.priCl = die ∧ s.hasCopy p.1 p.2 1 then p.2.pri.ranges true else []) ++
    (if s.isN ∧ dieOf p.2.mirCl = die ∧ s.hasCopy p.1 p.2 2 then p.2.mir.ranges false else []))

/-- The ranges in use in the parked-state region, in 4 KiB units: parked page arrays and token-log mirrors. -/
def State.usedPark (s : State) : List (Nat × Nat) :=
  (s.phys.filter (fun x => x.tier == 2)).map (fun x => (64 * x.base, (s.model x.part x.model).t2Bytes / kib4)) ++
  (if s.isN then [] else (s.sess.filter (fun p => p.2.st != .free && s.hasCopy p.1 p.2 2)).flatMap (fun p => p.2.mir.ranges false))

/-- The ranges in use in a window, in 4 KiB units. -/
def State.usedWin (s : State) (w : Nat) : List (Nat × Nat) :=
  (s.phys.filter (fun x => x.tier == 3 && winOf x.base == w)).map (fun x =>
    (x.base % 2 ^ 20, up4k (s.model x.part x.model).blockBytes / kib4))

/-- An address in a die's tier-1 space. -/
def State.dieAddr (s : State) (die n k : Nat) (more : List (Nat × Nat)) : Nat := freeAddr (more ++ s.usedDie die) 0 dieUnits n (Config.pick k)

/-- A place for a block of a model in tier 0 or 1 of a cluster: which free addresses the device takes are free values (R495). -/
def State.placeAt (s : State) (m : ModelEnt) (cl tier : Nat) : Place × State :=
  let n := m.blockBytes / kib4
  let h := m.hdrBytes / kib4
  let base := if tier = 0 then freeAddr (s.usedKv cl) 0 sliceKv n (Config.pick s.free) else s.dieAddr (dieOf cl) n s.free []
  let hdr := if tier = 0 then freeAddr (s.usedHdr cl) slicePool sliceHdr h (Config.pick (s.free + 1))
    else s.dieAddr (dieOf cl) h (s.free + 1) [(base, n)]
  ({ tier := tier, cluster := cl, base := base, hdrT := tier != 0, hdr := hdr }, { s with free := s.free + 2 })

/-- A place for a block of a model in tier 2, or in a window of tier 3; the header stays in tier 1 of the block's cluster (R56). -/
def State.parkAt (s : State) (m : ModelEnt) (cl tier win : Nat) : Place × State :=
  let base := if tier = 3 then
      win * 2 ^ 20 + freeAddr (s.usedWin win) 0 ((tabGet {} s.fab.wins win).sizeMib * 256) (up4k m.blockBytes / kib4) (Config.pick s.free)
    else freeAddr (s.usedPark.map (fun r => (r.1 / 64, ceilDiv (r.1 + r.2) 64 - r.1 / 64))) 0 s.parkUnits (m.t2Bytes / 0x40000)
      (Config.pick s.free)
  ({ tier := tier, cluster := cl, base := base, hdrT := true, hdr := s.dieAddr (dieOf cl) (m.hdrBytes / kib4) (s.free + 1) [] },
   { s with free := s.free + 2 })

/-- The flash channel of the k-th 256 KiB unit of a parked page array (R61). -/
def chanOf (sess block k : Nat) : Nat := (sess + block + k) % 32

/-- A fresh block identity with no content. -/
def State.newBlk (s : State) : Nat × State := (s.fab.nextBlk, { s with fab := { s.fab with nextBlk := s.fab.nextBlk + 1 } })

/-- The content of a block. -/
def State.blk (s : State) (b : Nat) : KvBlk := tabGet {} s.fab.kv b

/-- Put a block's content. -/
def State.setBlk (s : State) (b : Nat) (k : KvBlk) : State := { s with fab := { s.fab with kv := tabSet s.fab.kv b k } }

/-- Change the blocks a checkpoint has still to read. -/
def State.modReads (s : State) (f : List CkRead → List CkRead) : State :=
  { s with ckpt := { s.ckpt with take := s.ckpt.take.map (fun t => { t with reads := f t.reads }) } }

/-- A block's place is held until the checkpoint has read it (16 R420). -/
def State.holdPlace (s : State) (blk : Nat) (pl : Place) : State :=
  s.modReads (listMod (fun r => r.blk == blk && r.held.isNone) (fun r => { r with held := some pl }))

/-- Let a block's content go. -/
def State.dropBlk (s : State) (b : Nat) : State := { s with fab := { s.fab with kv := tabErase s.fab.kv b } }

/-- The place a descriptor names. -/
def Desc.place (d : Desc) : Place := { tier := d.tier, cluster := d.cluster, base := d.base, hdrT := d.hdrT, hdr := d.hdr }

/-- Let an own block go; a checkpoint that has not read it yet holds its place (16 R420). -/
def State.letBlk (s : State) (d : Desc) : State := (s.holdPlace d.blk d.place).dropBlk d.blk

/-! ### Page lists (R63 to R66) -/

/-- The descriptor of block b of a session. -/
def Sess.desc (x : Sess) (b : Nat) : Desc := x.pages.getD b {}

/-- A descriptor with its location, taken from the record where it is shared (04 R106). -/
def State.locate (s : State) (d : Desc) : Desc :=
  if d.shared then
    let r := tabGet {} s.dir.recs d.ix
    { d with tier := r.tier, cluster := r.cluster, hdrT := r.hdrT, base := r.base, hdr := r.hdr, blk := r.blk }
  else d

/-- The positions a page list covers (R44). -/
def Sess.covered (x : Sess) : Nat := sumOf (·.fill) (x.pages.filter (·.valid))

/-- Whether a page-list page is free for a session's list: in its home slice's pool, else, for a leaf, in the home cluster's
tier-1 share (R65). The answer is the leaf's tier bit. -/
def State.leafRoom (s : State) (x : Sess) (extra : Nat) : Option Bool :=
  if s.poolUsed x.home + 1 + extra ≤ poolSize then some false
  else if kib4 ≤ s.t1Free x.home then some true
  else none

/-- The page list made ready for a block index: a top page before the first block, a leaf page where the index needs a new one.
`error true` where no top page is free, `error false` where no leaf page is (R65). -/
def State.readyList (s : State) (id b : Nat) : Except Bool State :=
  let x := s.getSess id
  let top := x.pages = []
  if top && decide (poolSize ≤ s.poolUsed x.home) then .error true
  else
    let s1 := if top then
        (s.modSess id (fun x => { x with
          pageRoot := freeAddr (s.usedPool x.home) sliceKv slicePool 1 (Config.pick s.free) })).draw
      else s
    if b / 256 < x.leaves.length then .ok s1
    else match s.leafRoom x (if top then 1 else 0) with
      | some t =>
        let a := if t then s1.dieAddr (dieOf x.home) 1 s1.free [] else freeAddr (s1.usedPool x.home) sliceKv slicePool 1 (Config.pick s1.free)
        .ok (s1.modSess id (fun x => { x with leaves := x.leaves ++ [{ t1 := t, addr := a }] })).draw
      | none => .error false

/-- Append or replace the descriptor of a block. -/
def Sess.putDesc (x : Sess) (b : Nat) (d : Desc) : Sess :=
  { x with pages := if b < x.pages.length then x.pages.set b d else x.pages ++ [d] }

/-- USED of a leaf pointer (R64): the descriptors in use in leaf k. -/
def Sess.leafUsed (x : Sess) (k : Nat) : Nat := min 256 (x.pages.length - 256 * k)

/-- The 16 bytes of the pointer to leaf k (R64). -/
def Sess.leafPtr (x : Sess) (k : Nat) : Bytes :=
  let l := x.leaves.getD k {}
  let b := natLe 8 (b2n l.t1 + l.addr * 2 ^ 12) ++ natLe 2 (x.leafUsed k) ++ natLe 2 0
  b ++ natLe 4 (crc32c b)

/-- Allocate a new own block b for a session as R70 places it, with its descriptor (R133); none where it finds no space. The page-list
pages take their space first (R65). The first block writes PAGE_ROOT, which is an entry update (02 R53). -/
def State.newBlock (s : State) (id b : Nat) : Option State :=
  let x := s.getSess id
  let m := s.model x.part x.model
  match s.readyList id b with
  | .error _ => none
  | .ok s0 =>
    match s0.placeBlock x.part m x.home x.policy b with
    | none => none
    | some (cl, tier, spill) =>
      let s1 := if x.pages = [] then s0.upd id (fun x => x) else s0
      let (pl, s2) := s1.placeAt m cl tier
      let (k, s3) := s2.newBlk
      let s4 := s3.modSess id (fun x => x.putDesc b
        { valid := true, tier := pl.tier, cluster := pl.cluster, hdrT := pl.hdrT, base := pl.base, hdr := pl.hdr, blk := k })
      some (if spill then s4.bump .sfEvtPinSpill x.part else s4)

/-! ### Releasing -/

/-- Drop the float requests of a session, releasing their destinations (R78). -/
def State.dropMoves (s : State) (id : Nat) : State :=
  { s with fab := { s.fab with float := s.fab.float.filter (fun f => f.onRec || f.sess != id) } }

/-- Queue a float request: a request that is queued again keeps its place (R76). -/
def State.queueMove (s : State) (f : FReq) : State :=
  if s.fab.float.any (fun g => g.kind == f.kind && g.onRec == f.onRec && g.sess == f.sess && g.block == f.block) then s
  else { s with fab := { s.fab with float := s.fab.float ++ [f] } }

/-! ### Token logs (02_sessions R47 to R50, R496) -/

/-- The dies of a partition in the order (d + 1), (d + 2), (d + 3) modulo 4, with its lowest cluster on each. -/
def State.otherDies (s : State) (p d : Nat) : List Nat :=
  [1, 2, 3].filterMap (fun k => (s.clustersOf p).find? (fun c => dieOf c == (d + k) % 4))

/-- The cluster whose share takes a mirror on ZV9620-N (R49). -/
def State.mirrorCluster (s : State) (p home : Nat) : Nat :=
  match s.otherDies p (dieOf home) with
  | c :: _ => c
  | [] => ((s.clustersOf p).find? (fun c => c != home)).getD home

/-- Whether the space a log of `n` more entries needs is in hand (R496): `ok`, or the region that lacks it (1 tier 1, 2 tier 2). -/
def State.logRoom (s : State) (id n : Nat) : Option Nat :=
  let x := s.getSess id
  let a := x.log.length
  let dp := logPrimary (a + n) - logPrimary a
  let dm := logMirror (a + n) - logMirror a
  if s.hasCopy id x 1 ∧ s.t1Free x.priCl < dp + (if s.isN ∧ x.mirCl = x.priCl ∧ s.hasCopy id x 2 then dm else 0) then some 1
  else if !s.hasCopy id x 2 then none
  else if s.isN then (if s.t1Free x.mirCl < dm then some 1 else none)
  else if s.t2Free x.part < dm then some 2
  else none

/-- The 4,096 bytes of a segment (R48): its entries, FIRST_POS, USED, and the CRC over what stands before it. -/
def segBytes (first : Nat) (l : List LogTok) : Bytes :=
  let b := fit 0 4032 (l.flatMap (fun t => natLe 4 (t.tok + t.src * 2 ^ 18))) ++ natLe 4 first ++ natLe 2 l.length ++ List.replicate 54 0
  b ++ natLe 4 (crc32c b)

/-- The segments of a token log. -/
def Sess.segments (x : Sess) : List Bytes :=
  ((chunks 1008 (x.log.length + 1) x.log).zipIdx).map (fun p => segBytes (1008 * p.2) p.1)

/-- The 64 bytes of a copy's root record (R48): LOG_VER and COUNT, the tier address of the segment table, SEGMENTS, the CRC. -/
def Sess.rootBytes (x : Sess) (c : LogCopy) : Bytes :=
  let b := natLe 4 (1 + x.log.length * 2 ^ 4) ++ natLe 4 0 ++ natLe 8 (c.tab * kib4) ++ natLe 2 c.segs.length ++ List.replicate 42 0
  b ++ natLe 4 (crc32c b)

/-- Whether a segment or a root reads back intact (R48): its last four bytes are the CRC of the bytes before them. -/
def logReadOk (b : Bytes) : Bool := leNat (b.drop (b.length - 4)) == crc32c (b.take (b.length - 4))

/-- A copy's places grown for `n` entries (R48, R495): new segments, and a new table where the old one is too short. -/
def growCopy (used : List (Nat × Nat)) (hi n k : Nat) (c : LogCopy) : LogCopy :=
  let segs := (List.range (logSegs n - c.segs.length)).foldl (fun (l : List Nat) i =>
    l ++ [freeAddr (used ++ l.map (fun a => (a, 1))) 0 hi 1 (Config.pick (k + 1 + i))]) c.segs
  let len := logTable n / kib4
  if len = c.tabLen then { c with segs := segs }
  else { c with segs := segs, tabLen := len, tab := freeAddr (used ++ segs.map (fun a => (a, 1))) 0 hi len (Config.pick k) }

/-- The ranges in use in the region that takes a session's mirror, and the region's end (R48, R49). -/
def State.mirRegion (s : State) (x : Sess) : List (Nat × Nat) × Nat :=
  if s.isN then (s.usedDie (dieOf x.mirCl), dieUnits) else (s.usedPark, 64 * s.parkUnits)

/-- The places of both copies follow the log (R48): a copy that is lost takes none until it is rewritten. -/
def State.logGrow (s : State) (id : Nat) : State :=
  let x := s.getSess id
  let n := x.log.length
  let p := if !s.hasCopy id x 1 then x.pri else growCopy (s.usedDie (dieOf x.priCl)) dieUnits n s.free x.pri
  let s1 := s.modSess id (fun x => { x with pri := p })
  let r := s1.mirRegion x
  let m := if !s.hasCopy id x 2 then x.mir else growCopy r.1 r.2 n (s.free + 2 ^ 12) x.mir
  { s1.modSess id (fun x => { x with mir := m }) with free := s.free + 2 ^ 13 }

/-- Log entries of a session; the first one not yet in the mirror starts the 64-beat wait. The staging buffer holds one segment: those filled
before it reach the mirror on the way (R49). -/
def State.logPut (s : State) (id : Nat) (l : List LogTok) : State :=
  if l.isEmpty then s
  else (s.modSess id (fun x =>
    let n := x.log.length + l.length
    let full := if x.mirrored < (n - 1) / 1008 * 1008 ∧ x.lostCopy ≠ 2 then (n - 1) / 1008 * 1008 else x.mirrored
    { x with log := x.log ++ l
             mirrored := full
             mirrorBeat := if x.mirrored = x.log.length ∨ full ≠ x.mirrored then s.now else x.mirrorBeat })).logGrow id

/-- The staged entries of a session are due in its mirror (R49): a segment is full, the session is not RUNNING, or 64 beats have gone by. -/
def State.flushDue (s : State) (x : Sess) : Bool :=
  decide (x.mirrored < x.log.length) &&
    (decide (x.mirrored / 1008 < x.log.length / 1008) || x.st != .running || decide (x.mirrorBeat + 64 ≤ s.now))

/-- The staging buffer takes no further token of a step: it still holds a full segment (R49, 03 R87 FLASH_LATE). -/
def Sess.stageFull (x : Sess) : Bool := decide (x.mirrored / 1008 < x.log.length / 1008) && x.lostCopy != 2

end Sys2Proof.Machine
end

