-- ==== Sys2Proof/Machine/Float.lean ====
section
/-! DEFINITION. Exact binary floating point: every format the spec stores (FP32, BF16, FP8, MXFP6, MXFP4), read as an exact
number and written back by one rounding to nearest, ties to even (05_attention R127, R134; 10_scaesh R258). -/

namespace Sys2Proof.Machine

/-- What a stored floating-point value is: not a number, an infinity, or ±m·2^e exactly. -/
inductive FVal where
  /-- Not a number. -/
  | nan
  /-- An infinity, negative or positive. -/
  | inf (neg : Bool)
  /-- The number ±m·2^e; m = 0 is a signed zero. -/
  | fin (neg : Bool) (m : Nat) (e : Int)
  deriving DecidableEq, Repr

/-- What a format does with the top exponent. -/
inductive FTop where
  /-- IEEE: infinities and NaNs take the whole top exponent. -/
  | ieee
  /-- Only the all-ones code is NaN, there are no infinities (E4M3). -/
  | nanOnly
  /-- Every code is a number (the MX element formats). -/
  | finite
  deriving DecidableEq, Repr

/-- A binary format: exponent bits, mantissa bits, and the use of its top exponent. The bias is 2^(eb−1) − 1. -/
structure FFmt where
  eb : Nat
  mb : Nat
  top : FTop
  deriving DecidableEq, Repr

/-- FP32. -/
def fp32 : FFmt := ⟨8, 23, .ieee⟩
/-- BF16. -/
def bf16 : FFmt := ⟨8, 7, .ieee⟩
/-- FP16. -/
def fp16 : FFmt := ⟨5, 10, .ieee⟩
/-- FP8 E4M3. -/
def e4m3 : FFmt := ⟨4, 3, .nanOnly⟩
/-- FP8 E5M2. -/
def e5m2 : FFmt := ⟨5, 2, .ieee⟩
/-- MXFP6 E3M2 element. -/
def e3m2 : FFmt := ⟨3, 2, .finite⟩
/-- MXFP6 E2M3 element. -/
def e2m3 : FFmt := ⟨2, 3, .finite⟩
/-- MXFP4 E2M1 element. -/
def e2m1 : FFmt := ⟨2, 1, .finite⟩

namespace FFmtOps

/-- The exponent bias. -/
def bias (f : FFmt) : Int := 2 ^ (f.eb - 1) - 1

/-- The width of a code in bits. -/
def width (f : FFmt) : Nat := 1 + f.eb + f.mb

/-- The magnitude code of the largest finite number. -/
def maxCode (f : FFmt) : Nat :=
  match f.top with
  | .ieee => (2 ^ f.eb - 1) * 2 ^ f.mb - 1
  | .nanOnly => 2 ^ (f.eb + f.mb) - 2
  | .finite => 2 ^ (f.eb + f.mb) - 1

end FFmtOps

/-- The exact number a code stands for. -/
def fDecode (f : FFmt) (c : Nat) : FVal :=
  let neg := bitAt c (f.eb + f.mb)
  let mag := c % 2 ^ (f.eb + f.mb)
  if FFmtOps.maxCode f < mag then
    (match f.top with
     | .ieee => if mag = FFmtOps.maxCode f + 1 then .inf neg else .nan
     | _ => .nan)
  else
    let ex := mag / 2 ^ f.mb
    let mant := mag % 2 ^ f.mb
    let emin : Int := 1 - FFmtOps.bias f - f.mb
    if ex = 0 then .fin neg mant emin else .fin neg (mant + 2 ^ f.mb) (emin + (ex - 1 : Nat))

/-- m / 2^k rounded to nearest, ties to even. -/
def rneShift (m k : Nat) : Nat :=
  let q := m / 2 ^ k
  let r := 2 * (m % 2 ^ k)
  if 2 ^ k < r ∨ (r = 2 ^ k ∧ q % 2 = 1) then q + 1 else q

/-- The magnitude code of m·2^e rounded to nearest even, before any overflow rule; it may lie past the largest finite code. -/
def fRoundMag (f : FFmt) (m : Nat) (e : Int) : Nat :=
  if m = 0 then 0
  else
    let emin : Int := 1 - FFmtOps.bias f
    let E : Int := e + Nat.log2 m
    let top : Int := max E emin
    let q : Int := top - f.mb
    let mant := if q ≤ e then m * 2 ^ (e - q).toNat else rneShift m (q - e).toNat
    if E < emin then mant else (top - emin).toNat * 2 ^ f.mb + mant

/-- The NaN code a format writes (the quiet NaN with a clear sign). -/
def fNan (f : FFmt) : Nat :=
  match f.top with
  | .ieee => FFmtOps.maxCode f + 1 + 2 ^ (f.mb - 1)
  | _ => 2 ^ (f.eb + f.mb) - 1

/-- The code with a sign put on a magnitude. -/
def fSign (f : FFmt) (neg : Bool) (mag : Nat) : Nat := b2n neg * 2 ^ (f.eb + f.mb) + mag

/-- Write a value: one rounding, overflow to infinity (IEEE) or to the largest finite number. -/
def fEncode (f : FFmt) (v : FVal) : Nat :=
  match v with
  | .nan => fNan f
  | .inf neg =>
    match f.top with
    | .ieee => fSign f neg (FFmtOps.maxCode f + 1)
    | _ => fSign f neg (FFmtOps.maxCode f)
  | .fin neg m e =>
    let c := fRoundMag f m e
    if FFmtOps.maxCode f < c then
      (match f.top with
       | .ieee => fSign f neg (FFmtOps.maxCode f + 1)
       | _ => fSign f neg (FFmtOps.maxCode f))
    else fSign f neg c

/-- Write a value, saturating at the largest finite number; the flag says that it saturated. -/
def fEncodeSat (f : FFmt) (v : FVal) : Nat × Bool :=
  match v with
  | .nan => (fNan f, false)
  | .inf neg => (fSign f neg (FFmtOps.maxCode f), true)
  | .fin neg m e =>
    let c := fRoundMag f m e
    if FFmtOps.maxCode f < c then (fSign f neg (FFmtOps.maxCode f), true) else (fSign f neg c, false)

/-- The signed integer multiple of 2^e0 that a finite number is, for e0 no larger than its exponent. -/
def fScaled (neg : Bool) (m : Nat) (e e0 : Int) : Int :=
  let x : Int := m * 2 ^ (e - e0).toNat
  if neg then -x else x

/-- A signed integer times 2^e as an exact value; a zero takes the given sign. -/
def fOfInt (zneg : Bool) (x e : Int) : FVal := .fin (if x = 0 then zneg else decide (x < 0)) x.natAbs e

/-- Exact sum. Opposite infinities give NaN; an exact zero of opposite signs is +0. -/
def fAdd (a b : FVal) : FVal :=
  match a, b with
  | .nan, _ => .nan
  | _, .nan => .nan
  | .inf s, .inf t => if s = t then .inf s else .nan
  | .inf s, _ => .inf s
  | _, .inf t => .inf t
  | .fin s m e, .fin t n g =>
    let e0 := min e g
    fOfInt (s && t) (fScaled s m e e0 + fScaled t n g e0) e0

/-- The value with its sign turned. -/
def fNeg : FVal → FVal
  | .nan => .nan
  | .inf s => .inf (!s)
  | .fin s m e => .fin (!s) m e

/-- The value without its sign. -/
def fAbs : FVal → FVal
  | .nan => .nan
  | .inf _ => .inf false
  | .fin _ m e => .fin false m e

/-- Exact product. Zero times infinity gives NaN. -/
def fMul (a b : FVal) : FVal :=
  match a, b with
  | .nan, _ => .nan
  | _, .nan => .nan
  | .inf s, .inf t => .inf (s != t)
  | .inf s, .fin t n _ => if n = 0 then .nan else .inf (s != t)
  | .fin s m _, .inf t => if m = 0 then .nan else .inf (s != t)
  | .fin s m e, .fin t n g => .fin (s != t) (m * n) (e + g)

/-- The value times 2^k. -/
def fScale (v : FVal) (k : Int) : FVal :=
  match v with
  | .fin s m e => .fin s m (e + k)
  | v => v

/-- Whether a value is NaN. -/
def fIsNan : FVal → Bool
  | .nan => true
  | _ => false

/-- Whether a value is a zero of either sign. -/
def fIsZero : FVal → Bool
  | .fin _ m _ => m == 0
  | _ => false

/-- Numeric order; false where either is NaN; the two zeros are equal. -/
def fLt (a b : FVal) : Bool :=
  match a, b with
  | .nan, _ => false
  | _, .nan => false
  | .inf s, .inf t => s && !t
  | .inf s, _ => s
  | _, .inf t => !t
  | .fin s m e, .fin t n g =>
    let e0 := min e g
    decide (fScaled s m e e0 < fScaled t n g e0)

/-- Numeric equality; false where either is NaN. -/
def fEq (a b : FVal) : Bool := !fIsNan a && !fIsNan b && !fLt a b && !fLt b a

/-- Read FP32 bits. -/
def f32 (w : W32) : FVal := fDecode fp32 w.toNat

/-- Write FP32 bits, rounded to nearest even. -/
def toF32 (v : FVal) : W32 := BitVec.ofNat 32 (fEncode fp32 v)

/-- FP32 addition. -/
def f32Add (a b : W32) : W32 := toF32 (fAdd (f32 a) (f32 b))

/-- FP32 multiplication. -/
def f32Mul (a b : W32) : W32 := toF32 (fMul (f32 a) (f32 b))

/-- FP32 fused multiply-add, one rounding. -/
def f32Fma (a b c : W32) : W32 := toF32 (fAdd (fMul (f32 a) (f32 b)) (f32 c))

/-- The FP32 bits of +0, 1, the infinities and the NaN the device writes. -/
def f32Zero : W32 := 0
/-- FP32 one. -/
def f32One : W32 := 0x3F800000
/-- FP32 +∞. -/
def f32Inf : W32 := 0x7F800000
/-- FP32 −∞. -/
def f32NegInf : W32 := 0xFF800000
/-- FP32 quiet NaN. -/
def f32Nan : W32 := 0x7FC00000

/-- An integer as an exact value. -/
def fInt (x : Int) : FVal := fOfInt false x 0

/-- n / d as a rational rounded to FP32: quotient bits enough for one correct rounding, the remainder kept sticky. -/
def f32OfRat (neg : Bool) (n d : Nat) : W32 :=
  if d = 0 then f32Nan
  else
    let k := 64 + Nat.log2 d
    let q := n * 2 ^ k / d
    let st := if n * 2 ^ k % d = 0 then 0 else 1
    toF32 (.fin neg (2 * q + st) (-(k : Int) - 1))

/-- FP32 a / b for finite values, b not zero, one rounding. -/
def f32Div (a b : W32) : W32 :=
  match f32 a, f32 b with
  | .fin na ma ea, .fin nb mb eb =>
    if mb = 0 then f32Nan
    else if ma = 0 then (if na != nb then 0x80000000 else 0)
    else
      let q := ma * 2 ^ 200 / mb
      toF32 (.fin (na != nb) (2 * q + b2n (q * mb != ma * 2 ^ 200)) (ea - eb - 201))
  | .inf na, .fin nb _ _ => if na != nb then f32NegInf else f32Inf
  | .fin na _ _, .inf nb => if na != nb then 0x80000000 else 0
  | _, _ => f32Nan

/-- ⌈log2⌉ of a positive exact number m·2^e. -/
def ceilLog2 (m : Nat) (e : Int) : Int := e + Nat.log2 m + (if m = 2 ^ Nat.log2 m then 0 else 1)

/-- The largest magnitude code whose value is at most m·2^e. -/
def fFloorMag (f : FFmt) (m : Nat) (e : Int) : Nat :=
  if m = 0 then 0
  else
    let emin : Int := 1 - FFmtOps.bias f
    let E : Int := e + Nat.log2 m
    let top : Int := max E emin
    let q : Int := top - f.mb
    let mant := if q ≤ e then m * 2 ^ (e - q).toNat else m / 2 ^ (q - e).toNat
    if E < emin then mant else (top - emin).toNat * 2 ^ f.mb + mant

/-- One of the FP32 values within a relative 2^-21 of the exact magnitude m·2^e, the free number saying which; the exact value's
own rounding is always among them. -/
def f32Band (neg : Bool) (m : Nat) (e : Int) (n : Nat) : W32 :=
  let mid := fRoundMag fp32 m e
  let hi := max mid (fFloorMag fp32 (m * 2 ^ 21 + m) (e - 21))
  let lo0 := fFloorMag fp32 (m * 2 ^ 21 - m) (e - 21)
  let lo := min mid (lo0 + 1)
  let c := lo + n % (hi - lo + 1)
  BitVec.ofNat 32 (fSign fp32 neg (min c (FFmtOps.maxCode fp32 + 1)))

/-- ln 2 with 128 fraction bits. -/
def ln2Fix : Nat := 235865763225513294137944142764154484399

/-- The Taylor sum of e^r with 128 fraction bits, from term number k whose value is t. -/
def expSum : Nat → Nat → Nat → Nat → Nat
  | 0, _, _, _ => 0
  | n + 1, k, t, r => t + expSum n (k + 1) (t * r / 2 ^ 128 / (k + 1)) r

/-- e^x for a finite x = ±m·2^e: an exact value correct to far beyond FP32. Arguments past the format's range give a number
that overflows, or a number that rounds to zero. -/
def expVal (neg : Bool) (m : Nat) (e : Int) : Nat × Int :=
  if m = 0 then (2 ^ 128, -128)
  else if 8 ≤ e + Nat.log2 m then (if neg then (1, -300) else (1, 300))
  else
    let a : Nat := if 0 ≤ e + 128 then m * 2 ^ (e + 128).toNat else m / 2 ^ (-(e + 128)).toNat
    let x : Int := if neg then -(a : Int) else a
    let k : Int := x / ln2Fix
    let r : Nat := (x - k * ln2Fix).toNat
    (expSum 48 0 (2 ^ 128) r, k - 128)

/-- The odd-power sum 2·Σ z^(2i+1)/(2i+1) with 128 fraction bits, from the power p = z^(2i+1). -/
def atanhSum : Nat → Nat → Nat → Nat → Nat
  | 0, _, _, _ => 0
  | n + 1, i, p, z2 => 2 * p / (2 * i + 1) + atanhSum n (i + 1) (p * z2 / 2 ^ 128) z2

/-- ln x for x = m·2^e, m > 0, as a sign and an exact value. -/
def logVal (m : Nat) (e : Int) : Bool × Nat × Int :=
  let k := Nat.log2 m
  let f : Nat := m * 2 ^ 160 / 2 ^ k
  let z : Nat := (f - 2 ^ 160) * 2 ^ 128 / (f + 2 ^ 160)
  let lnf : Int := atanhSum 48 0 z (z * z / 2 ^ 128)
  let v : Int := (e + k) * ln2Fix + lnf
  (decide (v < 0), v.natAbs, -128)

/-- FP32 e^x within a relative error of 2^-21 (10_scaesh R258, 05_attention R150); exact at the special values. -/
def f32Exp (x : W32) (n : Nat) : W32 :=
  match f32 x with
  | .nan => f32Nan
  | .inf true => f32Zero
  | .inf false => f32Inf
  | .fin neg m e =>
    let r := expVal neg m e
    f32Band false r.1 r.2 n

/-- FP32 ln x within a relative error of 2^-21; −∞ at zero, NaN below zero. -/
def f32Log (x : W32) (n : Nat) : W32 :=
  match f32 x with
  | .nan => f32Nan
  | .inf true => f32Nan
  | .inf false => f32Inf
  | .fin neg m e =>
    if m = 0 then f32NegInf
    else if neg then f32Nan
    else
      let r := logVal m e
      f32Band r.1 r.2.1 r.2.2 n

/-- FP32 1/x within a relative error of 2^-21; a signed infinity at a zero, a signed zero at an infinity. -/
def f32Rcp (x : W32) (n : Nat) : W32 :=
  match f32 x with
  | .nan => f32Nan
  | .inf neg => if neg then 0x80000000 else 0
  | .fin neg m e =>
    if m = 0 then (if neg then f32NegInf else f32Inf)
    else f32Band neg (2 ^ 200 / m) (-e - 200) n

/-- The square root's reciprocal 1/√d of a small whole number, rounded to FP32. -/
def f32RSqrt (d : Nat) : W32 :=
  if d = 0 then f32Inf else toF32 (.fin false (2 * Nat.sqrt (2 ^ 200 / d) + 1) (-101))

/-- The larger of two FP32 values; NaN where either is NaN. -/
def f32Max (a b : W32) : W32 :=
  if fIsNan (f32 a) || fIsNan (f32 b) then f32Nan else if fLt (f32 a) (f32 b) then b else a

/-- The smaller of two FP32 values; NaN where either is NaN. -/
def f32Min (a b : W32) : W32 :=
  if fIsNan (f32 a) || fIsNan (f32 b) then f32Nan else if fLt (f32 b) (f32 a) then b else a

/-- Add FP32 terms two at a time in an order and grouping that a picker names: every such order is possible
(05_attention R152). -/
def f32Accum (pick : Nat → Nat) : Nat → List W32 → W32
  | 0, l => l.headD 0
  | n + 1, l =>
    match l with
    | [] => 0
    | [x] => x
    | l =>
      let i := pick (2 * n) % l.length
      let a := l.getD i 0
      let l1 := l.eraseIdx i
      let j := pick (2 * n + 1) % l1.length
      f32Accum pick n (f32Add a (l1.getD j 0) :: l1.eraseIdx j)

end Sys2Proof.Machine
end

