-- ==== Sys2Proof/Machine/KvFormat.lean ====
section
/-! DEFINITION. K and V as stored (05_attention R127 to R135): rows of element codes, their bytes, their values, quantising. -/

namespace Sys2Proof.Machine

/-- The element format of a KV format (R127). -/
def kvElem : Nat → FFmt
  | 0 => bf16
  | 1 => e4m3
  | 2 => e5m2
  | 3 => e3m2
  | 4 => e2m3
  | _ => e2m1

/-- The exponent of a microscaling element format's largest number (OCP Microscaling v1.0). -/
def mxEmax : Nat → Int
  | 3 => 4
  | _ => 2

/-- The width in bits of a microscaling element. -/
def mxWidth (fmt : Nat) : Nat := if fmt = 5 then 4 else 6

/-- The bytes of a 32-element group: its scale byte and the packed elements (R128). -/
def mxBytes (fmt : Nat) : Nat := 1 + 4 * mxWidth fmt

/-- The codes of a stored row (R128): one per element; under codes 3 to 5 each group of 32 stands behind its scale byte. -/
def rowCodes (fmt hd : Nat) (b : Bytes) : List Nat :=
  if fmt = 0 then (List.range hd).map (fun i => field b (2 * i) 2)
  else if fmt < 3 then (List.range hd).map (fun i => byteAt b i)
  else (List.range (hd / 32)).flatMap (fun g =>
    let o := g * mxBytes fmt
    let e := field b (o + 1) (mxBytes fmt - 1)
    byteAt b o :: (List.range 32).map (fun i => bits e (mxWidth fmt * i) (mxWidth fmt)))

/-- The bytes of a row's codes (R128). -/
def rowOut (fmt : Nat) (l : List Nat) : Bytes :=
  if fmt = 0 then l.flatMap (natLe 2)
  else if fmt < 3 then l.flatMap (natLe 1)
  else (chunks 33 (l.length + 1) l).flatMap (fun g =>
    natLe 1 (g.headD 0) ++ natLe (mxBytes fmt - 1) ((g.drop 1).foldr (fun c n => c + n * 2 ^ mxWidth fmt) 0))

/-- The value of element d of a row, its group's scale included; scale byte 255 is NaN. -/
def rowVal (fmt : Nat) (l : List Nat) (d : Nat) : FVal :=
  if fmt < 3 then fDecode (kvElem fmt) (l.getD d 0)
  else
    let sc := l.getD (33 * (d / 32)) 0
    if sc = 255 then .nan
    else fScale (fDecode (kvElem fmt) (l.getD (33 * (d / 32) + 1 + d % 32) 0)) ((sc : Int) - 127)

/-- The key of a block's row. -/
def rowKey (layer kv head pos : Nat) : Nat := ((layer * 2 + kv) * 256 + head) * 64 + pos

/-- The key of a block's scale (R129). -/
def scaleKey (layer kv head : Nat) : Nat := (layer * 2 + kv) * 256 + head

/-- A header scale; 1.0 where none has been set (R129). -/
def KvBlk.scale (b : KvBlk) (layer kv head : Nat) : W32 := (tabGet? b.scales (scaleKey layer kv head)).getD f32One

/-- A row of a block. -/
def KvBlk.row (b : KvBlk) (layer kv head pos : Nat) : List Nat := tabGet [] b.rows (rowKey layer kv head pos)

/-- a / b for a finite b that is not zero, kept exact enough for one rounding. -/
def fQuot (a b : FVal) : FVal :=
  match a, b with
  | .fin na ma ea, .fin nb mb eb =>
    if ma = 0 then .fin (na != nb) 0 0
    else
      let k := 300 + Nat.log2 mb
      let q := ma * 2 ^ k / mb
      .fin (na != nb) (2 * q + b2n (q * mb != ma * 2 ^ k)) (ea - eb - k - 1)
  | .inf na, .fin nb _ _ => .inf (na != nb)
  | _, _ => .nan

/-- The magnitude of a finite value, none for the others. -/
def fMag : FVal → Option (Nat × Int)
  | .fin _ m e => some (m, e)
  | _ => none

/-- The larger of two magnitudes. -/
def magMax (a b : Nat × Int) : Nat × Int := if fLt (.fin false a.1 a.2) (.fin false b.1 b.2) then b else a

/-- The largest finite magnitude of a list of values; none if it is zero or no value is finite. -/
def amax (l : List FVal) : Option (Nat × Int) :=
  let m := (l.filterMap fMag).foldl magMax (0, 0)
  if m.1 = 0 then none else some m

/-- The least t with m ≤ 7·2^t, for m above 0. -/
def sevenths (m : Nat) : Int := (Nat.log2 m : Int) - (if 4 * m ≤ 7 * 2 ^ Nat.log2 m then 2 else 1)

/-- The header scale a write sets from its own values (R134): 2^⌈log2(amax·2^HEADROOM / FMT_MAX)⌉; FMT_MAX is 7·2^6 or 7·2^13. -/
def headerScale (fmt headroom : Nat) (l : List FVal) : W32 :=
  match amax l with
  | none => f32One
  | some (m, e) => toF32 (.fin false 1 (sevenths m + e + headroom - (if fmt = 1 then 6 else 13)))

/-- Store a value in FP8 (R134): beyond the largest finite magnitude it saturates and counts; E5M2 keeps ±∞. -/
def storeFp8 (fmt : Nat) (v : FVal) : Nat × Nat :=
  match v with
  | .inf _ => if fmt = 2 then (fEncode e5m2 v, 0) else (fEncodeSat e4m3 v).map id b2n
  | _ => (fEncodeSat (kvElem fmt) v).map id b2n

/-- Convert a group of 32 values with its own shared scale (R134, OCP Microscaling v1.0); `n` names what the conversion leaves open:
the scale of a group without a finite magnitude, and the element codes of a group that a NaN makes NaN as a whole. -/
def mxGroup (fmt n : Nat) (l : List FVal) : List Nat × Nat :=
  if l.any fIsNan then (255 :: (List.range 32).map (fun i => Config.approx n i % 2 ^ mxWidth fmt), 0)
  else
    let sc : Nat := match amax l with
      | none => Config.approx n 32 % 255
      | some (m, e) => (min (e + Nat.log2 m - mxEmax fmt + 127) 254).toNat
    let es := l.map (fun v => fEncodeSat (kvElem fmt) (fScale v (127 - (sc : Int))))
    (sc :: es.map (·.1), sumOf (fun e => b2n e.2) es)

/-- Quantise a BF16 row (R134) under a header scale: its codes, the elements that saturated. -/
def quantRow (fmt n : Nat) (scale : W32) (l : List FVal) : List Nat × Nat :=
  if fmt = 0 then (l.map (fEncode bf16), 0)
  else if fmt < 3 then
    let es := l.map (fun v => storeFp8 fmt (fQuot v (f32 scale)))
    (es.map (·.1), sumOf (·.2) es)
  else
    let gs := ((chunks 32 (l.length + 1) l).zipIdx).map (fun g => mxGroup fmt (n + g.2) g.1)
    (gs.flatMap (·.1), sumOf (·.2) gs)

/-- Re-store a row of FP8 codes from its message scale to the header scale (R135). -/
def rescaleRow (fmt : Nat) (msg hdr : W32) (l : List Nat) : List Nat × Nat :=
  let es := l.map (fun c => storeFp8 fmt (fQuot (fMul (fDecode (kvElem fmt) c) (f32 msg)) (f32 hdr)))
  (es.map (·.1), sumOf (·.2) es)

/-! ### KV_APPEND content (R130) -/

/-- Read a KV_APPEND (R130). -/
def kvMsgOf (port vc : Nat) (m : Msg) : KvMsg :=
  let b := m.body
  { port := port, vc := vc, handle := field b 0 4, pos := field b 4 4 % 2 ^ 22, layer := byteAt b 8, bodyVer := byteAt b 9 % 16,
    count := byteAt b 10 % 128, kvIn := byteAt b 11 % 4, data := m.data, cost := m.cost }

/-- Whether the data start with message scales. -/
def KvMsg.hasScales (k : KvMsg) (m : ModelEnt) : Bool := k.kvIn == 1 && (m.kvFmt == 1 || m.kvFmt == 2)

/-- Bytes of the message scales. -/
def KvMsg.scaleBytes (k : KvMsg) (m : ModelEnt) : Nat := if k.hasScales m then 8 * m.kvheads else 0

/-- Bytes of one row in the message. -/
def KvMsg.rowLen (k : KvMsg) (m : ModelEnt) : Nat := if k.kvIn = 0 then 2 * m.headDim else m.rowBytes

/-- The data length R130 gives. -/
def KvMsg.dataLen (k : KvMsg) (m : ModelEnt) : Nat := k.scaleBytes m + 2 * m.kvheads * k.count * k.rowLen m

/-- The message scale of a head's K or V. -/
def KvMsg.scaleOf (k : KvMsg) (kv head : Nat) : W32 := BitVec.ofNat 32 (field k.data (8 * head + 4 * kv) 4)

/-- The bytes of row j of a head's K or V. -/
def KvMsg.rowAt (k : KvMsg) (m : ModelEnt) (kv head j : Nat) : Bytes :=
  slice k.data (k.scaleBytes m + ((kv * m.kvheads + head) * k.count + j) * k.rowLen m) (k.rowLen m)

/-- The BF16 values of a row. -/
def bf16Vals (b : Bytes) (hd : Nat) : List FVal := (List.range hd).map (fun i => fDecode bf16 (field b (2 * i) 2))

/-- What a write leaves: the block, the elements that saturated, whether a row was re-stored. -/
structure KvEff where
  blk : KvBlk
  sat : Nat := 0
  rescaled : Bool := false
  deriving DecidableEq, Repr

/-- Write one head's K or V of a message (R134, R135). `fresh` says that it sets the header scale: the write of the block's
position 0 at that layer, not yet written. -/
def KvMsg.writeHead (k : KvMsg) (m : ModelEnt) (fresh : Bool) (n : Nat) (e : KvEff) (kv head : Nat) : KvEff :=
  let p0 := k.pos % 64
  let key := scaleKey k.layer kv head
  let vals := (List.range k.count).map (fun j => bf16Vals (k.rowAt m kv head j) m.headDim)
  let sc : W32 :=
    if m.kvFmt = 1 ∨ m.kvFmt = 2 then
      (if fresh then (if k.kvIn = 0 then headerScale m.kvFmt m.headroom (vals.flatMap id) else k.scaleOf kv head)
       else e.blk.scale k.layer kv head)
    else f32One
  let differs := k.hasScales m && !fresh && k.scaleOf kv head != sc
  let rows : List (List Nat × Nat) := (List.range k.count).map (fun j =>
    if k.kvIn = 0 then quantRow m.kvFmt (n + 64 * (2 * head + kv) * k.count + 64 * j) sc (vals.getD j [])
    else
      let l := rowCodes m.kvFmt m.headDim (k.rowAt m kv head j)
      if differs then rescaleRow m.kvFmt (k.scaleOf kv head) sc l else (l, 0))
  { blk := {
      rows := (rows.zipIdx).foldl (fun t r => tabSet t (rowKey k.layer kv head (p0 + r.2)) r.1.1) e.blk.rows
      scales := if fresh ∧ (m.kvFmt = 1 ∨ m.kvFmt = 2) then tabSet e.blk.scales key sc else e.blk.scales }
    sat := e.sat + sumOf (·.2) rows
    rescaled := e.rescaled || differs }

/-- Write a whole message into a block. -/
def KvMsg.write (k : KvMsg) (m : ModelEnt) (fresh : Bool) (n : Nat) (b : KvBlk) : KvEff :=
  (List.range m.kvheads).foldl (fun e h => k.writeHead m fresh n (k.writeHead m fresh n e 0 h) 1 h) { blk := b }

/-- The data of a KV_DATA (13 R358): laid out as R130 gives for KV_IN = 1, the header scales as message scales. -/
def State.kvReadData (s : State) (r : KvRead) : Bytes :=
  let x := s.getSess r.sess
  let m := s.model x.part x.model
  let b := s.blk (s.locate (x.desc (r.pos / 64))).blk
  let scales := if m.kvFmt = 1 ∨ m.kvFmt = 2 then
      (List.range m.kvheads).flatMap (fun h => natLe 4 (b.scale r.layer 0 h).toNat ++ natLe 4 (b.scale r.layer 1 h).toNat)
    else []
  scales ++ (List.range 2).flatMap (fun kv => (List.range m.kvheads).flatMap (fun h => (List.range r.count).flatMap (fun j =>
    rowOut m.kvFmt (b.row r.layer kv h (r.pos % 64 + j)))))

end Sys2Proof.Machine
end

