-- ==== Sys2Proof/Machine/AttnMath.lean ====
section
/-! DEFINITION. The arithmetic of attention (05_attention R144, R145, R150 to R152; 10_scaesh R267 to R271), row by row. What the spec
leaves open (the order of accumulation, the error of exp and log) is free, named by a number. -/

namespace Sys2Proof.Machine

/-- One row's partial (R144): running maximum, sum of weights, unnormalised output. -/
structure RowPart where
  m : W32
  l : W32
  o : List W32
  deriving DecidableEq, Repr

/-- FP32 negation. -/
def f32Neg (w : W32) : W32 := w ^^^ 0x80000000

/-- The FP32 values of a query row (R137): BF16 elements, or E4M3 elements times the row's scale. `rows` scales stand first. -/
def queryVals (qFmt hd rows : Nat) (data : Bytes) (r : Nat) : List W32 :=
  (List.range hd).map (fun d =>
    if qFmt = 0 then toF32 (fDecode bf16 (field data (2 * (r * hd + d)) 2))
    else f32Mul (toF32 (fDecode e4m3 (byteAt data (4 * rows + r * hd + d)))) (BitVec.ofNat 32 (field data (4 * r) 4)))

/-- The query as the AME takes it (R150): the exponent e and the converted values; BF16 under KV_FMT 0. -/
def queryConv (kvFmt : Nat) (q : List W32) : Int × List FVal :=
  let vs := q.map f32
  if kvFmt = 0 then (0, vs.map (fun v => fDecode bf16 (fEncode bf16 v)))
  else
    let e : Int := match amax vs with
      | none => 0
      | some (m, x) => 6 - x - sevenths m
    (e, vs.map (fun v => fDecode e4m3 (fEncode e4m3 (fScale v e))))

/-- The softmax scale of a model (R144, R153): 1/√HEAD_DIM where the register holds a zero. -/
def ModelEnt.sm (m : ModelEnt) : W32 := if m.smscale = 0 ∨ m.smscale = 0x80000000 then f32RSqrt m.headDim else m.smscale

/-- A score (R144, R268): the dot product accumulated in FP32, the query's factor taken back exactly, k_scale and sm_scale. -/
def score (n : Nat) (q : Int × List FVal) (k : List FVal) (kScale sm : W32) : W32 :=
  let ps := List.zipWith (fun a b => toF32 (fMul a b)) q.2 k
  let dot := f32Accum (Config.order n) ps.length ps
  f32Mul (toF32 (fMul (fScale (f32 dot) (-q.1)) (f32 kScale))) sm

/-- One online-softmax step of a row (R269): the new m and l, the factor c, the weights. -/
def softStep (n : Nat) (m l : W32) (ss : List W32) : W32 × W32 × W32 × List W32 :=
  let mx := ss.foldl f32Max m
  if mx = f32NegInf then (m, l, f32One, ss.map (fun _ => f32Zero))
  else
    let c := if m = f32NegInf then f32Zero else f32Exp (f32Add m (f32Neg mx)) (Config.approx n 0)
    let ws := (ss.zipIdx).map (fun e =>
      if e.1 = f32NegInf then f32Zero else f32Exp (f32Add e.1 (f32Neg mx)) (Config.approx n (1 + e.2)))
    (mx, ws.foldl f32Add (f32Mul l c), c, ws)

/-- The conversion of a weight before the multiplication by V (R150). -/
def weightConv (kvFmt : Nat) (w : W32) : FVal :=
  let f := if kvFmt = 0 then bf16 else e4m3
  fDecode f (fEncode f (f32 w))

/-- Whether a weight takes part: a zero weight reads no V row (R151, R270). -/
def weightOn (w : W32) : Bool := !fIsZero (f32 w)

/-- Update one output row (R270): o·c, which a zero c drops, plus the weighted V rows. -/
def outStep (n kvFmt : Nat) (c : W32) (o : List W32) (ws : List (W32 × List FVal)) (vScale : W32) (hd : Nat) : List W32 :=
  let live := ws.filter (fun e => weightOn e.1)
  (List.range hd).map (fun d =>
    let old := if fIsZero (f32 c) then f32Zero else f32Mul (o.getD d 0) c
    if live.isEmpty then old
    else
      let ps := live.map (fun e => toF32 (fMul (weightConv kvFmt e.1) (e.2.getD d .nan)))
      f32Add old (f32Mul (f32Accum (Config.order (n + d)) ps.length ps) vScale))

/-- The values of a stored row. -/
def rowVals (m : ModelEnt) (l : List Nat) : List FVal := (List.range m.headDim).map (rowVal m.kvFmt l)

/-- The scores of one query row over a block at a layer (R144, R268): −∞ where the position is not written or lies past the query. -/
def blockScores (m : ModelEnt) (b : KvBlk) (n layer block written qpos head : Nat) (q : List W32) : List W32 :=
  let g := head / (m.qheads / m.kvheads)
  let qc := queryConv m.kvFmt q
  (List.range 64).map (fun p =>
    if 64 * block + p < written ∧ 64 * block + p ≤ qpos then
      score (n + p) qc (rowVals m (b.row layer 0 g p)) (b.scale layer 0 g) m.sm
    else f32NegInf)

/-- One query row's partial over one block (R144). -/
def blockPart (m : ModelEnt) (b : KvBlk) (n layer block written qpos head : Nat) (q : List W32) : RowPart :=
  let g := head / (m.qheads / m.kvheads)
  let ss := blockScores m b n layer block written qpos head q
  let r := softStep (n + 100) f32NegInf f32Zero ss
  let ws := (r.2.2.2.zipIdx).map (fun w => (w.1, rowVals m (b.row layer 1 g w.2)))
  { m := r.1, l := r.2.1, o := outStep (n + 200) m.kvFmt f32Zero [] ws (b.scale layer 1 g) m.headDim }

/-- Merge two partials of a row (R145); a partial whose m is −∞ counts as absent (R151). -/
def mergePart (n : Nat) (a b : RowPart) : RowPart :=
  if b.m = f32NegInf then a
  else if a.m = f32NegInf then b
  else
    let m := f32Max a.m b.m
    let ca := f32Exp (f32Add a.m (f32Neg m)) (Config.approx n 0)
    let cb := f32Exp (f32Add b.m (f32Neg m)) (Config.approx n 1)
    { m := m
      l := f32Add (f32Mul a.l ca) (f32Mul b.l cb)
      o := List.zipWith (fun x y => f32Add (f32Mul x ca) (f32Mul y cb)) a.o b.o }

/-- Finish a row (R145, R271): BF16 output and log-sum-exp; l = 0 yields output 0 and −∞. -/
def finishPart (n hd : Nat) (p : RowPart) : List Nat × W32 :=
  if fIsZero (f32 p.l) then (List.replicate hd 0, f32NegInf)
  else ((List.range hd).map (fun d => fEncode bf16 (f32 (f32Div (p.o.getD d 0) p.l))), f32Add p.m (f32Log p.l (Config.approx n 0)))

/-! ### Partial records (R271) -/

/-- L_OFF of a record. -/
def recOff (rows : Nat) : Nat := 256 * ceilDiv (4 * rows) 256

/-- The length of a record. -/
def recLen (rows hd : Nat) : Nat := 2 * recOff rows + 4 * rows * hd

/-- The bytes of a record. -/
def recOut (hd : Nat) (l : List RowPart) : Bytes :=
  let w : W32 → Bytes := fun x => natLe 4 x.toNat
  let pad : Bytes → Bytes := fit 0 (recOff l.length)
  pad (l.flatMap (fun p => w p.m)) ++ pad (l.flatMap (fun p => w p.l)) ++ l.flatMap (fun p => (fit 0 hd p.o).flatMap w)

/-- The rows of a record. -/
def recIn (rows hd : Nat) (b : Bytes) : List RowPart :=
  let w : Nat → W32 := fun o => BitVec.ofNat 32 (field b o 4)
  let lo := recOff rows
  (List.range rows).map (fun r =>
    { m := w (4 * r), l := w (lo + 4 * r), o := (List.range hd).map (fun d => w (2 * lo + 4 * (r * hd + d))) })

/-- AFIN's output for a record (R271): the BF16 rows, and behind the next 256-byte boundary the log-sum-exp values. -/
def finOut (n hd : Nat) (l : List RowPart) : Bytes × Bytes :=
  let f := (l.zipIdx).map (fun p => finishPart (n + p.2) hd p.1)
  (f.flatMap (fun x => x.1.flatMap (natLe 2)), f.flatMap (fun x => natLe 4 x.2.toNat))

end Sys2Proof.Machine
end

