-- ==== Sys2Proof/Machine/Messages.lean ====
section
/-! DEFINITION. The messages the device sends on a Cunis port and the endings every block shares: O_RETURN, TOKEN_OUT, CTRL. -/

namespace Sys2Proof.Machine

/-- The body of an O_RETURN (05_attention R138). -/
def oReturnBody (r : QReq) (st : Nat) (lse : Bool) : Bytes :=
  natLe 4 r.handle ++ natLe 4 r.pos ++ natLe 1 r.layer ++ natLe 1 1 ++ natLe 2 r.chunk ++ natLe 1 st ++ natLe 1 (b2n lse) ++
    List.replicate 18 0

/-- Answer a Q_SUBMIT: send its O_RETURN on the port and VC it came by, drop its work from every queue, forget the request
(R138, R141). -/
def State.answerQ (s : State) (r : QReq) (st : Nat) (data : Bytes) (lse : Bool) : State :=
  let drop : Tab (List AttItem) → Tab (List AttItem) := fun t => t.map (fun p => (p.1, p.2.filter (fun i => i.req != r.id)))
  let s1 := s.send r.port { vc := r.vc, type := 6, body := oReturnBody r st lse, data := data,
                            since := if st = 0 ∧ r.vc = 1 then some r.arrived else none }
  { s1 with
    att := { s1.att with
      reqs := s1.att.reqs.filter (fun x => x.id != r.id),
      decodeQ := drop s1.att.decodeQ,
      prefillQ := drop s1.att.prefillQ },
    cores := { s1.cores with areas := s1.cores.areas.map (fun p => (p.1, p.2.filter (fun a => a.2.2 != r.id))) } }

/-- Answer every Q_SUBMIT in flight of a session with a status (R141). -/
def State.answerAll (s : State) (handle : Nat) (st : Status) : State :=
  (s.att.reqs.filter (fun r => r.handle == handle)).foldl (fun s r => s.answerQ r st.code [] false) s

/-- The body of a TOKEN_OUT (07_sampling R197): flags, STATUS, TOPK_STATUS, token, K, N and the two sums. -/
def tokenOutBody (handle pos flags st topk tok k n : Nat) (sel left : W32) : Bytes :=
  natLe 4 handle ++ natLe 4 pos ++ natLe 1 1 ++ natLe 1 flags ++ natLe 1 st ++ natLe 1 topk ++ natLe 4 tok ++ natLe 2 k ++
    natLe 2 n ++ natLe 4 sel.toNat ++ natLe 4 left.toNat ++ natLe 4 0

/-- Whether the profile that a TOKEN_OUT for a handle answers under is clamped (07 R183): the step's, else the one the session names. A
handle that is none of the port's partition has none. -/
def State.clampedFor (s : State) (port handle : Nat) : Bool :=
  match (s.portPart port).bind (fun p => s.handle? p handle) with
  | none => false
  | some id =>
    let x := s.getSess id
    match x.step with
    | some st => st.profile.clamped
    | none => (tabGet? s.emit.profs (x.part * 65536 + x.profile)).any (fun (p : Profile) => p.clamped)

/-- Send the TOKEN_OUT that rejects a LOGITS piece: VALID 0, END 0, the cause, every later field 0 (R187, R197). -/
def State.rejectOut (s : State) (port handle pos : Nat) (cause : Status) : State :=
  s.send port { vc := 1, type := 8,
                body := tokenOutBody handle ((pos + 1) % 2 ^ 22) (8 * b2n (s.clampedFor port handle)) cause.code 0 0 0 0 0 0 }

/-- Reject the LOGITS of a session's step (R187, R226): the pieces taken are dropped, the step stays open, the rejection is
counted and recorded. -/
def State.rejectLogits (s : State) (p id : Nat) (cause : Status) : State :=
  let x := s.getSess id
  match x.step with
  | none => s
  | some st =>
    let pos := if st.emitOnly then st.position - 1 else st.position
    let s1 := s.modSess id (fun x => { x with step := some { st with emit := { waitStencil := st.emit.waitStencil } } })
    let s2 := (s1.bump .emitLogitsReject p).setReg .emitLogitsLast p (handleOf id x + cause.code * 2 ^ 32)
    s2.rejectOut st.emit.port (handleOf id x) pos cause

/-- The number of the window now open in a partition as sr.WIN and CTRL messages give it (09 R228). -/
def State.winCode (s : State) (p : Nat) : Nat :=
  if s.beat.hold || s.beat.none_ then 3
  else match (s.pwin p).win with
    | .decode => 0
    | .prefill => 1
    | .bulk => 2

/-- A CTRL message (13_cunis_link R358): VC, subtype, STATUS, HANDLE, bytes 8 to 31, data. -/
def ctrlMsg (vc subtype st handle : Nat) (rest data : Bytes) : Msg :=
  { vc := vc, type := 3, data := data,
    body := fit 0 32 (natLe 1 subtype ++ natLe 1 1 ++ natLe 1 st ++ natLe 1 0 ++ natLe 4 handle ++ rest) }

/-- Send CTRL END for a session on every port of the partition on which HELLO has completed (02 R45, 13 R358). -/
def State.ctrlEnd (s : State) (p handle : Nat) : State :=
  (s.upPorts p).foldl (fun s port => s.send port (ctrlMsg 1 0 Status.cancelled.code handle (natLe 6 s.now) [])) s

/-- A TOKEN_OUT of a session waits in egress. -/
def State.tokenWaits (s : State) (h : Nat) : Bool :=
  s.link.ports.any (fun p => p.2.vc1.egress.any (fun m => m.type == 8 && field m.body 0 4 == h))

/-- A session is taken out of its step by R88, R167 or R169: an O_RETURN with OK that has not started to leave ends its Q_SUBMIT with
STALL_TIMEOUT and no output (05_attention R141). -/
def State.recall (s : State) (h : Nat) : State :=
  let cut : Msg → Msg := fun m =>
    if m.type = 6 ∧ field m.body 0 4 = h ∧ byteAt m.body 12 = 0 then
      { m with body := putSlice m.body 12 (natLe 1 Status.stallTimeout.code ++ natLe 1 0), data := [], since := none }
    else m
  s.modLink (fun l => { l with ports := l.ports.map (fun p =>
    let v := p.2.vc1
    (p.1, { p.2 with vc1 := { v with egress := if v.sent = 0 then v.egress.map cut else v.egress.take 1 ++ (v.egress.drop 1).map cut } })) })

/-! ### Received messages (13_cunis_link R344, R351, R352) -/

/-- Credits of a virtual channel are freed: their buffer space has drained (R351). -/
def State.freeCredit (s : State) (port vc n : Nat) : State :=
  s.modPort port (fun p =>
    let v := p.vc vc
    p.setVc vc { v with
      used := v.used - n
      freed := v.freed + n
      freedTick := if v.freed = 0 then s.tick else v.freedTick })

/-- The message at the head of a port's virtual channel, if it has this type; messages wait behind one that is held at its
destination (R344, R352). -/
def State.headMsg (s : State) (port vc type : Nat) : Option Msg :=
  if s.att.held.any (fun k => k.port == port && k.vc == vc) then none
  else match ((s.port port).vc vc).inbox with
    | m :: _ => if m.type = type then some m else none
    | [] => none

/-- Take the message at the head of a virtual channel; its space stays in use. -/
def State.popMsg (s : State) (port vc : Nat) : State :=
  s.modPort port (fun p => let v := p.vc vc; p.setVc vc { v with inbox := v.inbox.drop 1 })

/-- Take the message at the head of a virtual channel and return its credit. -/
def State.takeMsg (s : State) (port vc : Nat) (m : Msg) : State := (s.popMsg port vc).freeCredit port vc m.cost

/-! ### Stalls (03_state_fabric R87, R88) -/

/-- The counter of a stall cause. -/
def stallCounter : Nat → Counter
  | 0 => .sfStall0
  | 1 => .sfStall1
  | 2 => .sfStall2
  | 3 => .sfStall3
  | 4 => .sfStall4
  | 5 => .sfStall5
  | _ => .sfStall6

/-- A cause withholds a result of a session's step (R88): the stall opens in this beat if none is open, and the cause is counted
once per stall. -/
def State.openStall (s : State) (id cause : Nat) : State :=
  let x := s.getSess id
  match x.step with
  | none => s
  | some st =>
    let fresh := st.stall.isNone
    let seen := if fresh then [] else st.stallSeen
    let st' : InStep := { st with
      stall := some cause
      stallBeat := if fresh then s.now else st.stallBeat
      stallSeen := if seen.contains cause then seen else cause :: seen }
    let s1 := s.modSess id (fun x => { x with step := some st' })
    if seen.contains cause then s1 else s1.bump (stallCounter cause) x.part

/-- The withheld result goes: the stall is over. -/
def State.closeStall (s : State) (id : Nat) : State :=
  s.modSess id (fun x => { x with step := x.step.map (fun st => { st with stall := none, stallSeen := [] }) })

/-! ### Moves (13_cunis_link R359 to R362) -/

/-- The fields of a MOVE body (R359). -/
structure MoveBody where
  sub : Nat
  status : Nat := 0
  src : Nat := 0
  dst : Nat := 0
  pos : Nat := 0
  layer : Nat := 0
  count : Nat := 0
  total : Nat := 0
  kvLen : Nat := 0
  deriving DecidableEq, Repr

/-- A MOVE message on VC3. -/
def moveMsg (b : MoveBody) (data : Bytes) : Msg :=
  { vc := 3, type := 9, data := data,
    body := fit 0 32 (natLe 1 b.sub ++ natLe 1 1 ++ natLe 1 b.status ++ natLe 1 0 ++ natLe 4 b.src ++ natLe 4 b.dst ++ natLe 4 b.pos ++
      natLe 1 b.layer ++ natLe 1 b.count ++ natLe 2 0 ++ natLe 4 b.total ++ natLe 4 b.kvLen) }

/-- The body of a MOVE message. -/
def moveBodyOf (m : Msg) : MoveBody :=
  let b := m.body
  { sub := byteAt b 0, status := byteAt b 2, src := field b 4 4, dst := field b 8 4, pos := field b 12 4 % 2 ^ 22,
    layer := byteAt b 16, count := byteAt b 17 % 128, total := field b 20 4 % 2 ^ 22, kvLen := field b 24 4 % 2 ^ 22 }

/-- End the reservation of an entry: the destination acknowledges with a status (R361). -/
def State.endIn (s : State) (id : Nat) (st : Status) : State :=
  match s.link.ins.find? (fun m => m.sess == id) with
  | none => s
  | some m =>
    let b : MoveBody := { sub := 7, status := st.code, src := m.srcHandle, dst := handleOf id (s.getSess id) }
    (s.modLink (fun l => { l with ins := l.ins.filter (fun x => x.sess != id) })).send m.port (moveMsg b [])

/-- The reservation of an entry, if its source's first append is complete with this session (R361). -/
def State.moveIn? (s : State) (id : Nat) : Option MoveIn := s.link.ins.find? (fun m => m.sess == id)

/-- Change a reservation. -/
def State.modIn (s : State) (id : Nat) (f : MoveIn → MoveIn) : State :=
  s.modLink (fun l => { l with ins := listMod (fun m => m.sess == id) f l.ins })

/-- Whether the append of a lookup is the one a reservation makes: no command, and the whole log is staged. -/
def State.moveAppend (s : State) (id serial : Nat) : Bool :=
  serial == 0 && (match s.moveIn? id with
    | some m => !m.applied && m.staged.length == m.total
    | none => false)

/-- The first append of a reserved entry is applied: LOGGED with its LENGTH (R361). -/
def State.moveLogged (s : State) (id : Nat) : State :=
  match s.moveIn? id with
  | none => s
  | some m =>
    let x := s.getSess id
    let b : MoveBody := { sub := 5, src := m.srcHandle, dst := handleOf id x, pos := x.length }
    (s.modIn id (fun m => { m with applied := true, staged := [] })).send m.port (moveMsg b [])

/-- DONE has arrived and LENGTH equals KVLEN: ACK with OK ends the reservation (R361). -/
def State.moveDone (s : State) (id : Nat) : State :=
  match s.moveIn? id with
  | none => s
  | some m => if m.done && m.applied && (s.getSess id).length == m.kvLen then s.endIn id .ok else s

/-- Drop an export with ABANDON, sent when its port is UP, and complete its command with a status (R360, R362). -/
def State.abandonOut (s : State) (m : MoveOut) (st : Status) : State :=
  let s1 := s.modLink (fun l => { l with outs := l.outs.filter (fun x => x.sess != m.sess) })
  let b : MoveBody := { sub := 8, src := handleOf m.sess (s.getSess m.sess), dst := m.dst }
  let s2 := if (s.port m.port).st = .up then s1.send m.port (moveMsg b []) else s1
  s2.done m.serial st

end Sys2Proof.Machine
end

