-- ==== Sys2Proof/Machine/Scaesh.lean ====
section
/-! DEFINITION. The Scaesh control processors (09_scaesh_model, 10_scaesh_instructions): contexts and registers, memory spaces,
how an invocation ends, and how one instruction issues. -/

namespace Sys2Proof.Machine

/-! ### Cores, contexts, registers -/

/-- A core. -/
def State.core (s : State) (n : Nat) : Core := tabGet {} s.cores.core n

/-- Put a core back. -/
def State.setCore (s : State) (n : Nat) (c : Core) : State :=
  { s with cores := { s.cores with core := tabSet s.cores.core n c } }

/-- A context of a core. -/
def Core.ctx (c : Core) : Nat → Ctx
  | 0 => c.ctx0
  | 1 => c.ctx1
  | 2 => c.ctx2
  | _ => c.ctx3

/-- Put a context back. -/
def Core.setCtx (c : Core) (k : Nat) (x : Ctx) : Core :=
  match k with
  | 0 => { c with ctx0 := x }
  | 1 => { c with ctx1 := x }
  | 2 => { c with ctx2 := x }
  | _ => { c with ctx3 := x }

/-- The context at a site. -/
def State.ctxAt (s : State) (t : Site) : Ctx := (s.core t.core).ctx t.ctx

/-- Put the context at a site back. -/
def State.setCtxAt (s : State) (t : Site) (c : Ctx) : State := s.setCore t.core ((s.core t.core).setCtx t.ctx c)

/-- Read a scalar register: x0 reads 0; a register nothing has written since the entry holds a free value (R227, R240). -/
def Ctx.rx (c : Ctx) (r : Nat) : Word := if r = 0 then 0 else (tabGet? c.x r).getD (Config.xReg c.seed r)

/-- Write a scalar register: x0 ignores writes. -/
def Ctx.wx (c : Ctx) (r : Nat) (v : Word) : Ctx := if r = 0 then c else { c with x := tabSet c.x r v }

/-- Read a vector register. -/
def Ctx.rv (c : Ctx) (r : Nat) : Vec := (tabGet? c.v r).getD (Config.vReg c.seed r)

/-- Write a vector register. -/
def Ctx.wv (c : Ctx) (r : Nat) (v : Vec) : Ctx := { c with v := tabSet c.v r v }

/-- Read a predicate register: p0 reads all ones. -/
def Ctx.rp (c : Ctx) (r : Nat) : Pred := if r = 0 then BitVec.allOnes 256 else (tabGet? c.p r).getD (Config.pReg c.seed r)

/-- Write a predicate register: p0 ignores writes. -/
def Ctx.wp (c : Ctx) (r : Nat) (v : Pred) : Ctx := if r = 0 then c else { c with p := tabSet c.p r v }

/-- The handle a session slot holds. -/
def Ctx.slot (c : Ctx) (n : Nat) : Option Nat := tabGet? c.h n

/-- The completion value of a tag: every tag holds OK at entry (R251). -/
def Ctx.tagVal (c : Ctx) (t : Nat) : Nat := tabGet 0 c.tags t

/-- Whether an operation on a tag has not completed. -/
def Ctx.tagBusy (c : Ctx) (t : Nat) : Bool := c.ops.any (fun o => o.tag == t)

/-- Whether an earlier operation of the context still writes a tile (R252). -/
def Ctx.tileBusy (c : Ctx) (t : Nat) : Bool := c.ops.any (fun o => o.tile == some t)

/-- Start an engine operation on its tag (R251). -/
def Ctx.tagStart (c : Ctx) (o : TagOp) : Ctx := { c with ops := c.ops ++ [o] }

/-! ### Programs and memory spaces -/

/-- The image of a customer program. -/
def State.prog? (s : State) (p id ver : Nat) : Option Prog :=
  s.cores.progs.find? (fun g => g.part == p && g.id == id && g.ver == ver)

/-- The live image under a number, if a customer image is loaded there (R236). -/
def State.livePr (s : State) (p id : Nat) : Option Prog :=
  s.cores.progs.find? (fun g => g.part == p && g.id == id && g.live && !g.gone)

/-- CODE_BYTES, DATA_BYTES, LDM_NEED, CWS_NEED of an image (R234). -/
def Prog.codeBytes (g : Prog) : Nat := field g.img 8 4
/-- DATA_BYTES of an image. -/
def Prog.dataBytes (g : Prog) : Nat := field g.img 12 4
/-- LDM_NEED of an image. -/
def Prog.ldmNeed (g : Prog) : Nat := field g.img 16 4
/-- CWS_NEED of an image. -/
def Prog.cwsNeed (g : Prog) : Nat := field g.img 20 4

/-- The LDM region of an invocation: its program's own, or the standard programs' 160 KiB (R233). -/
def State.ldmRegion (s : State) (v : Inv) : Nat × Nat :=
  match s.prog? v.part v.prog v.ver with
  | some g => (g.ldmBase, g.ldmNeed)
  | none => (0, 0x28000)

/-- The working-space region of an invocation: its program's own, or the standard programs' 5 MiB (R233). -/
def State.cwsRegion (s : State) (v : Inv) : Nat × Nat :=
  match s.prog? v.part v.prog v.ver with
  | some g => (g.cwsBase, g.cwsNeed)
  | none => (0, 5 * 2 ^ 20)

/-- Instructions of the running image: the standard programs' code fills 24 KiB (R233). -/
def State.codeLen (s : State) (v : Inv) : Nat :=
  match s.prog? v.part v.prog v.ver with
  | some g => g.codeBytes / 8
  | none => 3072

/-- The word of a customer image at an instruction index; the standard programs' code is not in the spec. -/
def State.codeAt (s : State) (v : Inv) (pc : Nat) : Option Nat :=
  (s.prog? v.part v.prog v.ver).map (fun g => field g.img (192 + 8 * pc) 8)

/-- Bytes of a sparse memory; an unlisted byte is 0 (R238). -/
def memRead (m : Tab Byte) (a : Nat) : Nat → Bytes
  | 0 => []
  | n + 1 => tabGet 0 m a :: memRead m (a + 1) n

/-- Write bytes; a zero byte is not listed, so equal memories are equal data. -/
def memWrite (m : Tab Byte) (a : Nat) : Bytes → Tab Byte
  | [] => m
  | b :: t => memWrite (tabPut 0 m a b) (a + 1) t

/-- The canonical form of a byte memory: addresses strictly rising, no zero byte listed. -/
def Memory.wf (m : Tab Byte) : Bool := tabWf m && m.all (fun e => e.2 != 0)

/-- The cluster of a core. -/
def clusterOf (core : Nat) : Nat := core / 8

/-- A cluster's working space. -/
def State.cwsOf (s : State) (cl : Nat) : Tab Byte := tabGet [] s.cores.cws cl

/-- A cluster's merge area (R257). -/
def State.mergeOf (s : State) (cl : Nat) : Tab Byte := tabGet [] s.cores.merge cl

/-- The size of a merge area: it lies in the standard programs' part of the working space (R257, R233). -/
def mergeBytes : Nat := 5 * 2 ^ 20

/-- Where a memory operand lies. -/
inductive Loc where
  /-- Local data memory, absolute byte address. -/
  | ldm (a : Nat)
  /-- Working space, byte address within the cluster's space. -/
  | cws (a : Nat)
  /-- The merge area of the cluster. -/
  | ref (a : Nat)
  deriving DecidableEq, Repr

/-- Check an LDM operand: within the region, and aligned (R231, cause LDM_RANGE = 3). -/
def State.ldmLoc (s : State) (v : Inv) (a : Word) (len align : Nat) : Except Nat Loc :=
  let r := s.ldmRegion v
  if a.toNat % align = 0 ∧ r.1 ≤ a.toNat ∧ a.toNat + len ≤ r.1 + r.2 then .ok (.ldm a.toNat) else .error 3

/-- Check a working-space operand: an offset within the region, or, where the operand accepts one, a merge-area reference
(R257; cause CWS_RANGE = 4). -/
def State.cwsLoc (s : State) (v : Inv) (a : Word) (len align : Nat) (refs : Bool) : Except Nat Loc :=
  if a.toNat / 2 ^ 63 = 1 then
    if refs ∧ a.toNat % 2 ^ 63 < 2 ^ 24 ∧ a.toNat % 2 ^ 24 + len ≤ mergeBytes ∧ a.toNat % align = 0 then
      .ok (.ref (a.toNat % 2 ^ 24))
    else .error 4
  else
    let r := s.cwsRegion v
    if a.toNat % align = 0 ∧ a.toNat + len ≤ r.2 then .ok (.cws (r.1 + a.toNat)) else .error 4

/-- Check an operand that lies in LDM or in the working space as a space bit says; a reference overrides the bit (R266). -/
def State.spaceLoc (s : State) (v : Inv) (cws : Bool) (a : Word) (len align : Nat) (refs : Bool) : Except Nat Loc :=
  if cws || (refs && a.toNat / 2 ^ 63 == 1) then s.cwsLoc v a len align refs else s.ldmLoc v a len align

/-- Read bytes at a place. -/
def State.locRead (s : State) (core : Nat) (l : Loc) (len : Nat) : Bytes :=
  match l with
  | .ldm a => memRead (s.core core).ldm a len
  | .cws a => memRead (s.cwsOf (clusterOf core)) a len
  | .ref a => memRead (s.mergeOf (clusterOf core)) a len

/-- Write bytes at a place. -/
def State.locWrite (s : State) (core : Nat) (l : Loc) (b : Bytes) : State :=
  let cl := clusterOf core
  match l with
  | .ldm a => let c := s.core core; s.setCore core { c with ldm := memWrite c.ldm a b }
  | .cws a => { s with cores := { s.cores with cws := tabSet s.cores.cws cl (memWrite (s.cwsOf cl) a b) } }
  | .ref a => { s with cores := { s.cores with merge := tabSet s.cores.merge cl (memWrite (s.mergeOf cl) a b) } }

/-- The lowest offset at which a piece of a merge area is free: behind some piece in use, or at 0. -/
def mergeFit (used : List (Nat × Nat × Nat)) (len : Nat) : Nat :=
  let fits : Nat → Bool := fun o => used.all (fun u => o + len ≤ u.1 || u.1 + u.2.1 ≤ o)
  let cands := 0 :: used.map (fun u => (u.1 + u.2.1 + 255) / 256 * 256)
  ((listSort (fun a b => decide (a < b)) (cands.filter fits)).head?).getD 0

/-- Put bytes into a cluster's merge area for a request and answer their reference (R257, R265). -/
def State.mergePut (s : State) (cl req : Nat) (b : Bytes) : Nat × State :=
  let used := tabGet [] s.cores.areas cl
  let o := mergeFit used b.length
  (2 ^ 63 + o, { s with cores := { s.cores with
    areas := tabSet s.cores.areas cl ((o, b.length, req) :: used),
    merge := tabSet s.cores.merge cl (memWrite (s.mergeOf cl) o b) } })

/-! ### How invocations end -/

/-- The status of a fault cause (R244). -/
def causeStatus : Nat → Status
  | 1 => .versionUnsupported
  | 5 => .badSession
  | 6 => .badState
  | 7 => .tierFault
  | 9 => .badState
  | 10 => .stallTimeout
  | _ => .formatInvalid

/-- Drop images that are gone and that no invocation still runs (R236); a queued one needs the image of an unloaded customer number only. -/
def State.sweepProgs (s : State) : State :=
  let uses : Prog → Ctx → Bool := fun g c =>
    (c.inv.toList ++ (if 32 ≤ g.id ∧ (s.livePr g.part g.id).isNone then c.queue else [])).any (fun v => v.part == g.part && v.prog == g.id && v.ver == g.ver)
  let used : Prog → Bool := fun g => s.cores.core.any (fun p => uses g p.2.ctx0 || uses g p.2.ctx1 || uses g p.2.ctx2 || uses g p.2.ctx3)
  { s with cores := { s.cores with progs := s.cores.progs.filter (fun g => !g.gone || used g) } }

/-- Whether a CALL has nothing left to run: every member has ended, or it was cancelled (R241, R242). -/
def Call.ended (c : Call) : Bool := c.cancelled || decide (c.cores.length ≤ c.ends.length)

/-- Post the FINAL of a CALL that is over (R241): OK with member 0's results, or the failing member with the lowest number; a member that
ended at a barrier because another had failed is not the one reported (R243). It waits for the CALL's ACCEPT (12_host_interface R325). -/
def State.callDone (s : State) (id : Nat) : State :=
  match s.cores.calls.find? (fun c => c.id == id) with
  | none => s
  | some c =>
    if !c.ended || !c.accepted then s
    else
      let low := listSort (fun a b => decide (a.member < b.member)) (c.ends.filter (fun e => e.status != 0 && !c.barred.contains e.member))
      let s1 := s.modCores (fun k => { k with calls := k.calls.filter (fun x => x.id != id) })
      if c.cancelled then s1.done c.serial .cancelled
      else match low with
        | e :: _ => s1.final c.serial (statusOfCode e.status) 0 (e.core + e.cause * 256) e.x2.toNat e.x3.toNat
        | [] =>
          match c.ends.find? (fun e => e.member == 0) with
          | some e => s1.final c.serial .ok 0 e.core e.x2.toNat e.x3.toNat
          | none => s1.done c.serial .ok

/-- Record how one member of a CALL ended; the last one completes the CALL. -/
def State.memberEnd (s : State) (id : Nat) (e : MemberEnd) : State :=
  (s.modCores (fun k => { k with calls := listMod (fun x => x.id == id) (fun c => { c with ends := c.ends ++ [e] }) k.calls })).callDone
    id

/-- Clear a context: registers, slots, tags and the invocation go; its queue stays (R240). -/
def Ctx.cleared (c : Ctx) : Ctx := { queue := c.queue }

/-- End the invocation at a site: with a status and, for a fault, its cause (R241, R244). Its slots are released, operations in
flight complete with their tags discarded (R256). A CALL member is recorded; an event's work ends with the status where that
is not OK; a ranked result that committed no token is answered as a rejected LOGITS (R226, R280). -/
def State.endInv (s : State) (t : Site) (st cause : Nat) : State :=
  let c := s.ctxAt t
  match c.inv with
  | none => s
  | some v =>
    let s1 := s.setCtxAt t c.cleared
    let s2 :=
      if v.event = 0 then
        s1.memberEnd v.call { member := v.member, core := t.core, status := st, cause := cause,
                              x2 := if cause = 0 then c.rx 2 else 0, x3 := if cause = 0 then c.rx 3 else 0 }
      else if v.event = 4 then
        let s2 := s1.modCores (fun k => { k with areas := k.areas.map (fun a => (a.1, a.2.filter (fun u => u.2.2 != 2 ^ 32 + v.id))) })
        if v.ecmt then s2 else s2.rejectLogits v.part v.sess .formatInvalid
      else if st = 0 then s1
      else match s1.att.reqs.find? (fun r => r.id == v.req) with
        | some r => s1.answerQ r (statusOfCode st).code [] false
        | none => s1
    s2.sweepProgs

/-- Change a CALL. -/
def State.modCall (s : State) (id : Nat) (f : Call → Call) : State :=
  s.modCores (fun k => { k with calls := listMod (fun c => c.id == id) f k.calls })

/-- Note that a member of a CALL ends at a broken barrier (R243). -/
def State.barMember (s : State) (v : Inv) : State := s.modCall v.call (fun c => { c with barred := v.member :: c.barred })

/-- A member of a CALL has faulted or been cancelled (R243): those that wait at a barrier, or come to one later, end with CANCELLED. -/
def State.breakBarriers (s : State) (call : Nat) : State :=
  match s.cores.calls.find? (fun c => c.id == call) with
  | none => s
  | some c =>
    c.cores.foldl (fun s core =>
      [0, 1, 2, 3].foldl (fun s k =>
        let x := (s.core core).ctx k
        match x.st, x.inv with
        | .waitBar _ _, some v =>
          if v.call = call ∧ v.event = 0 then (s.barMember v).endInv ⟨core, k⟩ Status.cancelled.code 0 else s
        | _, _ => s) s) (s.modCall call (fun c => { c with broken := true }))

/-- End the invocation at a site from outside, with a status: the CALL it belongs to counts it as failed (R243). -/
def State.killInv (s : State) (t : Site) (st : Nat) : State :=
  match (s.ctxAt t).inv with
  | none => s
  | some v => if v.event = 0 then (s.endInv t st 0).breakBarriers v.call else s.endInv t st 0

/-- A fault (R244): it is counted, recorded if CORE_FAULT is free, and ends the invocation. -/
def State.raise (s : State) (t : Site) (cause : Nat) : State :=
  let k := s.core t.core
  let c := s.ctxAt t
  match c.inv with
  | none => s
  | some v =>
    let s1 := s.bump .coreFaults t.core
    let s2 := if k.faultValid then s1 else
      s1.setCore t.core { k with faultCause := cause, faultCtx := t.ctx, faultProg := v.prog, faultPc := c.pc, faultValid := true }
    let s3 := s2.endInv t (causeStatus cause).code cause
    if v.event = 0 then s3.breakBarriers v.call else s3

/-! ### Issue -/

/-- What a register field of an instruction names (R249). -/
inductive Use where
  | none | x | v | p | t | h
  deriving DecidableEq, Repr

/-- The fields an instruction uses: the files of D, A, B and C, the bits of F and I it reads (as masks), whether its guard masks
lanes, whether it issues on a tag, and whether its F and I values are assigned ones. -/
structure Shape where
  d : Use := .none
  a : Use := .none
  b : Use := .none
  c : Use := .none
  f : Nat := 0
  i : Nat := 0
  vec : Bool := false
  tag : Bool := false
  ok : Bool := true
  deriving DecidableEq, Repr

/-- Whether a register field is legal: unused fields are 0, t, h and p numbers in range, tiles the context's own pair. -/
def useOk (ctx : Nat) (u : Use) (n : Nat) : Bool :=
  match u with
  | .none => n == 0
  | .x => decide (n < 32)
  | .v => decide (n < 32)
  | .p => decide (n < 8)
  | .t => n / 2 == ctx && decide (n < 8)
  | .h => decide (n < 4)

/-- The word checks of R249: fields in range, unused fields and bits zero, no guard p0 negated. -/
def wordOk (ctx : Nat) (sh : Shape) (w : GWord) : Bool :=
  useOk ctx sh.d w.d && useOk ctx sh.a w.a && useOk ctx sh.b w.b && useOk ctx sh.c w.c &&
    Nat.land w.f sh.f == w.f && Nat.land w.i sh.i == w.i && sh.ok && decide (w.pg < 8) && !(w.pg == 0 && w.pgn)

/-- The 64-bit word of a format G instruction (R248). -/
def encodeG (op : Nat) (w : GWord) : Nat :=
  op * 2 ^ 56 + w.pg * 2 ^ 53 + b2n w.pgn * 2 ^ 52 + w.d * 2 ^ 47 + w.a * 2 ^ 42 + w.b * 2 ^ 37 + w.c * 2 ^ 32 +
    w.f * 2 ^ 24 + w.i

/-- The guard of a scalar instruction: bit 0 of p[PG], turned by PGN (R250). -/
def guardOn (c : Ctx) (w : GWord) : Bool := xor ((c.rp w.pg).getLsbD 0) w.pgn

/-- Whether a byte lane is active under a vector instruction's guard (R250). -/
def laneOn (c : Ctx) (w : GWord) (lane : Nat) : Bool := xor ((c.rp w.pg).getLsbD lane) w.pgn

/-- What an instruction does once it issues. -/
inductive Eff where
  /-- It retires: the context afterwards, and the rest of the state. -/
  | next (c : Ctx) (s : State)
  /-- It retires and the PC goes to a target. -/
  | jump (c : Ctx) (s : State) (pc : Nat)
  /-- It waits in the context and retires later. -/
  | hold (c : Ctx) (s : State)
  /-- It cannot issue yet: nothing changes. -/
  | stay
  /-- It faults. -/
  | fault (cause : Nat)
  /-- It faults, after a change of the state beside the context (the tier fault of a block). -/
  | faultIn (s : State) (cause : Nat)
  /-- The invocation ends with a status. -/
  | stop (s : State) (st : Nat)

/-- Retire one instruction: CORE_RETIRED counts it and a set STEP bit of the context clears (R246, R247). -/
def State.retire (s : State) (t : Site) : State :=
  let s1 := s.bump .coreRetired t.core
  let k := s1.core t.core
  s1.setCore t.core { k with stepBits := setBits k.stepBits t.ctx 1 0 }

/-- Whether the context at a site can take an instruction: it runs an invocation and is not halted, or its STEP bit is set
(R230, R246). -/
def State.ready (s : State) (t : Site) : Bool :=
  let k := s.core t.core
  (s.ctxAt t).st == .running && (s.ctxAt t).inv.isSome && decide (t.core < 256) && decide (t.ctx < 4) &&
    (!bitAt k.halt t.ctx || bitAt k.stepBits t.ctx)

/-- Apply what an instruction does. -/
def State.applyEff (s : State) (t : Site) (c : Ctx) (e : Eff) : State :=
  match e with
  | .next c' s' => (s'.setCtxAt t { c' with pc := c.pc + 1 }).retire t
  | .jump c' s' pc => (s'.setCtxAt t { c' with pc := pc }).retire t
  | .hold c' s' => s'.setCtxAt t c'
  | .stay => s
  | .fault cause => s.raise t cause
  | .faultIn s' cause => s'.raise t cause
  | .stop s' st => (s'.retire t).endInv t st 0

/-- Opcodes this part lists in a class OP[7:4] (R254). -/
def opsOf : Nat → Nat
  | 0 => 16 | 1 => 15 | 2 => 10 | 3 => 7 | 4 => 14 | 5 => 8 | 6 => 7 | 7 => 6
  | 8 => 10 | 9 => 5 | 10 => 6 | 11 => 3 | 12 => 5 | 13 => 10 | _ => 0

/-- Whether the opcode of an instruction word is listed (R254, R291). -/
def wordListed (x : Nat) : Bool := decide (x / 2 ^ 56 % 16 < opsOf (x / 2 ^ 60))

/-- Whether an instruction word is the one the context runs next: the running image's own word. -/
def State.wordIs (s : State) (v : Inv) (pc w : Nat) : Bool :=
  match s.codeAt v pc with
  | some x => x == w
  | none => false

/-- Issue one instruction at a site (R230, R249, R250): the context must be able to take one and the word must be the
program's; a PC outside the image, a word of the image whose opcode is not listed (R254, R291) and a malformed word fault; an instruction
whose tag is busy waits (R251); a guard that is off lets a scalar instruction retire with no effect. -/
def issue (s : State) (t : Site) (op : Nat) (w : GWord) (sh : Shape) (f : Ctx → Inv → Eff) : State :=
  let c := s.ctxAt t
  match c.inv with
  | none => s
  | some v =>
    if !s.ready t then s
    else if s.codeLen v ≤ c.pc then s.raise t 2
    else if !s.wordIs v c.pc (encodeG op w) then
      if (s.codeAt v c.pc).any (fun x => !wordListed x) then s.raise t 1 else s
    else if !wordOk t.ctx sh w then s.raise t 1
    else if !sh.vec && !guardOn c w then s.applyEff t c (.next c s)
    else if sh.tag && c.tagBusy (w.f % 16) then s
    else s.applyEff t c (f c v)

/-- Lift a checked operand into an effect: a failed check faults with its cause. -/
def withLoc (l : Except Nat Loc) (f : Loc → Eff) : Eff :=
  match l with
  | .ok x => f x
  | .error c => .fault c

/-- Whether an operation gated by class may issue now (R253): emit and decode work always; prefill and bulk work while the
window of its gate class is open and long enough for the estimate, in a hold or past tick P the open bulk window having no end, and while
no decode item is queued or running on a core of the dies it reads or writes (06_beat R161). -/
def State.gateOpen (s : State) (v : Inv) (dies : List Nat) (est : Nat) : Bool :=
  let w := s.pwin v.part
  match v.gate with
  | .prefill => !dies.any s.decodeOn && w.win == .prefill && decide (s.beat.tick + est ≤ w.d + w.f)
  | .bulk => !dies.any s.decodeOn && w.win == .bulk && (s.beat.hold || s.beat.none_ || decide (s.beat.period ≤ s.beat.tick) ||
      decide (s.beat.tick + est ≤ s.beat.period))
  | _ => true

/-- Gate a block DMA, host DMA or link message: control class faults with GATE (cause 9), others wait for their window. -/
def gated (s : State) (v : Inv) (dies : List Nat) (est : Nat) (e : Eff) : Eff :=
  match v.cls with
  | .control => .fault 9
  | _ => if s.gateOpen v dies est then e else .stay

/-- The estimate of an operation in ticks, rounded up: bytes at a rate of GB/s given in hundredths. -/
def estTicks (bytes rate100 : Nat) : Nat := ceilDiv (bytes * 100) rate100

end Sys2Proof.Machine
end

