-- ==== Sys2Proof/Machine/Invoke.lean ====
section
/-! DEFINITION. Programs and invocations (09_scaesh_model R234 to R245; 10_scaesh R265): image checks, loads and switches, CALLs, how
an invocation starts, the watchdog. -/

namespace Sys2Proof.Machine

/-! ### Images (R234, R235) -/

/-- An entry record of an image: first instruction, kind, class code, event, MAX_BEATS. -/
structure ProgEntry where
  offset : Nat
  kind : Nat
  cls : Nat
  event : Nat
  maxBeats : Nat
  deriving DecidableEq, Repr

/-- Entry record k of an image. -/
def progEntry (b : Bytes) (k : Nat) : ProgEntry :=
  let o := 64 + 8 * k
  { offset := field b o 2 % 2 ^ 13, kind := byteAt b (o + 2) % 4, cls := byteAt b (o + 2) / 4 % 8, event := byteAt b (o + 3),
    maxBeats := field b (o + 4) 2 }

/-- The entry records in use. -/
def progEntries (b : Bytes) : List ProgEntry := (List.range (byteAt b 5 % 32)).map (progEntry b)

/-- A class code as a class. -/
def classOf : Nat → InvClass
  | 0 => .emit
  | 1 => .decode
  | 2 => .prefill
  | 3 => .bulk
  | _ => .control

/-- The context a class runs in (R229). -/
def InvClass.ctx : InvClass → Nat
  | .emit => 0
  | .decode => 1
  | .prefill => 2
  | _ => 3

/-- The program number that owns an event (R235). -/
def eventOwner : Nat → Nat
  | 1 => 0
  | 2 => 1
  | _ => 4

/-- The bytes before the signature block. -/
def progBody (b : Bytes) : Nat := 192 + field b 8 4 + field b 12 4

/-- The second row of R235: version, CRC, every field in range, the byte count, the entries. -/
def progFormOk (b : Bytes) : Bool :=
  let code := field b 8 4
  let data := field b 12 4
  let ldm := field b 16 4
  let cws := field b 20 4
  let sig := field b 32 4
  let signed := bitAt (byteAt b 3) 0
  let n := byteAt b 5 % 32
  decide (192 ≤ b.length) && byteAt b 0 % 16 == 1 && field b 60 4 == crc32c (slice b 0 60) && decide (1 ≤ n) && decide (n ≤ 16) &&
    code % 8 == 0 && decide (8 ≤ code) && decide (code ≤ 40960) && decide (data ≤ ldm) && ldm % 256 == 0 && decide (ldm ≤ 98304) &&
    cws % 4096 == 0 && decide (cws ≤ 1048576) && sig == (if signed then sigLen else 0) && b.length == 192 + code + data + sig &&
    (progEntries b).all (fun e => decide (e.offset < code / 8) && (e.kind == 1 || e.kind == 2) && decide (e.cls < 5) &&
      (e.kind == 1 || e.event == 1 || e.event == 2 || e.event == 4) && !allOnes e.maxBeats 16)

/-- Customer program numbers (R234). -/
def progNumOk (n : Nat) : Bool := n == 0 || n == 1 || n == 4 || decide (32 ≤ n)

/-- The fourth row of R235: the entries an image may hold. -/
def progEntriesOk (b : Bytes) : Bool :=
  (progEntries b).all (fun e => if e.kind = 2 then byteAt b 4 == eventOwner e.event else decide (2 ≤ e.cls))

/-- The lowest place of a length in a space that the pieces in use leave free. -/
def fitPlace (base size len : Nat) (used : List (Nat × Nat)) : Option Nat :=
  let cands := base :: used.map (fun u => u.1 + u.2)
  let ok : Nat → Bool := fun o => decide (o + len ≤ base + size) && used.all (fun u => decide (o + len ≤ u.1) || decide (u.1 + u.2 ≤ o))
  (listSort (fun a b => decide (a < b)) (cands.filter ok)).head?

/-- Where a new image of a partition goes (R233, R235): IMEM, LDM and working-space places; none where one has no room. -/
def State.progPlace (s : State) (p : Nat) (b : Bytes) : Option (Nat × Nat × Nat) :=
  let l := s.cores.progs.filter (fun g => g.part == p)
  let im := fitPlace 0x6000 40960 (field b 8 4) (l.map (fun g => (g.imemBase, g.codeBytes)))
  let ld := fitPlace 0x28000 98304 (field b 16 4) (l.map (fun g => (g.ldmBase, g.ldmNeed)))
  let cw := fitPlace 0x500000 0x100000 (field b 20 4) (l.map (fun g => (g.cwsBase, g.cwsNeed)))
  match im, ld, cw with
  | some a, some c, some d => some (a, c, d)
  | _, _, _ => none

/-- The cores of a partition, ascending. -/
def State.coresOf (s : State) (p : Nat) : List Nat := (s.clustersOf p).flatMap (fun c => (List.range 8).map (fun k => 8 * c + k))

/-- Write an image's data into its region on a list of cores. -/
def State.writeData (s : State) (cores : List Nat) (base : Nat) (d : Bytes) : State :=
  cores.foldl (fun s c => let k := s.core c; s.setCore c { k with ldm := memWrite k.ldm base d }) s

/-- PROG_LOAD (R235, R236): the image is checked and written to every core; it becomes live, and the command completes, at the
switch. -/
def execProgLoad (qk : Nat) (data : Bytes) (s : State) : Out3 :=
  withCmd s qk 0x30 (fun s c =>
    let n := field c.raw 32 4
    let b := fit 0 n data
    let id := byteAt b 4
    let p := s.getPart c.part
    if allOnes n 32 ∨ field c.raw 24 4 < n then s.done c.serial .formatInvalid
    else if !progFormOk b then s.done c.serial .formatInvalid
    else if !progNumOk id then s.done c.serial .badState
    else if !progEntriesOk b then s.done c.serial .formatInvalid
    else if byteAt b 1 ≠ 1 ∨ byteAt b 2 ≠ 0 ∨ field b 24 8 / 2 ^ 7 ≠ 0 then s.done c.serial .versionUnsupported
    else if p.conf ∧ !sigBlockOk 1 p.owner "YK-PROG-1" (b.take (progBody b)) (b.drop (progBody b)) then
      (s.bump .secSigFail c.part).done c.serial .secureOnly
    else if 32 ≤ id ∧ s.cores.progs.any (fun g => g.part == c.part && g.id == id && !g.gone) then s.done c.serial .badState
    else match s.progPlace c.part b with
      | none => s.done c.serial .noSpace
      | some (im, ld, cw) =>
        let ver := s.cores.nextVer
        let g : Prog := { part := c.part, id := id, ver := ver, img := b, ldmBase := ld, cwsBase := cw, imemBase := im }
        let s1 := s.writeData (s.coresOf c.part) ld (slice b (192 + field b 8 4) (field b 12 4))
        s1.modCores (fun k => { k with
          progs := k.progs ++ [g]
          nextVer := ver + 1
          switches := k.switches ++ [{ serial := c.serial, part := c.part, prog := id, ver := ver, unload := false }] }))

/-- PROG_UNLOAD (R237): the switch is queued; a number that is not loaded completes with BAD_STATE. -/
def execProgUnload (qk : Nat) (s : State) : Out3 :=
  withCmd s qk 0x31 (fun s c =>
    let id := byteAt c.raw 36
    if (s.livePr c.part id).isNone then s.done c.serial .badState
    else s.modCores (fun k => { k with
      switches := k.switches ++ [{ serial := c.serial, part := c.part, prog := id, ver := 0, unload := true }] }))

/-- Discard the messages a program has sent (10 R287). -/
def State.dropMsgs (s : State) (p id : Nat) : State :=
  s.modCores (fun k => { k with
    chans := k.chans.map (fun c => (c.1, c.2.filter (fun m => m.part != p || m.prog != id)))
    sends := k.sends.filter (fun d => d.msg.part != p || d.msg.prog != id) })

/-- One switch (R236, R237): the image under the number is gone, the new one is live; the command completes. -/
def State.progSwitch (s : State) (w : ProgSwitch) : State :=
  let key := w.part * 256 + w.prog
  if w.unload ∧ (s.livePr w.part w.prog).isNone then s.done w.serial .badState
  else
    let s1 := s.modCores (fun k => { k with
      progs := listMod (fun g => g.part == w.part && g.id == w.prog)
        (fun g => if g.ver = w.ver then { g with live := true } else if g.live then { g with gone := true } else g) k.progs
      unloaded := if w.unload ∧ 32 ≤ w.prog then key :: k.unloaded.filter (fun u => u != key) else k.unloaded.filter (fun u => u != key) })
    let s2 := if w.unload then s1.dropMsgs w.part w.prog else s1
    s2.sweepProgs.done w.serial .ok

/-- PROG_SWITCH (R236, R237): at tick 0 of a taken beat the switches that were queued in an earlier beat take effect on all cores at
once. -/
def execProgSwitch (s : State) : Out3 :=
  whenUp s (fun s =>
    if s.beat.tick ≠ 0 ∨ s.beat.hold then s
    else
      let due := s.cores.switches.filter (·.armed)
      due.foldl State.progSwitch (s.modCores (fun k => { k with switches := k.switches.filter (fun w => !w.armed) })))

/-! ### Starting (R239, R240) -/

/-- A partition's live customer image that owns an event, with its entry. -/
def State.eventProg (s : State) (p ev : Nat) : Option (Prog × ProgEntry) :=
  match s.livePr p (eventOwner ev) with
  | none => none
  | some g => ((progEntries g.img).find? (fun e => e.kind == 2 && e.event == ev)).map (fun e => (g, e))

/-- A context's registers as an invocation finds them (R240): the values given, x29 zero, the stack top in x28, x7 sr.INV; tiles zero,
tags OK, every other register undefined. -/
def entryCtx (c : Ctx) (v : Inv) (top seed : Nat) (xs : List (Nat × Word)) (h0 : Option Nat) : Ctx :=
  { st := .running, inv := some v, pc := v.pc0, queue := c.queue, seed := seed
    x := (xs ++ [(7, word v.id), (28, word top), (29, 0)]).foldl (fun (t : Tab Word) (r : Nat × Word) => tabSet t r.1 r.2) []
    h := match h0 with
      | some h => [(0, h)]
      | none => [] }

/-- Start an invocation at a site. -/
def State.startInv (s : State) (t : Site) (v : Inv) (xs : List (Nat × Word)) (h0 : Option Nat) : State :=
  let r := s.ldmRegion v
  let v1 := { v with startBeat := s.now }
  (s.setCtxAt t (entryCtx (s.ctxAt t) v1 (r.1 + r.2) s.free xs h0)).draw

/-- Whether a context of a core is free for an event: nothing runs in it and nothing is queued. -/
def State.ctxFree (s : State) (t : Site) : Bool :=
  let c := s.ctxAt t
  c.inv.isNone && c.queue.isEmpty && decide (t.core < 256) && decide (t.ctx < 4)

/-- Whether a standard program may run in a context (R246): it is free and not halted. -/
def State.stdReady (s : State) (t : Site) : Bool := s.ctxFree t && !bitAt (s.core t.core).halt t.ctx

/-- An event's invocation of a customer image (R265): its fields not yet filled are those of the event. -/
def eventInv (s : State) (g : Prog) (e : ProgEntry) (ev : Nat) : Inv :=
  { id := s.cores.nextInv % 2 ^ 32, part := g.part, prog := g.id, ver := g.ver, pc0 := e.offset, cls := classOf e.cls,
    gate := classOf e.cls, event := ev }

/-- Take the next invocation identifiers. -/
def State.takeInv (s : State) (n : Nat) : State := s.modCores (fun k => { k with nextInv := k.nextInv + n })

/-! ### CALLs (R239 to R243) -/

/-- The core set of a PROG_CALL; none where it names something outside the partition. -/
def State.callSet (s : State) (p kind num : Nat) : Option (List Nat) :=
  let cs := s.clustersOf p
  if kind = 0 then (if cs.contains (num / 8) then some [num] else none)
  else if kind = 1 then (if cs.contains num then some ((List.range 8).map (fun k => 8 * num + k)) else none)
  else if kind = 2 then some (s.coresOf p)
  else none

/-- Post what waits for room in a queue set's completion ring: ACCEPTs of CALLs, then NOTIFYs, in order, while unreserved entries
are free (12_host_interface R327). -/
def State.flushCpl (s : State) (qk : Nat) : Nat → State
  | 0 => s
  | n + 1 =>
    let q := s.qs qk
    if !q.en || cplFree q ≤ s.inFlight qk then s
    else match s.cores.calls.find? (fun c => c.qk == qk && !c.accepted) with
      | some c =>
        let cid := ((s.cmd? c.serial).map Cmd.cid).getD 0
        let s1 := s.postCpl qk { kind := 1, status := .ok, cmdHead := 0, cid := cid, handle := c.id % 2 ^ 32, phase := false }
        let s2 := s1.modCores (fun k => { k with
          calls := listMod (fun x => x.id == c.id) (fun x => { x with accepted := true }) k.calls })
        State.flushCpl (s2.callDone c.id) qk n
      | none =>
        match s.cores.bells.find? (fun b => b.qk == qk) with
        | some b =>
          let s1 := s.postCpl qk { kind := 2, status := .ok, cmdHead := 0, cid := 0, handle := b.inv, res0 := b.member,
                                   res1 := b.value, phase := false }
          State.flushCpl (s1.modCores (fun k => { k with bells := k.bells.filter (fun x => x != b) })) qk n
        | none => s

/-- PROG_CALL (R239, R240): one invocation is queued on each core of the set at once, and the ACCEPT is posted. -/
def execProgCall (qk : Nat) (s : State) : Out3 :=
  withCmd s qk 0x32 (fun s c =>
    let id := byteAt c.raw 12
    let h := field c.raw 8 4
    match s.livePr c.part id, s.callSet c.part (byteAt c.raw 14) (byteAt c.raw 15) with
    | some g, some cores =>
      let k := byteAt c.raw 13 % 16
      let e := progEntry g.img k
      let cls := classOf e.cls
      if byteAt g.img 5 % 32 ≤ k ∨ e.kind ≠ 1 then s.done c.serial .formatInvalid
      else if h ≠ 0 ∧ (s.handle? c.part h).isNone then s.done c.serial .badSession
      else if cores.any (fun n => decide (64 ≤ ((s.core n).ctx cls.ctx).queue.length)) then s.done c.serial .noSpace
      else
        let base := s.cores.nextInv
        let mk : Nat → Inv := fun m =>
          { id := (base + m) % 2 ^ 32, part := c.part, prog := id, ver := g.ver, pc0 := e.offset, cls := cls, gate := cls, call := base,
            member := m, members := cores.length, maxBeats := e.maxBeats,
            args := (List.range 4).map (fun i => word (field c.raw (32 + 8 * i) 8)), entry := k }
        let call : Call := { id := base, serial := c.serial, qk := c.qk, part := c.part, prog := id, cores := cores, handle := h,
                             bufAddr := field c.raw 16 8, bufLen := field c.raw 24 4 }
        let s1 := (s.takeInv cores.length).modCores (fun k => { k with calls := k.calls ++ [call] })
        let s2 := (cores.zipIdx).foldl (fun s n =>
          let t : Site := ⟨n.1, cls.ctx⟩
          let x := s.ctxAt t
          s.setCtxAt t { x with queue := x.queue ++ [mk n.2] }) s1
        s2.flushCpl c.qk 1000
    | none, some _ => s.done c.serial (if s.cores.unloaded.contains (c.part * 256 + id) then .badState else .formatInvalid)
    | _, none => s.done c.serial .formatInvalid)

/-- PROG_CANCEL (R242): queued invocations of the CALL are dropped, running and suspended ones end with CANCELLED, the CALL completes
with CANCELLED and the cancel with OK. -/
def execProgCancel (qk : Nat) (s : State) : Out3 :=
  withCmd s qk 0x33 (fun s c =>
    let n := field c.raw 32 4
    match s.cores.calls.find? (fun k => k.part == c.part && !k.cancelled && (List.range k.cores.length).any (fun m => (k.id + m) % 2 ^ 32 == n)) with
    | none => s.done c.serial .badState
    | some k =>
      let s1 := k.cores.foldl (fun s core =>
        [2, 3].foldl (fun s i =>
          let t : Site := ⟨core, i⟩
          let x := s.ctxAt t
          let s' := s.setCtxAt t { x with queue := x.queue.filter (fun v => v.call != k.id || v.event != 0) }
          match x.inv with
          | some v => if v.call = k.id ∧ v.event = 0 then s'.setCtxAt t (s'.ctxAt t).cleared else s'
          | none => s') s) s
      let s2 := s1.modCores (fun z => { z with calls := listMod (fun x => x.id == k.id) (fun x => { x with cancelled := true }) z.calls })
      (s2.callDone k.id).sweepProgs.done c.serial .ok)

/-- What an invocation that starts now runs (R236): the entry its CALL named, in the image that is live. A number whose customer image was
unloaded runs the image it was queued for. None where the image now in force has no such call entry for the context: the spec does not say
what happens then (DESIGN CHOICE: 95). -/
def State.onLive (s : State) (v : Inv) : Option Inv :=
  match s.livePr v.part v.prog with
  | some g =>
    let e := progEntry g.img v.entry
    if byteAt g.img 5 % 32 ≤ v.entry ∨ e.kind ≠ 1 ∨ (classOf e.cls).ctx ≠ v.cls.ctx then none
    else some { v with ver := g.ver, pc0 := e.offset, cls := classOf e.cls, gate := classOf e.cls, maxBeats := e.maxBeats }
  | none => if 32 ≤ v.prog then some v else none

/-- CALL_INVOCATION (R230, R236, R239, R240): the oldest invocation queued in a context starts where nothing runs in it; a session that
has gone leaves h0 empty. One that has no entry to start at ends with FORMAT_INVALID. -/
def execCallInvocation (core ctx : Nat) (s : State) : Out3 :=
  whenUp s (fun s =>
    let t : Site := ⟨core, ctx⟩
    let x := s.ctxAt t
    match x.inv, x.queue with
    | none, v :: rest =>
      let call := s.cores.calls.find? (fun c => c.id == v.call)
      let h := (call.map (·.handle)).getD 0
      let len := (call.map (·.bufLen)).getD 0
      let args := (v.args.zipIdx).map (fun a => (a.2 + 1, a.1))
      let s1 := s.setCtxAt t { x with queue := rest }
      match s.onLive v with
      | some u => s1.startInv t u (args ++ [(5, word len), (6, word h)]) (if h = 0 then none else some h)
      | none => (s1.setCtxAt t { (s1.ctxAt t) with inv := some v }).killInv t Status.formatInvalid.code
    | _, _ => s)

/-- WATCHDOG (R244): the invocation at a site has run for MAX_BEATS beats and faults. -/
def execWatchdog (core ctx : Nat) (s : State) : Out3 :=
  whenUp s (fun s =>
    let t : Site := ⟨core, ctx⟩
    match (s.ctxAt t).inv with
    | none => s
    | some v => if v.maxBeats = 0 ∨ (s.now + 2 ^ 48 - v.startBeat) % 2 ^ 48 < v.maxBeats then s else s.raise t 10)

end Sys2Proof.Machine
end

