-- ==== Sys2Proof/Machine/DirOps.lean ====
section
/-! DEFINITION. The undercoat directory's own operations (04_undercoat_directory): keys, rows and records, searches, references,
retirement, how a publish is undone, and the release of a session's blocks and references. -/

namespace Sys2Proof.Machine

/-! ### Keys (R97) -/

/-- The first 16 bytes of a SHA-256 digest as a little-endian number. -/
def trunc16 (b : Bytes) : Nat := leNat ((sha256 b).take 16)

/-- CHAIN(−1) of a domain and model. -/
def chainRoot (dom model : Nat) : Nat := trunc16 (natLe 2 dom ++ natLe 1 model)

/-- The bytes tokens have in a key: the SRC bits never enter it. -/
def keyToks (l : List LogTok) : Bytes := l.flatMap (fun t => natLe 4 (t.tok % 2 ^ 18))

/-- The tokens of block b of a log. -/
def blockToks (l : List LogTok) (b : Nat) : List LogTok := (l.drop (64 * b)).take 64

/-- CHAIN(b) from CHAIN(b − 1). -/
def chainNext (c : Nat) (l : List LogTok) (b : Nat) : Nat := trunc16 (natLe 16 c ++ keyToks (blockToks l b))

/-- The key of a tail of f positions. -/
def tailKeyOf (c : Nat) (l : List LogTok) (b f : Nat) : Nat :=
  trunc16 (natLe 16 c ++ keyToks ((blockToks l b).take f) ++ natLe 1 f)

/-- CHAIN(0) to CHAIN(d − 1) of a log. -/
def chains (c : Nat) (l : List LogTok) (b : Nat) : Nat → List Nat
  | 0 => []
  | n + 1 => let k := chainNext c l b; k :: chains k l (b + 1) n

/-! ### Rows, slots, records (R100 to R104) -/

/-- A record. -/
def State.dirRec (s : State) (ix : Nat) : Rec := tabGet {} s.dir.recs ix

/-- The block of a record, as a descriptor. -/
def Rec.desc (r : Rec) : Desc :=
  { valid := true, tier := r.tier, cluster := r.cluster, hdrT := r.hdrT, base := r.base, hdr := r.hdr, blk := r.blk, fill := r.fill }

/-- Put a record; a FREE one is not listed. -/
def State.setRec (s : State) (ix : Nat) (r : Rec) : State := { s with dir := { s.dir with recs := tabPut {} s.dir.recs ix r } }

/-- Change a record. -/
def State.modRec (s : State) (ix : Nat) (f : Rec → Rec) : State := s.setRec ix (f (s.dirRec ix))

/-- The row of a full key in a partition (R100). -/
def rowOf (p : Part) (chain : Nat) : Nat := p.rowBase + chain % 2 ^ 32 % max 1 p.rows

/-- The slots of a row by number, lowest first. -/
def State.rowSlots (s : State) (row : Nat) : List (Nat × Slot) := s.dir.slots.filter (fun x => x.1 / 64 == row)

/-- The lowest free slot of a row. -/
def State.lowSlot (s : State) (row : Nat) : Option Nat :=
  lowestFree (fun k => (tabGet? s.dir.slots k).isNone) (row * 64) 64

/-- The highest free slot of a row. -/
def State.highSlot (s : State) (row : Nat) : Option Nat :=
  ((List.range 64).reverse.find? (fun k => (tabGet? s.dir.slots (row * 64 + k)).isNone)).map (fun k => row * 64 + k)

/-- The lowest FREE record of a partition's range (R101). -/
def State.freeRec (s : State) (p : Nat) : Option Nat :=
  let x := s.getPart p
  lowestFree (fun ix => (tabGet? s.dir.recs ix).isNone) (x.rowBase * 64) (x.rows * 64)

/-- Whether a record index is a partition's. -/
def inRecs (x : Part) (ix : Nat) : Bool := decide (x.rowBase * 64 ≤ ix) && decide (ix < (x.rowBase + x.rows) * 64)

/-- A mask-0 search of a partition (R104): the lowest valid slot of the key's row that matches. -/
def State.search0 (s : State) (p dom model chain : Nat) : Option Nat :=
  ((s.rowSlots (rowOf (s.getPart p) chain)).find? (fun x =>
    x.2.valid && x.2.domain == dom && x.2.model == model && x.2.chain == chain)).map (·.2.ix)

/-- The slot that holds an entry's key. -/
def State.slotOf (s : State) (ix : Nat) : Option Nat := (s.dir.slots.find? (fun x => x.2.ix == ix)).map (·.1)

/-- A request for the partition's search slots begins to wait: the count it gets as its arrival moves on (R103). -/
def State.stamp (s : State) : State := { s with dir := { s.dir with clock := s.dir.clock + 1 } }

/-- Take an entry's key out of its row. -/
def State.dropSlot (s : State) (ix : Nat) : State :=
  { s with dir := { s.dir with slots := s.dir.slots.filter (fun x => x.2.ix != ix) } }

/-! ### References (R118) -/

/-- Take a reference on an entry. -/
def State.refInc (s : State) (ix : Nat) : State := s.modRec ix (fun r => { r with refs := r.refs + 1 })

/-- An entry that is RETIRED or FAULTED and has no reference left is released through float queue B (R118). -/
def State.releaseRec (s : State) (ix : Nat) : State :=
  let r := s.dirRec ix
  if r.refs = 0 ∧ (r.st = .retired ∨ r.st = .faulted) then
    s.queueMove { queue := .b, kind := .release, beat := s.now, part := r.part, onRec := true, sess := ix, block := r.depth }
  else s

/-- Release a reference on an entry. -/
def State.refDec (s : State) (ix : Nat) : State := (s.modRec ix (fun r => { r with refs := r.refs - 1 })).releaseRec ix

/-- Blocks are lost before a checkpoint has read them (16 R420): it reads them no more, and it will fail (DESIGN CHOICE: 99). -/
def State.loseReads (s : State) (gone : CkRead → Bool) : State :=
  let rs := s.ckReads.filter gone
  if rs.isEmpty then s
  else
    let s1 := s.modReads (fun l => l.filter (fun r => !gone r))
    let s2 : State := { s1 with ckpt := { s1.ckpt with take := s1.ckpt.take.map (fun t => { t with lost := true }) } }
    rs.foldl (fun s r => match r.ix with
      | some ix => s.refDec ix
      | none => s) s2

/-- The block of a released entry goes, its record becomes FREE, and it releases its parent (R118). Nothing lies below it any more, so a
sweep for what does ends. -/
def State.freeRecord (s : State) (ix : Nat) : State :=
  let r := s.dirRec ix
  let s1 := ({ s with dir := { s.dir with
    recs := tabErase s.dir.recs ix
    retires := s.dir.retires.map (fun (q : Retire) => if q.below.any (fun (b : Nat × Nat) => b.1 == ix) then { q with below := none } else q) } }).dropSlot ix
  let s2 := if r.blk = 0 then s1 else s1.letBlk r.desc
  if r.root then s2 else s2.refDec r.parent

/-! ### Retirement (R117, R120) -/

/-- An entry that is a tail is no longer its parent's (R105, R120). -/
def State.unlinkTail (s : State) (ix : Nat) : State :=
  let r := s.dirRec ix
  if r.tail && (s.dirRec r.parent).tailSet && (s.dirRec r.parent).tailIx == ix then
    s.modRec r.parent (fun q => { q with tailSet := false, tailIx := 0 })
  else s

/-- Retire one entry: no lookup finds it from here on; it is counted; with no reference it is released. -/
def State.retireEntry (s : State) (ix : Nat) : State :=
  let r := s.dirRec ix
  if r.st = .valid ∨ r.st = .writing then
    ((((s.dropSlot ix).modRec ix (fun r => { r with st := .retired })).unlinkTail ix).bump .dirRetired r.part).releaseRec ix
  else s

/-- A retirement's sweeps meet a slot (R104, R112): one that is valid, or that a publish past its point of no return still writes. -/
def State.swept (s : State) (e : Slot) : Bool := e.valid || s.dir.pubs.any (fun q => q.pointPassed && q.ixs.contains e.ix)

/-- The entries of one row whose keys name an entry as parent (mask 1, R104). -/
def State.childrenIn (s : State) (row ix : Nat) : List Nat :=
  ((s.rowSlots row).filter (fun x =>
    s.swept x.2 && x.2.domain == (s.dirRec ix).domain && x.2.parent == ix && !(s.dirRec x.2.ix).root)).map (·.2.ix)

/-- The tail of an entry (R120). -/
def State.tailOf (s : State) (ix : Nat) : List Nat := let r := s.dirRec ix; if r.tailSet then [r.tailIx] else []

/-- A domain's slots in one row (mask 2): model 255 means every one (R104). -/
def State.domainRow (s : State) (row dom model : Nat) : List Nat :=
  ((s.rowSlots row).filter (fun x => s.swept x.2 && x.2.domain == dom && (model == 255 || x.2.model == model))).map (·.2.ix)

/-- A retirement begins to wait for its slots (R103, R120). -/
def State.addRetire (s : State) (r : Retire) : State :=
  ({ s with dir := { s.dir with retires := s.dir.retires ++ [{ r with arr := s.dir.clock }] } } : State).stamp

/-! ### A session's blocks and references (R36, R118) -/

/-- A session's copy-on-extend is given up: its request goes, with the reference on the tail and the descriptor that reads the tail
(R110, R118). -/
def State.dropCopy (s : State) (id : Nat) : State :=
  (s.fab.float.filter (fun f => !f.onRec && f.sess == id && f.kind == .copyExtend)).foldl (fun s f =>
    let ix := ((s.getSess id).desc f.block).ix
    (({ s with fab := { s.fab with float := s.fab.float.filter (fun g => g != f) } } : State).modSess id (fun x =>
      { x with pages := x.pages.set f.block {} })).refDec ix) s

/-- Release every block of a session, its reference on its deepest entry, the reference a copy-on-extend holds on its tail, and
its page list (R36, R90). -/
def State.freeBlocks (s : State) (id : Nat) : State :=
  let x := s.getSess id
  let ce := s.fab.float.filter (fun f => !f.onRec && f.sess == id && f.kind == .copyExtend)
  let s1 := (s.dropMoves id).modSess id (fun x => { x with pages := [], leaves := [], pageRoot := 0 })
  let s2 := x.pages.foldl (fun s d =>
    if d.valid && !d.shared && !s.dir.recs.any (fun r => r.2.blk == d.blk) then s.letBlk d else s) s1
  let s3 := ce.foldl (fun s f => s.refDec (x.desc f.block).ix) s2
  if x.coatPos = 0 then s3 else s3.refDec x.undercoatIx

/-! ### Stopping a publish (R112) -/

/-- Drop a publish from the list. -/
def State.dropPub (s : State) (q : Pub) : State :=
  { s with dir := { s.dir with pubs := s.dir.pubs.filter (fun r => r.serial != q.serial) } }

/-- Undo a publish that stops before its point of no return (R112): the session's descriptors and coat return, reserved and
written records and slots become FREE, the copied tail block is released. -/
def State.pubUndo (s : State) (q : Pub) : State :=
  let fresh := q.ixs.drop q.firstNew ++ q.tailIx.toList
  let s1 := match q.saved with
    | some (ds, ix, coat) =>
      let x := s.getSess q.sess
      let back := s.upd q.sess (fun x => { x with pages := ds ++ x.pages.drop ds.length, undercoatIx := ix, coatPos := coat })
      if x.undercoatIx = ix ∧ x.coatPos = coat then back
      else
        let b1 := if coat = 0 then back else back.refInc ix
        if x.coatPos = 0 then b1 else b1.refDec x.undercoatIx
    | none => s
  let s2 := fresh.reverse.foldl (fun s ix =>
    let r := s.dirRec ix
    let t := ({ s with dir := { s.dir with recs := tabErase s.dir.recs ix } }).dropSlot ix
    if r.chain = 0 || r.root || fresh.contains r.parent then t else t.refDec r.parent) s1
  let s3 := { s2 with
    dir := { s2.dir with slots := s2.dir.slots.filter (fun x => !q.slots.contains x.1) },
    fab := { s2.fab with float := s2.fab.float.filter (fun (f : FReq) => !(f.kind == FKind.pubTail && f.sess == q.sess && !f.onRec)) } }
  (if q.tailBlk = 0 then s3 else s3.dropBlk q.tailBlk).dropPub q

/-- A publish of a session stops with the status of the event that stopped it, unless it has passed its point of no return. -/
def State.pubStop (s : State) (id : Nat) (st : Status) : State :=
  match s.dir.pubs.find? (fun q => q.sess == id) with
  | none => s
  | some q =>
    if q.pointPassed then s else ((s.pubUndo q).modSess id (fun x => { x with lastStatus := st.code })).done q.serial st

end Sys2Proof.Machine
end

