-- ==== Sys2Proof/Machine/Text.lean ====
section
/-! DEFINITION. The text unit (08_text_unit): tokeniser images and their checks, tokenising, detokenising, the seam checker, the
UTF-8 stage, emit-ring records. -/

namespace Sys2Proof.Machine

/-! ### Tokeniser images (R203 to R205) -/

/-- A tokeniser image's header fields (R203). -/
structure TokHdr where
  hold : Bool
  vocab : Nat
  merges : Nat
  vslots : Nat
  mslots : Nat
  strBytes : Nat
  cpPages : Nat
  states : Nat
  classes : Nat
  maxPiece : Nat
  deriving DecidableEq, Repr

/-- Read the header. -/
def tokHdr (b : Bytes) : TokHdr :=
  { hold := bitAt (byteAt b 1) 0, vocab := field b 4 4 % 2 ^ 19, merges := field b 8 4 % 2 ^ 20, vslots := field b 12 4,
    mslots := field b 16 4, strBytes := field b 20 4 % 2 ^ 24, cpPages := field b 24 2 % 2 ^ 13, states := byteAt b 26 % 128,
    classes := byteAt b 27 % 32, maxPiece := field b 28 2 % 2 ^ 11 }

/-- The start of the next section: each begins at a 4 KiB boundary (R204). -/
def nextSec (off len : Nat) : Nat := ceilDiv (off + len) 4096 * 4096

/-- The offsets of the eight sections, and the end of the last (R204). -/
structure TokSecs where
  cix : Nat
  cpg : Nat
  split : Nat
  byteTab : Nat
  six : Nat
  str : Nat
  vh : Nat
  mh : Nat
  endB : Nat
  deriving DecidableEq, Repr

/-- Merge slots in the image: none count when there are no merges (R203). -/
def TokHdr.mhSlots (h : TokHdr) : Nat := if h.merges = 0 then 0 else h.mslots

/-- The sections of an image. -/
def tokSecs (h : TokHdr) : TokSecs :=
  let cix := 4096
  let cpg := nextSec cix 8704
  let split := nextSec cpg (h.cpPages * 256)
  let byteTab := nextSec split (h.states * 32)
  let six := nextSec byteTab 1024
  let str := nextSec six (h.vocab * 8)
  let vh := nextSec str h.strBytes
  let mh := nextSec vh (h.vslots * 8)
  { cix := cix, cpg := cpg, split := split, byteTab := byteTab, six := six, str := str, vh := vh, mh := mh,
    endB := if h.mhSlots = 0 then vh + h.vslots * 8 else mh + h.mhSlots * 16 }

/-- An image with its header and sections read. -/
structure TokImg where
  b : Bytes
  h : TokHdr
  o : TokSecs
  deriving DecidableEq, Repr

/-- Open an image. -/
def openTok (b : Bytes) : TokImg := { b := b, h := tokHdr b, o := tokSecs (tokHdr b) }

/-- The string-index entry of a token: OFFSET, LEN, WHOLE_OK, SPECIAL. -/
def TokImg.strEnt (t : TokImg) (k : Nat) : Nat × Nat × Bool × Bool :=
  let e := t.o.six + 8 * k
  (field t.b e 3, byteAt t.b (e + 3), bitAt (byteAt t.b (e + 4)) 0, bitAt (byteAt t.b (e + 4)) 1)

/-- The bytes of a token's string (R204). -/
def TokImg.str (t : TokImg) (k : Nat) : Bytes := slice t.b (t.o.str + (t.strEnt k).1) (t.strEnt k).2.1

/-- Whether a token is a control token (R204). -/
def TokImg.special (t : TokImg) (k : Nat) : Bool := (t.strEnt k).2.2.2

/-- The first of at most eight probed slots, from a start slot on and wrapping, that a test accepts (R204). -/
def probe8 {α : Type} (slots start : Nat) (f : Nat → Option α) : Option α :=
  (List.range 8).findSome? (fun k => f ((start + k) % slots))

/-- Search the vocabulary for a byte string (R204). -/
def TokImg.find (t : TokImg) (s : Bytes) : Option Nat :=
  probe8 t.h.vslots (crc32c s % t.h.vslots) (fun k =>
    let e := t.o.vh + 8 * k
    let w := field t.b e 4
    if bitAt w 31 && field t.b (e + 4) 4 == crc32c s && t.str (w % 2 ^ 18) == s then some (w % 2 ^ 18) else none)

/-- Search the merges for a pair: the result and its rank (R204). -/
def TokImg.merge (t : TokImg) (l r : Nat) : Option (Nat × Nat) :=
  if t.h.mhSlots = 0 then none
  else probe8 t.h.mslots (crc32c (natLe 4 l ++ natLe 4 r) % t.h.mslots) (fun k =>
    let e := t.o.mh + 16 * k
    let w := field t.b e 4
    if bitAt w 31 && w % 2 ^ 18 == l && field t.b (e + 4) 4 % 2 ^ 18 == r then
      some (field t.b (e + 8) 4 % 2 ^ 18, field t.b (e + 12) 4 % 2 ^ 20)
    else none)

/-- The valid merges of an image: LEFT, RIGHT, RESULT, RANK. -/
def TokImg.merges (t : TokImg) : List (Nat × Nat × Nat × Nat) :=
  (List.range t.h.mhSlots).filterMap (fun k =>
    let e := t.o.mh + 16 * k
    let w := field t.b e 4
    if bitAt w 31 then
      some (w % 2 ^ 18, field t.b (e + 4) 4 % 2 ^ 18, field t.b (e + 8) 4 % 2 ^ 18, field t.b (e + 12) 4 % 2 ^ 20)
    else none)

/-- Whether a number is a power of two from 2^10 to 2^22. -/
def slotsOk (n : Nat) : Bool := (List.range 13).any (fun k => n == 2 ^ (10 + k))

/-- The header checks of R205. A count whose range R203 ends in its all-ones value may have that value (DESIGN CHOICE: 81). -/
def tokHdrOk (b : Bytes) : Bool :=
  let h := tokHdr b
  byteAt b 0 % 16 == 1 && field b 60 4 == crc32c (slice b 0 60) && slotsOk h.vslots &&
    (h.merges == 0 || slotsOk h.mslots) && decide (1 ≤ h.strBytes) && decide (1 ≤ h.cpPages) && decide (h.cpPages ≤ 4352) &&
    decide (1 ≤ h.states) && decide (h.states ≤ 64) && decide (2 ≤ h.classes) && decide (h.classes ≤ 16) &&
    decide (1 ≤ h.maxPiece) && decide (h.maxPiece ≤ 1024)

/-- Whether the byte count is the end of the last section. DEDUCED: 28 (without merges the merge hash may be left out, since
MHASH_SLOTS is ignored, or stand there unread). -/
def TokImg.lengthOk (t : TokImg) : Bool :=
  t.b.length == t.o.endB || (t.h.merges == 0 && slotsOk t.h.mslots && t.b.length == t.o.mh + t.h.mslots * 16)

/-- The load checks of TOK_LOAD (R205) for a model whose vocabulary is `vocab`. -/
def tokOk (b : Bytes) (vocab : Nat) : Bool :=
  let t := openTok b
  let h := t.h
  let ms := t.merges
  let toks := List.range h.vocab
  tokHdrOk b && h.vocab == vocab && vocab != 0 && t.lengthOk &&
    (List.range 4352).all (fun j => decide (field b (t.o.cix + 2 * j) 2 < h.cpPages)) &&
    (List.range (h.cpPages * 256)).all (fun j => decide (byteAt b (t.o.cpg + j) < h.classes - 1)) &&
    (List.range (h.states * 16)).all (fun j => decide (field b (t.o.split + 2 * j) 2 % 64 < h.states)) &&
    (List.range 256).all (fun j =>
      let e := field b (t.o.byteTab + 4 * j) 4
      e == 0xFFFFFFFF || (decide (e < h.vocab) && t.str e == [byte j])) &&
    toks.all (fun k =>
      let e := t.strEnt k
      decide (e.1 + e.2.1 ≤ h.strBytes) && (e.2.2.2 || (decide (1 ≤ e.2.1) && decide (e.2.1 ≤ 128))) &&
        (t.find (t.str k) == some k) == e.2.2.1 && !(e.2.2.1 && e.2.2.2)) &&
    ms.length == h.merges &&
    ms.all (fun m => decide (m.1 < h.vocab) && decide (m.2.1 < h.vocab) && decide (m.2.2.1 < h.vocab) &&
      decide (m.2.2.2 < h.merges) && t.merge m.1 m.2.1 == some (m.2.2.1, m.2.2.2) &&
      t.str m.2.2.1 == t.str m.1 ++ t.str m.2.1 && !t.special m.1 && !t.special m.2.1 && !t.special m.2.2.1) &&
    (List.range h.merges).all (fun r => ms.any (fun m => m.2.2.2 == r))

/-! ### Tokenising (R206 to R209) -/

/-- Whether a byte is a UTF-8 continuation byte within a range. -/
def inR (b lo hi : Nat) : Bool := decide (lo ≤ b) && decide (b ≤ hi)

/-- The length of the UTF-8 sequence a lead byte starts, 0 for none, and the range of its second byte. -/
def utf8Lead (b : Nat) : Nat × Nat × Nat :=
  if b < 0x80 then (1, 0, 0)
  else if inR b 0xC2 0xDF then (2, 0x80, 0xBF)
  else if b = 0xE0 then (3, 0xA0, 0xBF)
  else if b = 0xED then (3, 0x80, 0x9F)
  else if inR b 0xE1 0xEF then (3, 0x80, 0xBF)
  else if b = 0xF0 then (4, 0x90, 0xBF)
  else if inR b 0xF1 0xF3 then (4, 0x80, 0xBF)
  else if b = 0xF4 then (4, 0x80, 0x8F)
  else (0, 0, 0)

/-- Whether bytes are the start of one valid sequence: the lead byte and continuation bytes so far. -/
def utf8Start (s : Bytes) : Bool :=
  match s with
  | [] => false
  | b :: t =>
    let l := utf8Lead b.toNat
    l.1 != 0 && decide (s.length ≤ l.1) &&
      (match t with
       | [] => true
       | c :: u => inR c.toNat l.2.1 l.2.2 && u.all (fun x => inR x.toNat 0x80 0xBF))

/-- The code point of a whole valid sequence. -/
def utf8Code (s : Bytes) : Nat :=
  match s with
  | [] => 0
  | b :: t =>
    let k := t.length
    let lead := if k = 0 then b.toNat else b.toNat % 2 ^ (6 - k)
    t.foldl (fun n x => n * 64 + x.toNat % 64) lead

/-- Decode a text into code points and invalid bytes, each with its bytes (R206; DEDUCED: 24). -/
def utf8Split : Nat → Bytes → List (Option Nat × Bytes)
  | 0, _ => []
  | _ + 1, [] => []
  | n + 1, b :: t =>
    let l := (utf8Lead b.toNat).1
    let q := (b :: t).take l
    if l != 0 && q.length == l && utf8Start q then (some (utf8Code q), q) :: utf8Split n ((b :: t).drop l)
    else (none, [b]) :: utf8Split n t

/-- The class of a code point (R204). -/
def TokImg.classOf (t : TokImg) (c : Nat) : Nat :=
  byteAt t.b (t.o.cpg + field t.b (t.o.cix + 2 * (c / 256)) 2 * 256 + c % 256)

/-- Cut code points into pieces (R206): the pieces so far reversed, the piece being grown, the split state. -/
def cutPieces (t : TokImg) : List (Option Nat × Bytes) → List Bytes → Bytes → Nat → List Bytes
  | [], done, cur, _ => (if cur.isEmpty then done else cur :: done).reverse
  | (none, q) :: l, done, cur, _ => cutPieces t l (q :: (if cur.isEmpty then done else cur :: done)) [] 0
  | (some c, q) :: l, done, cur, st =>
    let e := field t.b (t.o.split + 2 * (st * 16 + t.classOf c)) 2
    let cut := bitAt e 7 || decide (t.h.maxPiece < cur.length + q.length)
    if cut && !cur.isEmpty then cutPieces t l (cur :: done) q (e % 64)
    else cutPieces t l done (cur ++ q) (e % 64)

/-- The best merge of a token list: place, result, rank; the lowest rank, and of equal pairs the leftmost (R208). -/
def bestMerge (t : TokImg) : Nat → List Nat → Option (Nat × Nat × Nat) → Option (Nat × Nat × Nat)
  | j, a :: b :: l, best =>
    let best' := match t.merge a b, best with
      | some m, none => some (j, m.1, m.2)
      | some m, some x => if m.2 < x.2.2 then some (j, m.1, m.2) else some x
      | none, x => x
    bestMerge t (j + 1) (b :: l) best'
  | _, _, best => best

/-- Ranked merging of a piece's byte tokens (R208). -/
def rankedMerge (t : TokImg) : Nat → List Nat → List Nat
  | 0, l => l
  | n + 1, l =>
    match bestMerge t 0 l none with
    | none => l
    | some (j, r, _) => rankedMerge t n (l.take j ++ [r] ++ l.drop (j + 2))

/-- A piece tokenised: its bytes, its tokens, whether byte mode resolved it. -/
structure PieceTok where
  len : Nat
  toks : List Nat
  byteMode : Bool
  deriving DecidableEq, Repr

/-- Tokenise one piece (R207, R208); `error` holds the offset of the first byte without a token (R209). -/
def tokPiece (t : TokImg) (s : Bytes) : Except Nat PieceTok :=
  match (if s.length ≤ 128 then t.find s else none) with
  | some k => .ok ⟨s.length, [k], true⟩
  | none =>
    let bt : List Nat := s.map (fun b => field t.b (t.o.byteTab + 4 * b.toNat) 4)
    match bt.findIdx? (fun e => e == 0xFFFFFFFF) with
    | some i => .error i
    | none => .ok ⟨s.length, rankedMerge t s.length bt, false⟩

/-- Tokenise a text piece by piece: what was tokenised, and the byte offset of the first untokenisable byte. -/
def tokPieces (t : TokImg) : List Bytes → Nat → List PieceTok × Option Nat
  | [], _ => ([], none)
  | p :: l, off =>
    match tokPiece t p with
    | .error i => ([], some (off + i))
    | .ok x => let r := tokPieces t l (off + p.length); (x :: r.1, r.2)

/-- Tokenise a text (R206 to R209). -/
def tokenise (t : TokImg) (text : Bytes) : List PieceTok × Option Nat :=
  tokPieces t (cutPieces t (utf8Split text.length text) [] [] 0) 0

/-! ### Stop sets (R219) -/

/-- The strings of a stop-set image, or none where a load check fails. -/
def stopOk (b : Bytes) : Option (List Bytes) :=
  let n := byteAt b 1 % 16
  let lens := (List.range 8).map (fun k => byteAt b (8 + k))
  let used := lens.take n
  let strs := (List.range n).map (fun k => slice b (64 + sumOf id (used.take k)) (used.getD k 0))
  if byteAt b 0 % 16 = 1 ∧ field b 60 4 = crc32c (slice b 0 60) ∧ 1 ≤ n ∧ n ≤ 8 ∧ used.all (fun l => l != 0 && decide (l ≤ 64)) ∧
      (lens.drop n).all (fun l => l == 0) ∧ b.length = 64 + sumOf id used ∧ strs.eraseDups.length = n then some strs
  else none

/-! ### Detokenising and the seam checker (R213 to R217) -/

/-- What one seam step gives: bytes released, bytes held, the string that matched. -/
structure SeamOut where
  out : Bytes
  held : Bytes
  hit : Option Nat
  deriving DecidableEq, Repr

/-- The longest stop string that ends at byte e of s. -/
def hitAt (stops : List Bytes) (s : Bytes) (e : Nat) : Option Bytes :=
  ((stops.filter (fun x => decide (x.length ≤ e + 1) && slice s (e + 1 - x.length) x.length == x)).foldl
    (fun best x => match best with
      | some y => if y.length < x.length then some x else some y
      | none => some x) none)

/-- One step of the seam checker (R214, R215). -/
def seamStep (h b : Bytes) (stops : List Bytes) (stoptext : Bool) : SeamOut :=
  let s := h ++ b
  match (List.range b.length).findSome? (fun i => (hitAt stops s (h.length + i)).map (fun x => (h.length + i, x))) with
  | some (e, x) =>
    { out := s.take (e + 1 - x.length) ++ (if stoptext then x else []), held := [],
      hit := stops.findIdx? (fun y => y == x) }
  | none =>
    let keep := ((List.range (s.length + 1)).reverse.find? (fun j =>
      j != 0 && stops.any (fun x => decide (j < x.length) && x.take j == s.drop (s.length - j)))).getD 0
    { out := s.take (s.length - keep), held := s.drop (s.length - keep), hit := none }

/-- The length of the incomplete character a byte string ends in, 0 to 3 (R216). -/
def utf8Tail (s : Bytes) : Nat :=
  ([3, 2, 1].find? (fun k =>
    let q := s.drop (s.length - k)
    decide (k ≤ s.length) && utf8Start q && decide (k < (utf8Lead (byteAt q 0)).1))).getD 0

/-- The tokeniser image of a model of a partition. -/
def State.tok? (s : State) (p m : Nat) : Option TokImg := (tabGet? s.text.toks (p * 256 + m)).map openTok

/-- The strings of a session's stop set; none for set 0 (R214). -/
def State.stopsOf (s : State) (p set : Nat) : List Bytes := if set = 0 then [] else tabGet [] s.text.stops (p * 65536 + set)

/-- The stop strings that can match for a session: none where its model has no image (R213). -/
def State.sessStops (s : State) (x : Sess) : List Bytes :=
  if (s.tok? x.part x.model).isSome then s.stopsOf x.part x.stopSet else []

/-- The bytes of a sampled token that is not an end token (R213). -/
def State.tokBytes (s : State) (x : Sess) (t : Nat) : Bytes :=
  match s.tok? x.part x.model with
  | none => []
  | some g => if g.special t then [] else g.str t

/-- What leaves for the host from bytes the seam released: what the UTF-8 stage lets out, and what it holds (R216). -/
def State.utf8Step (s : State) (x : Sess) (out : Bytes) : Bytes × Bytes :=
  let q := x.utf8 ++ out
  if (match s.tok? x.part x.model with | some g => g.h.hold | none => false) then
    let k := utf8Tail q
    (q.take (q.length - k), q.drop (q.length - k))
  else (q, [])

/-- How the text of one token leaves. -/
structure TextOut where
  bytes : Bytes := []
  seam : Bytes := []
  utf8 : Bytes := []
  hit : Option Nat := none
  partial_ : Bool := false
  deriving DecidableEq, Repr

/-- Release everything held behind some released bytes (R217): what is left incomplete is released as it is. -/
def releaseAll (bytes utf8 : Bytes) : TextOut := { bytes := bytes ++ utf8, partial_ := !utf8.isEmpty }

/-- The text of a logged token (R214 to R217): `ends` says that the generate ends with it for another reason than a stop. -/
def State.textOf (s : State) (x : Sess) (t : Nat) (silent ends : Bool) : TextOut :=
  let sm := seamStep x.seam (if silent then [] else s.tokBytes x t) (s.sessStops x) x.stoptext
  match sm.hit with
  | some k =>
    let u := s.utf8Step x sm.out
    { releaseAll u.1 u.2 with hit := some k }
  | none =>
    if ends then
      let u := s.utf8Step x (sm.out ++ sm.held)
      releaseAll u.1 u.2
    else
      let u := s.utf8Step x sm.out
      { bytes := u.1, seam := sm.held, utf8 := u.2 }

/-- The text left when a generate ends without a token of its own (R217). -/
def State.textFlush (s : State) (x : Sess) : TextOut :=
  let u := s.utf8Step x x.seam
  releaseAll u.1 u.2

/-! ### Emit-ring records (R218, R220, R221) -/

/-- A text record (R220): the phase bit is set when it is written. -/
def textRec (tokValid last : Bool) (o : TextOut) (stoptext noText : Bool) (handle pos st : Nat) : Bytes :=
  let n := 16 + o.bytes.length
  let flags := b2n tokValid + 2 * b2n last + 4 * b2n o.hit.isSome + 8 * b2n (o.hit.isSome && stoptext) +
    16 * b2n o.partial_ + 32 * b2n noText
  natLe 1 1 ++ natLe 1 (ceilDiv n 64) ++ natLe 1 1 ++ natLe 1 flags ++ natLe 4 handle ++
    natLe 4 (if tokValid then pos else 0) ++ natLe 1 st ++ natLe 1 (o.hit.getD 0) ++ natLe 2 o.bytes.length ++ o.bytes

/-- The entries of a ranked list as records and messages carry them: INDEX and y, empty slots with 0xFFFF_FFFF and −∞ (R197). -/
def topkEntries (k : Nat) (l : List (Nat × W32)) : Bytes :=
  (fit (0xFFFFFFFF, f32NegInfBits) k l).flatMap (fun e => natLe 4 e.1 ++ natLe 4 e.2.toNat)
where
  /-- FP32 −∞. -/
  f32NegInfBits : W32 := 0xFF800000

/-- A top-k record (R221). -/
def topkRec (handle pos k n st : Nat) (sel left : W32) (l : List (Nat × W32)) : Bytes :=
  natLe 1 2 ++ natLe 1 (ceilDiv (32 + 8 * k) 64) ++ natLe 1 1 ++ natLe 1 1 ++ natLe 4 handle ++ natLe 4 pos ++ natLe 4 0 ++
    natLe 2 k ++ natLe 2 n ++ natLe 1 st ++ natLe 3 0 ++ natLe 4 sel.toNat ++ natLe 4 left.toNat ++ topkEntries k l

/-- The units of a record. -/
def recUnits (r : Bytes) : Nat := ceilDiv r.length 64

/-- Write a record into a queue set's emit ring, with the phase of its first unit (R328, R330), its bytes after byte 15 first; nothing is written for a stopped
queue set (R331). -/
def State.writeRec (s : State) (qk p : Nat) (r : Bytes) : State :=
  let q := s.qs qk
  if !q.en then s
  else
    let u := recUnits r
    let b0 := byte (byteAt r 0 + 128 * b2n q.emitPhase)
    let full := fit 0 (64 * u) (b0 :: r.drop 1)
    let s1 := (s.emitOut (.emitBody qk q.emitTail (full.drop 16))).emitOut (.emitRec qk q.emitTail q.emitPhase full)
    let t := q.emitTail + u
    let size := 2 ^ q.emitLog2
    let s2 := s1.modQs qk (fun q => { q with emitTail := t % size, emitPhase := xor q.emitPhase (decide (size ≤ t)),
                                             emitUsed := q.emitUsed + u })
    let s3 := s2.bump .textRecords p
    let s4 := if bitAt (byteAt r 3) 4 && byteAt r 0 % 16 == 1 then s3.bump .textUtf8Partial p else s3
    s4.signalEmit qk

/-- Whether a session has a LAST record that waits for ring space. -/
def State.lastWaits (s : State) (id : Nat) : Bool := s.text.waits.any (fun w => w.sess == id)

/-- Write one waiting LAST record, with its generate's completion behind it (R218). -/
def State.writeWait (s : State) (w : WaitRec) : State :=
  let s1 := { s with text := { s.text with waits := s.text.waits.filter (fun v => v != w) } }
  let s2 := (s1.writeRec w.qk (s.getSess w.sess).part w.rec_).upd w.sess (fun x => { x with lateSeam := [], lateUtf8 := [] })
  s2.final w.serial w.status (field w.rec_ 4 4) w.logged 0 0

/-- Whether a waiting LAST record may be written: no earlier one of its session or of its queue set waits, and its ring has room (R218). -/
def State.waitReady (s : State) (w : WaitRec) : Bool :=
  s.text.waits.find? (fun v => v.sess == w.sess || v.qk == w.qk) == some w &&
    (decide (recUnits w.rec_ ≤ emitFree (s.qs w.qk)) || !(s.qs w.qk).en)

/-- Write the LAST records that wait and may be written, in their order (R218). -/
def State.flushWaits (s : State) : State := s.text.waits.foldl (fun s w => if s.waitReady w then s.writeWait w else s) s

end Sys2Proof.Machine
end

