-- ==== Sys2Proof/Machine/Emit.lean ====
section
/-! DEFINITION. The emit path's own functions (07_sampling_and_stencils): stencil sets and sampler profiles and their load checks,
candidates, ranking, sums, the draw. -/

namespace Sys2Proof.Machine

/-! ### Stencil sets (R177 to R180) -/

/-- A stencil set's counts, and where its sections start (R177). -/
structure StencilHdr where
  vocab : Nat
  states : Nat
  masks : Nat
  classes : Nat
  trans : Nat
  dead : Nat
  maskBytes : Nat
  mOff : Nat
  sOff : Nat
  tOff : Nat
  deriving DecidableEq, Repr

/-- Read a set's header. -/
def stencilHdr (b : Bytes) : StencilHdr :=
  let vocab := field b 4 4 % 2 ^ 19
  let states := field b 8 4 % 2 ^ 21
  let masks := field b 12 4 % 2 ^ 17
  let m := ceilDiv vocab 512 * 64
  let mOff := nextSec 4096 (2 * vocab)
  let sOff := nextSec mOff (masks * m)
  { vocab := vocab, states := states, masks := masks, classes := field b 16 4 % 2 ^ 17, trans := field b 20 4 % 2 ^ 24,
    dead := field b 28 4 % 2 ^ 18, maskBytes := m, mOff := mOff, sOff := sOff, tOff := nextSec sOff (states * 16) }

/-- The class of a token. -/
def stencilClass (b : Bytes) (t : Nat) : Nat := field b (4096 + 2 * t) 2

/-- A state's record: mask, first transition, count. -/
def stencilRec (b : Bytes) (st : Nat) : Nat × Nat × Nat :=
  let o := (stencilHdr b).sOff + 16 * st
  (field b o 2, field b (o + 4) 4, field b (o + 8) 4 % 2 ^ 17)

/-- A transition: class and next state. -/
def stencilTrans (b : Bytes) (k : Nat) : Nat × Nat :=
  let o := (stencilHdr b).tOff + 8 * k
  (field b o 2, field b (o + 4) 4)

/-- The transitions of a state. -/
def stencilOuts (b : Bytes) (st : Nat) : List (Nat × Nat) :=
  let r := stencilRec b st
  (List.range r.2.2).map (fun k => stencilTrans b (r.2.1 + k))

/-- Bit t of a mask. -/
def maskBit (b : Bytes) (mask t : Nat) : Bool :=
  let h := stencilHdr b
  bitAt (byteAt b (h.mOff + mask * h.maskBytes + t / 8)) (t % 8)

/-- NEXT of a state's transition for a token's class, or none (R177). -/
def stencilNext (b : Bytes) (st t : Nat) : Option Nat :=
  let h := stencilHdr b
  if st < h.states ∧ t < h.vocab then ((stencilOuts b st).find? (fun e => e.1 == stencilClass b t)).map (·.2) else none

/-- A list of classes rises strictly. -/
def rising : List Nat → Bool
  | a :: b :: l => decide (a < b) && rising (b :: l)
  | _ => true

/-- The load checks of STENCIL_LOAD (R178). R177 lets TRANS end at 16,777,215, the all-ones value that R6 says is no count: the model takes
it (DESIGN CHOICE: 81). -/
def stencilOk (b : Bytes) : Bool :=
  let h := stencilHdr b
  byteAt b 0 % 16 == 1 && field b 60 4 == crc32c (slice b 0 60) &&
    decide (1 ≤ h.vocab) && decide (h.vocab ≤ 262144) && decide (1 ≤ h.states) && decide (h.states ≤ 1048576) &&
    decide (1 ≤ h.masks) && decide (h.masks ≤ 65536) && decide (1 ≤ h.classes) && decide (h.classes ≤ 65535) &&
    decide (1 ≤ h.trans) && b.length == h.tOff + 8 * h.trans && decide (h.dead < h.vocab) &&
    (List.range h.vocab).all (fun t => decide (stencilClass b t < h.classes)) &&
    (List.range h.states).all (fun st =>
      let r := stencilRec b st
      let outs := stencilOuts b st
      decide (r.1 < h.masks) && decide (r.2.1 + r.2.2 ≤ h.trans) && rising (outs.map (·.1)) &&
        outs.all (fun e => decide (e.1 < h.classes) && decide (e.2 < h.states)) &&
        (List.range h.vocab).all (fun t => maskBit b r.1 t == outs.any (fun e => e.1 == stencilClass b t))) &&
    (List.range h.masks).all (fun m => (List.range (8 * h.maskBytes)).all (fun t => decide (t < h.vocab) || !maskBit b m t))

/-- The image of a stencil set of a partition. -/
def State.set? (s : State) (p n : Nat) : Option StencilSet := tabGet? s.emit.sets (p * 65536 + n)

/-- Whether a set and state allow a token (R179): set 0 allows every one. -/
def State.allows (s : State) (p set st t : Nat) : Bool :=
  if set = 0 then true
  else match s.set? p set with
    | none => false
    | some x =>
      let h := stencilHdr x.img
      decide (t < h.vocab) && decide (st < h.states) && maskBit x.img (stencilRec x.img st).1 t

/-! ### Sampler profiles (R182 to R184) -/

/-- Profile 0, built in: greedy, K 1 (R184). -/
def profile0 : Profile := {}

/-- Whether FP32 bits are a NaN. -/
def isNanW (w : W32) : Bool := fIsNan (f32 w)

/-- Read a profile image; none where a load check fails (R183). -/
def profileOk (b : Bytes) : Option Profile :=
  let k := field b 2 2
  let temp : W32 := BitVec.ofNat 32 (field b 4 4)
  let topP : W32 := BitVec.ofNat 32 (field b 8 4)
  let bc := field b 40 2 % 2 ^ 11
  let ac := field b 42 2 % 2 ^ 13
  let bias : List (Nat × W32) := (List.range bc).map (fun i =>
    (field b (64 + 8 * i) 4 % 2 ^ 18, BitVec.ofNat 32 (field b (68 + 8 * i) 4)))
  let allow := (List.range ac).map (fun i => field b (64 + 8 * bc + 4 * i) 4 % 2 ^ 18)
  let tempOk := temp = 0x80000000 ∨ temp.toNat < 0x7F800000
  if byteAt b 0 % 16 = 1 ∧ field b 60 4 = crc32c (slice b 0 60) ∧ b.length = 64 + 8 * bc + 4 * ac ∧ k ≠ 0 ∧ k ≠ 0xFFFF ∧ tempOk ∧
      0 < topP.toNat ∧ topP.toNat ≤ 0x3F800000 ∧ bc ≤ 1024 ∧ ac ≤ 4096 ∧ rising (bias.map (·.1)) ∧ rising allow ∧
      bias.all (fun e => !isNanW e.2 && e.2 != f32Inf) then
    some { k := min k 256, clamped := decide (256 < k), temp := temp, topP := topP, seedMode := bitAt (byteAt b 1) 0,
           retTopk := bitAt (byteAt b 1) 1, hostTopk := bitAt (byteAt b 1) 2, seed := field b 16 8,
           ends := (List.range 4).filterMap (fun i =>
               let e := field b (24 + 4 * i) 4
               if bitAt e 31 then some (e % 2 ^ 18) else none),
           bias := bias, allow := allow, pages := ceilDiv b.length 4096 }
  else none

/-- A profile of a partition, if loaded; profile 0 always is (R184). -/
def State.prof? (s : State) (p n : Nat) : Option Profile := if n = 0 then some profile0 else tabGet? s.emit.profs (p * 65536 + n)

/-! ### Candidates and ranking (R188 to R191) -/

/-- y of an entry: the logit plus the profile's bias (R188). -/
def biased (pr : Profile) (i : Nat) (logit : W32) : W32 :=
  match pr.bias.find? (fun e => e.1 == i) with
  | some e => f32Add logit e.2
  | none => logit

/-- y as ranking uses it: +∞ becomes the largest finite value, −0 becomes +0 (R188). -/
def adjusted (y : W32) : W32 := if y = f32Inf then 0x7F7FFFFF else if y = 0x80000000 then 0 else y

/-- The y of an entry where it is a candidate (R188). -/
def candidate (pr : Profile) (allowed : Bool) (i : Nat) (logit : W32) : Option W32 :=
  let y := biased pr i logit
  if allowed && (pr.allow.isEmpty || pr.allow.contains i) && !isNanW y && y != f32NegInf then some (adjusted y) else none

/-- The composite key of a candidate (R190). -/
def composite (i : Nat) (y : W32) : Nat :=
  let b := y.toNat
  let k := if b < 0x80000000 then b + 0x80000000 else 0xFFFFFFFF - b
  k * 2 ^ 18 + (0x3FFFF - i)

/-- The index a composite key carries. -/
def keyIndex (c : Nat) : Nat := 0x3FFFF - c % 2 ^ 18

/-- The candidates in rank order: largest composite first (R190). -/
def ranking (l : List (Nat × W32)) : List (Nat × W32) := listSort (fun a b => decide (composite b.1 b.2 < composite a.1 a.2)) l

/-! ### Sums and the draw (R192 to R194) -/

/-- z of a candidate: y / T, +∞ brought to the largest finite value (R192). -/
def scaledZ (temp y : W32) : W32 :=
  let z := f32Div y (if f32 temp matches .fin _ 0 _ then f32One else temp)
  if z = f32Inf then 0x7F7FFFFF else z

/-- A core's or a cluster's (m, Z) pair. -/
structure SumPair where
  m : W32
  z : W32
  deriving DecidableEq, Repr

/-- Merge two pairs by rescaling (R192, 05_attention R145); −∞ marks an empty one. -/
def mergePair (n : Nat) (a b : SumPair) : SumPair :=
  let m := f32Max a.m b.m
  let sc : SumPair → Nat → W32 := fun p k =>
    if p.m = f32NegInf then f32Zero else f32Mul p.z (f32Exp (f32Add p.m (m ^^^ 0x80000000)) (Config.approx n k))
  { m := m, z := f32Add (sc a 1) (sc b 2) }

/-- The pair of one slice's z values, added in an order the spec does not give. -/
def slicePair (n : Nat) (zs : List W32) : SumPair :=
  match zs with
  | [] => { m := f32NegInf, z := f32Zero }
  | z :: l =>
    let m := l.foldl f32Max z
    let es := (zs.zipIdx).map (fun e => f32Exp (f32Add e.1 (m ^^^ 0x80000000)) (Config.approx n (8 + e.2)))
    { m := m, z := f32Accum (Config.order n) es.length es }

/-- The cluster's pair: eight slices merged in three levels, (0,1), (2,3) and so on (R191, R192). -/
def clusterPair (n : Nat) (ps : List SumPair) : SumPair :=
  let lvl : Nat → List SumPair → List SumPair := fun k l =>
    (List.range (l.length / 2)).map (fun i =>
      mergePair (n + 100 * k + i) (l.getD (2 * i) ⟨f32NegInf, 0⟩) (l.getD (2 * i + 1) ⟨f32NegInf, 0⟩))
  (lvl 3 (lvl 2 (lvl 1 ps))).headD ⟨f32NegInf, 0⟩

/-- The ranked result of a step's candidates (R191, R192); `n` names the free choices. -/
def rankOf (pr : Profile) (vocab n : Nat) (cands : List (Nat × W32)) : Ranked :=
  let sz := 64 * ceilDiv vocab 512
  let sorted := (ranking cands).map (fun e => (e.1, e.2, scaledZ pr.temp e.2))
  let pairs := (List.range 8).map (fun j =>
    slicePair (n + 1000 * j) ((cands.filter (fun e => e.1 / sz == j)).map (fun e => scaledZ pr.temp e.2)))
  let tot := clusterPair n pairs
  let sumOver : Nat → List (Nat × W32 × W32) → W32 := fun k l =>
    let es := (l.zipIdx).map (fun e => f32Exp (f32Add e.1.2.2 (tot.m ^^^ 0x80000000)) (Config.approx (n + k) e.2))
    if es.isEmpty then 0 else f32Div (f32Accum (Config.order (n + k)) es.length es) tot.z
  let top := sorted.take pr.k
  if cands.isEmpty then { k := pr.k, n := 0, sel := 0, left := 0 }
  else { k := pr.k, n := top.length, sel := sumOver 10000 top, left := sumOver 20000 (sorted.drop pr.k), entries := top }

/-- The 24-bit value u (R194): Philox over position, session and key. -/
def drawU24 (key pos handle : Nat) : Nat := (philox pos handle 0 0 (key % 2 ^ 32) (key / 2 ^ 32 % 2 ^ 32)).1.toNat / 2 ^ 8

/-- FP32 u / 2^24 of a 24-bit value. -/
def u24Frac (u : Nat) : W32 := toF32 (.fin false u (-24))

/-- a ≤ b on FP32. -/
def f32Le (a b : W32) : Bool := fLt (f32 a) (f32 b) || fEq (f32 a) (f32 b)

/-- The shortest prefix whose running weight reaches the threshold: its length and weight (R193). -/
def keepPrefix (thr : W32) : List W32 → Nat → W32 → Nat × W32
  | [], k, c => (k, c)
  | w :: l, k, c =>
    let c' := f32Add c w
    if l.isEmpty || f32Le thr c' then (k + 1, c') else keepPrefix thr l (k + 1) c'

/-- The first entry at which the running weight exceeds t, the last kept one otherwise (R193). -/
def pickEntry (t : W32) : List (Nat × W32) → W32 → Nat
  | [], _ => 0
  | [e], _ => e.1
  | e :: l, c =>
    let c' := f32Add c e.2
    if fLt (f32 t) (f32 c') then e.1 else pickEntry t l c'

/-- The drawn token (R193); `n` names the free choices of the exponentials. -/
def drawToken (pr : Profile) (r : Ranked) (u n : Nat) : Nat :=
  match r.entries with
  | [] => 0
  | e0 :: _ =>
    if (f32 pr.temp matches .fin _ 0 _) || r.n = 1 then e0.1
    else
      let ws := (r.entries.zipIdx).map (fun e =>
        (e.1.1, f32Exp (f32Add e.1.2.2 (e0.2.2 ^^^ 0x80000000)) (Config.approx n e.2)))
      let tot := (ws.map (·.2)).foldl f32Add 0
      let k := keepPrefix (f32Mul pr.topP tot) (ws.map (·.2)) 0 0
      pickEntry (f32Mul (u24Frac u) k.2) (ws.take k.1) 0

end Sys2Proof.Machine
end

