-- ==== Sys2Proof/Machine/Sessions.lean ====
section
/-! DEFINITION. Session transitions (02_sessions R36 to R50): parks, revives, strips, faults, how generates end, closing and the way
back to FREE. -/

namespace Sys2Proof.Machine

/-! ### Small parts -/

/-- A command that changed the session completes: LAST_STATUS takes OK (R31). -/
def Sess.okd (x : Sess) : Sess := { x with lastStatus := 0 }

/-- Arm a wake hint for a beat (R42). -/
def Sess.arm (x : Sess) (beat : Nat) : Sess := { x with wakeSet := true, wake := beat % 2 ^ 48 }

/-- Clear the wake hint (R42). -/
def Sess.disarm (x : Sess) : Sess := { x with wakeSet := false, wake := 0 }

/-- The session is in a step (R36). -/
def Sess.inStep (x : Sess) : Bool := x.st == .running && x.step.isSome

/-- What a session forgets when it leaves HOT and RUNNING (05 R131, R38): its marks, with the partial writes above LENGTH; the
fills of its own blocks fall to what LENGTH covers. -/
def Sess.settled (x : Sess) : Sess :=
  { x with
    marks := []
    step := none
    pages := (x.pages.zipIdx).map (fun d => if d.1.shared then d.1 else { d.1 with fill := min d.1.fill (x.length - 64 * d.2) }) }

/-- The bytes a park of a session would move (R80): the page arrays of its blocks not held through the directory that lie on the
package. -/
def State.parkBytes (s : State) (x : Sess) : Nat :=
  (s.model x.part x.model).blockBytes * (x.pages.filter (fun d => d.valid && !d.shared && decide (d.tier < 2))).length

/-- Whether a park tier exists for a partition (R67, R92): tier 2, or an enabled window. -/
def State.parkTier (s : State) (p : Nat) : Bool := !s.isN || !(s.winsOf p).isEmpty

/-! ### Parks and revives (R36, R70, R76, R82, R86) -/

/-- Whether a move of a session is still queued or running. -/
def State.hasMoves (s : State) (id : Nat) (k : FKind → Bool) : Bool :=
  s.fab.float.any (fun f => !f.onRec && f.sess == id && k f.kind)

/-- Drop the float requests of a session but a copy-on-extend, which a park or a revive leaves to run on (R110). -/
def State.dropMovesOnly (s : State) (id : Nat) : State :=
  { s with fab := { s.fab with float := s.fab.float.filter (fun f => f.onRec || f.sess != id || f.kind == .copyExtend) } }

/-- Begin a park (R36): MOVING, with a float request for each own block on the package; with none to move, PARKED at once. -/
def State.startPark (s : State) (id : Nat) : State :=
  let s := s.pubStop id .cancelled
  let x := s.getSess id
  let todo := (x.pages.zipIdx).filter (fun d => d.1.valid && !d.1.shared && decide (d.1.tier < 2))
  let s1 := (s.dropMovesOnly id).upd id (fun x => { x.settled with
    st := if todo.isEmpty && !s.hasMoves id (fun k => k == .copyExtend) then .parked else .moving })
  todo.foldl (fun s d => s.queueMove { queue := .b, kind := .park, beat := s.now, part := x.part, sess := id, block := d.2 }) s1

/-- Begin a revive (R36): REVIVING, with a float request in a queue for each own block in tier 2 or 3. -/
def State.startRevive (s : State) (id : Nat) (q : FQueue) (start : Nat) : State :=
  let x := s.getSess id
  let s1 := s.upd id (fun x => { x with st := .reviving })
  let s2 := { s1 with fab := { s1.fab with float := s1.fab.float.filter (fun f =>
    f.onRec || f.sess != id || f.kind != .park || f.running || f.copied) } }
  ((x.pages.zipIdx).filter (fun d => d.1.valid && !d.1.shared && decide (2 ≤ d.1.tier))).foldl (fun s d =>
    s.queueMove { queue := q, kind := .revive, beat := s.now, part := x.part, sess := id, block := d.2, start := start,
                  prio := 15 - x.prio }) s2

/-- A park whose last request is served ends in PARKED (R36); a block the float had to leave at its source (R78) stays there. -/
def State.parkDone (s : State) (id : Nat) : State :=
  let x := s.getSess id
  if x.st = .moving ∧ !x.exporting ∧ !s.hasMoves id (fun k => k == .park || k == .copyExtend) then s.upd id (fun x => { x with st := .parked }) else s

/-- Enter IDLE: a COLD session is parked at once where a park tier has room (R67, R82). -/
def State.enteredIdle (s : State) (id : Nat) : State :=
  let x := s.getSess id
  if x.st = .idle ∧ x.policy = .cold ∧ s.parkTier x.part ∧ s.parkBytes x ≤ s.parkFree x.part then s.startPark id else s

/-! ### The end of a generate (R36, R45, 08 R217, R218) -/

/-- What the entry takes when a generate ends: the state, LAST_STATUS, and the wake hint it carries unless it was cancelled
(R36, R42). -/
def Sess.genOver (x : Sess) (st : Status) (stNew : SState) (now : Nat) : Sess :=
  let y : Sess := { x.settled with st := stNew, lastStatus := st.code, open? := none, cancelReq := false }
  match x.open? with
  | some g => if g.wakeAfter ≠ 0 ∧ st ≠ .cancelled then y.arm (now + g.wakeAfter) else y
  | none => y

/-- Post the completion of an ended generate: the handle, and the tokens it logged (R326). -/
def State.genFinal (s : State) (h : Nat) (g : Gen) (st : Status) : State := s.final g.serial st h g.logged 0 0

/-- A generate ends without a token of its own (R217): its held text leaves in a LAST record, which waits for ring space where
there is none; a cancel discards it. The completion follows the record. -/
def State.endGen (s : State) (id : Nat) (st : Status) (stNew : SState) : State :=
  let x := s.getSess id
  match x.open? with
  | none => s.upd id (fun x => { x.settled with st := stNew, lastStatus := st.code })
  | some g =>
    let h := handleOf id x
    let s1 := s.upd id (fun x => x.genOver st stNew s.now)
    if st = .cancelled then
      (s1.modSess id (fun x => { x with seam := [], utf8 := [] })).genFinal h g st
    else
      let o := s.textFlush x
      let r := textRec false true o x.stoptext (s.tok? x.part x.model).isNone h 0 st.code
      let q := s1.qs g.qk
      if q.en && (decide (emitFree q < recUnits r) || s1.text.waits.any (fun w => w.qk == g.qk || w.sess == id)) then
        ((s1.modSess id (fun x => { x with seam := [], utf8 := [], lateSeam := x.lateSeam ++ x.seam, lateUtf8 := x.lateUtf8 ++ x.utf8 })).modText
          (fun t => { t with waits := t.waits ++
            [{ qk := g.qk, sess := id, rec_ := r, serial := g.serial, status := st, logged := g.logged }] })).bump .textFlushWait x.part
      else
        ((s1.writeRec g.qk x.part r).modSess id (fun x => { x with seam := [], utf8 := [] })).genFinal h g st

/-! ### Closing (R36, R78, R83) -/

/-- The chunk requests of a session that loses its blocks keep what they still have to read: their results depend on nothing accepted
after them (05_attention R149). -/
def State.keepReads (s : State) (id : Nat) : State :=
  let x := s.getSess id
  let kept : Tab KvBlk := (x.pages.zipIdx).map (fun d => (d.2, s.blk (s.locate d.1).blk))
  s.modAtt (fun a => { a with reqs := listMod (fun r => r.handle == handleOf id x && r.kept.isEmpty) (fun r => { r with kept := kept }) a.reqs })

/-- Into ENDED: moves are abandoned, the release of blocks, references and token log is queued (R36, R76, R83). -/
def State.toEnded (s : State) (id : Nat) : State :=
  let s := (((s.pubStop id .cancelled).endIn id .cancelled).keepReads id).dropCopy id
  let x := s.getSess id
  let s1 := (s.dropMoves id).upd id (fun x =>
    { (x.settled.disarm) with st := .ended, heldCmd := false, held := none, exporting := false, cancelReq := false, lastStatus := 0 })
  let s2 := s1.queueMove { queue := .b, kind := .release, beat := s.now, part := x.part, sess := id, block := 0 }
  if x.closeSerial = 0 then s2
  else (s2.modSess id (fun x => { x with closeSerial := 0 })).done x.closeSerial .ok

/-- A session whose close waits for its step to end goes to ENDED once it is out of it (R36). -/
def State.closeIfDue (s : State) (id : Nat) : State :=
  let x := s.getSess id
  if x.closeSerial ≠ 0 ∧ x.st ≠ .running then s.toEnded id else s

/-- The generate of a session ends and the session goes to IDLE, with what follows from that (R36, R67). -/
def State.endGenIdle (s : State) (id : Nat) (st : Status) : State := ((s.endGen id st .idle).closeIfDue id).enteredIdle id

/-- The session's held command is dropped and completes with a status (R46, R36). -/
def State.dropHeld (s : State) (id : Nat) (st : Status) : State :=
  let x := s.getSess id
  match x.held with
  | none => s
  | some h =>
    (s.upd id (fun x => { x with held := none, heldCmd := false, lastStatus := st.code })).final h.serial st (if h.isGen then handleOf id x else 0) 0 0 0

/-! ### Strips and faults (R36, R90, R33, R44) -/

/-- What a strip leaves in the entry (R36). -/
def Sess.stripped (x : Sess) : Sess :=
  { (x.settled.disarm) with
    st := .stripped
    pageRoot := 0
    coatPos := 0
    undercoatIx := 0
    pend := x.length + x.pend
    length := 0 }

/-- Strip a session (R36): all blocks are released at once. -/
def State.strip (s : State) (id : Nat) : State := (((s.pubStop id .cancelled).keepReads id).freeBlocks id).upd id Sess.stripped

/-- Whether a session's token log is lost: no intact copy (R50). -/
def Sess.logLost (x : Sess) : Bool := x.lostCopy == 3

/-- End whatever command a session holds open with a status: its generate or its held command (R36). -/
def State.endOpen (s : State) (id : Nat) (st : Status) (stNew : SState) : State := (s.endGen id st stNew).dropHeld id st

/-- FAULTED with a status: the open generate or held command completes with it, the blocks are released (R36); Q_SUBMITs in flight end with
TIER_FAULT (R141). -/
def State.faultSess (s : State) (id : Nat) (st : Status) : State :=
  let s := s.answerAll (handleOf id (s.getSess id)) .tierFault
  let s1 := ((s.pubStop id st).endOpen id st .faulted).endIn id .tierFault
  (s1.freeBlocks id).upd id (fun x => { x.settled with st := .faulted, pageRoot := 0, lastStatus := st.code })

/-- The states a tier fault takes a session out of (R36). -/
def Sess.faultable (x : Sess) : Bool :=
  match x.st with
  | .hot | .running | .idle | .parked | .reviving => true
  | .moving => !x.exporting
  | _ => false

/-- A tier fault of a session (R90): to STRIPPED where its token log is intact, else to FAULTED. A session that is ENDED, FAULTED, OPEN or
STRIPPED, or in an export, keeps its state. Its Q_SUBMITs in flight end with TIER_FAULT (R141). -/
def State.tierFault (s : State) (id : Nat) : State :=
  let x := s.getSess id
  let s := s.answerAll (handleOf id x) .tierFault
  if !x.faultable then s
  else if x.logLost then s.faultSess id .tierFault
  else
    let s1 := ((s.pubStop id .tierFault).endOpen id .tierFault .stripped).endIn id .tierFault
    ((s1.freeBlocks id).upd id (fun x => { x.stripped with lastStatus := Status.tierFault.code })).closeIfDue id

/-- A session lets one lost block go (R90): its descriptor, with the data where the block is the session's own. -/
def State.loseBlock (s : State) (id b : Nat) : State :=
  let d := (s.getSess id).desc b
  let s1 := s.modSess id (fun x => { x with pages := x.pages.set b {} })
  let s2 : State := { s1 with fab := { s1.fab with float := s1.fab.float.filter (fun f => f.onRec || f.sess != id || f.block != b) } }
  if d.valid && !d.shared && !s.dir.recs.any (fun r => r.2.blk == d.blk) then s2.dropBlk d.blk else s2

/-- Tier faults on blocks of a session, as it holds them: counted block by block, then the session's own fault (R90, R94); where the session
keeps its state, the blocks alone go. -/
def State.blocksFault (s : State) (id : Nat) (bs : List Nat) : State :=
  let x := s.getSess id
  let own : CkRead → Bool := fun q => q.held.isNone && bs.any (fun b => (x.desc b).valid && !(x.desc b).shared && (x.desc b).blk == q.blk)
  let s1 := (bs.foldl (fun s _ => s.bump .sfEvtTierfault x.part) s).loseReads own
  if x.faultable then s1.tierFault id else (bs.foldl (fun s b => s.loseBlock id b) s1).tierFault id

/-- The page list of a revived or restored session must cover LENGTH (R44): LEN_OVER_PAGES otherwise. -/
def State.coverCheck (s : State) (id : Nat) : State :=
  let x := s.getSess id
  if x.covered < x.length then s.faultSess id .lenOverPages else s

/-! ### Loading an entry (R33 to R35, R44) -/

/-- What is wrong with the words W0 to W7 of an entry read from tier 0: its CRC32C or its STATE (R33, R35), its version (R34), its lengths
(R44). -/
def entryFlaw (w : List Nat) : Option Status :=
  let w0 := w.getD 0 0
  let len := w.getD 1 0 % 2 ^ 22
  let pend := w.getD 1 0 / 2 ^ 22 % 2 ^ 22
  if w.getD 7 0 / 2 ^ 32 % 2 ^ 32 ≠ crc32c ((w.take 7).flatMap (natLe 8)) ∨ 10 < w0 / 2 ^ 4 % 2 ^ 4 then some .tierFault
  else if w0 % 2 ^ 4 ≠ 1 then some .versionUnsupported
  else if maxPositions < len ∨ maxPositions < pend ∨ maxPositions < len + pend then some .lenOverLimit
  else none

/-- The engine loads an entry into its cache (R33, R34, R44): a session whose entry fails goes to FAULTED, out of an export too; one that
is FREE, ENDED or FAULTED stays (DESIGN CHOICE: 83). -/
def State.loadEntry (s : State) (id : Nat) (w : List Nat) : State :=
  let x := s.getSess id
  match entryFlaw w with
  | none => s
  | some st =>
    if x.st == .free || x.st == .ended || x.st == .faulted then s
    else
      let s1 := match s.link.outs.find? (fun m => m.sess == id) with
        | some m => s.abandonOut m st
        | none => s
      (s1.modSess id (fun x => { x with exporting := false })).faultSess id st

/-- The entries a step loads, each as its number with the words read. -/
def State.loadEntries (s : State) (l : List (Nat × List Nat)) : State := l.foldl (fun s e => s.loadEntry e.1 e.2) s

/-! ### Strips for tier-2 space (R82, R496) -/

/-- Strip the partition's PARKED STRIP_OK sessions, oldest LAST_USE first, until there is enough room or none is left (R82). -/
def State.stripUntil (s : State) (p : Nat) (enough : State → Bool) : State :=
  let victims := listSort (fun (a b : Nat × Sess) => decide (a.2.lastUse < b.2.lastUse))
    ((s.live p).filter (fun x => x.2.st == .parked && x.2.policy == .stripOk))
  victims.foldl (fun s v => if enough s then s else s.strip v.1) s

/-- Strips until a park of some bytes fits (R82). -/
def State.stripFor (s : State) (p need : Nat) : State := s.stripUntil p (fun s => decide (need ≤ s.parkFree p))

/-- A tier-2 quota with no room for the mirror of `n` more entries sets off the same strips (R496). -/
def State.stripLog (s : State) (id n : Nat) : State :=
  if s.logRoom id n = some 2 then s.stripUntil (s.getSess id).part (fun s => s.logRoom id n != some 2) else s

/-! ### Back to FREE (R36, 09 R232) -/

/-- Whether a Scaesh slot or a queued CALL still holds a session. -/
def State.slotHolds (s : State) (h : Nat) : Bool :=
  s.cores.core.any (fun c => [c.2.ctx0, c.2.ctx1, c.2.ctx2, c.2.ctx3].any (fun x => x.h.any (fun e => e.2 == h))) ||
  s.cores.calls.any (fun c => c.handle == h && h != 0)

/-- Whether something still refers to an ENDED session: a slot, a request in flight, a text record that waits, a lookup or a
publish. -/
def State.referred (s : State) (id : Nat) : Bool :=
  let h := handleOf id (s.getSess id)
  s.slotHolds h || s.att.reqs.any (fun r => r.handle == h) || s.text.waits.any (fun w => w.sess == id) ||
    s.dir.walks.any (fun w => w.sess == id) || s.dir.pubs.any (fun q => q.sess == id) || s.link.outs.any (fun o => o.sess == id)

/-- The entry of a FREE session: all zero but the generation (R36). -/
def freed (gen : Nat) : Sess := { gen := gen }

/-- The last reference of an ENDED session is released: the entry is FREE (R36). -/
def State.freeSess (s : State) (id : Nat) : State :=
  let x := s.getSess id
  let s1 := s.freeBlocks id
  let s2 := { s1 with fab := { s1.fab with float := s1.fab.float.filter (fun f => f.onRec || f.sess != id) } }
  s2.setSess id (freed x.gen)

end Sys2Proof.Machine
end

