-- ==== Sys2Proof/Machine/Commit.lean ====
section
/-! DEFINITION. The emit path at work (07_sampling_and_stencils R181, R185 to R197; 08_text_unit R213 to R221): LOGITS pieces,
mask fetches, ranking and the draw, the commit of a token. -/

namespace Sys2Proof.Machine

/-! ### The stencil cache (R181) -/

/-- Bytes of a cluster's stencil cache (R174). -/
def cacheBytes : Nat := 2 * 2 ^ 20

/-- The mask a session's state needs: set key, mask, bytes; none without a grammar or for a state that allows nothing. -/
def State.maskOf (s : State) (x : Sess) : Option CacheMask :=
  if x.stencilSet = 0 then none
  else match s.set? x.part x.stencilSet with
    | none => none
    | some g =>
      let h := stencilHdr g.img
      if x.stencilState < h.states then
        some { set := x.part * 65536 + x.stencilSet, mask := (stencilRec g.img x.stencilState).1, bytes := h.maskBytes }
      else none

/-- From the fixed roster until its TOKEN_OUT has left, a session's mask is pinned. -/
def State.pinsMask (s : State) (id : Nat) (x : Sess) : Bool :=
  (match x.step with
    | some st => (s.roster x.part).fixed || st.carried
    | none => false) || s.tokenWaits (handleOf id x)

/-- The masks a cluster's cache may not evict. -/
def State.pinned (s : State) (cl : Nat) : List CacheMask :=
  s.sess.filterMap (fun p => if p.2.home = cl ∧ s.pinsMask p.1 p.2 then s.maskOf p.2 else none)

/-- Whether a session's stencil apply must wait: its mask is not in the cache. -/
def State.maskAway (s : State) (x : Sess) : Bool :=
  match s.maskOf x with
  | some m => !(tabGet [] s.emit.cache x.home).contains m
  | none => false

/-- A session's mask is wanted: its fetch starts unless the mask is resident, which makes it the most recently used. The spec does not say
what a use of a mask is; that a mask is wanted is one, that stencil apply reads it is none (DESIGN CHOICE: 84). -/
def State.fetchMask (s : State) (id : Nat) : State :=
  let x := s.getSess id
  match s.maskOf x with
  | none => s
  | some m =>
    let l := tabGet [] s.emit.cache x.home
    if l.contains m then
      s.modEmit (fun e => { e with cache := tabSet e.cache x.home (m :: l.filter (fun c => c != m)) })
    else if s.emit.fetch.contains id then s
    else s.modEmit (fun e => { e with fetch := e.fetch ++ [id] })

/-- Make room in a cache list for a mask: drop unpinned masks, least recently used first, until it fits; none where pinned masks
fill the cache. -/
def cacheFit (pin : List CacheMask) (m : CacheMask) : Nat → List CacheMask → Option (List CacheMask)
  | 0, _ => none
  | n + 1, l =>
    if sumOf (·.bytes) l + m.bytes ≤ cacheBytes then some (m :: l)
    else match l.reverse.find? (fun c => !pin.contains c) with
      | none => none
      | some c => cacheFit pin m n (l.filter (fun d => d != c))

/-- The candidates of a step that the session's stencil allows (R179). -/
def State.stencilled (s : State) (x : Sess) (l : List (Nat × W32)) : List (Nat × W32) :=
  l.filter (fun e => s.allows x.part x.stencilSet x.stencilState e.1)

/-- Change the emit work of a session's step. -/
def State.modEmitStep (s : State) (id : Nat) (f : EmitStep → EmitStep) : State :=
  s.modSess id (fun x => { x with step := x.step.map (fun st => { st with emit := f st.emit }) })

/-- STENCIL_FETCH (R181): the mask of a session arrives in its home cluster's cache, or is read from the emit store where pinned
masks fill the cache; stencil apply that waited for it goes on. A mask that found no place there is read again for the next piece. -/
def execStencilFetch (sess : Nat) (s : State) : Out3 :=
  whenUp s (fun s =>
    if !s.emit.fetch.contains sess then s
    else
      let x := s.getSess sess
      let s1 := s.modEmit (fun e => { e with fetch := e.fetch.filter (fun i => i != sess) })
      let s2 := s1.modEmitStep sess (fun e => { e with cands := s.stencilled x e.cands })
      match s.maskOf x with
      | none => s2
      | some m =>
        let l := tabGet [] s.emit.cache x.home
        match (if l.contains m then some l else cacheFit (s.pinned x.home) m (l.length + 1) l) with
        | some l' => s2.modEmit (fun e => { e with cache := tabSet e.cache x.home l' })
        | none => s2)

/-! ### LOGITS (R185 to R188) -/

/-- A LOGITS piece as its body reads (R185). -/
structure Piece where
  handle : Nat
  pos : Nat
  ver : Nat
  fmt : Nat
  accEnd : Bool
  ix : Nat
  pieces : Nat
  base : Nat
  count : Nat
  vocab : Nat
  data : Bytes
  deriving DecidableEq, Repr

/-- Read a piece. -/
def pieceOf (m : Msg) : Piece :=
  let b := m.body
  { handle := field b 0 4, pos := field b 4 4 % 2 ^ 22, ver := byteAt b 8 % 16, fmt := byteAt b 9 % 4,
    accEnd := bitAt (byteAt b 9) 2, ix := byteAt b 10 % 8, pieces := byteAt b 11 % 16, base := field b 12 4 % 2 ^ 19,
    count := field b 16 4 % 2 ^ 19, vocab := field b 20 4 % 2 ^ 19, data := m.data }

/-- The logits of a piece as FP32: BF16 values widen exactly. -/
def Piece.values (p : Piece) : List W32 :=
  (List.range p.count).map (fun i =>
    if p.fmt = 0 then BitVec.ofNat 32 (field p.data (2 * i) 2 * 2 ^ 16) else BitVec.ofNat 32 (field p.data (4 * i) 4))

/-- The position a step's LOGITS score (R186). -/
def InStep.logitPos (st : InStep) : Nat := if st.emitOnly then st.position - 1 else st.position

/-- The last check of R187: everything R186 asks of a piece. -/
def pieceOk (m : ModelEnt) (e : EmitStep) (port : Nat) (p : Piece) : Bool :=
  m.vocab != 0 && m.vocab == p.vocab && decide (p.fmt < 2) && p.pieces != 0 && decide (p.pieces ≤ 8) && decide (p.ix < p.pieces) &&
    p.ix == e.got && p.count != 0 && p.base == e.total && decide (p.base + p.count ≤ p.vocab) &&
    (p.ix + 1 != p.pieces || p.base + p.count == p.vocab) && (e.got == 0 || (e.port == port && e.pieces == p.pieces)) &&
    p.data.length == p.count * (if p.fmt = 0 then 2 else 4)

/-- The checks of R187 in their order: the cause of a rejection, or the session. -/
def State.logitsCheck (s : State) (part port : Nat) (p : Piece) : Except Status Nat :=
  if p.ver ≠ 1 then .error .versionUnsupported
  else match s.handle? part p.handle with
    | none => .error .badSession
    | some id =>
      let x := s.getSess id
      match x.step with
      | none => .error .badState
      | some st =>
        if x.st ≠ .running ∨ p.pos ≠ st.logitPos then .error .badState
        else if x.length ≠ p.pos + 1 ∨ x.pend ≠ 0 then .error .badState
        else if st.emit.complete ∨ st.committed then .error .badState
        else if pieceOk (s.model part x.model) st.emit port p then .ok id
        else .error .formatInvalid

/-- Reject a piece (R187): earlier pieces of the same LOGITS go with it, it is counted and recorded, a TOKEN_OUT carries the
cause. -/
def State.rejectPiece (s : State) (part port : Nat) (p : Piece) (cause : Status) : State :=
  let s1 := match s.handle? part p.handle with
    | some id =>
      match (s.getSess id).step with
      | some st =>
        if st.logitPos = p.pos ∧ !st.emit.complete then s.modEmitStep id (fun e => { waitStencil := e.waitStencil }) else s
      | none => s
    | none => s
  ((s1.bump .emitLogitsReject part).setReg .emitLogitsLast part (p.handle + cause.code * 2 ^ 32)).rejectOut port p.handle p.pos cause

/-- Take an accepted piece: candidates are formed (R188); the stencil is applied now, or when its mask has arrived (R181). -/
def State.takePiece (s : State) (part port id : Nat) (p : Piece) : State :=
  let x := s.getSess id
  match x.step with
  | none => s
  | some st =>
    let waits := s.maskAway x
    let vals := (p.values.zipIdx).map (fun e => (p.base + e.2, e.1))
    let nans := (vals.filter (fun e => isNanW e.2)).length
    let cs := vals.filterMap (fun e => (candidate st.profile true e.1 e.2).map (fun y => (e.1, y)))
    let s1 := s.bumpBy .emitNan part nans
    let s2 := if waits then (if st.emit.waitStencil then s1 else s1.bump .emitStencilWait part).fetchMask id else s1
    let last := p.ix + 1 = p.pieces
    s2.modEmitStep id (fun e => { e with
      port := port
      pieces := p.pieces
      got := e.got + 1
      total := e.total + p.count
      accEnd := last && p.accEnd
      cands := e.cands ++ (if waits then cs else s.stencilled x cs)
      complete := last
      waitStencil := e.waitStencil || waits })

/-- LOGITS (R185 to R191): the piece at the head of a port's VC1 is checked and taken, or rejected. A piece that arrives before
the roster is fixed waits for it (06_beat R166). -/
def execLogits (port : Nat) (s : State) : Out3 :=
  whenUp s (fun s =>
    match s.headMsg port 1 7, s.portPart port with
    | some m, some part =>
      if !(s.roster part).fixed then s
      else
        let p := pieceOf m
        let s1 := s.takeMsg port 1 m
        match s.logitsCheck part port p with
        | .error c => s1.rejectPiece part port p c
        | .ok id => s1.takePiece part port id p
    | some m, none => s.takeMsg port 1 m
    | none, _ => s)

/-! ### The commit of a token (R194 to R197, R213 to R221) -/

/-- What a step's end gives (R195): the token logged with its SRC, whether it ends the generate, the status, whether it is the
dead token, whether a stop string ended it. -/
structure Outcome where
  log : Option LogTok := none
  genDone : Bool := false
  status : Status := .ok
  dead : Bool := false
  endTok : Bool := false
  text : TextOut := {}
  deriving DecidableEq, Repr

/-- The DEAD_TOKEN of a session's set; 0 for none. -/
def State.deadTok (s : State) (x : Sess) : Nat :=
  if x.stencilSet = 0 then 0 else match s.set? x.part x.stencilSet with
    | some g => (stencilHdr g.img).dead
    | none => 0

/-- The first row of R195 that applies to a step whose ranking gave `r` and whose draw gave `tok`. -/
def State.outcome (s : State) (x : Sess) (st : InStep) (r : Ranked) (tok : Nat) : Outcome :=
  if x.cancelReq then { genDone := true, status := .cancelled }
  else if r.n = 0 then
    let d := s.deadTok x
    if d = 0 then { genDone := true, status := .grammarDead, text := s.textFlush x }
    else { log := some ⟨d, 2⟩, genDone := true, status := .grammarDead, dead := true, text := s.textOf x d true true }
  else if st.profile.ends.contains tok then
    { log := some ⟨tok, 1⟩, genDone := true, status := .stopped, endTok := true, text := s.textOf x tok true true }
  else
    let full := x.maxnew ≤ 1 ∨ x.total + 1 = maxPositions
    let t := s.textOf x tok false (full ∨ st.emit.accEnd)
    if t.hit.isSome then { log := some ⟨tok, 1⟩, genDone := true, status := .stopped, text := t }
    else if full then { log := some ⟨tok, 1⟩, genDone := true, status := .limit, text := t }
    else if st.emit.accEnd then { log := some ⟨tok, 1⟩, genDone := true, text := t }
    else { log := some ⟨tok, 1⟩, text := t }

/-- The TOKEN_OUT of an outcome (R197). -/
def tokenOut (h pos : Nat) (st : InStep) (r : Ranked) (o : Outcome) : Msg :=
  if o.status = .cancelled then
    { vc := 1, type := 8, body := tokenOutBody h pos (2 + 8 * b2n st.profile.clamped) Status.cancelled.code 0 0 0 0 0 0 }
  else
    let incl := st.profile.retTopk
    let flags := b2n o.log.isSome + 2 * b2n o.genDone + 4 * b2n o.dead + 8 * b2n st.profile.clamped + 16 * b2n incl
    { vc := 1, type := 8,
      body := tokenOutBody h pos flags o.status.code (if r.n < r.k then 1 else 0) ((o.log.map (·.tok)).getD 0) r.k r.n r.sel r.left,
      data := if incl then topkEntries r.k (r.entries.map (fun e => (e.1, e.2.1))) else [] }

/-- The emit-ring records of an outcome, the top-k record first (R217, R218, R221). -/
def State.stepRecords (s : State) (x : Sess) (h pos : Nat) (st : InStep) (r : Ranked) (o : Outcome) : List Bytes :=
  if o.status = .cancelled then []
  else
    (if st.profile.hostTopk then [topkRec h pos r.k r.n (if r.n < r.k then 1 else 0) r.sel r.left (r.entries.map (fun e => (e.1, e.2.1)))]
     else []) ++
    [textRec o.log.isSome o.genDone o.text x.stoptext (s.tok? x.part x.model).isNone h pos o.status.code]

/-- The stall that withholds a commit (R218, R496, 03 R87, 12 R327): MOVE_PENDING or FLASH_LATE without log space, FLASH_LATE while the staging
buffer is full, HOST_LATE without emit-ring space or, for a generate's last step, without a free completion entry. -/
def State.commitStall (s : State) (id qk : Nat) (recs : List Bytes) (logs fin : Bool) : Option Nat :=
  let room := if logs then s.logRoom id 1 else none
  if room = some 1 then some 5
  else if room = some 2 ∨ (logs ∧ (s.getSess id).stageFull) then some 2
  else if (s.qs qk).en ∧ fin ∧ cplFree (s.qs qk) = 0 then some 3
  else if (s.qs qk).en ∧ !recs.isEmpty ∧ (emitFree (s.qs qk) < sumOf recUnits recs ∨ s.lastWaits id) then some 3
  else none

/-- Settle a step (R195): the token is logged and the grammar, the seam record and the generate move in one entry update;
TOKEN_OUT is queued, then the records, then the generate's completion. A commit without space is withheld. -/
def State.commit (s : State) (id tok : Nat) : State :=
  let x := s.getSess id
  match x.step, x.open? with
  | some st, some g =>
    match st.emit.ranked with
    | none => s
    | some r =>
      let h := handleOf id x
      let pos := st.logitPos + 1
      let o := s.outcome x st r tok
      let recs := s.stepRecords x h pos st r o
      let s := if o.log.isSome then s.stripLog id 1 else s
      match s.commitStall id g.qk recs o.log.isSome o.genDone with
      | some cause => s.openStall id cause
      | none =>
        let nxt := match o.log with
          | some t => if t.src = 1 ∧ x.stencilSet ≠ 0 then
              (match s.set? x.part x.stencilSet with
               | some img => (stencilNext img.img x.stencilState t.tok).getD x.stencilState
               | none => x.stencilState)
            else x.stencilState
          | none => x.stencilState
        let logged := (if o.log.isSome then 1 else 0)
        let s0 := (s.closeStall id).logPut id o.log.toList
        let s1 := s0.upd id (fun x =>
          let y := { x with
            pend := x.pend + logged
            maxnew := x.maxnew - logged
            stencilState := nxt
            seam := o.text.seam
            utf8 := o.text.utf8
            open? := some { g with logged := g.logged + logged } }
          if o.genDone then y.genOver o.status .idle s.now
          else { y with step := y.step.map (fun t => { t with committed := true }) })
        let s2 := s1.send st.emit.port (tokenOut h pos st r o)
        let s3 := recs.foldl (fun s b => s.writeRec g.qk x.part b) s2
        let s4 := if o.log.isSome then s3.bump .emitTokens x.part else s3
        let s5 := if o.status = .grammarDead then s4.bump .emitGrammarDead x.part else s4
        let s6 := if o.endTok then s5.bump .emitEndtok x.part else s5
        let s7 := if o.text.hit.isSome then s6.bump .textStops x.part else s6
        if o.genDone then ((s7.genFinal h { g with logged := g.logged + logged } o.status).closeIfDue id).enteredIdle id
        else s7.fetchMask id
  | _, _ => s

/-- The key of a session's draws (R194). -/
def State.drawKey (s : State) (part : Nat) (pr : Profile) : Nat :=
  if pr.seedMode then Nat.xor pr.seed ((s.getPart part).secret % 2 ^ 64) else pr.seed

/-- Rank a step whose LOGITS are complete (R190 to R192), once: the result is kept with the step, and a short one is counted. -/
def State.rankStep (s : State) (id : Nat) (st : InStep) : State :=
  let x := s.getSess id
  let r := rankOf st.profile (s.model x.part x.model).vocab s.free st.emit.cands
  let s1 := ({ s with free := s.free + 2 ^ 20 } : State).modEmitStep id (fun e => { e with ranked := some r })
  if r.n < r.k then s1.bump .emitShort x.part else s1

/-- The draw of R193 for a ranked step, with the value u of R194. -/
def State.drawStep (s : State) (id : Nat) (st : InStep) (r : Ranked) : Nat × State :=
  let x := s.getSess id
  let u := drawU24 (s.drawKey x.part st.profile) (st.logitPos + 1) (handleOf id x)
  (drawToken st.profile r u s.free, { s with free := s.free + 2 ^ 20 })

end Sys2Proof.Machine
end

