-- ==== Sys2Proof/Machine/Directory.lean ====
section
/-! DEFINITION. The undercoat directory at work (04_undercoat_directory R99, R107 to R122): lookups, publishes, retirement,
learning, rebuilds, the scan for holders of a faulted record; the commands DIR_PUBLISH, DIR_RETIRE and DIR_RETIRE_DOMAIN. -/

namespace Sys2Proof.Machine

/-! ### Lanes and lookups (R99, R107 to R110) -/

/-- Put a request at the end of a cluster's chain-hash lane. -/
def State.laneAdd (s : State) (cl : Nat) (q : LaneReq) : State :=
  { s with dir := { s.dir with lanes := tabMod [] s.dir.lanes cl (fun l => l ++ [q]) } }

/-- Change the lookup of a session. -/
def State.modWalk (s : State) (id : Nat) (f : Walk → Walk) : State :=
  { s with dir := { s.dir with walks := listMod (fun w => w.sess == id) f s.dir.walks } }

/-- The lookup of a session begins to wait for a slot. -/
def State.walkWaits (s : State) (id : Nat) : State := (s.modWalk id (fun w => { w with arr := s.dir.clock })).stamp

/-- The first element of a list whose number is lowest. -/
def leastBy {α : Type} (f : α → Nat) : List α → Option α
  | [] => none
  | a :: t => match leastBy f t with
    | none => some a
    | some b => if f a ≤ f b then some a else some b

/-- Whether a lookup has a search, or its tail's slot, to run (R107). -/
def Walk.ready (w : Walk) : Bool := (w.phase == .walk && !w.keys.isEmpty) || w.phase == .tailSlot

/-- Whether a publish has a step to run now: it waits for no copy (R112). -/
def State.pubReady (s : State) (q : Pub) : Bool :=
  let waits : FKind → Bool := fun k => s.fab.float.any (fun f => !f.onRec && f.sess == q.sess && f.kind == k)
  match q.step with
  | .wait => !waits .copyExtend
  | .copy => q.tailCopied || !waits .pubTail
  | _ => true

/-- When the requests of a partition that wait for its slots began to wait (R103). -/
def State.slotWaits (s : State) (p : Nat) : List Nat :=
  (s.dir.walks.filter (fun w => w.ready && (s.getSess w.sess).part == p)).map (·.arr) ++
  (s.dir.pubs.filter (fun q => q.part == p && s.pubReady q)).map (·.arr) ++
  (s.dir.retires.filter (fun r => r.part == p)).map (·.arr) ++
  (s.dir.learns.filter (fun n => n.key.isSome && (s.getSess n.sess).part == p)).map (·.arr) ++
  (if s.dir.rebuild.any (fun e => e.1 == p) then [tabGet 0 s.dir.rebuildArr p] else [])

/-- Whether a partition's next slot is due to a request that began to wait at `arr`: its slots serve in arrival order (R103). -/
def State.turn (s : State) (p arr : Nat) : Bool := (s.slotWaits p).all (fun a => decide (arr ≤ a))

/-- The results an append or a resume carries (12 R326). -/
def lenRes (x : Sess) : Nat := x.length + x.pend * 2 ^ 22

/-- Complete a command of a session with LENGTH, PENDING and COAT_POS. -/
def State.lenDone (s : State) (id serial : Nat) (st : Status) : State :=
  let x := s.getSess id
  s.final serial st 0 0 (lenRes x) x.coatPos

/-- Ready the page list for the descriptors 0 to n − 1 (R109). -/
def State.readyTo (s : State) (id : Nat) : Nat → Except Bool State
  | 0 => .ok s
  | n + 1 =>
    match s.readyTo id n with
    | .error e => .error e
    | .ok s1 => if n % 256 = 0 then s1.readyList id n else .ok s1

/-- A lookup ends (R109): the entry update with what it matched, and the command's completion. Where a page of the list cannot be
allocated, the references go back and nothing else changes. -/
def State.endWalk (s : State) (w : Walk) (tail : Option Nat) : State :=
  let x := s.getSess w.sess
  let s0 := s.modDir (fun d => { d with
    walks := d.walks.filter (fun v => v.sess != w.sess)
    lanes := d.lanes.map (fun l => (l.1, l.2.filter (fun q => q.sess != w.sess))) })
  let s0 := s0.modSess w.sess (fun x => { x with busyCmd := false })
  let nd := w.b + (if tail.isSome then 1 else 0)
  let giveUp : State :=
    let a := match w.held with | some h => s0.refDec h | none => s0
    let a := match tail with | some t => a.refDec t | none => a
    if a.moveAppend w.sess w.serial then a.endIn w.sess .noSpace else a.lenDone w.sess w.serial .noSpace
  match s0.readyTo w.sess nd with
  | .error _ => giveUp
  | .ok s1 =>
    let room : Option Nat := if w.resume then none else s1.logRoom w.sess w.toks.length
    if room.isSome then giveUp.stripLog w.sess w.toks.length
    else
      let ds : List Desc := w.hits.map (fun ix => { valid := true, shared := true, ix := ix, fill := (s1.dirRec ix).fill })
      let td : List Desc := match tail with
        | some t => [{ valid := true, shared := true, ix := t, fill := (s1.dirRec t).fill }]
        | none => []
      let coat := 64 * w.b + (match tail with | some t => (s1.dirRec t).fill | none => 0)
      let hits := w.hits ++ tail.toList
      let s2 := hits.foldl (fun (s : State) (ix : Nat) => (s.modRec ix (fun r => { r with lastUse := s.now })).bump .dirHitBlocks x.part) s1
      let s3 := if w.resume then s2 else s2.logPut w.sess w.toks
      let s4 := s3.upd w.sess (fun x =>
        let y := { x with
          st := .hot
          pages := ds ++ td
          undercoatIx := w.held.getD 0
          coatPos := coat
          length := coat
          pend := w.n - coat
          rebuild := w.resume
          lastUse := s.now
          learnEnded := false
          lastStatus := 0 }
        { y with marks := [] })
      let s5 := match tail with
        | some _ => s4.queueMove { queue := .a, kind := .copyExtend, beat := s.now, part := x.part, sess := w.sess, block := w.b }
        | none => s4
      if s5.moveAppend w.sess w.serial then s5.moveLogged w.sess else s5.lenDone w.sess w.serial .ok

/-- The walk stops (R107): a tail of the deepest hit is tried once where it could be covered, otherwise the lookup ends. -/
def State.stopWalk (s : State) (w : Walk) : State :=
  match w.held with
  | none => s.endWalk w none
  | some h =>
    let r := s.dirRec h
    let t := s.dirRec r.tailIx
    if r.tailSet && decide (64 * w.b + t.fill ≤ w.n - 1) && t.st == .valid then
      (s.modWalk w.sess (fun w => { w with phase := .tailKey, tailIx := r.tailIx, keys := [] })).laneAdd
        (s.getSess w.sess).home { sess := w.sess, kind := .tail }
    else s.endWalk w none

/-- Start a lookup over logged tokens for a command (R107). -/
def State.startWalk (s : State) (id serial : Nat) (resume : Bool) (toks : List LogTok) : State :=
  let x := s.getSess id
  let c := chainRoot x.domain x.model
  let w : Walk := { sess := id, serial := serial, resume := resume, n := toks.length, chain := c, laneChain := c, toks := toks }
  let s1 := (s.bump .dirLookups x.part).upd id (fun x => { x.disarm with busyCmd := true })
  let s2 := { s1 with dir := { s1.dir with walks := s1.dir.walks ++ [w] } }
  if 64 ≤ toks.length - 1 then s2.laneAdd x.home { sess := id, kind := .chain } else s2.endWalk w none

/-- CHAIN_STEP (R99): a cluster's lane finishes one key, for the first request it holds; a lookup's keys run at most 8 ahead of
its searches (R107). -/
def execChainStep (cluster : Nat) (s : State) : Out3 :=
  whenUp s (fun s =>
    match tabGet [] s.dir.lanes cluster with
    | [] => s
    | q :: l =>
      let s1 := { s with dir := { s.dir with lanes := tabPut [] s.dir.lanes cluster l } }
      match q.kind with
      | .learn =>
        let x := s.getSess q.sess
        let key : Nat → Nat := fun b =>
          chainNext (if b = 0 then chainRoot x.domain x.model else (s.dirRec x.undercoatIx).chain) x.log b
        (s1.modDir (fun d => { d with
          learns := listMod (fun n => n.sess == q.sess) (fun n => { n with key := some (key n.block), arr := d.clock }) d.learns })).stamp
      | .tail =>
        (s1.modWalk q.sess (fun w =>
          { w with phase := .tailSlot, tailKey := tailKeyOf w.chain w.toks w.b (s.dirRec w.tailIx).fill })).walkWaits q.sess
      | .chain =>
        match s.dir.walks.find? (fun w => w.sess == q.sess) with
        | none => s1
        | some w =>
          if 8 ≤ w.keys.length then s1
          else
            let k := chainNext w.laneChain w.toks w.laneNext
            let w' := { w with keys := w.keys ++ [k], laneChain := k, laneNext := w.laneNext + 1 }
            let s2 := s1.modWalk q.sess (fun _ => w')
            let s2 := if w.keys.isEmpty then s2.walkWaits q.sess else s2
            if decide (64 * (w'.laneNext + 1) ≤ w.n - 1) && decide (w'.keys.length < 8) then s2.laneAdd cluster q else s2)

/-! ### Faulted records (R119) -/

/-- The publishes that name an entry's block and have not passed their point of no return stop with TIER_FAULT (R112). -/
def State.pubsFault (s : State) (ix : Nat) : State :=
  (s.dir.pubs.filter (fun q => q.ixs.contains ix && !q.pointPassed)).foldl (fun s q =>
    ((s.pubUndo q).modSess q.sess (fun x => { x with lastStatus := Status.tierFault.code })).done q.serial .tierFault) s

/-- An entry whose record or block fails a check (R119): FAULTED, its key gone or its parent's link to it, its block dropped, its subtree
queued for retirement, the scan for its holders started. -/
def State.recFault (s : State) (ix : Nat) : State :=
  let s := s.pubsFault ix
  let r := s.dirRec ix
  if r.st ≠ .valid ∧ r.st ≠ .retired ∧ r.st ≠ .writing then s
  else
    let s1 := ((s.dropSlot ix).modRec ix (fun r => { r with st := .faulted, blk := 0 })).unlinkTail ix
    let s2 := if r.blk = 0 then s1 else (s1.loseReads (fun q => q.blk == r.blk && q.held.isNone)).dropBlk r.blk
    let s3 := (((s2.bump .dirFaults r.part).bump .sfEvtTierfault r.part).releaseRec ix).addRetire
      { serial := 0, part := r.part, below := some (ix, (s.getPart r.part).rowBase) }
    { s3 with
      fab := { s3.fab with float := s3.fab.float.filter (fun f => !(f.onRec && f.sess == ix && f.kind != .release)) }
      dir := { s3.dir with scans := s3.dir.scans ++ [{ part := r.part, ix := ix, next := (s.getPart r.part).groupBase * 4096 }] } }

/-- Whether an entry is another or lies below it along PARENT_IX, within a number of levels. -/
def State.reaches (s : State) (target : Nat) : Nat → Nat → Bool
  | 0, ix => ix == target
  | n + 1, ix => ix == target || (!(s.dirRec ix).root && s.reaches target n (s.dirRec ix).parent)

/-- A session holds an entry: its UNDERCOAT_IX is the entry or reaches it, or a copy-on-extend reads it (R118, R119). -/
def State.holds (s : State) (x : Sess) (ix : Nat) : Bool :=
  (decide (0 < x.coatPos) && s.reaches ix 32768 x.undercoatIx) || x.pages.any (fun d => d.valid && d.shared && d.ix == ix)

/-- FAULT_SCAN_ENTRY (R119): in a bulk window, the session-table engine reads one entry of a partition and acts on it where it is a
holder. -/
def execFaultScanEntry (part : Nat) (s : State) : Out3 :=
  whenUp s (fun s =>
    match s.dir.scans.find? (fun c => c.part == part) with
    | none => s
    | some c =>
      if !s.bulkOpen part then s else
      let p := s.getPart part
      let fin := (p.groupBase + p.groups) * 4096
      let rest := s.dir.scans.filter (fun d => d != c)
      let s1 := { s with dir := { s.dir with scans := if c.next + 1 < fin then rest ++ [{ c with next := c.next + 1 }] else rest } }
      let x := s.getSess c.next
      if x.st != .free && x.part == part && s.holds x c.ix then s1.tierFault c.next else s1)

/-! ### Slots of lookups (R107, R108) -/

/-- A lookup's search in its slot (R107, R108): a hit moves the walk's reference and the walk goes on while the next block may be
covered; a miss stops it. A record that fails its check is a miss and faults its entry (R116, R119). -/
def State.searchSlot (s : State) (w : Walk) (bad : Bool) : State :=
  let x := s.getSess w.sess
  let k := w.keys.headD 0
  match s.search0 x.part x.domain x.model k, bad with
  | some e, false =>
    let s1 := s.refInc e
    let s2 := match w.held with | some h => s1.refDec h | none => s1
    let w' := { w with b := w.b + 1, chain := k, keys := w.keys.drop 1, held := some e, hits := w.hits ++ [e] }
    let s3 := s2.modWalk w.sess (fun _ => w')
    if w.n - 1 < 64 * (w'.b + 1) then s3.stopWalk w'
    else
      let s4 := if w'.keys.isEmpty then s3 else s3.walkWaits w.sess
      if w'.keys.length < 7 || decide (w.n - 1 < 64 * (w'.laneNext + 1)) then s4
      else s4.laneAdd x.home { sess := w.sess, kind := .chain }
  | some e, true => (s.recFault e).stopWalk { w with keys := [] }
  | none, _ => s.stopWalk { w with keys := [] }

/-- DIR_SEARCH_SLOT (R103, R107): of the partition's lookups with a key ready, the one that began to wait first searches it, where the slot
is due to it. -/
def execDirSearchSlot (part : Nat) (bad : Bool) (s : State) : Out3 :=
  whenUp s (fun s =>
    match leastBy (·.arr) (s.dir.walks.filter (fun w => w.phase == .walk && !w.keys.isEmpty && (s.getSess w.sess).part == part)) with
    | none => s
    | some w => if s.turn part w.arr then s.searchSlot w bad else s)

/-- A lookup's one tail slot (R107): it reads the parent's link and the tail record as they stand, compares, and takes the tail's reference
on a match. -/
def State.tailSlot (s : State) (w : Walk) (bad : Bool) : State :=
  let r := s.dirRec (w.held.getD 0)
  let t := s.dirRec r.tailIx
  if r.tailSet && bad then (s.recFault r.tailIx).endWalk w none
  else if r.tailSet && t.st == .valid && t.chain == w.tailKey && decide (64 * w.b + t.fill ≤ w.n - 1) then
    (s.refInc r.tailIx).endWalk w (some r.tailIx)
  else s.endWalk w none

/-- LOOKUP_TAIL_SLOT (R103, R107): the lookup whose tail slot began to wait first takes it, where the slot is due to it. -/
def execLookupTailSlot (part : Nat) (bad : Bool) (s : State) : Out3 :=
  whenUp s (fun s =>
    match leastBy (·.arr) (s.dir.walks.filter (fun w => w.phase == .tailSlot && (s.getSess w.sess).part == part)) with
    | none => s
    | some w => if s.turn part w.arr then s.tailSlot w bad else s)

/-! ### Publishing (R111, R112) -/

/-- Change a publish. -/
def State.modPub (s : State) (serial : Nat) (f : Pub → Pub) : State :=
  { s with dir := { s.dir with pubs := listMod (fun q => q.serial == serial) f s.dir.pubs } }

/-- How many keys of a list fall in each row, and whether every such row has that many free slots (R111). -/
def State.rowsFree (s : State) (p : Nat) (keys : List Nat) : Bool :=
  let rows := keys.map (rowOf (s.getPart p))
  rows.all (fun r => decide ((rows.filter (fun q => q == r)).length ≤ 64 - (s.rowSlots r).length))

/-- Free records of a partition. -/
def State.recsFree (s : State) (p : Nat) : Nat :=
  let x := s.getPart p
  x.rows * 64 - (s.dir.recs.filter (fun r => inRecs x r.1)).length

/-- DIR_PUBLISH (R111, R112): the checks in their order, then the publish begins. -/
def execDirPublish (qk : Nat) (s : State) : Out3 :=
  withCmd s qk 0x10 (fun s c =>
    match s.handle? c.part (field c.raw 8 4) with
    | none => s.done c.serial .badSession
    | some id =>
      let x := s.getSess id
      let n := field c.raw 32 4 % 2 ^ 22
      let d := n / 64
      let rest := n % 64
      let ks := chains (chainRoot x.domain x.model) x.log 0 d
      let fresh := ks.filter (fun k => (s.search0 x.part x.domain x.model k).isNone)
      if x.st ≠ .hot ∧ x.st ≠ .idle then s.done c.serial .badState
      else if x.domain = 0 then s.done c.serial .domainDenied
      else if n < 64 ∨ x.length < n ∨ n = 0x3FFFFF then s.done c.serial .formatInvalid
      else if (x.pages.take d).any (fun e => e.shared && (s.dirRec e.ix).st != .valid) then s.done c.serial .badState
      else if !s.rowsFree x.part fresh || decide (s.recsFree x.part < fresh.length + (if rest = 0 then 0 else 1)) then
        (s.bump .dirPubNospace x.part).done c.serial .noSpace
      else
        ({ s with dir := { s.dir with pubs := s.dir.pubs ++
          [{ sess := id, serial := c.serial, part := x.part, domain := x.domain, model := x.model, d := d, chains := ks,
             tailFill := rest, firstNew := d,
             tailChain := tailKeyOf (ks.getLastD 0) x.log d rest, arr := s.dir.clock }] } } : State).stamp)

/-- The location fields of a descriptor as a record takes them. -/
def Rec.place (r : Rec) (d : Desc) : Rec :=
  { r with tier := d.tier, cluster := d.cluster, hdrT := d.hdrT, base := d.base, hdr := d.hdr, blk := d.blk }

/-- Fail a publish before its point of no return: undone, and completed with a status (R112), which LAST_STATUS takes (02 R31). -/
def State.pubFail (s : State) (q : Pub) (st : Status) : State :=
  ((s.pubUndo q).modSess q.sess (fun x => { x with lastStatus := st.code })).done q.serial st

/-- A publish that finds no record or slot left at its reservation (R111, R124). -/
def State.pubNoSpace (s : State) (q : Pub) : State := (s.bump .dirPubNospace q.part).pubFail q .noSpace

/-- Reserve the tail's record (R101, R112 step 1), which reads as a record of its partition, domain and model from then on (R105). -/
def State.reserveTail (s : State) (q : Pub) (t : Nat) : State :=
  s.setRec t { st := .writing, part := q.part, domain := q.domain, model := q.model, ver := 1, tail := true, published := true }

/-- The step after the adoptions from block b on: adopt the next learned entry, else the tail's copy, else the writes. -/
def State.afterReserve (s : State) (q : Pub) (b : Nat) : PubStep :=
  match (List.range q.firstNew).find? (fun k => decide (b ≤ k) && !(s.dirRec (q.ixs.getD k 0)).published) with
  | some k => .adopt k
  | none => if q.tailFill = 0 then (if q.firstNew < q.d then .invalidate q.firstNew else .switch) else .copy

/-- The first step after the keys are written: the tail's record, or the switch. -/
def Pub.afterKeys (q : Pub) : PubStep := if q.tailFill = 0 then .switch else .writeTail

/-- The step after the switch. -/
def Pub.afterSwitch (q : Pub) : PubStep :=
  if q.tailFill ≠ 0 then .link else if q.firstNew < q.d then .validate (q.d - 1) else .done

/-- Finish a publish (R112): the private blocks kept are released, and the command completes with what it wrote (12 R326). -/
def State.pubDone (s : State) (q : Pub) : State :=
  let s1 := q.kept.foldl (fun s d => if s.dir.recs.any (fun r => r.2.blk == d.blk) then s else s.letBlk d) (s.dropPub q)
  let new := q.d - q.firstNew + (if q.tailFill = 0 then 0 else 1)
  let deep := q.ixs.getD (q.d - 1) 0
  (s1.modSess q.sess (fun x => if x.st = .free then x else { x with lastStatus := 0 })).final q.serial .ok 0 new
    (q.ixs.headD 0 + deep * 2 ^ 32) (q.tailIx.getD 0x3FFFF)

/-- The descriptor switch of step 4 (R112). -/
def State.pubSwitch (s : State) (q : Pub) : State :=
  let x := s.getSess q.sess
  let deep := q.ixs.getD (q.d - 1) 0
  let moves := decide (x.coatPos ≤ 64 * q.d)
  let kept := ((x.pages.take q.firstNew).filter (fun d => d.valid && !d.shared))
  let ds : List Desc := q.ixs.map (fun ix => { valid := true, shared := true, ix := ix, fill := 64 })
  let s1 := s.upd q.sess (fun x => { x with
    pages := ds ++ x.pages.drop q.d
    undercoatIx := if moves then deep else x.undercoatIx
    coatPos := if moves then 64 * q.d else x.coatPos })
  let s2 := if moves then s1.refInc deep else s1
  let s3 := if moves && decide (0 < x.coatPos) then s2.refDec x.undercoatIx else s2
  let gone : FReq → Bool := fun g => !g.onRec && g.sess == q.sess && decide (g.block < q.d) &&
    (x.desc g.block).valid && !(x.desc g.block).shared
  let s4 := s3.modFab (fun b => { b with float := b.float.filter (fun g => !gone g) })
  s4.modPub q.serial (fun q => { q with saved := some (x.pages.take q.d, x.undercoatIx, x.coatPos), kept := kept,
                                        switched := true, step := q.afterSwitch })

/-- The steps of a publish (R112), one slot each. DESIGN CHOICE: 79 (a reserved record reads WRITING from its reservation on; a reservation
that finds no room after the check of DIR_PUBLISH ends the publish with NO_SPACE). -/
def State.pubStep (s : State) (q : Pub) : State :=
  let x := s.getSess q.sess
  let set : State → PubStep → State := fun s st => s.modPub q.serial (fun q => { q with step := st })
  match q.step with
  | .wait => if s.hasMoves q.sess (fun k => k == .copyExtend) then s else set s (.reserve 0)
  | .reserve b =>
    let k := q.chains.getD b 0
    match s.search0 q.part q.domain q.model k with
    | some ix =>
      let s1 := s.modPub q.serial (fun q => { q with ixs := q.ixs ++ [ix] })
      if b + 1 < q.d then set s1 (.reserve (b + 1))
      else if q.tailFill = 0 then set s1 (s1.afterReserve { q with ixs := q.ixs ++ [ix] } 0)
      else match s1.freeRec q.part with
        | none => s.pubNoSpace q
        | some t =>
          let q' := { q with ixs := q.ixs ++ [ix], tailIx := some t }
          let nx := s1.afterReserve q' 0
          (s1.reserveTail q t).modPub q.serial (fun q => { q with tailIx := some t, step := nx })
    | none =>
      match s.freeRec q.part, s.lowSlot (rowOf (s.getPart q.part) k) with
      | some ix, some sl =>
        let s1 := s.setRec ix { st := .writing, part := q.part, domain := q.domain, model := q.model, ver := 1, published := true }
        let slot : Slot := { domain := q.domain, model := q.model, parent := if b = 0 then 0 else q.ixs.getD (b - 1) 0,
                             chain := k, ix := ix, valid := false }
        let s2 := s1.modDir (fun d => { d with slots := tabSet d.slots sl slot })
        let q' := { q with ixs := q.ixs ++ [ix], slots := q.slots ++ [sl], firstNew := min q.firstNew b }
        let s3 := s2.modPub q.serial (fun _ => q')
        if b + 1 < q.d then set s3 (.reserve (b + 1))
        else if q.tailFill = 0 then set s3 (s3.afterReserve q' 0)
        else match s3.freeRec q.part with
          | none => s3.pubNoSpace q'
          | some t =>
            let nx := s3.afterReserve q' 0
            (s3.reserveTail q t).modPub q.serial (fun q => { q with tailIx := some t, step := nx })
      | _, _ => s.pubNoSpace q
  | .adopt b => set (s.modRec (q.ixs.getD b 0) (fun r => { r with published := true, lastUse := s.now })) (s.afterReserve q (b + 1))
  | .copy =>
    if q.tailCopied then set s (if q.firstNew < q.d then .invalidate q.firstNew else q.afterKeys)
    else s.queueMove { queue := .a, kind := .pubTail, beat := s.now, part := q.part, sess := q.sess, block := q.d }
  | .invalidate b => set s (.writeRec b)
  | .writeRec b =>
    let ix := q.ixs.getD b 0
    let d := x.desc b
    let par := q.ixs.getD (b - 1) 0
    let r : Rec := { st := .writing, published := true, fill := 64, depth := b, part := q.part, ver := 1, domain := q.domain,
                     model := q.model, parent := if b = 0 then 0 else par, root := b == 0, lastUse := s.now,
                     chain := q.chains.getD b 0, refs := (s.dirRec ix).refs, home := x.home }
    let s1 := s.setRec ix (if d.shared then r else r.place d)
    set (if b = 0 then s1 else s1.refInc par) (.writeKey b)
  | .writeKey b => set s (if b + 1 < q.d then .invalidate (b + 1) else q.afterKeys)
  | .writeTail =>
    let ix := q.tailIx.getD 0
    let par := q.ixs.getD (q.d - 1) 0
    let pl := q.tailPlace.getD ⟨0, 0, 0, false, 0⟩
    let r : Rec := { st := .writing, published := true, tail := true, fill := q.tailFill, depth := q.d, part := q.part, ver := 1,
                     domain := q.domain, model := q.model, parent := par, tier := pl.tier, cluster := pl.cluster, hdrT := pl.hdrT,
                     base := pl.base, hdr := pl.hdr, blk := q.tailBlk, lastUse := s.now, chain := q.tailChain, home := x.home }
    set ((s.setRec ix r).refInc par) .switch
  | .switch => s.pubSwitch q
  | .link =>
    let par := q.ixs.getD (q.d - 1) 0
    let r := s.dirRec par
    let last := !decide (q.firstNew < q.d)
    if r.st = .valid ∨ (q.firstNew < q.d ∧ r.st = .writing) then
      let s1 := if r.tailSet then s.retireEntry r.tailIx else s
      let s2 := s1.modRec par (fun r => { r with tailSet := true, tailIx := q.tailIx.getD 0 })
      let s3 := s2.modRec (q.tailIx.getD 0) (fun t => { t with st := .valid })
      s3.modPub q.serial (fun q => { q with pointPassed := last, step := if last then .done else .validate (q.d - 1) })
    else s.pubFail q .badState
  | .validate b =>
    let parentOk := q.firstNew = 0 ∨ q.pointPassed ∨ (s.dirRec (q.ixs.getD (q.firstNew - 1) 0)).st = .valid
    if parentOk then
      let ix := q.ixs.getD b 0
      let s1 := if (s.dirRec ix).st = .writing then
          let t := s.modRec ix (fun r => { r with st := .valid })
          { t with dir := { t.dir with slots := t.dir.slots.map (fun e => if e.2.ix = ix then (e.1, { e.2 with valid := true }) else e) } }
        else s
      s1.modPub q.serial (fun q => { q with pointPassed := true, step := if q.firstNew < b then .validate (b - 1) else .done })
    else s.pubFail q .badState
  | .done => s.pubDone q

/-- One slot of a publish: its step, and the wait for its next slot begins (R103). -/
def State.pubSlot (s : State) (q : Pub) : State :=
  let s1 := s.pubStep q
  (s1.modPub q.serial (fun p => { p with arr := s1.dir.clock })).stamp

/-- PUBLISH_SLOT (R103, R112): of the partition's publishes that wait for no copy, the one that began to wait first takes one step, where
the slot is due to it. -/
def execPublishSlot (part : Nat) (s : State) : Out3 :=
  whenUp s (fun s =>
    match leastBy (·.arr) (s.dir.pubs.filter (fun q => q.part == part && s.pubReady q)) with
    | none => s
    | some q => if s.turn part q.arr then s.pubSlot q else s)

/-! ### Retirement (R120) -/

/-- DIR_RETIRE (R120): a VALID entry of the partition's records and everything below it. -/
def execDirRetire (qk : Nat) (s : State) : Out3 :=
  withCmd s qk 0x11 (fun s c =>
    let ix := field c.raw 32 4 % 2 ^ 18
    if inRecs (s.getPart c.part) ix ∧ (s.dirRec ix).st = .valid then
      s.addRetire { serial := c.serial, part := c.part, todo := [ix] }
    else s.done c.serial .badState)

/-- DIR_RETIRE_DOMAIN (R120): the rows in order, then the domain's tails. -/
def execDirRetireDomain (qk : Nat) (s : State) : Out3 :=
  withCmd s qk 0x12 (fun s c =>
    let dom := field c.raw 32 2
    if dom = 0 ∨ !s.domBound c.part dom then s.done c.serial .domainDenied
    else s.addRetire
      { serial := c.serial, part := c.part, domain := dom, model := byteAt c.raw 34, sweepRow := some (s.getPart c.part).rowBase })

/-- A retirement has ended: the command completes with the entries retired; an unbind then drops its binding (14 R375). -/
def State.retireDone (s : State) (r : Retire) : State :=
  let s1 := { s with dir := { s.dir with retires := s.dir.retires.filter (fun q => q != r) } }
  match s.cmd? r.serial with
  | some c =>
    if byteAt c.raw 0 = 0x55 then
      (s1.modPartU (fun u => { u with doms := tabErase u.doms r.domain })).done r.serial .ok
    else s1.final r.serial .ok 0 r.count 0 0
  | none => s1

/-- The tails of a domain and model still VALID. -/
def State.domainTails (s : State) (p dom model : Nat) : List Nat :=
  (s.dir.recs.filter (fun r => r.2.st == .valid && r.2.tail && r.2.part == p && r.2.domain == dom &&
    (model == 255 || r.2.model == model))).map (·.1)

/-- A retirement goes on as another in the list. -/
def State.putRetire (s : State) (r q : Retire) : State :=
  { s with dir := { s.dir with retires := s.dir.retires.map (fun o => if o = r then q else o) } }

/-- 1 for an entry that a retirement takes now and counts. -/
def State.liveRec (s : State) (ix : Nat) : Nat := if (s.dirRec ix).st = .valid ∨ (s.dirRec ix).st = .writing then 1 else 0

/-- One slot of a retirement (R104, R120): compare one row for what lies below the entry just retired, its tail after the last row; else
retire the next entry, breadth first; else sweep the next row of a domain. -/
def State.retireSlot (s : State) (r : Retire) : State :=
  let p := s.getPart r.part
  let last : Nat → Bool := fun row => decide (p.rowBase + p.rows ≤ row + 1)
  let q := { r with arr := s.dir.clock }
  match r.below, r.todo, r.sweepRow with
  | some (ix, row), _, _ =>
    let found := r.todo ++ s.childrenIn row ix
    (s.putRetire r (if last row then { q with below := none, todo := found ++ s.tailOf ix }
      else { q with below := some (ix, row + 1), todo := found })).stamp
  | none, ix :: l, _ =>
    ((s.putRetire r { q with below := some (ix, p.rowBase), todo := l, count := r.count + s.liveRec ix }).retireEntry ix).stamp
  | none, [], some row =>
    let hits := s.domainRow row r.domain r.model
    let n := r.count + sumOf s.liveRec hits
    let s1 := hits.foldl State.retireEntry s
    (s1.putRetire r (if last row then { q with sweepRow := none, todo := s1.domainTails r.part r.domain r.model, count := n }
      else { q with sweepRow := some (row + 1), count := n })).stamp
  | none, [], none => s.retireDone r

/-- RETIRE_SLOT (R103, R120): the partition's retirement that began to wait first takes one step, where the slot is due to it. -/
def execRetireSlot (part : Nat) (s : State) : Out3 :=
  whenUp s (fun s =>
    match leastBy (·.arr) (s.dir.retires.filter (fun r => r.part == part)) with
    | none => s
    | some r => if s.turn part r.arr then s.retireSlot r else s)

/-! ### Learning (R113 to R115) -/

/-- Whether block b of a session is learned (R113), its last position just counted in LENGTH. -/
def State.learnable (s : State) (x : Sess) (b : Nat) : Bool :=
  x.domain != 0 && !x.noLearn && !x.learnEnded && (tabGet ({ part := 0 } : Domain) s.part.doms x.domain).learn &&
    (blockToks x.log b).all (fun t => t.src == 0) && (blockToks x.log b).length == 64 &&
    ((b == 0 && x.coatPos == 0) || (x.coatPos == 64 * b && decide (0 < b) && (s.dirRec x.undercoatIx).depth == b - 1 &&
      (s.dirRec x.undercoatIx).st == .valid))

/-- A block was completed: its learning begins where R113 allows it. -/
def State.startLearn (s : State) (id b : Nat) : State :=
  let x := s.getSess id
  if s.learnable x b && !s.dir.learns.any (fun n => n.sess == id) then
    (s.modDir (fun d => { d with learns := d.learns ++ [{ sess := id, block := b }] })).laneAdd x.home
      { sess := id, kind := .learn }
  else s

/-- The session takes an entry as the undercoat of its block b (R114 steps 4 and 5, R106). -/
def State.adoptLearned (s : State) (id b ix : Nat) : State :=
  let x := s.getSess id
  let d := x.desc b
  let s1 := ((s.refInc ix).modRec ix (fun r => { r with lastUse := s.now })).upd id (fun x => { x with
    undercoatIx := ix
    coatPos := 64 * (b + 1)
    pages := x.pages.set b { valid := true, shared := true, ix := ix, fill := 64 } })
  let s2 := if x.coatPos = 0 then s1 else s1.refDec x.undercoatIx
  let s3 := if d.valid && !d.shared && (s.dirRec ix).blk != d.blk then s2.letBlk d else s2
  { s3 with fab := { s3.fab with float := s3.fab.float.filter (fun f => f.onRec || f.sess != id || f.block != b) } }

/-- The slot a learned write takes (R102, R115): the row's highest free slot, else that of the highest-slot learned entry of the
same domain without a reference, which is evicted. -/
def State.learnSlot (s : State) (p dom chain : Nat) : Option (Nat × State) :=
  let row := rowOf (s.getPart p) chain
  match s.highSlot row with
  | some k => some (k, s)
  | none =>
    match (s.rowSlots row).reverse.find? (fun e => e.2.domain == dom && e.2.valid && !(s.dirRec e.2.ix).published &&
        (s.dirRec e.2.ix).refs == 0) with
    | some e => some (e.1, s.retireEntry e.2.ix)
    | none => none

/-- A learned write in its slot (R114 steps 3 to 5): record, key, reference and coat boundary. A lookup's search that was to take the slot
moves to the next one, and is counted (R116, R124). -/
def State.learnWrite (s : State) (id b chain slotNo ix : Nat) : State :=
  let x := s.getSess id
  let root := b == 0
  let par := if root then 0 else x.undercoatIx
  let r : Rec := { st := .valid, fill := 64, depth := b, part := x.part, ver := 1, domain := x.domain,
                   model := x.model, parent := par, root := root, lastUse := s.now, chain := chain, home := x.home }
  let s2 := s.setRec ix (r.place (x.desc b))
  let s3 := if root then s2 else s2.refInc par
  let slot : Slot := { domain := x.domain, model := x.model, parent := par, chain := chain, ix := ix }
  let s4 := s3.modDir (fun d => { d with slots := tabSet d.slots slotNo slot })
  let slips := s.dir.walks.any (fun w => w.phase == .walk && !w.keys.isEmpty && (s.getSess w.sess).part == x.part)
  let s5 := if slips then s4.bump .dirSlipped x.part else s4
  (s5.bump .dirLearned x.part).adoptLearned id b ix

/-- A block that is not learned (R115): counted, and the session's learning ends. DESIGN CHOICE: 80 (a row with a free slot but no free
record in the partition is met the same way). -/
def State.learnDrop (s : State) (id : Nat) : State :=
  (s.bump .dirLearnDrop (s.getSess id).part).modSess id (fun x => { x with learnEnded := true })

/-- A learning whose key is ready (R114, R115): the block is adopted from an existing entry, or written as a learned entry, or dropped; the
learning is over. -/
def State.learnSlotStep (s : State) (n : Learn) (k : Nat) : State :=
  let x := s.getSess n.sess
  let s0 := { s with dir := { s.dir with learns := s.dir.learns.filter (fun m => m.sess != n.sess) } }
  let resident := x.st == .hot || x.st == .running || x.st == .idle
  if !resident || !s0.learnable x n.block then s0
  else match s0.search0 x.part x.domain x.model k with
    | some ix => s0.adoptLearned n.sess n.block ix
    | none =>
      match s0.learnSlot x.part x.domain k with
      | none => s0.learnDrop n.sess
      | some (sl, s1) =>
        match s1.freeRec x.part with
        | none => s0.learnDrop n.sess
        | some ix => s1.learnWrite n.sess n.block k sl ix

/-! ### Rebuild after a recomposition (R122) -/

/-- An entry's key comes back in its new row (R122): a record a publish still writes keeps its slot unseen; a row without a free slot
retires a VALID entry, and stops the publish of one still WRITING. -/
def State.rebuildKey (s : State) (part ix : Nat) : State :=
  let r := s.dirRec ix
  if r.st ≠ .valid ∧ r.st ≠ .writing then s
  else
    let own := s.dir.pubs.find? (fun q => q.ixs.contains ix && r.st == .writing)
    let key := match own with
      | some q => let b := q.ixs.idxOf ix; (q.chains.getD b 0, if b = 0 then 0 else q.ixs.getD (b - 1) 0)
      | none => (r.chain, r.parent)
    let row := rowOf (s.getPart part) key.1
    match (if r.published then s.lowSlot row else s.highSlot row) with
    | some k =>
      let slot : Slot := { domain := r.domain, model := r.model, parent := key.2, chain := key.1, ix := ix, valid := r.st == .valid }
      s.modDir (fun d => { d with slots := tabSet d.slots k slot })
    | none =>
      match own with
      | some q => if q.pointPassed then s.retireEntry ix else s.pubNoSpace q
      | none => s.retireEntry ix

/-- DIR_REBUILD_SLOT (R103, R122): the partition's next entry gets its key back, where the slot is due to the rebuild. -/
def execDirRebuildSlot (part : Nat) (s : State) : Out3 :=
  whenUp s (fun s =>
    match s.dir.rebuild.find? (fun e => e.1 == part) with
    | none => s
    | some e =>
      if !s.turn part (tabGet 0 s.dir.rebuildArr part) then s
      else ((s.modDir (fun d => { d with
        rebuild := listDropFirst (fun f => f == e) d.rebuild
        rebuildArr := tabSet d.rebuildArr part d.clock })).stamp).rebuildKey part e.2)

end Sys2Proof.Machine
end

