-- ==== Sys2Proof/Machine/SessCmds.lean ====
section
/-! DEFINITION. The session commands (02_sessions R30 to R46; 12_host_interface R324, R326): SESS_OPEN to SESS_CLOSE, and how a
revive ends. -/

namespace Sys2Proof.Machine

/-- Run the queue set's next command if it has this opcode and names a session (R28). -/
def withSess (s : State) (qk op : Nat) (f : State → Cmd → Nat → State) : Out3 :=
  whenUp s (fun s =>
    match s.firstCmd qk with
    | none => s
    | some c =>
      if byteAt c.raw 0 ≠ op then s
      else match s.handle? c.part (field c.raw 8 4) with
        | none => ((s.start c.serial).done c.serial .badSession).settle c.serial
        | some id => (f (s.start c.serial) c id).settle c.serial)

/-- The bytes a command reads from its buffer: what stands there, for a count the checks have passed. -/
def bufData (n : Nat) (data : Bytes) : Bytes := fit 0 n data

/-- DESC0's LEN. -/
def Cmd.len0 (c : Cmd) : Nat := field c.raw 24 4

/-! ### SESS_OPEN (R30, R39, R48, R69, R496) -/

/-- The home of a new session (R69). -/
def State.pickHome (s : State) (cs : List Nat) : Nat :=
  let n : Nat → Nat := fun c => (s.sess.filter (fun x => x.2.st != .free && x.2.home == c)).length
  cs.foldl (fun best c => if n c < n best then c else best) (cs.headD 0)

/-- SESS_OPEN. -/
def execSessOpen (qk : Nat) (s : State) : Out3 :=
  withCmd s qk 0x01 (fun s c =>
    let p := s.getPart c.part
    let dom := field c.raw 32 2
    let model := byteAt c.raw 34
    let pol := byteAt c.raw 35 % 8
    let set := field c.raw 38 2
    let stop := field c.raw 46 2
    let policy : Option Policy := match pol with
      | 0 => some .pinHot | 1 => some .preferHot | 2 => some .normal | 3 => some .cold | 4 => some .stripOk | _ => none
    let free := lowestFree (fun id => (s.getSess id).st == .free) (p.groupBase * 4096) (p.groups * 4096)
    let home := s.pickHome p.clusters
    match policy with
    | none => s.done c.serial .formatInvalid
    | some pol =>
      if dom = 0xFFFF ∨ model = 255 ∨ !(s.model c.part model).valid ∨ (set ≠ 0 ∧ (s.set? c.part set).isNone) ∨
          (stop ≠ 0 ∧ (tabGet? s.text.stops (c.part * 65536 + stop)).isNone) then s.done c.serial .formatInvalid
      else if dom ≠ 0 ∧ !s.domBound c.part dom then s.done c.serial .domainDenied
      else match free with
        | none => s.done c.serial .noSpace
        | some id =>
          if s.t1Free home < logPrimary 0 then s.done c.serial .noSpace
          else
            let old := s.getSess id
            let gen := (old.gen + 1) % 256
            let root := s.dieAddr (dieOf home) 1 s.free []
            let x : Sess := {
              ver := 1, st := .opened, part := c.part, prio := byteAt c.raw 35 / 16, domain := dom, model := model, policy := pol,
              stoptext := bitAt (byteAt c.raw 36) 0, noLearn := bitAt (byteAt c.raw 36) 1, conf := p.conf, kvsvc := p.pool == 1,
              home := home, stencilSet := set, stencilState := field c.raw 40 4, profile := field c.raw 44 2, stopSet := stop,
              tokPtr := root * kib4, tokPri := 1, tokMir := if s.isN then 1 else 2, seq := 2, gen := gen,
              priCl := home, mirCl := s.mirrorCluster c.part home, pri := { root := root }, lastUse := 0 }
            (s.draw.setSess id x).final c.serial .ok (handleOf id x) 0 0 0)

/-! ### Appends and generates on a resident session (R36, R40, R41, R43) -/

/-- The tokens of a buffer in token-log format, as appended ones (R47). -/
def toksOf (data : Bytes) : List LogTok := (chunks 4 (data.length + 1) data).map (fun b => ⟨leNat b % 2 ^ 18, 0⟩)

/-- Apply an append of tokens to a resident session (R36, R40, R43, R496): the first one looks its prompt up in the directory. -/
def State.applyAppend (s : State) (id serial : Nat) (toks : List LogTok) : State :=
  let x := s.getSess id
  if maxPositions < x.total + toks.length then s.lenDone id serial .lenOverLimit
  else if toks.isEmpty then s.lenDone id serial .ok
  else if x.total = 0 ∧ x.domain ≠ 0 then s.startWalk id serial false toks
  else if (s.logRoom id toks.length).isSome then (s.stripLog id toks.length).lenDone id serial .noSpace
  else
    let s1 := (s.logPut id toks).upd id (fun x => { x.disarm with
      st := .hot
      pend := x.pend + toks.length
      lastUse := s.now
      lastStatus := 0 })
    s1.lenDone id serial .ok

/-- A text append begins in its home cluster's tokeniser lane (08 R210, R212), which clears the wake hint (R42); the session takes no further command until it ends. -/
def State.queueText (s : State) (id serial : Nat) (text : Bytes) : State :=
  let x := s.getSess id
  let j : LaneJob := { serial := serial, encode := false, part := x.part, model := x.model, handle := handleOf id x, text := text }
  (s.upd id (fun x => { x.disarm with busyCmd := true })).modText (fun t =>
    { t with lanes := tabMod [] t.lanes x.home (fun l => l ++ [j]) })

/-- The checks of an append that need no state: `some` with a status where it completes at once (R43, 08 R210). -/
def State.appendCheck (s : State) (c : Cmd) (x : Sess) : Option Status :=
  let n := field c.raw 32 4
  if bitAt (byteAt c.raw 36) 0 then
    if (s.tok? x.part x.model).isNone ∨ allOnes n 32 ∨ 67108864 < n ∨ c.len0 < n then some .formatInvalid else none
  else if allOnes n 32 ∨ c.len0 < 4 * n then some .formatInvalid
  else if maxPositions < x.total + n then some .lenOverLimit
  else none

/-- Apply an append command's buffer to a session that is resident. -/
def State.runAppend (s : State) (id : Nat) (c : Cmd) (data : Bytes) : State :=
  let n := field c.raw 32 4
  if bitAt (byteAt c.raw 36) 0 then
    if (s.tok? (s.getSess id).part (s.getSess id).model).isNone then s.lenDone id c.serial .formatInvalid
    else s.queueText id c.serial (bufData n data)
  else s.applyAppend id c.serial (toksOf (bufData (4 * n) data))

/-- The checks of SESS_GENERATE on a session that may take it (R41, 12 R330, 14 R368). -/
def State.genCheck (s : State) (c : Cmd) (x : Sess) : Option Status :=
  let n := field c.raw 32 4 % 2 ^ 20
  if x.kvsvc then some .badState
  else if n = 0 ∨ n = 0xFFFFF ∨ (s.qs c.qk).emitLog2 = 0 then some .formatInvalid
  else if x.total = maxPositions then some .lenOverLimit
  else if x.total = 0 then some .badState
  else none

/-- A generate that is refused completes with the handle and no token logged (12 R326). -/
def State.genRefused (s : State) (id serial : Nat) (st : Status) : State := s.final serial st (handleOf id (s.getSess id)) 0 0 0

/-- Apply a generate to a resident session (R36): RUNNING, with the command's fields; the seam starts empty (08 R216). -/
def State.runGenerate (s : State) (id : Nat) (c : Cmd) : State :=
  s.upd id (fun x => { x.disarm with
    st := .running
    maxnew := field c.raw 32 4 % 2 ^ 20
    deadline := field c.raw 40 6
    prio := byteAt c.raw 46 % 16
    leftOut := 0
    seam := []
    utf8 := []
    open? := some { serial := c.serial, qk := c.qk, wakeAfter := field c.raw 48 4 } })

/-- Whether a session is in a park. -/
def Sess.parking (x : Sess) : Bool := x.st == .moving && !x.exporting

/-! ### Revives (R36, R44, R86) -/

/-- Apply the command a session held, as if it arrived now (R36). -/
def State.applyHeld (s : State) (id : Nat) (h : Held) : State :=
  let s1 := s.upd id (fun x => { x with held := none, heldCmd := false })
  match s1.cmd? h.serial with
  | none => s1
  | some c =>
    let x := s1.getSess id
    if h.isGen then
      match s1.genCheck c x with
      | some st => s1.genRefused id c.serial st
      | none => s1.runGenerate id c
    else match s1.appendCheck c x with
      | some st => s1.lenDone id c.serial st
      | none => s1.runAppend id c h.data

/-- A revive whose last request is served (R36, R44, R86): the coverage is checked, the session is IDLE, and a held command
runs. -/
def State.reviveDone (s : State) (id : Nat) : State :=
  let x := s.getSess id
  if x.st ≠ .reviving ∨ s.hasMoves id (fun k => k == .revive || k == .park) then s
  else
    let s1 := s.coverCheck id
    if (s1.getSess id).st = .faulted then s1
    else
      let s2 := (s1.dropMovesOnly id).upd id (fun x => { x with st := .idle })
      match x.held with
      | some h => s2.applyHeld id h
      | none => if x.heldCmd then s2.upd id (fun x => { x with heldCmd := false }) else s2.enteredIdle id

/-- Hold a command of a parked or parking session and start its revive (R36). -/
def State.hold (s : State) (id : Nat) (h : Held) : State :=
  ((s.upd id (fun x => { x.disarm with held := some h, heldCmd := true })).startRevive id .a s.now).reviveDone id

/-- SESS_APPEND (R36, R40, R43). -/
def execSessAppend (qk : Nat) (data : Bytes) (s : State) : Out3 :=
  withSess s qk 0x02 (fun s c id =>
    let x := s.getSess id
    let resident := x.st == .opened || x.st == .hot || x.st == .idle
    let away := x.st == .parked || x.parking
    if !resident && !away then s.lenDone id c.serial .badState
    else match s.appendCheck c x with
      | some st => s.lenDone id c.serial st
      | none =>
        if field c.raw 32 4 = 0 then s.lenDone id c.serial .ok
        else if resident then s.runAppend id c data
        else s.hold id { serial := c.serial, isGen := false, data := data })

/-- SESS_GENERATE (R36, R41). -/
def execSessGenerate (qk : Nat) (s : State) : Out3 :=
  withSess s qk 0x03 (fun s c id =>
    let x := s.getSess id
    let resident := x.st == .hot || x.st == .idle
    let away := x.st == .parked || x.parking
    if !resident && !away then s.genRefused id c.serial .badState
    else match s.genCheck c x with
      | some st => s.genRefused id c.serial st
      | none =>
        if resident then s.runGenerate id c else s.hold id { serial := c.serial, isGen := true, data := [] })

/-! ### Parks, strips, resumes (R36, R82) -/

/-- SESS_PARK. -/
def execSessPark (qk : Nat) (s : State) : Out3 :=
  withSess s qk 0x04 (fun s c id =>
    let x := s.getSess id
    if x.st ≠ .hot ∧ x.st ≠ .idle then s.done c.serial .badState
    else if !s.parkTier x.part then s.done c.serial .noSpace
    else if s.parkFree x.part < s.parkBytes x then (s.stripFor x.part (s.parkBytes x)).done c.serial .noSpace
    else
      let s1 := (s.modSess id Sess.okd).startPark id
      s1.final c.serial .ok 0 (s1.getSess id).st.code 0 0)

/-- SESS_STRIP. -/
def execSessStrip (qk : Nat) (s : State) : Out3 :=
  withSess s qk 0x05 (fun s c id =>
    let x := s.getSess id
    if x.st ≠ .opened ∧ x.st ≠ .hot ∧ x.st ≠ .idle ∧ x.st ≠ .parked then s.done c.serial .badState
    else ((s.modSess id Sess.okd).strip id).final c.serial .ok 0 SState.stripped.code 0 0)

/-- SESS_RESUME: a parked session is revived, one met in its park with HELD_CMD set until the revive ends (R36); a stripped one looks its
logged tokens up again. -/
def execSessResume (qk : Nat) (s : State) : Out3 :=
  withSess s qk 0x06 (fun s c id =>
    let x := s.getSess id
    if x.st = .parked ∨ x.parking then
      let s1 := (s.modSess id (fun x => { x.okd.disarm with lastUse := s.now, heldCmd := x.parking })).startRevive id .a s.now
      (s1.lenDone id c.serial .ok).reviveDone id
    else if x.st ≠ .stripped then s.lenDone id c.serial .badState
    else if x.domain ≠ 0 ∧ x.log ≠ [] then s.startWalk id c.serial true x.log
    else
      let s1 := s.upd id (fun x => { x.okd.disarm with st := .hot, rebuild := true, lastUse := s.now })
      s1.lenDone id c.serial .ok)

/-- SESS_HINT (R42). -/
def execSessHint (qk : Nat) (s : State) : Out3 :=
  withSess s qk 0x07 (fun s c id =>
    let x := s.getSess id
    let ok := x.st == .hot || x.st == .running || x.st == .idle || x.st == .parked || x.st == .reviving || x.parking
    let n := field c.raw 32 4
    if !ok then s.done c.serial .badState
    else
      let s1 := s.upd id (fun x => let y := { x with lastStatus := 0 }; if n = 0 then y.disarm else y.arm (s.now + n))
      s1.final c.serial .ok 0 0 (if n = 0 then 0 else (s.now + n) % 2 ^ 48) 0)

/-! ### Cancel and close (R45, R46, R36, R78) -/

/-- Send CTRL END for a session in the next beat (R45). -/
def State.ctrlEndNext (s : State) (p h : Nat) : State := s.modRoster p (fun r => { r with ctrlEnd := r.ctrlEnd ++ [h] })

/-- Cancel a RUNNING session (R45): in a step CANCEL_REQ is set and the step runs to its end; between steps the generate ends. -/
def State.cancelRun (s : State) (id : Nat) : State :=
  let x := s.getSess id
  if x.step.isSome then s.upd id (fun x => { x with cancelReq := true })
  else (s.ctrlEndNext x.part (handleOf id x)).endGenIdle id .cancelled

/-- SESS_CANCEL (R45, R46). -/
def execSessCancel (qk : Nat) (s : State) : Out3 :=
  withSess s qk 0x08 (fun s c id =>
    let x := s.getSess id
    if x.st = .running then ((s.modSess id Sess.okd).done c.serial .ok).cancelRun id
    else if x.heldCmd ∧ (x.st = .reviving ∨ x.parking) then
      (((s.dropHeld id .cancelled).upd id (fun x => { x.okd with heldCmd := false }))).done c.serial .ok
    else s.done c.serial .badState)

/-- Close a session (R36, R78, 13 R362): its command completes once it is ENDED; a session in none of these states is left alone. -/
def State.closeSess (s : State) (id serial : Nat) : State :=
  let x := s.getSess id
  match x.st with
  | .hot | .idle | .parked | .stripped | .opened | .faulted => (s.toEnded id).done serial .ok
  | .running => (s.modSess id (fun x => { x.disarm with closeSerial := serial })).cancelRun id
  | .reviving => ((s.dropHeld id .cancelled).toEnded id).done serial .ok
  | .moving =>
    let s1 := match s.link.outs.find? (fun m => m.sess == id) with
      | some m => s.abandonOut m .cancelled
      | none => s.dropHeld id .cancelled
    (s1.toEnded id).done serial .ok
  | .free | .ended => s

/-- SESS_CLOSE (R36): a session already ENDED completes with BAD_STATE. -/
def execSessClose (qk : Nat) (s : State) : Out3 :=
  withSess s qk 0x09 (fun s c id =>
    if (s.getSess id).st = .ended then s.done c.serial .badState else s.closeSess id c.serial)

end Sys2Proof.Machine
end

