-- ==== Sys2Proof/Machine/Mover.lean ====
section
/-! DEFINITION. The float, the scraper, the primer and the token-log mirror (03_state_fabric R70 to R91, 02_sessions R49, R50):
FLOAT_UNIT, FLOAT_SWITCH, SCRAPER_RECLAIM_T0, SCRAPER_RECLAIM_T1, SCRAPER_COMMIT, PRIMER_QUEUE_REVIVE, MIRROR_FLUSH,
TOKLOG_REMIRROR, and the loss of tier 1. -/

namespace Sys2Proof.Machine

/-! ### Faults of stored state (R89 to R91, R50) -/

/-- One copy of a session's token log fails, in some segments or, with none named, whole (R50): the log is degraded and the copy's rewrite is
queued. Where the same positions fail in both copies the log is lost, and the session faults. -/
def State.logCopyLost (s : State) (id which : Nat) (segs : List Nat) : State :=
  let x := s.getSess id
  let more : List Nat → List Nat := fun l => l ++ segs.filter (fun k => !l.contains k)
  if x.lostCopy = 3 then s
  else if x.lostCopy = 0 then
    (s.upd id (fun x => { x with lostCopy := which, badSegs := segs, degraded := true })).queueMove
      { queue := .b, kind := .remirror, beat := s.now, part := x.part, sess := id, block := 0 }
  else if x.lostCopy = which then
    (s.modSess id (fun x => { x with badSegs := if x.badSegs.isEmpty || segs.isEmpty then [] else more x.badSegs })).modFab (fun f => { f with
      float := f.float.map (fun (q : FReq) => if q.kind == .remirror && q.sess == id then { q with dst := none, units := 0, running := false, copied := false } else q) })
  else if x.badSegs ≠ [] ∧ segs ≠ [] ∧ !segs.any x.badSegs.contains then s.modSess id (fun x => { x with otherBad := more x.otherBad })
  else
    let s1 := s.upd id (fun x => { x with lostCopy := 3, degraded := true })
    if x.st = .ended ∨ x.st = .faulted then s1 else s1.faultSess id .tierFault

/-- Every session's token-log copies in the tier-1 shares of some clusters are lost. -/
def State.logsLost (s : State) (gone : Nat → Bool) : State :=
  (s.sess.filter (fun p => p.2.st != .free)).foldl (fun s p =>
    let s1 := if gone p.2.priCl then s.logCopyLost p.1 1 [] else s
    if s.isN && gone p.2.mirCl then s1.logCopyLost p.1 2 [] else s1) s

/-- Every block in some places is dropped (R90): the sessions that own one leave their state, entries are retired with their
holders. -/
def State.blocksLost (s : State) (gone : Desc → Bool) : State :=
  let s1 := (s.sess.filter (fun p => p.2.st != .free)).foldl (fun s p =>
    let bs := ((p.2.pages.zipIdx).filter (fun d => d.1.valid && !d.1.shared && gone d.1)).map (·.2)
    if bs.isEmpty then s else s.blocksFault p.1 bs) s
  let s2 := (s1.dir.recs.filter (fun r => r.2.st != .free && r.2.blk != 0 && gone r.2.desc)).foldl (fun s r => s.recFault r.1) s1
  s2.loseReads (fun q => q.held.any (fun pl => gone { tier := pl.tier, cluster := pl.cluster, hdrT := pl.hdrT }))

/-- A die's tier 1 is gone (R91): its blocks, headers and token-log copies are lost. -/
def State.tier1Lost (s : State) (die : Nat) : State :=
  let s1 := s.modFab (fun f => { f with dieT1Out := if f.dieT1Out.contains die then f.dieT1Out else die :: f.dieT1Out })
  (s1.blocksLost (fun d => dieOf d.cluster == die && (d.tier == 1 || d.hdrT))).logsLost (fun c => dieOf c == die)

/-- A tier fault on a block in tier 1 is counted against a stack of its die; the sixteenth takes the stack out of service (R91).
Which of the five stacks it was is a free value. -/
def State.stackFault (s : State) (d : Desc) : State :=
  if d.tier ≠ 1 then s
  else
    let die := dieOf d.cluster
    let k := die * 5 + Config.pick s.free % 5
    let n := tabGet 0 s.fab.stackFaults k + 1
    let s1 := (s.draw).modFab (fun f => { f with stackFaults := tabSet f.stackFaults k n })
    if n = 16 then s1.tier1Lost die else s1

/-- A control check fails on a block a session reads or moves (R89, R90, R119): its own block, or the entry it shares. A record that a
publish of the session still writes is no entry yet: the publish stops first (04 R112). -/
def State.blockFault (s : State) (id b : Nat) : State :=
  let d := (s.getSess id).desc b
  let own := !d.shared || s.dir.pubs.any (fun q => q.sess == id && !q.pointPassed && (q.ixs.drop q.firstNew).contains d.ix)
  (if own then (s.pubStop id .tierFault).blocksFault id [b] else s.recFault d.ix).stackFault (s.locate d)

/-- A check of a page walk or of a block access fails (R66, R89, R90, 04 R119): a leaf pointer takes the blocks of its leaf, a descriptor its
block, as this session alone holds them; a record or the block itself takes the entry where it is shared. -/
def State.pageFault (s : State) (id b : Nat) (c : PageCheck) : State :=
  match c with
  | .ok => s
  | .leaf => s.blocksFault id ((List.range 256).filterMap (fun k =>
      let i := b / 256 * 256 + k
      if ((s.getSess id).desc i).valid then some i else none))
  | .desc => s.blocksFault id [b]
  | .record => s.recFault ((s.getSess id).desc b).ix
  | .page => s.blockFault id b

/-- The state after a control check that fails on a page walk of a session to a block (R66, 04 R119), or none where none fails. A record that
is FAULTED faults its holder at once. -/
def State.checkFault (s : State) (id b : Nat) (c : PageCheck) : Option State :=
  let d := (s.getSess id).desc b
  if d.valid ∧ c ≠ .ok ∧ (c ≠ .record ∨ d.shared) then some (s.pageFault id b c)
  else if d.valid ∧ d.shared ∧ (s.dirRec d.ix).st = .faulted then some (s.tierFault id)
  else none

/-- The coverage check of a page walk that reaches the last descriptor (R44). -/
def State.walkCover (s : State) (id b : Nat) : Option State :=
  let x := s.getSess id
  if b + 1 = x.pages.length ∧ x.covered < x.length then some (s.faultSess id .lenOverPages) else none

/-- What a page walk of a session to a block finds before it reads (R44, R66, 04 R119): the state after a fault, or none where there is none. -/
def State.walkFault (s : State) (id b : Nat) (c : PageCheck) : Option State := (s.checkFault id b c).or (s.walkCover id b)

/-! ### Gates and rates (R161, R77) -/

/-- The estimate of a float unit in ticks: its bytes at the lower of the tier rate and the partition's float share (R77, R161). -/
def State.unitEst (s : State) (p bytes tierA tierB : Nat) : Nat :=
  let share := 50 * (s.clustersOf p).length
  let path := if tierA = 3 ∨ tierB = 3 then 60 else 400
  ceilDiv bytes (max 1 (min share path))

/-- Page units of a block: the header, then the pages in pieces of at most 256 KiB (R161). -/
def unitsOf (m : ModelEnt) : Nat := 1 + m.layers * ceilDiv m.pageBytes 0x40000

/-! ### Where a move goes (R70, R71, R74, R82, R110) -/

/-- The source of a request: the descriptor it moves, with its location; none once it is gone. -/
def State.moveSrc (s : State) (f : FReq) : Option Desc :=
  if f.onRec then
    let r := s.dirRec f.sess
    if r.blk = 0 then none else some r.desc
  else
    let d := s.locate ((s.getSess f.sess).desc f.block)
    if d.valid then some d else none

/-- The model of a request's block. -/
def State.moveModel (s : State) (f : FReq) : ModelEnt :=
  if f.onRec then let r := s.dirRec f.sess; s.model r.part r.model
  else let x := s.getSess f.sess; s.model x.part x.model

/-- The class a request's block is placed by, and its session's home (R68, R106). -/
def State.moveClass (s : State) (f : FReq) : Policy × Nat :=
  if f.onRec then (.preferHot, (s.dirRec f.sess).home)
  else let x := s.getSess f.sess; (if f.kind = .pubTail then .preferHot else x.policy, x.home)

/-- The stripe cluster of a request's block. -/
def State.stripeOf (s : State) (p home b : Nat) : Nat := (s.stripe p home b).headD home

/-- Place a block as a new one of its class (R70), counting a spill. -/
def State.placeNew (s : State) (p : Nat) (m : ModelEnt) (home : Nat) (pol : Policy) (b : Nat) : Option (Place × State) :=
  (s.placeBlock p m home pol b).map (fun x =>
    let r := s.placeAt m x.1 x.2.1
    (r.1, if x.2.2 then r.2.bump .sfEvtPinSpill p else r.2))

/-- Allocate the destination of a request, if its space is there. A block that goes back to its stripe cluster takes there the first tier of its
class that has room: R71 names none (DESIGN CHOICE: 82). -/
def State.moveDst (s : State) (f : FReq) (d : Desc) : Option (Place × State) :=
  let m := s.moveModel f
  let pc := s.moveClass f
  let leavesT0 := d.tier = 0 ∧ !d.hdrT
  match f.kind with
  | .park =>
    if leavesT0 ∧ s.t1Free d.cluster < m.hdrBytes then none
    else if m.t2Bytes ≤ s.t2Free f.part ∧ !s.isN then some (s.parkAt m d.cluster 2 0)
    else match (s.winsOf f.part).find? (fun w => decide (up4k m.blockBytes ≤ s.winFree w)) with
      | some w => some (s.parkAt m d.cluster 3 w)
      | none => none
  | .demote => if s.hasRoom m d.cluster 1 then some (s.placeAt m d.cluster 1) else none
  | .promote =>
    let high := bits (s.reg .sfWmark f.part) 8 7
    if s.hasRoom m d.cluster 0 ∧ high * t0Size < 100 * s.t0Free d.cluster then some (s.placeAt m d.cluster 0) else none
  | .give =>
    let c := s.stripeOf f.part pc.2 f.block
    if (s.placeClusters f.part).contains d.cluster then
      match (tierOrder pc.1).find? (fun t => s.hasRoom m c t && (pc.1 != .pinHot || t == 0 || d.tier == 1)) with
      | some t => some (s.placeAt m c t)
      | none => none
    else s.placeNew f.part m pc.2 pc.1 f.block
  | _ => s.placeNew f.part m pc.2 pc.1 f.block

/-- Whether a write could still fall into a block, so that its move may not start (R75). An evacuation moves every block off a cluster
that leaves (14 R378). DEDUCED: 40 (R378 says every block, so R75 cannot hold one back there). -/
def State.moveHeld (s : State) (f : FReq) : Bool :=
  match f.kind with
  | .demote | .give =>
    let x := s.getSess f.sess
    let stays := match s.moveSrc f with
      | some d => (s.placeClusters f.part).contains d.cluster
      | none => true
    !f.onRec && (x.st == .hot || x.st == .running) && tailish x f.block && stays
  | _ => false

/-! ### The place of a rewritten token-log copy (R50) -/

/-- Where a lost token-log copy is rewritten: tier and cluster, where it has room now. -/
def State.remirrorPlace (s : State) (id : Nat) : Option (Nat × Nat) :=
  let x := s.getSess id
  let n := x.log.length
  let need := if x.lostCopy = 1 then logPrimary n else logMirror n
  let usable : Nat → Bool := fun c => !(s.fab.dieT1Out.contains (dieOf c) || s.ckpt.lostDies.contains (dieOf c))
  if x.lostCopy = 2 ∧ !s.isN then (if need ≤ s.t2Free x.part then some (2, x.home) else none)
  else
    let own := if x.lostCopy = 1 then x.home else s.mirrorCluster x.part x.home
    let other := if x.lostCopy = 1 then x.mirCl else x.priCl
    if usable own then (if need ≤ s.t1Free own then some (1, own) else none)
    else
      let lost := if x.lostCopy = 1 then x.priCl else x.mirCl
      let cs := (s.otherDies x.part (dieOf lost)).filter (fun c => usable c && decide (need ≤ s.t1Free c))
      let pref := if s.isN then (cs.filter (fun c => dieOf c != dieOf other)) ++ cs else cs
      pref.head?.map (fun c => (1, c))

/-! ### The float's queues (R76, R77) -/

/-- The rank of a queue. -/
def FQueue.rank : FQueue → Nat
  | .a => 0
  | .b => 1
  | .c => 2
  | .d => 3
  | .e => 4

/-- Lexicographic order on keys. -/
def lexLt : List Nat → List Nat → Bool
  | a :: l, b :: m => decide (a < b) || (a == b && lexLt l m)
  | _, _ => false

/-- The float's order (R76, R83, R85, 06_beat R161): queue, a request whose unit was abandoned, releases first, then the beat it was queued in or, in queue C, the primer's order,
then session, then block. -/
def freqLt (f g : FReq) : Bool :=
  let key : FReq → List Nat := fun f =>
    [f.queue.rank, if f.head then 0 else 1, if f.kind = .release then 0 else 1, if f.queue = .c then f.start else f.beat,
     if f.queue = .c then f.prio else 0, f.sess, f.block]
  lexLt (key f) (key g)

/-- Whether a partition is quiesced, by a recomposition or the loss of a die: its float serves queues B and E only (14 R378,
16 R434). -/
def State.quiesced (s : State) (p : Nat) : Bool :=
  (s.part.composable && s.dieLost p) ||
  (match s.part.recomp with
   | some r => (r.stage == .quiesced || r.stage == .evacuated) && r.recs.any (fun q => q.part == p)
   | none => false)

/-- A partition's requests in the float's order. -/
def State.floatOrder (s : State) (p : Nat) : List FReq :=
  listSort freqLt (s.fab.float.filter (fun f => f.part == p && (!s.quiesced p || f.queue == .b || f.queue == .e)))

/-- Replace a request. -/
def State.setReq (s : State) (f g : FReq) : State := s.modFab (fun b => { b with float := b.float.map (fun x => if x = f then g else x) })

/-- Drop a request; its destination goes with it. -/
def State.dropReq (s : State) (f : FReq) : State := s.modFab (fun b => { b with float := b.float.filter (fun x => x != f) })

/-- A block's pieces in one page (R161). -/
def piecesOf (m : ModelEnt) : Nat := max 1 (ceilDiv m.pageBytes 0x40000)

/-- The first byte of a unit in its page array. -/
def unitOff (m : ModelEnt) (u : Nat) : Nat := (u - 1) / piecesOf m * m.pageBytes + (u - 1) % piecesOf m * 0x40000

/-- The last block of an export has been read: DONE follows (13 R360). -/
def State.sendDone (s : State) (id : Nat) : State :=
  match s.link.outs.find? (fun o => o.sess == id) with
  | none => s
  | some o =>
    if o.phase = .doneSent ∨ s.fab.float.any (fun f => f.kind == .send && f.sess == id) then s
    else (s.send o.port (moveMsg { sub := 6, src := handleOf id (s.getSess id), dst := o.dst } [])).modLink (fun l =>
      { l with outs := listMod (fun o => o.sess == id) (fun o => { o with phase := .doneSent }) l.outs })

/-- A unit of an export has been read (13 R360): the last piece of a page sends the KV message of its layer, the last unit of the last block
is followed by DONE. `start` holds the first position the destination lacks. -/
def State.unitSent (s : State) (f : FReq) : State :=
  match s.link.outs.find? (fun o => o.sess == f.sess) with
  | none => s.dropReq f
  | some o =>
    let m := s.moveModel f
    let h := handleOf f.sess (s.getSess f.sess)
    let pos := max f.start (64 * f.block)
    let n := min o.len (64 * f.block + 64) - pos
    let l := f.units / piecesOf m - 1
    let r : KvRead := { port := o.port, handle := h, sess := f.sess, pos := pos, layer := l, count := n, replyVc := 3 }
    let s1 := if f.units ≠ 0 ∧ f.units % piecesOf m = 0 then
        s.send o.port (moveMsg { sub := 4, src := h, dst := o.dst, pos := pos, layer := l, count := n } (s.kvReadData r))
      else s
    if f.need ≤ f.units + 1 then (s1.dropReq f).sendDone f.sess
    else s1.setReq f { f with running := false, units := f.units + 1 }

/-- A unit ends: it is copied, or sent (R161). -/
def State.unitOver (s : State) (f : FReq) : State :=
  if f.kind = .send then s.unitSent f
  else s.setReq f { f with running := false, units := f.units + 1, copied := decide (f.need ≤ f.units + 1) }

/-- A unit of a checkpoint's read ends (16 R420, R421): after the last one the block is copied, and its place or its reference let go. -/
def State.readOver (s : State) (r : CkRead) : State :=
  if r.units + 1 < unitsOf (s.model r.part r.model) then
    s.modReads (listMod (fun q => q == r) (fun q => { q with running := false, units := q.units + 1 }))
  else
    let s1 := s.modReads (fun l => l.filter (fun q => q != r))
    match r.ix with
    | some ix => s1.refDec ix
    | none => s1

/-- The units in progress of a partition end: its float request's, and that of a checkpoint's read. -/
def State.unitEnds (s : State) (p : Nat) : State :=
  let s1 := (s.fab.float.filter (fun f => f.part == p && f.running)).foldl State.unitOver s
  (s1.ckReads.filter (fun r => r.part == p && r.running)).foldl State.readOver s1

/-- The reads of an export's blocks are queued (13 R360), from a position on; with none to read, DONE follows. The spec names no queue for
them (DESIGN CHOICE: 85). -/
def State.queueSends (s : State) (o : MoveOut) (from_ : Nat) : State :=
  let s1 := s.modFab (fun b => { b with float := b.float.filter (fun f => f.kind != .send || f.sess != o.sess) })
  let blocks := (List.range (ceilDiv o.len 64)).filter (fun b => decide (from_ < 64 * b + 64) && decide (from_ < o.len))
  (blocks.foldl (fun s b => s.queueMove { queue := .b, kind := .send, beat := s.now, part := (s.getSess o.sess).part, sess := o.sess,
                                          block := b, start := from_ }) s1).sendDone o.sess

/-- A promotion worth making (R72): the first own tier-1 block of a RUNNING session, by class, DEADLINE, session and block from
the highest, on a cluster above its high watermark. A block held through the directory is no session's own and is not promoted
(DESIGN CHOICE: 86). -/
def State.pickPromotion (s : State) (p : Nat) : Option FReq :=
  let cls : Policy → Nat := fun c => match c with
    | .pinHot => 0 | .preferHot => 1 | .normal => 2 | .stripOk => 3 | .cold => 4
  let dl : Sess → Nat := fun x => if x.deadline = 0 then 2 ^ 48 else x.deadline
  let ss := listSort (fun (a b : Nat × Sess) => decide (cls a.2.policy < cls b.2.policy) || (cls a.2.policy == cls b.2.policy &&
      (decide (dl a.2 < dl b.2) || (dl a.2 == dl b.2 && decide (a.1 < b.1)))))
    ((s.live p).filter (fun x => x.2.st == .running && x.2.policy != .cold))
  let cands : List FReq := ss.flatMap (fun x => (x.2.pages.zipIdx).reverse.filterMap (fun d =>
    if d.1.valid ∧ !d.1.shared ∧ d.1.tier = 1 then
      some { queue := .d, kind := .promote, beat := s.now, part := p, sess := x.1, block := d.2 }
    else none))
  cands.find? (fun f => match s.moveSrc f with
    | some d => (s.moveDst f d).isSome && !s.fab.float.any (fun g => !g.onRec && g.sess == f.sess && g.block == f.block)
    | none => false)

/-- A displaced block whose stripe cluster has room (R71). -/
def State.pickReturn (s : State) (p : Nat) : Option FReq :=
  let own : List FReq := (s.live p).flatMap (fun x => (x.2.pages.zipIdx).filterMap (fun d =>
    if d.1.valid ∧ !d.1.shared ∧ d.1.tier < 2 ∧ d.1.cluster ≠ s.stripeOf p x.2.home d.2 then
      some { queue := .e, kind := .give, beat := s.now, part := p, sess := x.1, block := d.2 }
    else none))
  let recs : List FReq := s.dir.recs.filterMap (fun r =>
    if r.2.part = p ∧ (r.2.st = .valid ∨ r.2.st = .retired) ∧ r.2.blk ≠ 0 ∧ r.2.cluster ≠ s.stripeOf p r.2.home r.2.depth then
      some { queue := .e, kind := .give, beat := s.now, part := p, onRec := true, sess := r.1, block := r.2.depth }
    else none)
  (own ++ recs).find? (fun f => match s.moveSrc f with
    | some d => (s.moveDst f d).isSome && !s.moveHeld f &&
        !s.fab.float.any (fun g => g.onRec == f.onRec && g.sess == f.sess && g.block == f.block)
    | none => false)

/-! ### Starting a unit -/

/-- The flash channel a request's next unit reads or writes (R61); none for a header, or where the block stays out of tier 2. -/
def State.chanFor (s : State) (f : FReq) (d : Desc) : Option Nat :=
  if f.units ≠ 0 ∧ (d.tier = 2 ∨ f.dst.any (fun pl => pl.tier == 2)) then
    some (chanOf f.sess f.block (unitOff (s.moveModel f) f.units / 0x40000))
  else none

/-- Whether the buffer of that channel was found full or empty in this bulk window (R161). -/
def State.chanFull (s : State) (f : FReq) (d : Desc) : Bool :=
  (s.chanFor f d).any (fun c => s.fab.chanWait.contains (f.part * 32 + c))

/-- What the float can do for a request now: the release is due, or the destination is found. -/
def State.servable (s : State) (f : FReq) : Bool :=
  match f.kind with
  | .release =>
    if f.onRec then (s.dirRec f.sess).refs == 0
    else (s.getSess f.sess).st == .ended && !s.referred f.sess
  | .remirror => !f.copied && (f.dst.isSome || (s.remirrorPlace f.sess).isSome)
  | .send => s.link.outs.any (fun o => o.sess == f.sess && (s.port o.port).st == .up)
  | _ =>
    if f.copied then false
    else match s.moveSrc f with
      | none => true
      | some d => !s.moveHeld f && (f.dst.isSome || (s.moveDst f d).isSome) && !s.chanFull f d

/-- The start rule of a float unit (R161). -/
def State.mayStart (s : State) (p est : Nat) (dies : List Nat) : Bool :=
  s.bulkOpen p && (s.bulkEndless || decide (s.beat.tick + est ≤ s.beat.period)) && !dies.any s.decodeOn

/-- The space of a copy that is rewritten is taken as the rewrite begins (R50, R495). -/
def State.copySpace (s : State) (id : Nat) (cl root : Nat) : State :=
  let x := s.getSess id
  let n := x.log.length
  let c : LogCopy := { root := root }
  if x.lostCopy = 1 then
    let p := growCopy ((root, 1) :: s.usedDie (dieOf cl)) dieUnits n s.free c
    { s.modSess id (fun x => { x with pri := p, priCl := cl }) with free := s.free + 2 ^ 12 }
  else
    let r := s.mirRegion { x with mirCl := cl }
    let p := growCopy r.1 r.2 n s.free c
    { s.modSess id (fun x => { x with mir := p, mirCl := cl }) with free := s.free + 2 ^ 12 }

/-- The dies that the rewrite of a token-log copy on a cluster reads or writes: those whose tier 1 holds a copy. -/
def State.copyDies (s : State) (x : Sess) (cl tier : Nat) : List Nat :=
  (if tier = 1 then [dieOf cl] else []) ++ (if x.lostCopy = 1 then (if s.isN then [dieOf x.mirCl] else []) else [dieOf x.priCl])

/-- Start the next unit of a request. -/
def State.startUnit (s : State) (f : FReq) : State :=
  match f.kind with
  | .release => (if f.onRec then s.freeRecord f.sess else s.freeSess f.sess).dropReq f
  | .remirror =>
    let x := s.getSess f.sess
    let bytes := if x.lostCopy = 1 then logPrimary x.log.length else logMirror x.log.length
    let est := s.unitEst f.part (min bytes 0x40000) 1 1
    let place : Option (Place × State) := match f.dst with
      | some pl => some (pl, s)
      | none => (s.remirrorPlace f.sess).map (fun (q : Nat × Nat) =>
          let root := if x.lostCopy = 1 then s.dieAddr (dieOf q.2) 1 s.free [] else 0
          ({ tier := q.1, cluster := q.2, base := root, hdrT := true, hdr := 0 }, (s.draw).copySpace f.sess q.2 root))
    match place with
    | none => s
    | some (pl, s1) =>
      if s.mayStart f.part est (s.copyDies x pl.cluster pl.tier) then
        s1.setReq f { f with dst := some pl, need := ceilDiv bytes 0x40000, running := true, until_ := s.tick + est, head := false }
      else s
  | .send =>
    match s.moveSrc f with
    | none => (s.dropReq f).sendDone f.sess
    | some d =>
      let m := s.moveModel f
      let est := s.unitEst f.part (if f.units = 0 then m.hdrBytes else min m.pageBytes 0x40000) d.tier d.tier
      if s.mayStart f.part est [dieOf d.cluster] then
        s.setReq f { f with need := unitsOf m, running := true, until_ := s.tick + est, head := false }
      else s
  | _ =>
    let x := s.getSess f.sess
    let e := x.desc f.block
    if !f.onRec ∧ e.valid ∧ e.shared ∧ (s.dirRec e.ix).st = .faulted then s.tierFault f.sess
    else match s.moveSrc f with
    | none => s.dropReq f
    | some d =>
      match (match f.dst with | some pl => some (pl, s) | none => s.moveDst f d) with
      | none => s
      | some (pl, s1) =>
        let m := s.moveModel f
        let bytes := if f.units = 0 then m.hdrBytes else min m.pageBytes 0x40000
        let est := s.unitEst f.part bytes d.tier pl.tier
        if s.mayStart f.part est [dieOf d.cluster, dieOf pl.cluster] then
          s1.setReq f { f with dst := some pl, need := unitsOf m, running := true, until_ := s.tick + est, head := false }
        else s

/-- Finish a session's move that is abandoned or failed: a park may end with it. -/
def State.afterMove (s : State) (f : FReq) : State := if !f.onRec && f.kind == .park then s.parkDone f.sess else s

/-- A write to the destination fails (R78): the block is placed again once, then it stays at its source; a copy that cannot be made
faults its session's block or stops its publish (04 R110, R112). A revive ends only when its last descriptor switches (02 R36), so a block
it had to leave is queued again (DESIGN CHOICE: 44). -/
def State.dstFails (s : State) (f : FReq) : State :=
  let again : FReq := { f with dst := none, units := 0, running := false, copied := false }
  if !f.retried then s.setReq f { again with retried := true }
  else
    let s1 := s.bump .sfEvtFloatfail f.part
    match f.kind with
    | .copyExtend => (s1.dropCopy f.sess).blocksFault f.sess [f.block]
    | .pubTail => (s1.dropReq f).pubStop f.sess .tierFault
    | .revive => s1.setReq f { again with retried := false, beat := s.now }
    | _ => (s1.dropReq f).afterMove f

/-- A read of the source fails (R78, R90): a tier fault on the block; a copy-on-extend's is one of the session's block alone (04 R110); a
token-log copy being rewritten loses the segments of the unit in the copy it is rewritten from (R50). -/
def State.srcFails (s : State) (f : FReq) : State :=
  match f.kind with
  | .remirror => (s.dropReq f).logCopyLost f.sess (if (s.getSess f.sess).lostCopy = 1 then 2 else 1)
      ((List.range 64).map (fun k => 64 * f.units + k))
  | .copyExtend => (s.dropCopy f.sess).blocksFault f.sess [f.block]
  | _ =>
    match s.moveSrc f with
    | none => s.dropReq f
    | some d =>
      let s1 := if f.onRec then (s.recFault f.sess).stackFault d else s.blockFault f.sess f.block
      if f.kind = .send then s1.sendDone f.sess else s1

/-- A flash channel or a host window fails in a unit of a block that is parked or revived (R89): a tier fault on the block. -/
def State.pathFails (s : State) (f : FReq) : State :=
  match s.moveSrc f with
  | some d => if 2 ≤ d.tier ∨ f.dst.any (fun pl => decide (2 ≤ pl.tier)) then s.blocksFault f.sess [f.block] else s
  | none => s

/-- The unit finds its flash channel's buffer full, or empty (R161): it waits for a later bulk window. -/
def State.bufWaits (s : State) (f : FReq) : State :=
  match (s.moveSrc f).bind (s.chanFor f) with
  | none => s
  | some c => (s.setReq f { f with running := false }).modFab (fun b => { b with chanWait := (f.part * 32 + c) :: b.chanWait })

/-- The float starts the next unit of the first request of a partition that it can serve. -/
def State.floatGo (s : State) (part : Nat) : State :=
  match (s.floatOrder part).find? s.servable with
  | some f => s.startUnit f
  | none => s

/-- A park that waits for a destination sets off the strips of R82 where the partition's flash quota is short. -/
def State.stripsForPark (s : State) (part : Nat) : State :=
  match s.fab.float.find? (fun f => f.part == part && f.kind == .park && !f.copied && f.dst.isNone) with
  | some f => if s.t2Free part < (s.moveModel f).t2Bytes then s.stripFor part (s.moveModel f).blockBytes else s
  | none => s

/-- Where a block that a checkpoint has still to read lies now: the place held for it, or where its owner has it. -/
def State.readPlace (s : State) (r : CkRead) : Option (Nat × Nat) :=
  match r.held with
  | some pl => some (pl.tier, pl.cluster)
  | none => (s.phys.find? (fun x => x.blk == r.blk)).map (fun x => (x.tier, x.cluster))

/-- The float starts a unit of the first block of a partition that a checkpoint has still to read (16 R421, R161). The spec names no queue for
these reads: they come after every other request (DESIGN CHOICE: 99). -/
def State.readNext (s : State) (p : Nat) : State :=
  match s.ckReads.find? (fun r => r.part == p) with
  | none => s
  | some r => match s.readPlace r with
    | none => s.loseReads (fun q => q == r)
    | some (tier, cl) =>
      let m := s.model p r.model
      let est := s.unitEst p (if r.units = 0 then m.hdrBytes else min m.pageBytes 0x40000) tier tier
      if s.mayStart p est [dieOf cl] then
        s.modReads (listMod (fun q => q == r) (fun q => { q with running := true, until_ := s.tick + est }))
      else s

/-- The read of a block for a checkpoint fails (16 R420, R89, R90): a tier fault on the block, and the checkpoint loses it. -/
def State.readFails (s : State) (r : CkRead) : State :=
  if r.held.isSome then s.loseReads (fun q => q == r)
  else match r.ix with
    | some ix => s.recFault ix
    | none => match s.sess.find? (fun x => x.2.st != .free && x.2.pages.any (fun d => d.valid && (s.locate d).blk == r.blk)) with
      | some x => s.blockFault x.1 (x.2.pages.findIdx (fun d => d.valid && (s.locate d).blk == r.blk))
      | none => s.loseReads (fun q => q == r)

/-- The float begins the next thing it can do for a partition (R71, R72, R76, R82): the first request it can serve; else a promotion or a
return, while a park that finds no room sets off strips; else a read for a checkpoint. -/
def State.floatNext (s : State) (part : Nat) : State :=
  match (s.floatOrder part).find? s.servable with
  | some f => s.startUnit f
  | none =>
    let s1 := s.stripsForPark part
    if s1.quiesced part then s1.readNext part
    else match (s1.pickPromotion part).or (s1.pickReturn part) with
      | some f => (s1.queueMove f).floatGo part
      | none => s1.readNext part

/-- FLOAT_UNIT (R76, R161): the unit in progress has ended, with the outcome of its checks (1 the source's read failed, 2 the
destination's write, 3 the flash channel's buffer was full or empty, 4 the flash channel or the host window failed), and the float starts
the next unit of the first request it can serve, or releases what is due. -/
def execFloatUnit (part check : Nat) (s : State) : Out3 :=
  whenUp s (fun s =>
    match s.fab.float.find? (fun f => f.part == part && f.running && check != 0) with
    | some f => match check with
      | 1 => s.srcFails f
      | 2 => s.dstFails f
      | 3 => s.bufWaits f
      | _ => s.pathFails f
    | none => match s.ckReads.find? (fun r => r.part == part && r.running && check == 1) with
      | some r => s.readFails r
      | none => (s.unitEnds part).floatNext part)

/-! ### The switch (R14, R74) -/

/-- Whether an attention read or a KV-service read of a session's block is in flight (R14): an accepted Q_SUBMIT reads its
session's blocks until it is answered. -/
def State.readInFlight (s : State) (id b : Nat) : Bool :=
  s.cores.core.any (fun c => [c.2.ctx0, c.2.ctx1, c.2.ctx2, c.2.ctx3].any (fun x =>
    x.ops.any (fun o => o.reads && o.sess == id && o.block == b))) ||
  s.att.reads.any (fun r => r.sess == id && r.pos / 64 == b) ||
  s.att.reqs.any (fun r => hId r.handle == id && decide (64 * b < r.pos + r.chunk))

/-- Whether a read of a request's source is in flight, by any holder. -/
def State.reqBusy (s : State) (f : FReq) : Bool :=
  if f.onRec then
    s.sess.any (fun p => (p.2.pages.zipIdx).any (fun d => d.1.valid && d.1.shared && d.1.ix == f.sess && s.readInFlight p.1 d.2))
  else s.readInFlight f.sess f.block

/-- The positions below a fill of a block's content: what a copy-on-extend or a publish's tail copies (04 R110, R112). -/
def KvBlk.below (k : KvBlk) (fill : Nat) : KvBlk := { k with rows := k.rows.filter (fun r => decide (r.1 % 64 < fill)) }

/-- Switch a request whose copy has ended: the descriptor or the record names the new place, the source is released. -/
def State.switchReq (s : State) (f : FReq) (pl : Place) : State :=
  let s0 := s.dropReq f
  if f.onRec then
    s0.modRec f.sess (fun r => { r with tier := pl.tier, cluster := pl.cluster, hdrT := pl.hdrT, base := pl.base, hdr := pl.hdr })
  else
    let x := s.getSess f.sess
    let d := x.desc f.block
    let move : State := s0.modSess f.sess (fun x => x.putDesc f.block
      { d with tier := pl.tier, cluster := pl.cluster, hdrT := pl.hdrT, base := pl.base, hdr := pl.hdr })
    match f.kind with
    | .copyExtend =>
      let k := s0.newBlk
      let s1 := k.2.setBlk k.1 ((s0.blk (s0.dirRec d.ix).blk).below d.fill)
      let own : Desc := { valid := true, tier := pl.tier, cluster := pl.cluster, hdrT := pl.hdrT, base := pl.base, hdr := pl.hdr,
                          fill := d.fill, blk := k.1 }
      let s2 := (s1.modSess f.sess (fun x => x.putDesc f.block own)).refDec d.ix
      if x.st = .moving ∧ !x.exporting then
        (s2.queueMove { queue := .b, kind := .park, beat := s.now, part := f.part, sess := f.sess, block := f.block }).parkDone f.sess
      else s2
    | .pubTail =>
      match s0.dir.pubs.find? (fun q => q.sess == f.sess) with
      | none => s0
      | some q =>
        let k := s0.newBlk
        let src := s0.locate d
        let s1 := k.2.setBlk k.1 ((s0.blk src.blk).below q.tailFill)
        s1.modPub q.serial (fun q => { q with tailCopied := true, tailBlk := k.1, tailPlace := some pl })
    | .park =>
      let move := move.holdPlace d.blk d.place
      if x.st = .reviving then
        (move.queueMove { queue := .a, kind := .revive, beat := s.now, part := f.part, sess := f.sess, block := f.block,
                          start := s.now, prio := 15 - x.prio })
      else move.parkDone f.sess
    | .revive => move.reviveDone f.sess
    | _ => move

/-- FLOAT_SWITCH (R74): the first request of the partition whose copy has ended, and whose reads have drained, is switched. -/
def execFloatSwitch (part : Nat) (s : State) : Out3 :=
  whenUp s (fun s =>
    let s0 := s.unitEnds part
    match (s0.floatOrder part).find? (fun f => f.copied && f.kind != .remirror && f.kind != .release && f.kind != .send && !s0.reqBusy f) with
    | none => s0
    | some f => match f.dst with
      | some pl => s0.switchReq f pl
      | none => s0)

/-! ### The scraper (R79 to R83, 04 R121) -/

/-- How far ahead a session's wake is: 2^48 without a hint (R80). -/
def State.wakeDist (s : State) (x : Sess) : Nat := if x.wakeSet then x.wake - s.now else 2 ^ 48

/-- The primer's lead for some bytes (R84). -/
def State.lead (s : State) (p bytes : Nat) : Nat :=
  let r := s.reg .sfPrimer p
  ceilDiv bytes (max 1 (bits r 0 12) * 2 ^ 20) + bits r 12 8

/-- The class rank of R80; 7 for a class never chosen. -/
def classRank : Policy → Nat
  | .stripOk => 0
  | .cold => 1
  | .normal => 2
  | .preferHot => 3
  | .pinHot => 7

/-- The order of demotion of R67. -/
def demoteRank : Policy → Nat
  | .cold => 0
  | .stripOk => 1
  | .normal => 2
  | .preferHot => 3
  | .pinHot => 4

/-- A tier-0 block the scraper may demote from a cluster's slice, with its key (R79). R79 ranks an undercoat block by its holders but for those
that are MOVING, OPEN or REVIVING: the first counts as not resident, the others as HOT (DESIGN CHOICE: 87). -/
def State.demotions (s : State) (cl : Nat) : List (List Nat × FReq) :=
  let own := (s.sess.filter (fun p => p.2.st != .free)).flatMap (fun p => (p.2.pages.zipIdx).filterMap (fun d =>
    let f : FReq := { queue := .b, kind := .demote, beat := s.now, part := p.2.part, sess := p.1, block := d.2 }
    if d.1.valid ∧ !d.1.shared ∧ d.1.tier = 0 ∧ d.1.cluster = cl ∧ canDemote p.2 d.2 then
      some ([(stateRank p.2.st).getD 2, demoteRank p.2.policy, 2 ^ 48 - s.wakeDist p.2, p.2.lastUse, p.1, d.2], f)
    else none))
  let recs := s.dir.recs.filterMap (fun r =>
    let hs := s.holders r.1
    let f : FReq := { queue := .b, kind := .demote, beat := s.now, part := r.2.part, onRec := true, sess := r.1, block := r.2.depth }
    let hot := hs.any (fun h => h.2.st == .hot || h.2.st == .opened || h.2.st == .reviving)
    let wake := hs.foldl (fun n h => min n (s.wakeDist h.2)) (2 ^ 48)
    let use := hs.foldl (fun n h => max n h.2.lastUse) r.2.lastUse
    if r.2.cluster = cl ∧ s.canDemoteRec r.1 r.2 then
      some ([if hot then 1 else 0, demoteRank .preferHot, 2 ^ 48 - wake, use, r.1, r.2.depth], f)
    else none)
  (own ++ recs).filter (fun e => !s.fab.float.any (fun g => g.onRec == e.2.onRec && g.sess == e.2.sess && g.block == e.2.block))

/-- The first element by a key. -/
def firstBy {α : Type} (l : List (List Nat × α)) : Option α :=
  (l.foldl (fun (best : Option (List Nat × α)) e => match best with
    | some b => if lexLt e.1 b.1 then some e else some b
    | none => some e) none).map (·.2)

/-- A learned entry without references whose block lies on a cluster: the one retired first (04 R121). -/
def State.idleLearned (s : State) (cl : Nat) : Option Nat :=
  firstBy (s.dir.recs.filterMap (fun r =>
    if r.2.st = .valid ∧ !r.2.published ∧ !r.2.tail ∧ r.2.refs = 0 ∧ r.2.cluster = cl ∧ r.2.tier < 2 then
      some ([r.2.lastUse, r.1], r.1) else none))

/-- Bytes that requests already queued will free in a cluster's tier 0 or tier 1. -/
def State.freeing (s : State) (cl tier : Nat) : Nat :=
  sumOf (fun f => match s.moveSrc f with
    | some d =>
      let m := s.moveModel f
      if d.cluster = cl ∧ d.tier = tier ∧ (f.kind = .demote ∨ f.kind = .park ∨ (f.kind = .release ∧ f.onRec)) then m.blockBytes else 0
    | none => 0) s.fab.float

/-- One act of tier-0 reclaim on a cluster: retire an idle learned entry, else queue the next demotion (R79). -/
def State.reclaim0 (s : State) (cl : Nat) : State :=
  match s.idleLearned cl with
  | some ix => s.retireEntry ix
  | none => match firstBy (s.demotions cl) with
    | some f => s.queueMove f
    | none => s

/-- SCRAPER_RECLAIM_T0 (R79, R83): slices below the low watermark start to be reclaimed, one act for each cluster, until the high
watermark is reached. -/
def execScraperReclaimT0 (part : Nat) (s : State) : Out3 :=
  whenUp s (fun s =>
    let w := s.reg .sfWmark part
    (s.clustersOf part).foldl (fun s cl =>
      let on := s.fab.scrap0.contains cl || decide (100 * s.t0Free cl < bits w 0 7 * t0Size)
      let done := bits w 8 7 * t0Size ≤ 100 * (s.t0Free cl + s.freeing cl 0)
      let keep := on && !decide (bits w 8 7 * t0Size ≤ 100 * s.t0Free cl)
      let s1 := s.modFab (fun f => { f with
        scrap0 := if keep then (if f.scrap0.contains cl then f.scrap0 else cl :: f.scrap0) else f.scrap0.filter (fun c => c != cl) })
      if on && !decide done then s1.reclaim0 cl else s1) s)

/-- A session's victim key (R80). -/
def State.victimKey (s : State) (id : Nat) (x : Sess) : List Nat :=
  [classRank x.policy, (stateRank x.st).getD 2, 2 ^ 48 - s.wakeDist x, x.lastUse, id]

/-- Whether the scraper could choose a session, apart from the room its park needs (R80). -/
def State.choosable (s : State) (x : Sess) : Bool :=
  (stateRank x.st).isSome && x.policy != .pinHot &&
    !(x.wakeSet && decide (s.wakeDist x < 2 * s.lead x.part (s.parkBytes x)))

/-- Whether a park of the session would fit now, or the session is one to strip (R80, R82). -/
def State.parkFits (s : State) (x : Sess) : Bool :=
  x.policy == .stripOk || (s.parkTier x.part && decide (s.parkBytes x ≤ s.parkFree x.part))

/-- Whether the scraper could choose a session now (R80, R93 ELIGIBLE). -/
def State.eligible (s : State) (x : Sess) : Bool := s.choosable x && s.parkFits x

/-- One act of tier-1 reclaim on a cluster (R80, R82, 04 R121): retire an idle learned entry, else choose a victim, else strip
parked sessions for the room a park needs. -/
def State.reclaim1 (s : State) (part cl : Nat) : State :=
  match s.idleLearned cl with
  | some ix => s.retireEntry ix
  | none =>
    let cands := (s.live part).filter (fun x => x.2.home == cl && s.choosable x.2)
    let key : Nat × Sess → List Nat × (Nat × Sess) := fun x => (s.victimKey x.1 x.2, x)
    match firstBy ((cands.filter (fun x => s.parkFits x.2)).map key) with
    | some v => s.modFab (fun f => { f with choice := tabSet f.choice part (v.1, v.2.st) })
    | none => match firstBy (cands.map key) with
      | some v => s.stripFor part (s.parkBytes v.2)
      | none => s

/-- SCRAPER_RECLAIM_T1 (R80, R82, R83): shares below the low watermark start to be reclaimed until the high one is reached; a choice
waits for its commit. -/
def execScraperReclaimT1 (part : Nat) (s : State) : Out3 :=
  whenUp s (fun s =>
    let w := s.reg .sfWmark part
    (s.clustersOf part).foldl (fun s cl =>
      let on := s.fab.scrap1.contains cl || decide (100 * s.t1Free cl < bits w 16 7 * t1Size)
      let keep := on && !decide (bits w 24 7 * t1Size ≤ 100 * s.t1Free cl)
      let done := bits w 24 7 * t1Size ≤ 100 * (s.t1Free cl + s.freeing cl 1)
      let s1 := s.modFab (fun f => { f with
        scrap1 := if keep then (if f.scrap1.contains cl then f.scrap1 else cl :: f.scrap1) else f.scrap1.filter (fun c => c != cl) })
      if on && !decide done && (tabGet? s1.fab.choice part).isNone then s1.reclaim1 part cl else s1) s)

/-- SCRAPER_COMMIT (R81): the chosen victim is parked or stripped if it is still in the state it was chosen in. -/
def execScraperCommit (part : Nat) (s : State) : Out3 :=
  whenUp s (fun s =>
    match tabGet? s.fab.choice part with
    | none => s
    | some (id, st) =>
      let s1 := s.modFab (fun f => { f with choice := tabErase f.choice part })
      let x := s.getSess id
      if x.st ≠ st ∨ x.part ≠ part ∨ x.busyCmd then s1
      else if x.policy = .stripOk then s1.strip id
      else s1.startPark id)

/-! ### The primer (R84, R85) -/

/-- Bytes of a session that lie in tier 2 or 3. -/
def State.awayBytes (s : State) (x : Sess) : Nat :=
  (s.model x.part x.model).blockBytes * (x.pages.filter (fun d => d.valid && !d.shared && decide (2 ≤ d.tier))).length

/-- The start beat of a parked session's revive (R84). -/
def State.startBeat (s : State) (x : Sess) : Nat := x.wake - s.lead x.part (s.awayBytes x)

/-- Place a whole revive in block order, each block taking its space before the next: the state then, and where blocks went. -/
def State.placeAll (s : State) (id : Nat) : List Nat → List (Nat × Nat) → Option (State × List (Nat × Nat))
  | [], acc => some (s, acc)
  | b :: l, acc =>
    let x := s.getSess id
    match s.placeBlock x.part (s.model x.part x.model) x.home x.policy b with
    | none => none
    | some (cl, tier, _) =>
      let r := s.placeAt (s.model x.part x.model) cl tier
      let f : FReq := { queue := .c, kind := .revive, beat := 0, part := x.part, sess := id, block := b, dst := some r.1 }
      (r.2.modFab (fun g => { g with float := g.float ++ [f] })).placeAll id l ((cl, tier) :: acc)

/-- Whether a revive leaves every cluster and tier it targets at or above its low watermark (R85). -/
def State.reviveFits (s : State) (id : Nat) : Bool :=
  let x := s.getSess id
  let bs := ((x.pages.zipIdx).filter (fun d => d.1.valid && !d.1.shared && decide (2 ≤ d.1.tier))).map (·.2)
  let w := s.reg .sfWmark x.part
  match s.placeAll id bs [] with
  | none => false
  | some (t, used) => used.all (fun u =>
      if u.2 = 0 then decide (bits w 0 7 * t0Size ≤ 100 * t.t0Free u.1) else decide (bits w 16 7 * t1Size ≤ 100 * t.t1Free u.1))

/-- The parked sessions whose start beat has come, in the primer's order (R85). -/
def State.primerDue (s : State) (p : Nat) : List (Nat × Sess) :=
  listSort (fun (a b : Nat × Sess) => lexLt [s.startBeat a.2, 15 - a.2.prio, a.1] [s.startBeat b.2, 15 - b.2.prio, b.1])
    ((s.live p).filter (fun x => x.2.st == .parked && x.2.wakeSet && decide (s.startBeat x.2 ≤ s.now)))

/-- PRIMER_QUEUE_REVIVE (R84, R85): the first due revive that the watermarks allow is queued. -/
def execPrimerQueueRevive (part : Nat) (s : State) : Out3 :=
  whenUp s (fun s =>
    match (s.primerDue part).find? (fun x => s.reviveFits x.1) with
    | some x => (s.startRevive x.1 .c (s.startBeat x.2)).reviveDone x.1
    | none => s)

/-! ### The token-log mirror (R49, R50) -/

/-- MIRROR_FLUSH (R49, R50): the staged entries of a session that are due reach its mirror. `read` is a segment (`seg` its number) or the root
of a copy (1 the primary, 2 the mirror) as the engine reads it back with this flush, empty where it reads none: one that fails its CRC
takes the copy. -/
def execMirrorFlush (sess copy seg : Nat) (read : Bytes) (s : State) : Out3 :=
  whenUp s (fun s =>
    let x := s.getSess sess
    if x.st = .free then s
    else
      let s1 := if s.flushDue x ∧ s.hasCopy sess x 2 then s.modSess sess (fun x => { x with mirrored := x.log.length, mirrorBeat := 0 }) else s
      if read.isEmpty || logReadOk read then s1 else s1.logCopyLost sess copy (if read.length = 64 then [] else [seg]))

/-- TOKLOG_REMIRROR (R50): a failed copy's last segment and root are written, and TOKLOG_DEGRADED clears, unless segments of the other copy
have failed meanwhile: then that one is rewritten next. -/
def execToklogRemirror (sess : Nat) (s : State) : Out3 :=
  whenUp s (fun s =>
    let s0 := s.unitEnds (s.getSess sess).part
    match s0.fab.float.find? (fun f => f.kind == .remirror && f.sess == sess && f.copied) with
    | none => s0
    | some f =>
      match f.dst with
      | none => s0.dropReq f
      | some pl =>
        let x := s0.getSess sess
        let s1 := (s0.upd sess (fun x =>
          let y := { x with degraded := !x.otherBad.isEmpty, badSegs := x.otherBad, otherBad := [],
                            lostCopy := if x.otherBad.isEmpty then 0 else 3 - x.lostCopy }
          if x.lostCopy = 1 then { y with tokPri := 1, tokPtr := pl.base * kib4 }
          else { y with tokMir := pl.tier, mirrored := x.log.length })).dropReq f
        if x.otherBad.isEmpty then s1
        else s1.queueMove { queue := .b, kind := .remirror, beat := s.now, part := x.part, sess := sess, block := 0 })

end Sys2Proof.Machine
end

