-- ==== Sys2Proof/Machine/KvWrite.lean ====
section
/-! DEFINITION. Writing K and V (05_attention R130 to R136; 02_sessions R38): the checks of a KV_APPEND and of a block store, the
write, the marks, writes that are held. -/

namespace Sys2Proof.Machine

/-- MARK[l] of a session (R131): LENGTH where no mark is listed. -/
def Sess.mark (x : Sess) (l : Nat) : Nat := tabGet x.length x.marks l

/-- Whether a port's peer agreed on version 1.0 (13_cunis_link R355). -/
def State.isV10 (s : State) (port : Nat) : Bool := (s.port port).ver == 0x10

/-- The states in which a session is resident (02_sessions R35). -/
def SState.resides : SState → Bool
  | .opened => true | .hot => true | .running => true | .idle => true | .reviving => true
  | _ => false

/-- The positions written at a layer, as far as a block goes (R131, R140): FILL for a shared block and for layer 0, MARK for a HOT or RUNNING
session, LENGTH otherwise. -/
def Sess.writtenAt (x : Sess) (b layer : Nat) : Nat :=
  let d := x.desc b
  if d.shared || layer == 0 then 64 * b + d.fill
  else if x.st == .hot || x.st == .running then x.mark layer
  else x.length

/-- The positions of a block that a program may load at a layer (10_scaesh R263): FILL for layer 0, MARK for the tail block of a HOT or
RUNNING session, LENGTH otherwise. The tail block is taken for the last of the page list (DEDUCED: 93). -/
def Sess.loadable (x : Sess) (b layer : Nat) : Nat :=
  if layer = 0 then 64 * b + (x.desc b).fill
  else if b + 1 = x.pages.length ∧ (x.st = .hot ∨ x.st = .running) then x.mark layer
  else x.length

/-- Whether every message scale is positive and finite (R132). -/
def KvMsg.scalesOk (k : KvMsg) (m : ModelEnt) : Bool :=
  !k.hasScales m || (List.range (2 * m.kvheads)).all (fun i =>
    let v := field k.data (4 * i) 4
    decide (0 < v) && decide (v < 0x7F800000))

/-- The checks of R132 in their order: the cause of a rejection, or the session. `v10` says that the peer is at version 1.0. -/
def State.kvCheck (s : State) (part : Nat) (v10 : Bool) (k : KvMsg) : Except Status Nat :=
  if k.bodyVer ≠ 1 then .error .versionUnsupported
  else match s.handle? part k.handle with
    | none => .error .badSession
    | some id =>
      let x := s.getSess id
      let m := s.model x.part x.model
      if x.st ≠ .hot ∧ x.st ≠ .running then .error .badState
      else if m.layers ≤ k.layer ∨ k.count = 0 ∨ 64 < k.count ∨ 64 < k.pos % 64 + k.count ∨ 2 ≤ k.kvIn ∨ (v10 ∧ k.kvIn = 1) ∨
          k.data.length ≠ k.dataLen m then .error .formatInvalid
      else if !k.scalesOk m then .error .formatInvalid
      else if k.pos < x.length then .error .badState
      else if x.total < k.pos + k.count then .error .formatInvalid
      else if x.mark k.layer < k.pos then .error .formatInvalid
      else if 0 < k.layer ∧ x.mark (k.layer - 1) < k.pos + k.count then .error .formatInvalid
      else .ok id

/-- Whether an attention read of a block at a layer is in flight (R136). -/
def State.layerRead (s : State) (id b layer : Nat) : Bool :=
  s.cores.core.any (fun c => [c.2.ctx0, c.2.ctx1, c.2.ctx2, c.2.ctx3].any (fun x =>
    x.ops.any (fun o => o.reads && o.sess == id && o.block == b))) ||
  s.att.reads.any (fun r => r.sess == id && r.pos / 64 == b && r.layer == layer) ||
  s.att.reqs.any (fun r => hId r.handle == id && r.layer == layer && decide (64 * b < r.pos + r.chunk))

/-- What a session takes from a write of positions at a layer (R131, R38): the mark, the tail block's fill, and for the last layer the
positions that move from PENDING to LENGTH. -/
def Sess.wrote (x : Sess) (layers layer b upto : Nat) : Sess :=
  let mk := max (x.mark layer) upto
  let y : Sess := { x with
    marks := tabSet x.marks layer mk
    pages := if layer = 0 then x.pages.set b { x.desc b with fill := max (x.desc b).fill (min 64 (mk - 64 * b)) } else x.pages }
  if layer + 1 = layers then
    { y with length := mk, pend := x.total - mk, rebuild := x.rebuild && decide (1 < x.total - mk) }
  else y

/-- A write lands in a block that the session has and no other shares: the bytes, what they count, the marks, LENGTH and what
waits for it. `x` and `m` are the session and its model before, `rewrite` says that the positions were written at the layer already. -/
def State.kvLand (s0 : State) (id : Nat) (k : KvMsg) (x : Sess) (m : ModelEnt) (b : Nat) (rewrite : Bool) : State :=
  let d := (s0.getSess id).desc b
  let e := k.write m (k.pos % 64 = 0 ∧ !rewrite) s0.free (s0.blk d.blk)
  let s1 := ({ s0 with free := s0.free + 2 ^ 20 } : State).setBlk d.blk e.blk
  let s2 := s1.bumpBy .attSat x.part e.sat
  let s3 := if e.rescaled then s2.bump .attRescale x.part else s2
  let old := x.length
  let s4 := if k.layer + 1 = m.layers then s3.upd id (fun x => x.wrote m.layers k.layer b (k.pos + k.count))
    else s3.modSess id (fun x => x.wrote m.layers k.layer b (k.pos + k.count))
  let new := (s4.getSess id).length
  let s5 := if ((s4.getSess id).step.bind (·.stall)) = some 5 then s4.closeStall id else s4
  (if old < 64 * (b + 1) ∧ 64 * (b + 1) ≤ new then s5.startLearn id b else s5).moveDone id

/-- Whether a promotion copies at this moment the page of a layer of a block, or its header where a write touches it (03 R75). -/
def State.promoting (s : State) (id b layer : Nat) (hdr : Bool) : Bool :=
  s.fab.float.any (fun f => f.kind == .promote && !f.onRec && f.sess == id && f.block == b && f.running &&
    (if f.units = 0 then hdr else (f.units - 1) / piecesOf (s.moveModel f) == layer))

/-- Write a checked message into its block (R133 to R136). `none` where it must be held: its block has no space, waits for the
copy-on-extend of an undercoat tail (04 R110), has the page copied by a promotion (03 R75), or is a rewrite while a read of the page is in
flight. -/
def State.kvApply (s : State) (id : Nat) (k : KvMsg) : Option State :=
  let x := s.getSess id
  let m := s.model x.part x.model
  let b := k.pos / 64
  let rewrite := k.pos < x.mark k.layer
  if (x.desc b).valid && (x.desc b).shared then none
  else if (rewrite && s.layerRead id b k.layer) || s.promoting id b k.layer (k.pos % 64 == 0 && !rewrite) then none
  else match (if (x.desc b).valid then some s else s.newBlock id b) with
    | none => none
    | some s0 => some (s0.kvLand id k x m b rewrite)

/-- The port that a block store of a program (10_scaesh R264) stands under while it is held: none of the sixteen. -/
def bstPort : Nat := 16

/-- The credit a written or rejected write returns: none for a block store. -/
def State.kvCredit (s : State) (k : KvMsg) : State := if k.port = bstPort then s else s.freeCredit k.port k.vc k.cost

/-- Hold a write (R133): the step that needs it stalls with MOVE_PENDING where space is what it waits for. -/
def State.kvHold (s : State) (id : Nat) (k : KvMsg) : State :=
  let s1 := s.modAtt (fun a => { a with held := a.held ++ [k] })
  if k.pos < (s.getSess id).mark k.layer ∨ s.promoting id (k.pos / 64) k.layer (k.pos % 64 == 0) then s1 else s1.openStall id 5

/-- Accept a checked write (R133): it lands, or it is held; behind a held write of its session it waits its turn. -/
def State.kvAccept (s : State) (id : Nat) (k : KvMsg) : State :=
  if s.att.held.any (fun h => hId h.handle == id) then s.kvHold id k
  else match (s.kvCredit k).kvApply id k with
    | some s' => s'
    | none => s.kvHold id k

/-- Record and count a rejected KV_APPEND (R132). -/
def State.kvReject (s : State) (part : Nat) (k : KvMsg) (cause : Status) : State :=
  (s.bump .attKvReject part).setReg .attKvLast part (k.handle + cause.code * 2 ^ 32 + k.layer * 2 ^ 40)

/-- Try the held writes again, in order (R133); writes of one session keep their order. Each is judged afresh: one whose session has gone,
or has left HOT and RUNNING, is rejected; a rejected write of a move ends it with the cause (13 R361). A write that lands or is rejected
returns its credit. DEDUCED: 31. -/
def State.placeHeld (s : State) : State :=
  let go : State × List Nat → KvMsg → State × List Nat := fun a k =>
    let s := a.1
    let id := hId k.handle
    let out : State := (s.modAtt (fun t => { t with held := listDropFirst (fun h => h == k) t.held })).kvCredit k
    let part := (if k.port = bstPort then some (s.getSess id).part else s.portPart k.port).getD 0
    if a.2.contains id then a
    else match s.kvCheck part (k.vc != 3 && s.isV10 k.port) k with
      | .error c => (if k.port = bstPort then out else let r := out.kvReject part k c; if k.vc = 3 then r.endIn id c else r, a.2)
      | .ok _ => match out.kvApply id k with
        | some s' => (s', a.2)
        | none => (s, id :: a.2)
  (s.att.held.foldl go (s, [])).1

/-- KV_APPEND (R132): held writes are tried again; then the message at the head of the port's VC1, or else of its VC2, is checked and
written, held, or rejected. -/
def execKvAppend (port : Nat) (s : State) : Out3 :=
  whenUp s (fun s =>
    let s := s.placeHeld
    let pick := match s.headMsg port 1 5 with
      | some m => some (1, m)
      | none => (s.headMsg port 2 5).map (fun m => (2, m))
    match pick, s.portPart port with
    | some (vc, m), some part =>
      let k := kvMsgOf port vc m
      match s.kvCheck part (s.isV10 port) k with
      | .error c => (s.takeMsg port vc m).kvReject part k c
      | .ok id => (s.popMsg port vc).kvAccept id k
    | some (vc, m), none => s.takeMsg port vc m
    | none, _ => s)

/-! ### KV service reads (14_partitions R368, R369) -/

/-- Whether a feature is in use on a port (13_cunis_link R355): both sides set it at agreed version 1.1. -/
def Port.uses (p : Port) (bit : Nat) : Bool := bitAt p.feat bit && bitAt p.peerFeat bit && p.ver == 0x11

/-- A KV_READ as its body reads (13 R358). -/
def kvReadOf (port : Nat) (m : Msg) : KvRead :=
  let b := m.body
  { port := port, handle := field b 4 4, sess := hId (field b 4 4), pos := field b 8 4 % 2 ^ 22, layer := byteAt b 12,
    count := byteAt b 13 % 128, replyVc := byteAt b 14 % 4 }

/-- The KV_DATA that answers a KV_READ. A reply on no legal VC goes on VC2. -/
def kvDataMsg (r : KvRead) (st : Status) (data : Bytes) : Msg :=
  ctrlMsg (if r.replyVc = 3 then 3 else 2) 4 st.code r.handle
    (natLe 4 r.pos ++ natLe 1 r.layer ++ natLe 1 r.count ++ natLe 1 r.replyVc) data

/-- The status of a KV_READ (R369). -/
def State.kvReadStatus (s : State) (r : KvRead) : Status :=
  match s.portPart r.port with
  | none => .badState
  | some part =>
    if !(s.port r.port).uses 2 ∨ (s.getPart part).pool ≠ 1 then .badState
    else match s.handle? part r.handle with
      | none => .badSession
      | some id =>
        let x := s.getSess id
        let m := s.model x.part x.model
        let away : Nat → Bool := fun b => let d := s.locate (x.desc b); d.valid && decide (2 ≤ d.tier)
        if x.st ≠ .hot ∧ x.st ≠ .running ∧ x.st ≠ .idle then .badState
        else if r.count ≠ 0 ∧ ((List.range 3).any (fun k => decide (64 * (r.pos / 64 + k) < r.pos + r.count) && away (r.pos / 64 + k))) then
          .badState
        else if m.layers ≤ r.layer ∨ r.count = 0 ∨ 64 < r.count ∨ 64 < r.pos % 64 + r.count ∨ r.replyVc < 2 then .formatInvalid
        else if x.length < r.pos + r.count then .badState
        else .ok

/-- KV_READ (R369): the message at the head of the port's VC2, or else of its VC3, is checked; a read that passes is in flight until
its KV_DATA is sent, any other is answered at once. A page walk that meets a FAULTED record faults the session first (04 R119). -/
def execKvRead (port : Nat) (s : State) : Out3 :=
  whenUp s (fun s =>
    let pick := match s.headMsg port 2 3 with
      | some m => some (2, m)
      | none => (s.headMsg port 3 3).map (fun m => (3, m))
    match pick with
    | none => s
    | some (vc, m) =>
      let r := kvReadOf port m
      let s1 := s.takeMsg port vc m
      if s.kvReadStatus r ≠ .ok then s1.send port (kvDataMsg r (s.kvReadStatus r) [])
      else match s1.walkFault r.sess (r.pos / 64) .ok with
        | some s2 => s2.send port (kvDataMsg r (s2.kvReadStatus r) [])
        | none => s1.modAtt (fun a => { a with reads := a.reads ++ [{ r with data := s.kvReadData r }] }))

/-- KV_DATA_SEND (R369): the rows of a session's oldest read have been read, and its KV_DATA goes out with them. -/
def execKvDataSend (sess : Nat) (s : State) : Out3 :=
  whenUp s (fun s =>
    match s.att.reads.find? (fun r => r.sess == sess) with
    | none => s
    | some r =>
      (s.modAtt (fun a => { a with reads := listDropFirst (fun x => x == r) a.reads })).send r.port (kvDataMsg r .ok r.data))

end Sys2Proof.Machine
end

