-- ==== Sys2Proof/Machine/Attention.lean ====
section
/-! DEFINITION. Attention requests (05_attention R137 to R149; 10_scaesh R265, R272, R273): a Q_SUBMIT's checks, dealing, the standard
programs ATT_DECODE and ATT_CHUNK, the merge tree, the answer. -/

namespace Sys2Proof.Machine

/-! ### Q_SUBMIT (R137, R139) -/

/-- Read a Q_SUBMIT (R137). -/
def qMsgOf (port vc : Nat) (m : Msg) : QReq :=
  let b := m.body
  { id := 0, part := 0, port := port, vc := vc, handle := field b 0 4, pos := field b 4 4 % 2 ^ 22, layer := byteAt b 8,
    chunk := field b 10 2 % 2 ^ 12, qFmt := byteAt b 12 % 4, wantLse := bitAt (byteAt b 12) 2, data := m.data }

/-- The query data length of a request (R137). -/
def QReq.dataLen (r : QReq) (m : ModelEnt) : Nat :=
  if r.qFmt = 0 then r.chunk * m.qheads * m.headDim * 2 else r.chunk * m.qheads * (4 + m.headDim)

/-- The checks of R139 in their order: the status of a rejection, or the session. -/
def State.qCheck (s : State) (part : Nat) (ver : Nat) (r : QReq) : Except Status Nat :=
  if ver ≠ 1 then .error .versionUnsupported
  else match s.handle? part r.handle with
    | none => .error .badSession
    | some id =>
      let x := s.getSess id
      let m := s.model x.part x.model
      let out := r.chunk * m.qheads * m.headDim * 2
      let mine := s.att.reqs.filter (fun q => q.handle == r.handle)
      let stepOk := match x.step with
        | some st => x.st == .running && r.pos == st.position && !st.emitOnly
        | none => false
      if x.kvsvc then .error .badState
      else if m.layers ≤ r.layer ∨ 2 ≤ r.qFmt ∨ r.chunk = 0 ∨ 2048 < r.chunk ∨ (r.vc = 1 ∧ r.chunk ≠ 1) ∨
          (s.isV10 r.port ∧ (r.qFmt = 1 ∨ r.wantLse)) ∨ r.data.length ≠ r.dataLen m ∨ 8 * 2 ^ 20 < r.data.length ∨
          8 * 2 ^ 20 < out then .error .formatInvalid
      else if maxPositions < r.pos + r.chunk then .error .lenOverLimit
      else if r.vc = 1 ∧ !stepOk then .error .badState
      else if r.vc ≠ 1 ∧ x.st ≠ .hot ∧ x.st ≠ .running then .error .badState
      else if x.mark r.layer < r.pos + r.chunk then .error .badState
      else if mine.any (fun q => q.layer == r.layer && q.pos == r.pos) then .error .badState
      else if r.vc ≠ 1 ∧ 8 ≤ (mine.filter (fun q => q.vc != 1)).length then .error .noSpace
      else .ok id

/-- The AME rate R of R146 in FLOP per ns: 18.02 TFLOP/s, or 9.01 for BF16 K and V. -/
def ameRate (m : ModelEnt) : Nat := if m.kvFmt = 0 then 9010 else 18020

/-- The rows U of a prefill unit's group (R147). -/
def unitRows (m : ModelEnt) : Nat :=
  ([64, 32, 16, 8, 4, 2].find? (fun u => decide (u * m.qheads * 64 * m.headDim * 4 ≤ 1000 * ameRate m))).getD 1

/-- The row groups of a request: first row and rows. -/
def rowGroups (m : ModelEnt) (r : QReq) : List (Nat × Nat) :=
  if r.vc = 1 then [(0, 1)]
  else
    let u := unitRows m
    (List.range (ceilDiv r.chunk u)).map (fun g => (g * u, min u (r.chunk - g * u)))

/-- The pages of a request's work (R140, R142, R147): for each row group every block that one of its rows reaches, at the cluster that
owns it. -/
def State.attUnits (s : State) (x : Sess) (m : ModelEnt) (r : QReq) : List AttUnit :=
  (List.range (ceilDiv (r.pos + r.chunk) 64)).flatMap (fun b =>
    let cl := (s.locate (x.desc b)).cluster
    ((rowGroups m r).filter (fun g => decide (64 * b ≤ r.pos + g.1 + g.2 - 1))).map (fun g =>
      { cluster := cl, block := b, row := g.1, rows := g.2 }))

/-- Q_SUBMIT (R139): the message at the head of a VC is checked; it is queued for dealing, or answered at once with the status of the
first check that fails. One that arrives before the roster is fixed waits for it (06_beat R166); its turnaround runs from its arrival at the
port (R153). -/
def execQSubmit (port vc : Nat) (s : State) : Out3 :=
  whenUp s (fun s =>
    match s.headMsg port vc 4, s.portPart port with
    | some m, some part =>
      if vc ≠ 1 ∧ vc ≠ 2 then s
      else if vc = 1 ∧ !(s.roster part).fixed then s
      else
        let r := qMsgOf port vc m
        let s1 := s.takeMsg port vc m
        match s.qCheck part (byteAt m.body 9 % 16) r with
        | .error st => (s1.bump .attQReject part).send port { vc := vc, type := 6, body := oReturnBody r st.code false }
        | .ok id =>
          let x := s.getSess id
          let md := s.model x.part x.model
          let q : QReq := { r with id := s.att.nextReq % 2 ^ 32, part := part, arrived := m.since.getD s.tick, groups := rowGroups md r,
                                   todo := s.attUnits x md r }
          s1.modAtt (fun a => { a with reqs := a.reqs ++ [q], nextReq := a.nextReq + 1 })
    | some m, none => s.takeMsg port vc m
    | none, _ => s)

/-! ### Dealing (R142, R147) -/

/-- A request by its identifier. -/
def State.req? (s : State) (id : Nat) : Option QReq := s.att.reqs.find? (fun r => r.id == id)

/-- Change a request. -/
def State.modReq (s : State) (id : Nat) (f : QReq → QReq) : State :=
  s.modAtt (fun a => { a with reqs := listMod (fun r => r.id == id) f a.reqs })

/-- The smallest power of two at or above a number. -/
def pow2Up (n : Nat) : Nat := if n ≤ 1 then 1 else 2 ^ (Nat.log2 (n - 1) + 1)

/-- The pages in a queue of a core; merge continuations are none. -/
def pagesIn (q : Tab (List AttItem)) (core : Nat) : Nat := ((tabGet [] q core).filter (fun i => !i.cont)).length

/-- The core of a cluster with the fewest pages queued, the lowest-numbered on a tie (R142). -/
def fewest (q : Tab (List AttItem)) (cl : Nat) : Nat :=
  (List.range 8).foldl (fun best k => if pagesIn q (8 * cl + k) < pagesIn q best then 8 * cl + k else best) (8 * cl)

/-- The order in which a cluster deals its requests (R142): PRIO, bucket, arrival, session. -/
def State.dealKey (s : State) (cl : Nat) (r : QReq) : List Nat :=
  let id := hId r.handle
  let x := s.getSess id
  let k := (x.pages.filter (fun d => d.valid && (s.locate d).cluster == cl)).length
  [15 - x.prio, 2 ^ 40 - pow2Up (ceilDiv k 8), r.arrived, id]

/-- Deal one request's pages on a cluster, in ascending block index, each to the core with the fewest queued. A page in tier 2 or 3 waits until it
has been revived (01 R13). -/
def State.dealReq (s : State) (cl : Nat) (r : QReq) : State :=
  let x := s.getSess (hId r.handle)
  let due : AttUnit → Bool := fun u => u.cluster == cl && decide ((s.locate (x.desc u.block)).tier < 2)
  let mine := r.todo.filter due
  let s0 := s.modReq r.id (fun q => { q with todo := q.todo.filter (fun u => !due u) })
  mine.foldl (fun s u =>
    let it : AttItem := { req := r.id, block := u.block, row := u.row, rows := u.rows }
    let q := if r.vc = 1 then s.att.decodeQ else s.att.prefillQ
    let core := fewest q cl
    let q' := tabMod [] q core (fun l => l ++ [it])
    (s.modAtt (fun a => if r.vc = 1 then { a with decodeQ := q' } else { a with prefillQ := q' })).modReq r.id
      (fun x => { x with dealt := x.dealt ++ [(u.row, core)] })) s0

/-- DEAL (R142, R147): at a tick that is a multiple of 16 a cluster's dispatcher deals the decode requests that have reached it, then the
chunk requests. -/
def execDeal (cluster : Nat) (s : State) : Out3 :=
  whenUp s (fun s =>
    if s.tick % 16 ≠ 0 then s else
    let have_ := s.att.reqs.filter (fun r => r.todo.any (fun u => u.cluster == cluster))
    let order := listSort (fun (a b : List Nat × QReq) => lexLt a.1 b.1) (have_.map (fun r => (s.dealKey cluster r, r)))
    let l := order.map (·.2)
    (l.filter (fun r => r.vc == 1) ++ l.filter (fun r => r.vc != 1)).foldl (fun s r => s.dealReq cluster r) s)

/-! ### The merge tree (R145, 10 R272) -/

/-- The root's level: three levels within a cluster, three across a die's clusters, two across dies; an absent input is passed up
unchanged, so levels a smaller partition lacks change nothing. -/
def rootLevel : Nat := 8

/-- The tree node of a level above a core of a partition. -/
def State.nodeOf (s : State) (p lv core : Nat) : Nat :=
  let cl := core / 8
  if lv ≤ 3 then core / 2 ^ lv
  else
    let die := dieOf cl
    let mine := (s.clustersOf p).filter (fun c => dieOf c == die)
    let ix := mine.findIdx (fun c => c == cl)
    if lv ≤ 6 then 8 * die + ix / 2 ^ (lv - 3)
    else
      let dies := [0, 1, 2, 3].filter (fun d => (s.clustersOf p).any (fun c => dieOf c == d))
      dies.findIdx (fun d => d == die) / 2 ^ (lv - 6)

/-- The pages of a row group in the subtree of a node. -/
def State.nodeTotal (s : State) (r : QReq) (row lv node : Nat) : Nat :=
  (r.dealt.filter (fun d => d.1 == row && s.nodeOf r.part lv d.2 == node)).length +
    (r.todo.filter (fun u => u.row == row && decide (3 ≤ lv) && s.nodeOf r.part lv (8 * u.cluster) == node)).length

/-- The cluster on which a node's merge runs: the lowest-numbered one with pages in its subtree. -/
def State.nodeHome (s : State) (r : QReq) (row lv node cl : Nat) : Nat :=
  if lv ≤ 3 then cl
  else
    let cs := (r.dealt.filter (fun d => d.1 == row)).map (fun d => d.2 / 8) ++ (r.todo.filter (fun u => u.row == row)).map (·.cluster)
    (cs.filter (fun c => s.nodeOf r.part lv (8 * c) == node)).foldl min cl

/-- The level at which a partial that covers its subtree next meets another: levels without other pages are passed (R145). -/
def State.nextLevel (s : State) (r : QReq) (row core cover : Nat) : Nat → Nat → Nat
  | 0, lv => lv
  | n + 1, lv =>
    if lv < rootLevel ∧ cover = s.nodeTotal r row lv (s.nodeOf r.part lv core) then State.nextLevel s r row core cover n (lv + 1) else lv

/-- The cluster on which a whole partial is finished (R145): on the die that terminates the request's port; its own where the
partition has no cluster there. -/
def State.finishCluster (s : State) (r : QReq) (cl : Nat) : Nat :=
  if dieOf cl = r.port / 4 then cl else ((s.clustersOf r.part).find? (fun c => dieOf c == r.port / 4)).getD cl

/-- Queue a merge continuation on a cluster: a decode item for the core with the fewest decode pages (10 R272). -/
def State.addCont (s : State) (cl : Nat) (it : AttItem) : State :=
  s.modAtt (fun a => { a with decodeQ := tabMod [] a.decodeQ (fewest a.decodeQ cl) (fun l => l ++ [{ it with cont := true }]) })

/-- What a post answers: 0, a reference to the partner's partial, or 2^62 for the whole; the level and cover it then has. -/
structure PostOut where
  res : Nat
  level : Nat
  cover : Nat
  st : State

/-- Post a partial up the tree from a core (10 R272): its record, the level it has reached and the pages it covers. -/
def State.post (s : State) (r : QReq) (row core lv0 cover : Nat) (rec_ : Bytes) : PostOut :=
  let cl := core / 8
  let lv := s.nextLevel r row core cover 16 lv0
  let node := s.nodeOf r.part lv core
  if lv = rootLevel ∧ cover = s.nodeTotal r row lv node then
    let f := s.finishCluster r cl
    if f = cl then ⟨2 ^ 62, lv, cover, s⟩
    else
      let p := s.mergePut f r.id rec_
      ⟨0, lv, cover, p.2.addCont f { req := r.id, row := row, level := lv, node := node, cover := cover, ref1 := p.1 }⟩
  else
    let home := s.nodeHome r row lv node cl
    match r.parts.find? (fun p => p.row == row && p.level == lv && p.node == node) with
    | some p =>
      let s1 := s.modReq r.id (fun q => { q with parts := q.parts.filter (fun x => x != p) })
      if home = cl then ⟨p.ref, lv, cover + p.cover, s1⟩
      else
        let k := s1.mergePut home r.id rec_
        ⟨0, lv, cover, k.2.addCont home { req := r.id, row := row, level := lv, node := node, cover := cover + p.cover,
                                          ref1 := p.ref, ref2 := k.1 }⟩
    | none =>
      let k := s.mergePut home r.id rec_
      let mine : Partial := { row := row, level := lv, node := node, cover := cover, cluster := home, ref := k.1 }
      ⟨0, lv, cover, k.2.modReq r.id (fun q => { q with parts := q.parts ++ [mine] })⟩

/-! ### The answer (R138, R149, 10 R273) -/

/-- A request is about to be answered: the stall of a page that came late (R146) is over once no other request of the session has one. -/
def State.lateOver (s : State) (r : QReq) : State :=
  let id := hId r.handle
  let held := ((s.getSess id).step.bind (·.stall)).any (fun c => decide (c < 2))
  if r.late && held && !s.att.reqs.any (fun q => q.late && q.handle == r.handle && q.id != r.id) then s.closeStall id else s

/-- Whether a request's answer is the last result of a step that still learns a block (04 R114). -/
def State.learning (s : State) (r : QReq) : Bool :=
  let x := s.getSess (hId r.handle)
  r.vc == 1 && r.layer + 1 == (s.model r.part x.model).layers && x.step.isSome && s.dir.learns.any (fun n => n.sess == hId r.handle)

/-- Give a request's answer: a step that learns withholds its last one, with DIR_BUSY, until the learning ends (04 R114, 03 R87). -/
def State.giveAnswer (s : State) (r : QReq) (data : Bytes) : State :=
  let s1 := s.lateOver r
  if s1.learning r then (s1.modReq r.id (fun q => { q with late := false, ready := some (data, r.wantLse) })).openStall (hId r.handle) 6
  else s1.answerQ r 0 data r.wantLse

/-- Answer a row group of a request: a decode request at once; a chunk when every row group is placed, or with a status other than OK
at once. -/
def State.attAnswer (s : State) (id row st : Nat) (out lse : Bytes) : State :=
  match s.req? id with
  | none => s
  | some r =>
    if st ≠ 0 then (s.lateOver r).answerQ r (statusOfCode st).code [] false
    else
      let outs := tabSet r.outs row (out, lse)
      if outs.length = r.groups.length then
        let o := outs.flatMap (fun e => e.2.1)
        let l := outs.flatMap (fun e => e.2.2)
        s.giveAnswer r (o ++ (if r.wantLse then l else []))
      else s.modReq id (fun q => { q with outs := outs })

/-! ### The standard programs ATT_DECODE and ATT_CHUNK (09 R224) -/

/-- The rows of a request's row group: query heads of each of its positions. -/
def groupRows (r : QReq) (row : Nat) : Nat := ((r.groups.find? (fun g => g.1 == row)).map (·.2)).getD 0

/-- Post, merge and post again until the partial waits or is whole, and then finish (R144, R145). -/
def State.runMerge (s : State) (id row core hd : Nat) : Nat → Nat → Nat → List RowPart → State
  | 0, _, _, _ => s
  | n + 1, lv, cover, ps =>
    match s.req? id with
    | none => s
    | some r =>
      let o := s.post r row core lv cover (recOut hd ps)
      if o.res = 0 then o.st
      else if o.res = 2 ^ 62 then
        let f := finOut o.st.free hd ps
        (({ o.st with free := o.st.free + 2 ^ 20 } : State)).attAnswer id row 0 f.1 f.2
      else
        let other := recIn ps.length hd (memRead (o.st.mergeOf (core / 8)) (o.res % 2 ^ 24) (recLen ps.length hd))
        let ms := (List.zip ps other).zipIdx.map (fun e => mergePart (o.st.free + 10 * e.2) e.1.1 e.1.2)
        State.runMerge ({ o.st with free := o.st.free + 2 ^ 20 } : State) id row core hd n o.level o.cover ms

/-- One page of a request on a core: the partials of its rows over the block (R144), posted (R145). -/
def State.runPage (s : State) (r : QReq) (it : AttItem) (core : Nat) : State :=
  let x := s.getSess (hId r.handle)
  let m := s.model x.part x.model
  let b := if r.kept.isEmpty then s.blk (s.locate (x.desc it.block)).blk else tabGet {} r.kept it.block
  let n := s.free
  let ps := (List.range (it.rows * m.qheads)).map (fun j =>
    let flat := it.row * m.qheads + j
    blockPart m b (n + 1000 * j) r.layer it.block (r.pos + r.chunk) (r.pos + it.row + j / m.qheads) (j % m.qheads)
      (queryVals r.qFmt m.headDim (r.chunk * m.qheads) r.data flat))
  State.runMerge ({ s with free := n + 2 ^ 30 } : State) r.id it.row core m.headDim 64 0 1 ps

/-- A merge continuation on a core (10 R272): its partials merged, and posted on. -/
def State.runCont (s : State) (r : QReq) (it : AttItem) (core : Nat) : State :=
  let x := s.getSess (hId r.handle)
  let m := s.model x.part x.model
  let rows := groupRows r it.row * m.qheads
  let rd : Nat → List RowPart := fun ref =>
    recIn rows m.headDim (memRead (s.mergeOf (core / 8)) (ref % 2 ^ 24) (recLen rows m.headDim))
  let ps := if it.ref2 = 0 then rd it.ref1
    else (List.zip (rd it.ref1) (rd it.ref2)).zipIdx.map (fun e => mergePart (s.free + 10 * e.2) e.1.1 e.1.2)
  State.runMerge ({ s with free := s.free + 2 ^ 20 } : State) r.id it.row core m.headDim 64 it.level it.cover ps

/-- The query copy of a row group (10 R265): its scales first, then its elements. -/
def queryCopy (m : ModelEnt) (r : QReq) (row rows : Nat) : Bytes :=
  let all := r.chunk * m.qheads
  let a := row * m.qheads
  let n := rows * m.qheads
  if r.qFmt = 0 then slice r.data (2 * a * m.headDim) (2 * n * m.headDim)
  else slice r.data (4 * a) (4 * n) ++ slice r.data (4 * all + a * m.headDim) (n * m.headDim)

/-- Start a customer program's invocation for an item of attention work (10 R265). -/
def State.startItem (s : State) (g : Prog) (e : ProgEntry) (r : QReq) (it : AttItem) (core ev : Nat) : State :=
  let x := s.getSess (hId r.handle)
  let m := s.model x.part x.model
  let q := if it.cont then (it.ref1, s) else s.mergePut (core / 8) r.id (queryCopy m r it.row it.rows)
  let v : Inv := { eventInv q.2 g e ev with
    req := r.id, sess := hId r.handle, block := it.block, row := it.row, rows := it.rows, cont := it.cont,
    level := it.level, node := it.node, cover := it.cover }
  let qpos := r.pos + it.row
  let xs : List (Nat × Word) := [(1, word r.handle), (2, if it.cont then 0xFFFFFFFF else word it.block),
    (3, word (r.layer + qpos * 2 ^ 8)), (4, word q.1), (5, word r.id)] ++
    (if it.cont then [(6, word it.ref2)] else if ev = 2 then [(6, word (it.rows * m.qheads))] else [])
  (q.2.takeInv 1).startInv ⟨core, (classOf e.cls).ctx⟩ v xs (some r.handle)

/-- Drop the first item of a core's decode queue. -/
def State.popDecode (s : State) (core : Nat) : State := s.modAtt (fun a => { a with decodeQ := tabMod [] a.decodeQ core (·.drop 1) })

/-- Drop the first item of a core's prefill queue. -/
def State.popPrefill (s : State) (core : Nat) : State :=
  s.modAtt (fun a => { a with prefillQ := tabMod [] a.prefillQ core (·.drop 1) })

/-- A page walk or a block read by attention ends in a fault (R141, 03 R90): the request ends with TIER_FAULT. -/
def State.readFault (s : State) (r : QReq) : State :=
  match s.req? r.id with
  | some r' => (s.lateOver r').answerQ r' Status.tierFault.code [] false
  | none => s

/-- A standard program's page of a request: the page walk, then the page. Blocks a session has lost are read as they were (R149). -/
def State.walkPage (s : State) (r : QReq) (it : AttItem) (core : Nat) (c : PageCheck) : State :=
  match (if r.kept.isEmpty then s.walkFault (hId r.handle) it.block c else none) with
  | some s1 => s1.readFault r
  | none => s.runPage r it core

/-- The cause of a stall that a late page of a block brings (03 R87, R88): THERMAL where its die or one of its stacks is throttled, TIER1_BUSY
for another page in tier 1. -/
def State.lateCause (s : State) (d : Desc) : Option Nat :=
  let die := dieOf d.cluster
  let hot : Nat → Bool := fun n => (tabGet {} s.mgmt.sensors n).throttle
  if hot die || hot (4 + die) || s.mgmt.pwrThrottle || (d.tier == 1 && (List.range 5).any (fun k => hot (8 + 5 * die + k))) then some 1
  else if d.tier = 1 then some 0
  else none

/-- A page of a decode request comes later than its bound allows (R146): the step stalls until the request is answered. -/
def State.pageLate (s : State) (r : QReq) (it : AttItem) : State :=
  match s.lateCause (s.locate ((s.getSess (hId r.handle)).desc it.block)) with
  | some c => (s.modReq r.id (fun q => { q with late := true })).openStall (hId r.handle) c
  | none => s

/-- DECODE_ITEM (R143, R144, R146, 10 R265): a core starts the page at the head of its decode queue. `check` is what the page walk finds, `late`
says that the page comes late. A live customer image under program 0 takes the item as an invocation; the standard program runs it
here, in a decode context that is free and not halted. -/
def execDecodeItem (core : Nat) (check : PageCheck) (late : Bool) (s : State) : Out3 :=
  whenUp s (fun s =>
    match tabGet [] s.att.decodeQ core with
    | [] => s
    | it :: _ =>
      if it.cont then s
      else match s.req? it.req with
        | none => s.popDecode core
        | some r =>
          let slow : State → State := fun s => if late then s.pageLate r it else s
          match s.eventProg r.part 1 with
          | some (g, e) =>
            if s.ctxFree ⟨core, (classOf e.cls).ctx⟩ then slow ((s.popDecode core).startItem g e r it core 1) else s
          | none =>
            if s.stdReady ⟨core, InvClass.decode.ctx⟩ then
              let s1 := slow (s.popDecode core)
              s1.walkPage ((s1.req? r.id).getD r) it core check
            else s)

/-- MERGE_CONTINUATION (10 R272): a core starts the continuation at the head of its decode queue. -/
def execMergeContinuation (core : Nat) (s : State) : Out3 :=
  whenUp s (fun s =>
    match tabGet [] s.att.decodeQ core with
    | [] => s
    | it :: _ =>
      if !it.cont then s
      else match s.req? it.req with
        | none => s.popDecode core
        | some r =>
          match s.eventProg r.part 1 with
          | some (g, e) =>
            if s.ctxFree ⟨core, (classOf e.cls).ctx⟩ then (s.popDecode core).startItem g e r it core 1 else s
          | none => if s.stdReady ⟨core, InvClass.decode.ctx⟩ then (s.popDecode core).runCont r it core else s)

/-- A prefill unit's estimate in ticks (R147): the larger of its stream time and its compute time. -/
def State.prefillEst (s : State) (r : QReq) (it : AttItem) : Nat :=
  let x := s.getSess (hId r.handle)
  let m := s.model x.part x.model
  let d := s.locate (x.desc it.block)
  max (estTicks m.pageBytes (if d.tier = 0 then 50000 else 15625)) (ceilDiv (it.rows * m.qheads * 64 * m.headDim * 4) (ameRate m))

/-- Whether decode work is queued or running on a core (R148, 06_beat R163). -/
def State.coreDecodes (s : State) (core : Nat) : Bool :=
  !(tabGet [] s.att.decodeQ core).isEmpty || [0, 1, 2, 3].any (fun k => (s.ctxAt ⟨core, k⟩).inv.any (fun v => v.event == 1))

/-- PREFILL_UNIT (R148): a core without decode work starts the unit at the head of its prefill queue in an open prefill window that
is long enough; a unit whose estimate ends at the very tick the window closes starts (DESIGN CHOICE: 88). `late` says that the decode
window opens before the unit's page has come: the unit is stopped, its partial discarded, and it stays at the head. -/
def execPrefillUnit (core : Nat) (late : Bool) (check : PageCheck) (s : State) : Out3 :=
  whenUp s (fun s =>
    match tabGet [] s.att.prefillQ core with
    | [] => s
    | it :: _ =>
      match s.req? it.req with
      | none => s.popPrefill core
      | some r =>
        let w := s.pwin r.part
        if s.coreDecodes core || s.dieLost r.part || s.beat.hold || s.beat.none_ || w.win != .prefill ||
            decide (w.d + w.f < s.beat.tick + s.prefillEst r it) then s
        else match s.eventProg r.part 2 with
          | some (g, e) =>
            if s.ctxFree ⟨core, (classOf e.cls).ctx⟩ then (s.popPrefill core).startItem g e r it core 2 else s
          | none =>
            if !s.stdReady ⟨core, InvClass.prefill.ctx⟩ then s
            else if late ∧ check = .ok then s.bump .attPfAbort r.part
            else (s.popPrefill core).walkPage r it core check)

/-- ATT_PF_ABORT's event for a customer program (R148, 09 R230): a running prefill-unit invocation is stopped when the decode window
opens; its unit goes back to the head of the core's prefill queue. -/
def State.abortPrefill (s : State) (core : Nat) : State :=
  [0, 1, 2, 3].foldl (fun s k =>
    let t : Site := ⟨core, k⟩
    let c := s.ctxAt t
    match c.inv with
    | none => s
    | some v =>
      if v.event ≠ 2 then s
      else
        let it : AttItem := { req := v.req, block := v.block, row := v.row, rows := v.rows }
        let s1 := (s.setCtxAt t c.cleared).bump .attPfAbort v.part
        s1.modAtt (fun a => { a with prefillQ := tabMod [] a.prefillQ core (fun l => it :: l) })) s

/-! ### A completed ranking (07_sampling R189 to R196; 09 R226; 10 R265) -/

/-- The ranked list as a program reads it (10 R265): K_EFF entries, the empty ones as R191 gives them. -/
def rankedBytes (r : Ranked) : Bytes :=
  (fit (0xFFFFFFFF, f32NegInf, f32NegInf) r.k r.entries).flatMap (fun e => natLe 4 e.1 ++ natLe 4 e.2.1.toNat ++ natLe 4 e.2.2.toNat ++ natLe 4 0)

/-- Start a customer EMIT_DRAW for a session's ranked result, on the first core of its home cluster. -/
def State.startDraw (s : State) (g : Prog) (e : ProgEntry) (id : Nat) (st : InStep) (r : Ranked) : State :=
  let x := s.getSess id
  let core := 8 * x.home
  let t : Site := ⟨core, (classOf e.cls).ctx⟩
  if !s.ctxFree t then s
  else
    let q := s.mergePut x.home (2 ^ 32 + s.cores.nextInv % 2 ^ 32) (rankedBytes r)
    let v : Inv := { eventInv q.2 g e 4 with sess := id }
    let pr := st.profile
    let xs : List (Nat × Word) := [(1, word (handleOf id x)), (2, word q.1),
      (3, word (r.n + r.k * 2 ^ 16 + b2n pr.seedMode * 2 ^ 32)), (4, word (pr.temp.toNat + pr.topP.toNat * 2 ^ 32)), (5, word pr.seed),
      (6, word (st.logitPos + 1))]
    (q.2.takeInv 1).startInv t v xs (some (handleOf id x))

/-- Whether a customer EMIT_DRAW runs for a session. -/
def State.drawRuns (s : State) (id : Nat) : Bool :=
  s.cores.core.any (fun c => [c.2.ctx0, c.2.ctx1, c.2.ctx2, c.2.ctx3].any (fun x =>
    match x.inv with
    | some v => v.event == 4 && v.sess == id
    | none => false))

/-- RANKED_RESULT (R189 to R196): a step whose LOGITS are complete and stencilled is ranked; EMIT_DRAW draws its token, and the step
is settled. A commit that was withheld is tried again. A standard program runs in emit contexts that are free and not halted. -/
def execRankedResult (sess : Nat) (s : State) : Out3 :=
  whenUp s (fun s =>
    match (s.getSess sess).step with
    | none => s
    | some st0 =>
      if !st0.emit.complete || st0.committed || s.emit.fetch.contains sess then s
      else
        let home := 8 * (s.getSess sess).home
        let ready : Nat → Bool := fun k => s.stdReady ⟨home + k, InvClass.emit.ctx⟩
        if st0.emit.ranked.isNone && (s.eventProg (s.getSess sess).part 3).isNone && !(List.range 8).all ready then s else
        let s1 := if st0.emit.ranked.isNone then s.rankStep sess st0 else s
        match (s1.getSess sess).step with
        | none => s1
        | some st =>
          match st.emit.ranked with
          | none => s1
          | some r =>
            if (s1.getSess sess).cancelReq ∨ r.n = 0 then s1.commit sess 0
            else match st.emit.drawn with
              | some t => s1.commit sess t
              | none =>
                match s1.eventProg (s1.getSess sess).part 4 with
                | some (g, e) => if s1.drawRuns sess then s1 else s1.startDraw g e sess st r
                | none =>
                  if !ready 0 then s1 else
                  let d := s1.drawStep sess st r
                  (d.2.modEmitStep sess (fun e => { e with drawn := some d.1 })).commit sess d.1)

/-! ### Learning (04_undercoat_directory R114, R115) -/

/-- The learning of a session is over: the last result its step withheld goes out (04 R114). -/
def State.learnOver (s : State) (id : Nat) : State :=
  if s.dir.learns.any (fun n => n.sess == id) then s
  else
    let s1 := if ((s.getSess id).step.bind (·.stall)) = some 6 then s.closeStall id else s
    (s1.att.reqs.filter (fun r => hId r.handle == id)).foldl (fun s r => match r.ready with
      | some a => s.answerQ r 0 a.1 a.2
      | none => s) s1

/-- LEARN (04 R114, R115): a learning whose key is ready takes its slot. -/
def execLearn (sess : Nat) (s : State) : Out3 :=
  whenUp s (fun s =>
    match s.dir.learns.find? (fun n => n.sess == sess) with
    | none => s
    | some n =>
      match n.key with
      | none => s
      | some k => if s.turn (s.getSess sess).part n.arr then (s.learnSlotStep n k).learnOver sess else s)

end Sys2Proof.Machine
end

