-- ==== Sys2Proof/Machine/Entry.lean ====
section
/-! DEFINITION. A session entry as its words read (02_sessions R31). -/

namespace Sys2Proof.Machine

/-- The code of a policy class. -/
def Policy.code : Policy → Nat
  | .pinHot => 0
  | .preferHot => 1
  | .normal => 2
  | .cold => 3
  | .stripOk => 4

/-- FLAGS of an entry, from W0 bit 43 on. -/
def Entry.flags (x : Entry) : Nat :=
  b2n x.stoptext + 2 * b2n x.noLearn + 4 * b2n x.wakeSet + 8 * b2n x.cancelReq + 16 * b2n x.rebuild + 32 * b2n x.degraded +
    64 * b2n x.conf + 128 * b2n x.kvsvc + 256 * b2n x.heldCmd

/-- W0 to W6 of an entry; `held` is SEAM_HELD. -/
def Entry.words06 (x : Entry) (held : Nat) : List Nat :=
  [ x.ver + x.st.code * 2 ^ 4 + x.part * 2 ^ 8 + x.prio * 2 ^ 12 + x.domain * 2 ^ 16 + x.model * 2 ^ 32 + x.policy.code * 2 ^ 40 +
      x.flags * 2 ^ 43,
    x.length + x.pend * 2 ^ 22 + x.maxnew * 2 ^ 44,
    x.pageRoot * 2 ^ 12 + x.home * 2 ^ 48,
    x.deadline + x.wake % 2 ^ 16 * 2 ^ 48,
    x.stencilSet + x.stencilState * 2 ^ 16 + x.profile * 2 ^ 48,
    x.stopSet + held * 2 ^ 16 + x.undercoatIx * 2 ^ 23 + x.coatPos * 2 ^ 41,
    x.tokPtr + x.tokPri * 2 ^ 48 + x.tokMir * 2 ^ 50 ]

/-- The eight words of a session's entry; a FREE entry holds zeros and its GEN. -/
def Sess.words (x : Sess) : List Nat :=
  if x.st = .free then [0, 0, 0, 0, 0, 0, 0, x.gen * 2 ^ 24]
  else
    let ws := x.toEntry.words06 x.seamNow.length
    ws ++ [x.seq + x.lastStatus * 2 ^ 16 + x.gen * 2 ^ 24 + crc32c (ws.flatMap (natLe 8)) * 2 ^ 32]

/-- The 128 bytes of an entry: its words and its owner bytes. -/
def Sess.bytes (x : Sess) : Bytes := x.words.flatMap (natLe 8) ++ fit 0 64 x.owner

end Sys2Proof.Machine
end

