-- ==== Sys2Proof/Machine/ScaeshAlu.lean ====
section
/-! DEFINITION. Scaesh scalar instructions (10_scaesh_instructions R255 to R257): arithmetic in registers and with immediates,
control flow, loads and stores of LDM and working space, special registers. -/

namespace Sys2Proof.Machine

/-- A word of the scalar ALU on two registers. -/
def aluRR (s : State) (t : Site) (w : GWord) (op : Nat) (f : Word → Word → Word) : Out3 :=
  whenUp s (fun s => issue s t op w { d := .x, a := .x, b := .x } (fun c _ => .next (c.wx w.d (f (c.rx w.a) (c.rx w.b))) s))

/-- A word of the scalar ALU on a register and the immediate; `mask` holds the immediate's bits in use. -/
def aluRI (s : State) (t : Site) (w : GWord) (op mask : Nat) (f : Word → Nat → Word) : Out3 :=
  whenUp s (fun s => issue s t op w { d := .x, a := .x, i := mask } (fun c _ => .next (c.wx w.d (f (c.rx w.a) w.i)) s))

/-- A word of the scalar ALU on one register. -/
def aluR (s : State) (t : Site) (w : GWord) (op : Nat) (f : Word → Word) : Out3 :=
  whenUp s (fun s => issue s t op w { d := .x, a := .x } (fun c _ => .next (c.wx w.d (f (c.rx w.a))) s))

/-- All bits of the 24-bit immediate. -/
def imm24 : Nat := 0xFFFFFF

/-- The sign-extended 24-bit immediate. -/
def simm (i : Nat) : Word := sext 24 i

/-- The zero-extended 24-bit immediate. -/
def zimm (i : Nat) : Word := word i

/-- A truth value as a register word. -/
def flag (b : Bool) : Word := if b then 1 else 0

/-- ADD (R255): x[A] + x[B]. -/
def execAdd (t : Site) (w : GWord) (s : State) : Out3 := aluRR s t w 0x00 (fun a b => a + b)
/-- SUB (R255): x[A] − x[B]. -/
def execSub (t : Site) (w : GWord) (s : State) : Out3 := aluRR s t w 0x01 (fun a b => a - b)
/-- MUL (R255): the low half of the product. -/
def execMul (t : Site) (w : GWord) (s : State) : Out3 := aluRR s t w 0x02 (fun a b => a * b)
/-- MULHU (R255): the high half of the unsigned product. -/
def execMulhu (t : Site) (w : GWord) (s : State) : Out3 :=
  aluRR s t w 0x03 (fun a b => word (a.toNat * b.toNat / 2 ^ 64))
/-- AND (R255). -/
def execAnd (t : Site) (w : GWord) (s : State) : Out3 := aluRR s t w 0x04 (fun a b => a &&& b)
/-- OR (R255). -/
def execOr (t : Site) (w : GWord) (s : State) : Out3 := aluRR s t w 0x05 (fun a b => a ||| b)
/-- XOR (R255). -/
def execXor (t : Site) (w : GWord) (s : State) : Out3 := aluRR s t w 0x06 (fun a b => a ^^^ b)
/-- SHL (R255): left by x[B] & 63. -/
def execShl (t : Site) (w : GWord) (s : State) : Out3 := aluRR s t w 0x07 (fun a b => a <<< (b.toNat % 64))
/-- SHR (R255): logical right by x[B] & 63. -/
def execShr (t : Site) (w : GWord) (s : State) : Out3 := aluRR s t w 0x08 (fun a b => a >>> (b.toNat % 64))
/-- SRA (R255): arithmetic right by x[B] & 63. -/
def execSra (t : Site) (w : GWord) (s : State) : Out3 := aluRR s t w 0x09 (fun a b => a.sshiftRight (b.toNat % 64))
/-- MIN (R255): signed. -/
def execMin (t : Site) (w : GWord) (s : State) : Out3 := aluRR s t w 0x0A (fun a b => if a.slt b then a else b)
/-- MAX (R255): signed. -/
def execMax (t : Site) (w : GWord) (s : State) : Out3 := aluRR s t w 0x0B (fun a b => if a.slt b then b else a)
/-- MINU (R255): unsigned. -/
def execMinu (t : Site) (w : GWord) (s : State) : Out3 := aluRR s t w 0x0C (fun a b => if a.ult b then a else b)
/-- MAXU (R255): unsigned. -/
def execMaxu (t : Site) (w : GWord) (s : State) : Out3 := aluRR s t w 0x0D (fun a b => if a.ult b then b else a)
/-- SLT (R255): signed. -/
def execSlt (t : Site) (w : GWord) (s : State) : Out3 := aluRR s t w 0x0E (fun a b => flag (a.slt b))
/-- SLTU (R255): unsigned. -/
def execSltu (t : Site) (w : GWord) (s : State) : Out3 := aluRR s t w 0x0F (fun a b => flag (a.ult b))
/-- ADDI (R255): x[A] + sext(I). -/
def execAddi (t : Site) (w : GWord) (s : State) : Out3 := aluRI s t w 0x10 imm24 (fun a i => a + simm i)
/-- ANDI (R255): x[A] & zext(I). -/
def execAndi (t : Site) (w : GWord) (s : State) : Out3 := aluRI s t w 0x11 imm24 (fun a i => a &&& zimm i)
/-- ORI (R255). -/
def execOri (t : Site) (w : GWord) (s : State) : Out3 := aluRI s t w 0x12 imm24 (fun a i => a ||| zimm i)
/-- XORI (R255). -/
def execXori (t : Site) (w : GWord) (s : State) : Out3 := aluRI s t w 0x13 imm24 (fun a i => a ^^^ zimm i)
/-- SHLI (R255): by I[5:0]; the other bits of I are unused. -/
def execShli (t : Site) (w : GWord) (s : State) : Out3 := aluRI s t w 0x14 63 (fun a i => a <<< i)
/-- SHRI (R255). -/
def execShri (t : Site) (w : GWord) (s : State) : Out3 := aluRI s t w 0x15 63 (fun a i => a >>> i)
/-- SRAI (R255). -/
def execSrai (t : Site) (w : GWord) (s : State) : Out3 := aluRI s t w 0x16 63 (fun a i => a.sshiftRight i)
/-- SLTI (R255): signed. -/
def execSlti (t : Site) (w : GWord) (s : State) : Out3 := aluRI s t w 0x17 imm24 (fun a i => flag (a.slt (simm i)))

/-- The 47-bit immediate of format L, the A, B, C, F and I fields in one (R248). -/
def imm47 (w : GWord) : Nat := w.a * 2 ^ 42 + w.b * 2 ^ 37 + w.c * 2 ^ 32 + w.f * 2 ^ 24 + w.i

/-- LI (R255): sext(IMM47). -/
def execLi (t : Site) (w : GWord) (s : State) : Out3 :=
  whenUp s (fun s => issue s t 0x18 w { d := .x, a := .x, b := .x, c := .x, f := 0xFF, i := imm24 }
    (fun c _ => .next (c.wx w.d (sext 47 (imm47 w))) s))

/-- DIVU (R255): all ones where x[B] is 0. -/
def execDivu (t : Site) (w : GWord) (s : State) : Out3 :=
  aluRR s t w 0x19 (fun a b => if b = 0 then BitVec.allOnes 64 else a / b)
/-- REMU (R255): x[A] where x[B] is 0. -/
def execRemu (t : Site) (w : GWord) (s : State) : Out3 := aluRR s t w 0x1A (fun a b => if b = 0 then a else a % b)

/-- The number of set bits among the lowest `n` bits. -/
def popcount (x : Nat) : Nat → Nat
  | 0 => 0
  | n + 1 => x % 2 + popcount (x / 2) n

/-- CLZ (R255): leading zeros, 0 to 64. -/
def execClz (t : Site) (w : GWord) (s : State) : Out3 :=
  aluR s t w 0x1B (fun a => word (if a = 0 then 64 else 63 - Nat.log2 a.toNat))
/-- POPC (R255): set bits. -/
def execPopc (t : Site) (w : GWord) (s : State) : Out3 := aluR s t w 0x1C (fun a => word (popcount a.toNat 64))

/-- The CRC-32C of a byte string followed by 8 more bytes, from the CRC-32C of the string (R255; DEDUCED: 7). -/
def crcContinue (crc data : Nat) : Nat := Nat.xor (crcRun (Nat.xor (crc % 2 ^ 32) 0xFFFFFFFF) (natLe 8 data)) 0xFFFFFFFF

/-- CRC (R255). -/
def execCrc (t : Site) (w : GWord) (s : State) : Out3 := aluRR s t w 0x1D (fun a b => word (crcContinue a.toNat b.toNat))

/-- INSH (R255): bits 63:40 replaced by the immediate. -/
def execInsh (t : Site) (w : GWord) (s : State) : Out3 :=
  aluRI s t w 0x1E imm24 (fun a i => word (a.toNat % 2 ^ 40 + i % 2 ^ 24 * 2 ^ 40))

/-! ### Control flow (R256) -/

/-- Go to a target: beyond the image's last instruction the branch faults with IMEM_RANGE. -/
def goTo (s : State) (v : Inv) (c : Ctx) (target : Nat) : Eff :=
  if target < s.codeLen v then .jump c s target else .fault 2

/-- A conditional branch on two registers. -/
def branch (s : State) (t : Site) (w : GWord) (op : Nat) (f : Word → Word → Bool) : Out3 :=
  whenUp s (fun s => issue s t op w { a := .x, b := .x, i := 0x1FFF }
    (fun c v => if f (c.rx w.a) (c.rx w.b) then goTo s v c w.i else .next c s))

/-- BEQ (R256). -/
def execBeq (t : Site) (w : GWord) (s : State) : Out3 := branch s t w 0x20 (fun a b => a == b)
/-- BNE (R256). -/
def execBne (t : Site) (w : GWord) (s : State) : Out3 := branch s t w 0x21 (fun a b => a != b)
/-- BLT (R256): signed. -/
def execBlt (t : Site) (w : GWord) (s : State) : Out3 := branch s t w 0x22 (fun a b => a.slt b)
/-- BGE (R256): signed. -/
def execBge (t : Site) (w : GWord) (s : State) : Out3 := branch s t w 0x23 (fun a b => !a.slt b)
/-- BLTU (R256): unsigned. -/
def execBltu (t : Site) (w : GWord) (s : State) : Out3 := branch s t w 0x24 (fun a b => a.ult b)
/-- BGEU (R256): unsigned. -/
def execBgeu (t : Site) (w : GWord) (s : State) : Out3 := branch s t w 0x25 (fun a b => !a.ult b)

/-- JAL (R256): x[D] = PC + 1, then the branch; a branch that faults leaves no trace in the ended context. -/
def execJal (t : Site) (w : GWord) (s : State) : Out3 :=
  whenUp s (fun s => issue s t 0x26 w { d := .x, i := 0x1FFF } (fun c v => goTo s v (c.wx w.d (word (c.pc + 1))) w.i))

/-- JR (R256): PC = x[A]; a value with bits above the PC lies outside every image. -/
def execJr (t : Site) (w : GWord) (s : State) : Out3 :=
  whenUp s (fun s => issue s t 0x27 w { a := .x } (fun c v => goTo s v c (c.rx w.a).toNat))

/-- END (R256, R240): the invocation ends with the status in x1[7:0]. -/
def execEnd (t : Site) (w : GWord) (s : State) : Out3 :=
  whenUp s (fun s => issue s t 0x28 w {} (fun c _ => .stop s ((c.rx 1).toNat % 256)))

/-- NOP (R256). -/
def execNop (t : Site) (w : GWord) (s : State) : Out3 :=
  whenUp s (fun s => issue s t 0x29 w {} (fun c _ => .next c s))

/-! ### Scalar memory and special registers (R257) -/

/-- The address of a memory instruction: x[A] + sext(I). -/
def addrOf (c : Ctx) (w : GWord) : Word := c.rx w.a + simm w.i

/-- Eight little-endian bytes as a word. -/
def wordOf (b : Bytes) : Word := word (leNat b)

/-- The eight bytes of a word. -/
def bytesOf (x : Word) : Bytes := natLe 8 x.toNat

/-- LD (R257). -/
def execLd (t : Site) (w : GWord) (s : State) : Out3 :=
  whenUp s (fun s => issue s t 0x30 w { d := .x, a := .x, i := imm24 } (fun c v =>
    withLoc (s.ldmLoc v (addrOf c w) 8 8) (fun l => .next (c.wx w.d (wordOf (s.locRead t.core l 8))) s)))

/-- ST (R257). -/
def execSt (t : Site) (w : GWord) (s : State) : Out3 :=
  whenUp s (fun s => issue s t 0x31 w { a := .x, b := .x, i := imm24 } (fun c v =>
    withLoc (s.ldmLoc v (addrOf c w) 8 8) (fun l => .next c (s.locWrite t.core l (bytesOf (c.rx w.b))))))

/-- CLD (R257): a merge-area reference is accepted in x[A]. -/
def execCld (t : Site) (w : GWord) (s : State) : Out3 :=
  whenUp s (fun s => issue s t 0x32 w { d := .x, a := .x, i := imm24 } (fun c v =>
    withLoc (s.cwsLoc v (addrOf c w) 8 8 true) (fun l => .next (c.wx w.d (wordOf (s.locRead t.core l 8))) s)))

/-- CST (R257): a store through a reference raises CWS_RANGE. -/
def execCst (t : Site) (w : GWord) (s : State) : Out3 :=
  whenUp s (fun s => issue s t 0x33 w { a := .x, b := .x, i := imm24 } (fun c v =>
    withLoc (s.cwsLoc v (addrOf c w) 8 8 false) (fun l => .next c (s.locWrite t.core l (bytesOf (c.rx w.b))))))

/-- CADD (R257): the old value to x[D], the sum to the working space, atomically. -/
def execCadd (t : Site) (w : GWord) (s : State) : Out3 :=
  whenUp s (fun s => issue s t 0x34 w { d := .x, a := .x, b := .x, i := imm24 } (fun c v =>
    withLoc (s.cwsLoc v (addrOf c w) 8 8 false) (fun l =>
      let old := wordOf (s.locRead t.core l 8)
      .next (c.wx w.d old) (s.locWrite t.core l (bytesOf (old + c.rx w.b))))))

/-- CCAS (R257): the old value to x[D]; x[B] is stored where the old value equals x[C], atomically. -/
def execCcas (t : Site) (w : GWord) (s : State) : Out3 :=
  whenUp s (fun s => issue s t 0x35 w { d := .x, a := .x, b := .x, c := .x, i := imm24 } (fun c v =>
    withLoc (s.cwsLoc v (addrOf c w) 8 8 false) (fun l =>
      let old := wordOf (s.locRead t.core l 8)
      .next (c.wx w.d old) (if old = c.rx w.c then s.locWrite t.core l (bytesOf (c.rx w.b)) else s))))

/-- A tick value as a confidential partition's programs and functions read it: rounded down to a multiple of 2^TIME_SHIFT
(15_security R403). -/
def State.coarseTick (s : State) (p n : Nat) : Nat :=
  if (s.getPart p).conf then
    let k := bits (s.reg .secDust 0) 8 5
    n / 2 ^ k * 2 ^ k
  else n

/-- CORE_FEAT (R246): every feature bit of this part. -/
def coreFeat : Nat := 0x7F

/-- ID_VERSION bits 15:0: Scaesh 1.0. -/
def scaeshVersion : Nat := 0x0100

/-- A special register (R228, R257). -/
def State.special (s : State) (t : Site) (v : Inv) : Nat → Nat
  | 0 => t.core
  | 1 => clusterOf t.core
  | 2 => v.part
  | 3 => t.ctx
  | 4 => v.id
  | 5 => v.member
  | 6 => v.members
  | 7 => s.now
  | 8 => s.coarseTick v.part s.beat.tick
  | 9 => s.winCode v.part
  | 10 => scaeshVersion
  | _ => coreFeat

/-- RDS (R257): a selector above 11 is ILLEGAL. -/
def execRds (t : Site) (w : GWord) (s : State) : Out3 :=
  whenUp s (fun s => issue s t 0x36 w { d := .x, i := 0xFF, ok := decide (w.i < 12) } (fun c v =>
    .next (c.wx w.d (word (s.special t v w.i))) s))

end Sys2Proof.Machine
end

