-- ==== Sys2Proof/Machine/ScaeshBlk.lean ====
section
/-! DEFINITION. Scaesh block access and attention instructions (10_scaesh_instructions R261 to R273). -/

namespace Sys2Proof.Machine

/-! ### Slots and engine operations -/

/-- The session a slot names, or the SLOT fault (R232). -/
def withSlot (c : Ctx) (n : Nat) (f : Nat → Nat → Eff) : Eff :=
  match c.slot n with
  | none => .fault 5
  | some h => f (hId h) h

/-- Slot number F[5:4]. -/
def slotF (w : GWord) : Nat := w.f / 16 % 4

/-- Completion values of tags (R251). -/
def tagRemote : Nat := 0xE0
/-- NOT_RESIDENT. -/
def tagNotResident : Nat := 0xE1
/-- NOT_COVERED. -/
def tagNotCovered : Nat := 0xE2

/-- Issue an operation on the word's tag with a completion value. -/
def startTag (c : Ctx) (w : GWord) (o : TagOp) : Ctx := c.tagStart { o with tag := w.f % 16 }

/-- A new mark: what must leave before a tag completes. -/
def State.newMark (s : State) : Nat × State := (s.cores.nextMark, s.modCores (fun k => { k with nextMark := k.nextMark + 1 }))

/-- The rate of a tier in hundredths of GB/s (R253). -/
def tierRate (tier : Nat) : Nat := if tier = 0 then 50000 else 15625

/-- BIND (R232, R261): the handle in x[A] is checked and bound. -/
def execBind (t : Site) (w : GWord) (s : State) : Out3 :=
  whenUp s (fun s => issue s t 0x70 w { d := .h, a := .x } (fun c v =>
    let h := (c.rx w.a).toNat
    match s.handle? v.part h with
    | none => .fault 5
    | some _ => .next { c with h := tabSet c.h w.d h } s))

/-- UNBIND (R261). -/
def execUnbind (t : Site) (w : GWord) (s : State) : Out3 :=
  whenUp s (fun s => issue s t 0x71 w { d := .h } (fun c _ => .next { c with h := tabErase c.h w.d } s))

/-- The block summary BDESC returns (R262). -/
def descWord (d : Desc) (cluster : Nat) : Nat :=
  if d.valid then
    d.tier + d.cluster * 2 ^ 2 + b2n d.shared * 2 ^ 7 + d.fill * 2 ^ 8 + 2 ^ 15 + b2n (d.cluster == cluster) * 2 ^ 16
  else 0

/-- The page walk of a block access (R66, 02_sessions R44): a check that fails is the block's tier fault and the TIER fault of the invocation;
a session the coverage check takes out is no fault of the invocation. -/
def withWalk (s : State) (id b : Nat) (check : PageCheck) (f : State → Eff) : Eff :=
  match s.checkFault id b check with
  | some s1 => .faultIn s1 7
  | none => f ((s.walkCover id b).getD s)

/-- BDESC (R262). `check` is what the walk finds: a check that fails gives 0, and the block's tier fault. -/
def execBdesc (t : Site) (w : GWord) (check : PageCheck) (s : State) : Out3 :=
  whenUp s (fun s => issue s t 0x72 w { d := .x, a := .x, f := 0x30 } (fun c _ =>
    withSlot c (slotF w) (fun id _ =>
      let b := (c.rx w.a).toNat
      match s.walkFault id b check with
      | some s1 => .next (c.wx w.d 0) s1
      | none => .next (c.wx w.d (word (descWord (s.locate ((s.getSess id).desc b)) (clusterOf t.core)))) s)))

/-- BSESS (R261): one word of the session's entry. -/
def execBsess (t : Site) (w : GWord) (s : State) : Out3 :=
  whenUp s (fun s => issue s t 0x73 w { d := .x, f := 0x30, i := 7 } (fun c _ =>
    withSlot c (slotF w) (fun id _ => .next (c.wx w.d (word ((s.getSess id).words.getD w.i 0))) s)))

/-- What a block read of a cluster completes with (R232, R263, R268): OK where the session is resident and the block is the cluster's own, in
tier 0 or 1, and covered. -/
def readValue (st : SState) (d : Desc) (cluster : Nat) (covered : Bool) : Nat :=
  if !st.resides then tagNotResident
  else if !d.valid then tagNotCovered
  else if d.cluster ≠ cluster then tagRemote
  else if 2 ≤ d.tier then tagNotResident
  else if covered then 0 else tagNotCovered

/-- BLD (R263): rows of one page, or one layer's scales, into LDM or CWS; `check` is what the walk finds. The scales of a layer are covered
where a position of the block is written at it (DEDUCED: 93). -/
def execBld (t : Site) (w : GWord) (check : PageCheck) (s : State) : Out3 :=
  whenUp s (fun s => issue s t 0x74 w { d := .x, a := .x, b := .x, f := 0x7F, tag := true } (fun c v =>
    let a := (c.rx w.b).toNat
    let layer := bits a 0 8
    let kvh := bits a 8 6
    let first := bits a 14 6
    let count := bits a 20 7
    let part := bits a 27 2
    let okRows := decide (1 ≤ count) && decide (first + count ≤ 64)
    if 2 ^ 29 ≤ a ∨ part = 3 ∨ (part < 2 ∧ !okRows) ∨ (part = 2 ∧ (kvh ≠ 0 ∨ first ≠ 0 ∨ count ≠ 0)) then .fault 1
    else withSlot c (slotF w) (fun id _ =>
      let x := s.getSess id
      let m := s.model x.part x.model
      let b := (c.rx w.a).toNat
      let d := s.locate (x.desc b)
      let len := if part = 2 then 8 * m.kvheads else count * m.rowBytes
      withLoc (s.spaceLoc v (bitAt w.f 6) (c.rx w.d) len 1 false) (fun l =>
        gated s v [dieOf (clusterOf t.core)] (estTicks len (tierRate d.tier))
          (withWalk s id b check (fun s =>
            let cov := decide (layer < m.layers) && decide (kvh < max 1 m.kvheads) &&
              decide (64 * b + (if part = 2 then 1 else first + count) ≤ x.loadable b layer)
            let val := readValue (s.getSess id).st d (clusterOf t.core) cov
            let k := s.blk d.blk
            let bytes := if part = 2 then
                (List.range m.kvheads).flatMap (fun h => natLe 4 (k.scale layer 0 h).toNat ++ natLe 4 (k.scale layer 1 h).toNat)
              else (List.range count).flatMap (fun j => rowOut m.kvFmt (k.row layer part kvh (first + j)))
            .next (startTag c w { tag := 0, value := val, sess := id, block := b, reads := val == 0 })
              (if val = 0 then s.locWrite t.core l bytes else s)))))))

/-- BST (R264): positions are written exactly as a KV_APPEND with the same content; the tag stays pending while the write is held.
`check` is what the walk finds. -/
def execBst (t : Site) (w : GWord) (check : PageCheck) (s : State) : Out3 :=
  whenUp s (fun s => issue s t 0x75 w { a := .x, b := .x, c := .x, f := 0x7F, tag := true } (fun c v =>
    let a := (c.rx w.b).toNat
    if 2 ^ 17 ≤ a ∨ 2 ≤ bits a 15 2 then .fault 1
    else withSlot c (slotF w) (fun id h =>
      let x := s.getSess id
      let m := s.model x.part x.model
      let k0 : KvMsg := { port := bstPort, vc := 0, handle := h, pos := (c.rx w.a).toNat, layer := bits a 0 8, bodyVer := 1,
                          count := bits a 8 7, kvIn := bits a 15 2, data := [] }
      let len := k0.dataLen m
      withLoc (s.spaceLoc v (bitAt w.f 6) (c.rx w.c) len 1 false) (fun l =>
        let k := { k0 with data := s.locRead t.core l len }
        let d := s.locate (x.desc (k.pos / 64))
        gated s v [dieOf (clusterOf t.core), dieOf d.cluster] (estTicks len (tierRate d.tier))
          (withWalk s id (k.pos / 64) check (fun s =>
            match s.kvCheck v.part false k with
            | .error _ => .faultIn s 6
            | .ok id' =>
              let mk := s.newMark
              .next (startTag c w { tag := 0, value := 0, engine := 3, mark := mk.1 }) (mk.2.kvAccept id' { k with mark := mk.1 })))))))

/-! ### Attention (R266 to R273) -/

/-- A tile's element. -/
def Ctx.tileEl (c : Ctx) (tl j p : Nat) : W32 := tabGet 0 (tabGet [] c.tiles tl) (64 * j + p)

/-- Write a tile from its 64 rows of 64 elements; a zero element is not listed. -/
def Ctx.setTile (c : Ctx) (tl : Nat) (rows : List (List W32)) : Ctx :=
  let l := ((rows.flatMap id).zipIdx).filter (fun e => e.1 != 0)
  { c with tiles := tabSet c.tiles tl (l.map (fun e => (e.2, e.1))) }

/-- Row j of a tile. -/
def Ctx.tileRow (c : Ctx) (tl j : Nat) : List W32 := (List.range 64).map (c.tileEl tl j)

/-- An operation that uses a tile waits for earlier writes of it (R252). -/
def withTile (c : Ctx) (tl : Nat) (e : Eff) : Eff := if c.tileBusy tl then .stay else e

/-- The operand word of AQK and APV (R267). -/
structure OpWord where
  slot : Nat
  layer : Nat
  rows : Nat
  row0 : Nat
  qpos : Nat
  qfmt : Nat
  deriving DecidableEq, Repr

/-- Read an operand word; none where a reserved value or bit is set. -/
def opWord (a : Nat) : Option OpWord :=
  let o : OpWord := { slot := bits a 0 2, layer := bits a 2 8, rows := bits a 10 7, row0 := bits a 17 13, qpos := bits a 30 22,
                      qfmt := bits a 52 2 }
  if 2 ^ 54 ≤ a ∨ o.rows = 0 ∨ 64 < o.rows ∨ 2 ≤ o.qfmt then none else some o

/-- AQK (R268): a tile of scores; `check` is what the walk finds. Its page is covered where a position of it is (DEDUCED: 93). -/
def execAqk (t : Site) (w : GWord) (check : PageCheck) (s : State) : Out3 :=
  whenUp s (fun s => issue s t 0x80 w { d := .t, a := .x, b := .x, c := .x, f := 0x1F, tag := true } (fun c v =>
    match opWord (c.rx w.c).toNat with
    | none => .fault 1
    | some o => withSlot c o.slot (fun id _ => withTile c w.d (
      let x := s.getSess id
      let m := s.model x.part x.model
      let b := (c.rx w.b).toNat
      let d := s.locate (x.desc b)
      let len := o.rows * m.headDim * (if o.qfmt = 0 then 2 else 1) + (if o.qfmt = 0 then 0 else 4 * o.rows)
      withLoc (s.spaceLoc v (bitAt w.f 4) (c.rx w.a) len 1 true) (fun l =>
        gated s v [dieOf (clusterOf t.core)] (estTicks (64 * m.kvheads * m.rowBytes) (tierRate d.tier))
          (withWalk s id b check (fun s =>
            let q := s.locRead t.core l len
            let val := readValue (s.getSess id).st d (clusterOf t.core) (decide (o.layer < m.layers) && decide (64 * b < x.loadable b o.layer))
            let k := s.blk d.blk
            let none_ := List.replicate 64 f32NegInf
            let row : Nat → List W32 := fun j =>
              if o.rows ≤ j ∨ val ≠ 0 then none_
              else
                let r := o.row0 + j
                blockScores m k (s.free + 100 * j) o.layer b (x.writtenAt b o.layer) (o.qpos + r / m.qheads) (r % m.qheads)
                  (queryVals o.qfmt m.headDim o.rows q j)
            let c1 := c.setTile w.d ((List.range 64).map row)
            .next (startTag c1 w { tag := 0, value := val, engine := 1, tile := some w.d, sess := id, block := b, reads := val == 0 })
              { s with free := s.free + 2 ^ 20 })))))))

/-- FP32 lane j of a vector register. -/
def Ctx.lane (c : Ctx) (r j : Nat) : W32 := BitVec.ofNat 32 (vEl4 (c.rv r) j)
where
  /-- A 32-bit lane of a vector. -/
  vEl4 (v : Vec) (j : Nat) : Nat := bits v.toNat (32 * j) 32

/-- Write a vector register from 64 FP32 lanes. -/
def Ctx.setLanes (c : Ctx) (r : Nat) (l : List W32) : Ctx :=
  c.wv r (BitVec.ofNat 2048 (l.foldr (fun x n => x.toNat + n * 2 ^ 32) 0))

/-- ASMX (R269): one online-softmax step on the 64 rows of a tile. -/
def execAsmx (t : Site) (w : GWord) (s : State) : Out3 :=
  whenUp s (fun s => issue s t 0x81 w { d := .t, a := .v, b := .v, c := .v } (fun c _ => withTile c w.d (
    let rs := (List.range 64).map (fun j => softStep (s.free + 100 * j) (c.lane w.a j) (c.lane w.b j) (c.tileRow w.d j))
    let c1 := c.setTile w.d (rs.map (fun r => r.2.2.2))
    let c2 := ((c1.setLanes w.a (rs.map (·.1))).setLanes w.b (rs.map (·.2.1))).setLanes w.c (rs.map (·.2.2.1))
    .next c2 { s with free := s.free + 2 ^ 20 })))

/-- A place that an instruction stores to: a merge-area reference is refused (R257, R266). -/
def State.storeLoc (s : State) (v : Inv) (cws : Bool) (a : Word) (len : Nat) : Except Nat Loc :=
  if a.toNat / 2 ^ 63 = 1 then .error 4 else s.spaceLoc v cws a len 1 false

/-- The values of a V row; a row that nothing has written holds free values (R128). -/
def vRowVals (m : ModelEnt) (k : KvBlk) (n layer head p : Nat) : List FVal :=
  match tabGet? k.rows (rowKey layer 1 head p) with
  | some l => rowVals m l
  | none => rowVals m ((List.range 272).map (fun i => Config.approx n i % 2 ^ 8))

/-- APV (R270): the output rows take the weighted V rows; `check` is what the walk finds. -/
def execApv (t : Site) (w : GWord) (check : PageCheck) (s : State) : Out3 :=
  whenUp s (fun s => issue s t 0x82 w { d := .t, a := .x, b := .x, c := .x, f := 0x1F, i := 0x1F, tag := true } (fun c v =>
    match opWord (c.rx w.c).toNat with
    | none => .fault 1
    | some o => withSlot c o.slot (fun id _ => withTile c w.d (
      let x := s.getSess id
      let m := s.model x.part x.model
      let b := (c.rx w.b).toNat
      let d := s.locate (x.desc b)
      let len := 4 * o.rows * m.headDim
      withLoc (s.storeLoc v (bitAt w.f 4) (c.rx w.a) len) (fun l =>
        gated s v [dieOf (clusterOf t.core)] (estTicks (64 * m.kvheads * m.rowBytes) (tierRate d.tier))
          (withWalk s id b check (fun s =>
            let val := readValue (s.getSess id).st d (clusterOf t.core) (decide (o.layer < m.layers) && decide (64 * b < x.loadable b o.layer))
            let k := s.blk d.blk
            let old := s.locRead t.core l len
            let row : Nat → List W32 := fun j =>
              let g := (o.row0 + j) % m.qheads / (m.qheads / m.kvheads)
              let was := (List.range m.headDim).map (fun e => (BitVec.ofNat 32 (field old (4 * (j * m.headDim + e)) 4) : W32))
              outStep (s.free + 1000 * j) m.kvFmt (c.lane w.i j) was
                (((c.tileRow w.d j).zipIdx).map (fun e => (e.1, vRowVals m k (s.free + 1000 * j + e.2) o.layer g e.2)))
                (k.scale o.layer 1 g) m.headDim
            let bytes := (List.range o.rows).flatMap (fun j => (row j).flatMap (fun x => natLe 4 x.toNat))
            .next (startTag c w { tag := 0, value := val, engine := 1, sess := id, block := b, reads := val == 0 })
              ({ (if val = 0 then s.locWrite t.core l bytes else s) with free := s.free + 2 ^ 20 } : State))))))))

/-- The merge word (R271): rows, HEAD_DIM, the two space bits; none where a reserved value or bit is set. -/
def mergeWord (a : Nat) : Option (Nat × Nat × Bool × Bool) :=
  let rows := bits a 0 14
  let hd := bits a 14 9
  if 2 ^ 25 ≤ a ∨ rows = 0 ∨ 8192 < rows ∨ hd < 32 ∨ 256 < hd then none else some (rows, hd, bitAt a 23, bitAt a 24)

/-- AMRG (R271): each row of partial A becomes merge(A, B). -/
def execAmrg (t : Site) (w : GWord) (s : State) : Out3 :=
  whenUp s (fun s => issue s t 0x83 w { a := .x, b := .x, c := .x } (fun c v =>
    match mergeWord (c.rx w.c).toNat with
    | none => .fault 1
    | some (rows, hd, ac, bc) =>
      let len := recLen rows hd
      withLoc (s.spaceLoc v ac (c.rx w.a) len 1 true) (fun la =>
        withLoc (s.spaceLoc v bc (c.rx w.b) len 1 true) (fun lb =>
          let a := recIn rows hd (s.locRead t.core la len)
          let b := recIn rows hd (s.locRead t.core lb len)
          let ms := ((List.zip a b).zipIdx).map (fun e => mergePart (s.free + 10 * e.2) e.1.1 e.1.2)
          .next c (({ s with free := s.free + 2 ^ 20 } : State).locWrite t.core la (recOut hd ms))))))

/-- The bytes behind an output of a length up to its next 256-byte boundary, where the log-sum-exp values stand (R271). -/
def lseGap (a len : Nat) : Nat := 256 * ceilDiv (a + len) 256 - (a + len)

/-- AFIN (R271): the BF16 output and the log-sum-exp values of a partial. -/
def execAfin (t : Site) (w : GWord) (s : State) : Out3 :=
  whenUp s (fun s => issue s t 0x84 w { a := .x, b := .x, c := .x } (fun c v =>
    match mergeWord (c.rx w.c).toNat with
    | none => .fault 1
    | some (rows, hd, ac, bc) =>
      let n := 2 * rows * hd
      let gap := lseGap (c.rx w.b).toNat n
      withLoc (s.spaceLoc v ac (c.rx w.a) (recLen rows hd) 1 true) (fun la =>
        withLoc (s.storeLoc v bc (c.rx w.b) (n + gap + 4 * rows)) (fun lb =>
          let f := finOut s.free hd (recIn rows hd (s.locRead t.core la (recLen rows hd)))
          let was := s.locRead t.core lb (n + gap)
          .next c (({ s with free := s.free + 2 ^ 20 } : State).locWrite t.core lb (f.1 ++ was.drop n ++ f.2))))))

/-- APOST (R272): a partial is posted up the merge tree of the invocation's own request. -/
def execApost (t : Site) (w : GWord) (s : State) : Out3 :=
  whenUp s (fun s => issue s t 0x85 w { d := .x, a := .x, b := .x, c := .x, f := 0xF, tag := true } (fun c v =>
    match mergeWord (c.rx w.c).toNat with
    | none => .fault 1
    | some (rows, hd, ac, _) =>
      if (v.event ≠ 1 ∧ v.event ≠ 2) ∨ v.req ≠ (c.rx w.b).toNat ∨ v.cover = 0 then .fault 1
      else if !ac ∧ (c.rx w.a).toNat / 2 ^ 63 = 0 then .fault 4
      else match s.req? v.req with
        | none => .next (startTag (c.wx w.d 0) w { tag := 0, value := 0 }) s
        | some r =>
          withLoc (s.cwsLoc v (c.rx w.a) (recLen rows hd) 1 true) (fun l =>
            let o := s.post r v.row t.core v.level v.cover (s.locRead t.core l (recLen rows hd))
            let v1 := { v with
              level := o.level
              cover := if o.res = 0 ∨ o.res = 2 ^ 62 then 0 else o.cover
              granted := o.res == 2 ^ 62 }
            .next (startTag { (c.wx w.d (word o.res)) with inv := some v1 } w { tag := 0, value := 0 }) o.st)))

/-- AOUT (R273): the request's row group is answered. -/
def execAout (t : Site) (w : GWord) (s : State) : Out3 :=
  whenUp s (fun s => issue s t 0x86 w { a := .x, b := .x, c := .x } (fun c v =>
    let st := (c.rx w.c).toNat % 256
    match s.req? v.req with
    | none => .fault 1
    | some r =>
      if !v.granted ∨ v.answered ∨ v.req ≠ (c.rx w.b).toNat then .fault 1
      else
        let m := s.model r.part (s.getSess (hId r.handle)).model
        let rows := groupRows r v.row * m.qheads
        let n := 2 * rows * m.headDim
        let gap := lseGap (c.rx w.a).toNat n
        let c1 : Ctx := { c with inv := some { v with answered := true } }
        if st ≠ 0 then .next c1 (s.attAnswer r.id v.row st [] [])
        else withLoc (s.cwsLoc v (c.rx w.a) (n + gap + 4 * rows) 1 true) (fun l =>
          let b := s.locRead t.core l (n + gap + 4 * rows)
          .next c1 (s.attAnswer r.id v.row 0 (b.take n) (b.drop (n + gap))))))

/-- ATZ: every element of a tile set to 0. -/
def execAtz (t : Site) (w : GWord) (s : State) : Out3 :=
  whenUp s (fun s => issue s t 0x87 w { d := .t } (fun c _ => withTile c w.d (.next { c with tiles := tabSet c.tiles w.d [] } s)))

/-- ATLD: a tile from 16 KiB of LDM, row-major FP32. -/
def execAtld (t : Site) (w : GWord) (s : State) : Out3 :=
  whenUp s (fun s => issue s t 0x88 w { d := .t, a := .x } (fun c v => withTile c w.d (
    withLoc (s.ldmLoc v (c.rx w.a) 16384 1) (fun l =>
      let b := s.locRead t.core l 16384
      .next (c.setTile w.d [(chunks 4 4097 b).map (fun x => (BitVec.ofNat 32 (leNat x) : W32))]) s))))

/-- ATST: a tile to 16 KiB of LDM. -/
def execAtst (t : Site) (w : GWord) (s : State) : Out3 :=
  whenUp s (fun s => issue s t 0x89 w { d := .t, a := .x } (fun c v => withTile c w.d (
    withLoc (s.ldmLoc v (c.rx w.a) 16384 1) (fun l =>
      .next c (s.locWrite t.core l ((List.range 64).flatMap (fun j => (c.tileRow w.d j).flatMap (fun x => natLe 4 x.toNat))))))))

end Sys2Proof.Machine
end

