-- ==== Sys2Proof/Machine/ScaeshSort.lean ====
section
/-! DEFINITION. Scaesh sort, emit and text instructions (10_scaesh_instructions R274 to R282). -/

namespace Sys2Proof.Machine

/-! ### Sort (R274 to R276) -/

/-- The bytes of a sort array: 256 entries of 64 bits. -/
def sortBytes : Nat := 2048

/-- A sort array operand: 256-byte aligned, in LDM or CWS as F[4] gives. -/
def State.sortLoc (s : State) (v : Inv) (w : GWord) (a : Word) : Except Nat Loc := s.spaceLoc v (bitAt w.f 4) a sortBytes 256 false

/-- The entries of an array. -/
def sortIn (b : Bytes) : List Nat := (List.range 256).map (fun i => field b (8 * i) 8)

/-- The bytes of an array. -/
def sortOut (l : List Nat) : Bytes := l.flatMap (natLe 8)

/-- Entries in descending order. -/
def sortDesc (l : List Nat) : List Nat := listSort (fun a b => decide (b < a)) l

/-- Complete a sort operation on its tag: sort instructions of a context execute in issue order. -/
def sortTag (c : Ctx) (w : GWord) : Ctx := startTag c w { tag := 0, value := 0, engine := 2 }

/-- SKEY (R275): the composite keys of candidates. -/
def execSkey (t : Site) (w : GWord) (s : State) : Out3 :=
  whenUp s (fun s => issue s t 0x90 w
    { d := .x, a := .x, b := .x, c := .x, f := 0x1F, i := 0x1FF, tag := true, ok := decide (1 ≤ w.i) && decide (w.i ≤ 256) } (fun c v =>
    let n := w.i
    let base := (c.rx w.c).toNat
    let cws := bitAt w.f 4
    if 0x3FFFF < base + n - 1 then .fault 1
    else withLoc (s.sortLoc v w (c.rx w.d)) (fun ld =>
      withLoc (s.spaceLoc v cws (c.rx w.a) (4 * n) 1 false) (fun la =>
        withLoc (s.spaceLoc v cws (c.rx w.b) (ceilDiv n 8) 1 false) (fun lb =>
          let ys := s.locRead t.core la (4 * n)
          let mask := s.locRead t.core lb (ceilDiv n 8)
          let key : Nat → Nat := fun e =>
            let y : W32 := BitVec.ofNat 32 (field ys (4 * e) 4)
            if n ≤ e ∨ !bitAt (byteAt mask (e / 8)) (e % 8) ∨ isNanW y ∨ y = f32NegInf then 0 else composite (base + e) (adjusted y)
          .next (sortTag c w) (s.locWrite t.core ld (sortOut ((List.range 256).map key))))))))

/-- SSORT: an array sorted descending in place. -/
def execSsort (t : Site) (w : GWord) (s : State) : Out3 :=
  whenUp s (fun s => issue s t 0x91 w { a := .x, f := 0x1F, tag := true } (fun c v =>
    withLoc (s.sortLoc v w (c.rx w.a)) (fun l =>
      .next (sortTag c w) (s.locWrite t.core l (sortOut (sortDesc (sortIn (s.locRead t.core l sortBytes))))))))

/-- SMERGE: the 256 largest of A and B, descending, to A. -/
def execSmerge (t : Site) (w : GWord) (s : State) : Out3 :=
  whenUp s (fun s => issue s t 0x92 w { a := .x, b := .x, f := 0x1F, tag := true } (fun c v =>
    withLoc (s.sortLoc v w (c.rx w.a)) (fun la =>
      withLoc (s.sortLoc v w (c.rx w.b)) (fun lb =>
        let l := sortIn (s.locRead t.core la sortBytes) ++ sortIn (s.locRead t.core lb sortBytes)
        .next (sortTag c w) (s.locWrite t.core la (sortOut ((sortDesc l).take 256)))))))

/-- One stage of a bitonic network (R276). -/
def bitonic (j k : Nat) (asc : Bool) (l : List Nat) : List Nat :=
  (List.range 256).map (fun i =>
    let low := !bitAt i j
    let o := if low then i + 2 ^ j else i - 2 ^ j
    let desc := !xor (bitAt (if low then i else o) k) asc
    let a := l.getD i 0
    let b := l.getD o 0
    if low == desc then max a b else min a b)

/-- SSTAGE (R276). -/
def execSstage (t : Site) (w : GWord) (s : State) : Out3 :=
  whenUp s (fun s => issue s t 0x93 w
    { a := .x, f := 0x1F, i := 0xFF, tag := true, ok := decide (1 ≤ bits w.i 3 4) && decide (bits w.i 3 4 ≤ 8) } (fun c v =>
    withLoc (s.sortLoc v w (c.rx w.a)) (fun l =>
      .next (sortTag c w) (s.locWrite t.core l
        (sortOut (bitonic (bits w.i 0 3) (bits w.i 3 4) (bitAt w.i 7) (sortIn (s.locRead t.core l sortBytes))))))))

/-- SCNT: the nonzero entries of an array. -/
def execScnt (t : Site) (w : GWord) (s : State) : Out3 :=
  whenUp s (fun s => issue s t 0x94 w { d := .x, a := .x, f := 0x10 } (fun c v =>
    withLoc (s.sortLoc v w (c.rx w.a)) (fun l =>
      .next (c.wx w.d (word ((sortIn (s.locRead t.core l sortBytes)).filter (fun e => e != 0)).length)) s)))

/-! ### Emit and text (R277 to R282) -/

/-- The ESTN parameter block (R278). -/
structure EstnBlock where
  set : Nat
  profile : Nat
  state : Nat
  model : Nat
  fmt : Nat
  base : Nat
  count : Nat
  deriving DecidableEq, Repr

/-- Read a parameter block; none where a reserved bit or value is set. -/
def estnBlock (b : Bytes) : Option EstnBlock :=
  if field b 10 2 ≠ 0 ∨ 2 ^ 19 ≤ field b 12 4 ∨ 2 ^ 17 ≤ field b 16 4 ∨ field b 20 12 ≠ 0 ∨ 2 ≤ byteAt b 9 then none
  else some { set := field b 0 2, profile := field b 2 2, state := field b 4 4, model := byteAt b 8, fmt := byteAt b 9,
              base := field b 12 4, count := field b 16 4 }

/-- ESTN (R278): y and the candidate bit of each entry of a run of logits. -/
def execEstn (t : Site) (w : GWord) (s : State) : Out3 :=
  whenUp s (fun s => issue s t 0xA0 w { d := .x, a := .x, b := .x, c := .x, f := 0x1F, tag := true } (fun c v =>
    let cws := bitAt w.f 4
    withLoc (s.spaceLoc v cws (c.rx w.c) 32 1 false) (fun lp =>
      match estnBlock (s.locRead t.core lp 32) with
      | none => .fault 1
      | some e =>
        let vocab := (s.model v.part e.model).vocab
        match s.prof? v.part e.profile with
        | none => .next (startTag c w { tag := 0, value := Status.formatInvalid.code }) s
        | some pr =>
          if (e.set ≠ 0 ∧ (s.set? v.part e.set).isNone) ∨ vocab = 0 ∨ e.count = 0 ∨ 65536 < e.count ∨ 262144 < e.base + e.count then
            .next (startTag c w { tag := 0, value := Status.formatInvalid.code }) s
          else
            let sz := if e.fmt = 0 then 2 else 4
            withLoc (s.spaceLoc v cws (c.rx w.d) (4 * e.count) 1 false) (fun ly =>
              withLoc (s.spaceLoc v cws (c.rx w.a) (sz * e.count) 1 false) (fun ll =>
                withLoc (s.spaceLoc v cws (c.rx w.b) (ceilDiv e.count 8) 1 false) (fun lm =>
                  let lg := s.locRead t.core ll (sz * e.count)
                  let logit : Nat → W32 := fun i =>
                    if e.fmt = 0 then BitVec.ofNat 32 (field lg (2 * i) 2 * 2 ^ 16) else BitVec.ofNat 32 (field lg (4 * i) 4)
                  let ys := (List.range e.count).flatMap (fun i => natLe 4 (biased pr (e.base + i) (logit i)).toNat)
                  let cand : Nat → Bool := fun i => decide (i < e.count) && decide (e.base + i < vocab) &&
                    (candidate pr (s.allows v.part e.set e.state (e.base + i)) (e.base + i) (logit i)).isSome
                  let mask := (List.range (ceilDiv e.count 8)).map (fun k =>
                    byte ((List.range 8).foldl (fun n j => n + b2n (cand (8 * k + j)) * 2 ^ j) 0))
                  .next (startTag c w { tag := 0, value := 0 }) ((s.locWrite t.core ly ys).locWrite t.core lm mask)))))))

/-- EPHX (R279): Philox4x32-10, the key with the partition secret where SECRET is set. -/
def execEphx (t : Site) (w : GWord) (s : State) : Out3 :=
  whenUp s (fun s => issue s t 0xA1 w { d := .x, a := .x, b := .x, c := .x, f := 1 } (fun c v =>
    let k0 := (c.rx w.a).toNat
    let k := if bitAt w.f 0 then Nat.xor k0 ((s.getPart v.part).secret % 2 ^ 64) else k0
    let b := (c.rx w.b).toNat
    let d := (c.rx w.c).toNat
    let r := philox (b % 2 ^ 32) (b / 2 ^ 32) (d % 2 ^ 32) (d / 2 ^ 32) (k % 2 ^ 32) (k / 2 ^ 32)
    .next (c.wx w.d (word (r.1.toNat + r.2.1.toNat * 2 ^ 32))) s))

/-- ECMT (R280, R226): the drawn token goes back to the emit block; one that is no candidate faults with EMIT_TOKEN. -/
def execEcmt (t : Site) (w : GWord) (s : State) : Out3 :=
  whenUp s (fun s => issue s t 0xA2 w { a := .x } (fun c v =>
    let tok := (c.rx w.a).toNat
    if v.event ≠ 4 ∨ v.ecmt then .fault 1
    else match (s.getSess v.sess).step with
      | none => .fault 11
      | some st =>
        if st.emit.cands.any (fun e => e.1 == tok) then
          .next { c with inv := some { v with ecmt := true } }
            ((s.modEmitStep v.sess (fun e => { e with drawn := some tok })).commit v.sess tok)
        else .fault 11))

/-- All ones. -/
def allOnes64 : Word := BitVec.allOnes 64

/-- EDTK (R281): the bytes of a token. -/
def execEdtk (t : Site) (w : GWord) (s : State) : Out3 :=
  whenUp s (fun s => issue s t 0xA3 w { d := .x, a := .x, b := .x, c := .x, f := 0x10 } (fun c v =>
    let tok := (c.rx w.a).toNat
    let model := (c.rx w.b).toNat
    match (if model < 255 then s.tok? v.part model else none) with
    | none => .next (c.wx w.d allOnes64) s
    | some g =>
      if g.h.vocab ≤ tok then .next (c.wx w.d allOnes64) s
      else
        let b := if g.special tok then [] else g.str tok
        if b.isEmpty then .next (c.wx w.d 0) s
        else withLoc (s.spaceLoc v (bitAt w.f 4) (c.rx w.c) b.length 1 false) (fun l =>
          .next (c.wx w.d (word b.length)) (s.locWrite t.core l b))))

/-- ESEAM (R282): one seam step on a seam buffer. -/
def execEseam (t : Site) (w : GWord) (s : State) : Out3 :=
  whenUp s (fun s => issue s t 0xA4 w { d := .x, a := .x, b := .x, c := .x, f := 0x10, i := 0xFF, ok := decide (w.i ≤ 128) } (fun c v =>
    let a := (c.rx w.b).toNat
    let set := a % 2 ^ 16
    let cws := bitAt w.f 4
    if 2 ^ 17 ≤ a then .fault 1
    else withLoc (s.spaceLoc v cws (c.rx w.a) 256 256 false) (fun lb =>
      withLoc (s.spaceLoc v cws (c.rx w.c) w.i 1 false) (fun ln =>
        let buf := s.locRead t.core lb 256
        let n := byteAt buf 0
        match (if set = 0 then none else tabGet? s.text.stops (v.part * 65536 + set)) with
        | none => .next (c.wx w.d allOnes64) s
        | some stops =>
          if 63 < n then .next (c.wx w.d allOnes64) s
          else
            let o := seamStep (slice buf 1 n) (s.locRead t.core ln w.i) stops (bitAt a 16)
            let out := natLe 1 o.held.length ++ o.held ++ (buf.drop (1 + o.held.length)).take (63 - o.held.length) ++ o.out ++
              buf.drop (64 + o.out.length)
            let res := o.out.length % 256 + b2n o.hit.isSome * 2 ^ 8 + o.hit.getD 0 % 8 * 2 ^ 9
            .next (c.wx w.d (word res)) (s.locWrite t.core lb (out.take 256))))))

/-- ENEXT (R277): NEXT of a state for a token's class in a set, all ones where there is none. -/
def execEnext (t : Site) (w : GWord) (s : State) : Out3 :=
  whenUp s (fun s => issue s t 0xA5 w { d := .x, a := .x, b := .x, c := .x } (fun c v =>
    let set := (c.rx w.c).toNat
    let r := match (if set < 65536 then s.set? v.part set else none) with
      | none => none
      | some g => stencilNext g.img (c.rx w.a).toNat (c.rx w.b).toNat
    .next (c.wx w.d (match r with
      | some n => word n
      | none => allOnes64)) s))

end Sys2Proof.Machine
end

