-- ==== Sys2Proof/Machine/ScaeshSync.lean ====
section
/-! DEFINITION. Scaesh directory search, host DMA, messaging, doorbells and synchronisation (10_scaesh_instructions R283 to R290), and the
completion of tags (R251). -/

namespace Sys2Proof.Machine

/-! ### Directory search (R284) -/

/-- The key record of DSRCH. -/
structure DirKey where
  domain : Nat
  model : Nat
  select : Nat
  parent : Nat
  row : Nat
  chain : Nat
  deriving DecidableEq, Repr

/-- Read a key record; none where a reserved bit is set. -/
def dirKey (b : Bytes) : Option DirKey :=
  if 16 ≤ byteAt b 3 ∨ 2 ^ 18 ≤ field b 4 4 ∨ field b 12 4 ≠ 0 then none
  else some { domain := field b 0 2, model := byteAt b 2, select := byteAt b 3, parent := field b 4 4, row := field b 8 4,
              chain := field b 16 16 }

/-- Whether a slot matches a key (R284): DOMAIN always, the other fields as selected. -/
def DirKey.hits (k : DirKey) (x : Slot) : Bool :=
  x.valid && x.domain == k.domain && (!bitAt k.select 0 || x.model == k.model) && (!bitAt k.select 1 || x.parent == k.parent) &&
    (!bitAt k.select 2 || x.chain == k.chain)

/-- DSRCH (R284). -/
def execDsrch (t : Site) (w : GWord) (s : State) : Out3 :=
  whenUp s (fun s => issue s t 0xB0 w { a := .x, b := .x, f := 0xF, tag := true } (fun c v =>
    withLoc (s.ldmLoc v (c.rx w.a) 32 1) (fun la =>
      withLoc (s.ldmLoc v (c.rx w.b) 16 1) (fun lb =>
        match dirKey (s.locRead t.core la 32) with
        | none => .fault 1
        | some k =>
          let p := s.getPart v.part
          if k.domain = 0 ∨ !s.domBound v.part k.domain then .next (startTag c w { tag := 0, value := Status.domainDenied.code }) s
          else if !bitAt k.select 3 ∧ p.rows ≤ k.row then .next (startTag c w { tag := 0, value := Status.formatInvalid.code }) s
          else
            let here : Nat → Bool := fun row =>
              if bitAt k.select 3 then decide (p.rowBase ≤ row) && decide (row < p.rowBase + p.rows) else row == p.rowBase + k.row
            let hs := s.dir.slots.filter (fun x => here (x.1 / 64) && k.hits x.2)
            let first := match hs with
              | [] => 0
              | x :: _ => x.2.ix + 2 ^ 31
            .next (startTag c w { tag := 0, value := 0 })
              (s.locWrite t.core lb (natLe 4 hs.length ++ natLe 4 first ++ natLe 8 0))))))

/-! ### Host DMA (R285) -/

/-- The buffer of an invocation's CALL: address, length, queue set. -/
def State.callBuf (s : State) (v : Inv) : Option (Nat × Nat × Nat) :=
  if v.event ≠ 0 then none else (s.cores.calls.find? (fun c => c.id == v.call)).map (fun c => (c.bufAddr, c.bufLen, c.qk))

/-- HRD (R285): bytes of the CALL's buffer to LDM or CWS; `data` is what the host's memory holds there. -/
def execHrd (t : Site) (w : GWord) (data : Bytes) (s : State) : Out3 :=
  whenUp s (fun s => issue s t 0xB1 w { a := .x, b := .x, c := .x, f := 0x1F, tag := true } (fun c v =>
    let off := (c.rx w.b).toNat
    let len := (c.rx w.c).toNat
    if v.cls = .control then .fault 9
    else match s.callBuf v with
      | none => .fault 8
      | some (_, n, _) =>
        if n < off + len then .fault 8
        else withLoc (s.spaceLoc v (bitAt w.f 4) (c.rx w.a) len 1 false) (fun l =>
          gated s v [dieOf (clusterOf t.core)] (estTicks len 6000) (.next (startTag c w { tag := 0, value := 0 }) (s.locWrite t.core l (fit 0 len data))))))

/-- HWR (R285): bytes of LDM or CWS to the CALL's buffer. -/
def execHwr (t : Site) (w : GWord) (s : State) : Out3 :=
  whenUp s (fun s => issue s t 0xB2 w { a := .x, b := .x, c := .x, f := 0x1F, tag := true } (fun c v =>
    let off := (c.rx w.b).toNat
    let len := (c.rx w.c).toNat
    if v.cls = .control then .fault 9
    else match s.callBuf v with
      | none => .fault 8
      | some (addr, n, qk) =>
        if n < off + len then .fault 8
        else withLoc (s.spaceLoc v (bitAt w.f 4) (c.rx w.a) len 1 false) (fun l =>
          gated s v [dieOf (clusterOf t.core)] (estTicks len 6000) (.next (startTag c w { tag := 0, value := 0, engine := 3 })
            (s.emitOut (.hostWrite (fnPort (qk / 64)) (addr + off) (s.locRead t.core l len)))))))

/-! ### Core messages (R287) -/

/-- The key of a channel: core, context, channel. -/
def chanKey (core ctx n : Nat) : Nat := core * 64 + ctx * 16 + n

/-- The messages of a channel. -/
def State.chan (s : State) (k : Nat) : List CoreMsg := tabGet [] s.cores.chans k

/-- Put a message into a channel, or hold the send until a slot frees. -/
def State.putMsg (s : State) (k mark : Nat) (m : CoreMsg) : State :=
  if (s.chan k).length < 8 ∧ !s.cores.sends.any (fun d => d.chan == k) then
    s.modCores (fun z => { z with chans := tabSet z.chans k (tabGet [] z.chans k ++ [m]) })
  else s.modCores (fun z => { z with sends := z.sends ++ [{ mark := mark, chan := k, msg := m }] })

/-- Take the oldest message of a channel; the oldest send held for it takes the slot. -/
def State.takeChan (s : State) (k : Nat) : Option (CoreMsg × State) :=
  match s.chan k with
  | [] => none
  | m :: rest =>
    let s1 := s.modCores (fun z => { z with chans := tabPut [] z.chans k rest })
    match s.cores.sends.find? (fun d => d.chan == k) with
    | none => some (m, s1)
    | some d => some (m, s1.modCores (fun z => { z with
        chans := tabSet z.chans k (rest ++ [d.msg])
        sends := z.sends.filter (fun x => x.mark != d.mark) }))

/-- MSEND (R287): a 64-byte message to the same context of another core; a target outside the partition completes the tag with
FORMAT_INVALID. -/
def execMsend (t : Site) (w : GWord) (s : State) : Out3 :=
  whenUp s (fun s => issue s t 0xC0 w { a := .x, b := .x, f := 0xF, i := 0xF, tag := true } (fun c v =>
    withLoc (s.ldmLoc v (c.rx w.b) 64 1) (fun l =>
      let core := (c.rx w.a).toNat
      if !(s.coresOf v.part).contains core then .next (startTag c w { tag := 0, value := Status.formatInvalid.code }) s
      else
        let mk := s.newMark
        let m : CoreMsg := { core := t.core, inv := v.id, prog := v.prog, part := v.part, data := s.locRead t.core l 64 }
        .next (startTag c w { tag := 0, value := 0, engine := 3, mark := mk.1 }) (mk.2.putMsg (chanKey core t.ctx w.i) mk.1 m))))

/-- Receive from a channel: what an empty one does is `empty`. -/
def recvMsg (s : State) (t : Site) (w : GWord) (op : Nat) (empty : Ctx → Eff) : State :=
  issue s t op w { d := .x, a := .x, i := 0xF } (fun c v =>
    withLoc (s.ldmLoc v (c.rx w.a) 64 1) (fun l =>
      match s.takeChan (chanKey t.core t.ctx w.i) with
      | none => empty c
      | some (m, s1) => .next (c.wx w.d (word (m.core + m.inv * 2 ^ 32))) (s1.locWrite t.core l m.data)))

/-- MRECV (R287): waits for a message. -/
def execMrecv (t : Site) (w : GWord) (s : State) : Out3 := whenUp s (fun s => recvMsg s t w 0xC1 (fun _ => .stay))

/-- MPOLL (R287): all ones when the channel is empty. -/
def execMpoll (t : Site) (w : GWord) (s : State) : Out3 :=
  whenUp s (fun s => recvMsg s t w 0xC2 (fun c => .next (c.wx w.d allOnes64) s))

/-! ### Link messages and doorbells (R288, R289) -/

/-- The virtual channel of an invocation's link messages (R288). -/
def Inv.vc (v : Inv) : Nat :=
  match v.cls with
  | .emit => 1
  | .decode => 1
  | _ => if v.gate = .bulk then 3 else 2

/-- The port an LSEND names (R288): that of the message that started an event, or one bound to the partition. -/
def State.sendPort (s : State) (v : Inv) (a : Word) : Option Nat :=
  if a = allOnes64 then
    if v.event = 0 then none
    else if v.event = 4 then (s.getSess v.sess).step.map (fun st => st.emit.port)
    else (s.req? v.req).map (·.port)
  else if a.toNat < 16 ∧ s.portPart a.toNat = some v.part then some a.toNat
  else none

/-- LSEND (R288): one CTRL message of subtype APP; the tag completes when it has left the port. -/
def execLsend (t : Site) (w : GWord) (s : State) : Out3 :=
  whenUp s (fun s => issue s t 0xC3 w { a := .x, b := .x, c := .x, f := 0xF, tag := true } (fun c v =>
    let n := (c.rx w.b).toNat
    if v.cls = .control then .fault 9
    else match (if n = 0 ∨ 4096 < n then none else s.sendPort v (c.rx w.c)) with
      | none => .next (startTag c w { tag := 0, value := Status.formatInvalid.code }) s
      | some port => withLoc (s.ldmLoc v (c.rx w.a) n 1) (fun l =>
        gated s v [dieOf (clusterOf t.core)] (estTicks n 10000) (
          let mk := s.newMark
          let m := ctrlMsg v.vc 2 0 0 (natLe 1 t.core ++ natLe 3 0 ++ natLe 4 v.id ++ natLe 2 n) (s.locRead t.core l n)
          .next (startTag c w { tag := 0, value := 0, engine := 3, mark := mk.1 }) (mk.2.send port { m with mark := mk.1 })))))

/-- DBELL (R289): a NOTIFY completion for the CALL; it waits while the ring has no unreserved entry. In an event invocation the tag
completes with BAD_STATE. -/
def execDbell (t : Site) (w : GWord) (s : State) : Out3 :=
  whenUp s (fun s => issue s t 0xC4 w { a := .x, f := 0xF, tag := true } (fun c v =>
    match s.callBuf v with
    | none => .next (startTag c w { tag := 0, value := Status.badState.code }) s
    | some (_, _, qk) =>
      let mk := s.newMark
      let b : PendBell := { mark := mk.1, qk := qk, cid := 0, inv := v.id, member := v.member, value := (c.rx w.a).toNat }
      .next (startTag c w { tag := 0, value := 0, engine := 3, mark := mk.1 })
        ((mk.2.modCores (fun k => { k with bells := k.bells ++ [b] })).flushCpl qk 1000)))

/-! ### Tags (R251, R290) -/

/-- TWAIT: waits for the tag; x[D] = its completion value. -/
def execTwait (t : Site) (w : GWord) (s : State) : Out3 :=
  whenUp s (fun s => issue s t 0xD0 w { d := .x, f := 0xF } (fun c _ =>
    if c.tagBusy (w.f % 16) then .stay else .next (c.wx w.d (word (c.tagVal (w.f % 16)))) s))

/-- TPOLL: the completion value, or 0xFF while pending. -/
def execTpoll (t : Site) (w : GWord) (s : State) : Out3 :=
  whenUp s (fun s => issue s t 0xD1 w { d := .x, f := 0xF } (fun c _ =>
    .next (c.wx w.d (if c.tagBusy (w.f % 16) then 0xFF else word (c.tagVal (w.f % 16)))) s))

/-- Whether what a tag waits for has not left yet: a frame in egress, a held store, a held message, a held NOTIFY. -/
def State.markOpen (s : State) (m : Nat) : Bool :=
  m != 0 && (s.link.ports.any (fun p => [p.2.vc0, p.2.vc1, p.2.vc2, p.2.vc3].any (fun v => v.egress.any (fun x => x.mark == m))) ||
    s.att.held.any (fun k => k.mark == m) || s.cores.sends.any (fun d => d.mark == m) || s.cores.bells.any (fun b => b.mark == m))

/-- TAG_COMPLETE (R251): the operation of a tag completes and its value is set. AME and sort operations of a context complete in
issue order (R252). -/
def execTagComplete (core ctx tag : Nat) (s : State) : Out3 :=
  whenUp s (fun s =>
    let t : Site := ⟨core, ctx⟩
    let c := s.ctxAt t
    match c.ops.find? (fun o => o.tag == tag) with
    | none => s
    | some o =>
      let before := c.ops.takeWhile (fun x => x != o)
      if s.markOpen o.mark ∨ ((o.engine = 1 ∨ o.engine = 2) ∧ before.any (fun x => x.engine == o.engine)) then s
      else s.setCtxAt t { c with ops := listDropFirst (fun x => x == o) c.ops, tags := tabPut 0 c.tags tag o.value })

/-! ### Fences, barriers, beats and gates (R243, R290) -/

/-- FENCEC: the context's LDM and CWS stores are visible to the cluster; a store is visible at once in this model. -/
def execFencec (t : Site) (w : GWord) (s : State) : Out3 := whenUp s (fun s => issue s t 0xD2 w {} (fun c _ => .next c s))

/-- FENCED: waits until the context's block stores, messages, link sends and host writes have completed. -/
def execFenced (t : Site) (w : GWord) (s : State) : Out3 :=
  whenUp s (fun s => issue s t 0xD3 w {} (fun c _ => if c.ops.any (fun o => o.engine == 3) then .stay else .next c s))

/-- The sites of every running invocation that shares a barrier with an invocation: the CALL's members; for an event the invocations
of the same request or step. -/
def State.barPeers (s : State) (v : Inv) : List Site :=
  s.cores.core.flatMap (fun k => [0, 1, 2, 3].filterMap (fun i =>
    match (k.2.ctx i).inv with
    | some u =>
      if u.event = 0 ∧ v.event = 0 ∧ u.call = v.call then some ⟨k.1, i⟩
      else if v.event ≠ 0 ∧ u.event ≠ 0 ∧ (if v.event = 4 then u.event = 4 ∧ u.sess = v.sess else u.event ≠ 4 ∧ u.req = v.req) then
        some ⟨k.1, i⟩
      else none
    | none => none))

/-- The members a barrier waits for (R243, R290): the cores of a CALL's set, those of the cluster for a cluster barrier; for an event the
invocations of its request or step that run or are still to come. -/
def State.barNeed (s : State) (v : Inv) (core : Nat) (part : Bool) : Nat :=
  if v.event = 0 then
    match s.cores.calls.find? (fun c => c.id == v.call) with
    | some c => (c.cores.filter (fun k => part || k / 8 == core / 8)).length
    | none => 0
  else
    let here : Nat → Bool := fun cl => part || cl == core / 8
    let due : Nat := if v.event = 4 then 0
      else
        sumOf (fun (q : Nat × List AttItem) => if here (q.1 / 8) then (q.2.filter (fun i => i.req == v.req)).length else 0)
          (s.att.decodeQ ++ s.att.prefillQ) +
        (((s.req? v.req).map (fun r => r.todo)).getD []).countP (fun u => here u.cluster)
    ((s.barPeers v).filter (fun p => here (p.core / 8))).length + due

/-- Release a context that waits: it retires its instruction and runs on, or is suspended at its next one (R230). -/
def State.release (s : State) (t : Site) : State :=
  let c := s.ctxAt t
  if c.inv.any (·.susp) then
    ((s.setCtxAt t { c with st := .suspended, pc := c.pc + 1, inv := c.inv.map (fun v => { v with susp := false }) }).retire t).bump
      .coreSuspends t.core
  else (s.setCtxAt t { c with st := .running, pc := c.pc + 1 }).retire t

/-- Arrive at a barrier (R243): the last member to arrive releases the others. A member of a CALL in which another has faulted or
been cancelled ends with CANCELLED. -/
def barrier (s : State) (t : Site) (w : GWord) (op : Nat) (part : Bool) : State :=
  issue s t op w { i := 7 } (fun c v =>
    let broken := match s.cores.calls.find? (fun k => k.id == v.call) with
      | some k => v.event == 0 && k.broken
      | none => false
    if broken then .stop (s.barMember v) Status.cancelled.code
    else if part ∧ c.ops.any (fun o => o.engine == 3) then .stay
    else
      let there := (s.barPeers v).filter (fun p => p != t && (s.ctxAt p).st == .waitBar part w.i &&
        (part || p.core / 8 == t.core / 8))
      if s.barNeed v t.core part ≤ there.length + 1 then .next c (there.foldl State.release s)
      else .hold { c with st := .waitBar part w.i } s)

/-- BARC: the cluster barrier. -/
def execBarc (t : Site) (w : GWord) (s : State) : Out3 := whenUp s (fun s => barrier s t w 0xD4 false)

/-- BARP: the partition barrier. -/
def execBarp (t : Site) (w : GWord) (s : State) : Out3 := whenUp s (fun s => barrier s t w 0xD5 true)

/-- WBEAT (R243): waits for tick 0 of the next beat, or for the end of a beat hold. -/
def execWbeat (t : Site) (w : GWord) (s : State) : Out3 :=
  whenUp s (fun s => issue s t 0xD6 w {} (fun c _ => .hold { c with st := .waitBeat } s))

/-- A window class of I[1:0]. -/
def winOfI : Nat → Window
  | 0 => .decode
  | 1 => .prefill
  | _ => .bulk

/-- WWIN (R243): waits until the window opens; goes on at once where it is open. -/
def execWwin (t : Site) (w : GWord) (s : State) : Out3 :=
  whenUp s (fun s => issue s t 0xD7 w { i := 3, ok := decide (w.i < 3) } (fun c v =>
    if (s.pwin v.part).win = winOfI w.i then .next c s else .hold { c with st := .waitWin (winOfI w.i) } s))

/-- WLEFT (R290): ticks until the window closes if it is open, else 0; bulk work counts to tick P. -/
def execWleft (t : Site) (w : GWord) (s : State) : Out3 :=
  whenUp s (fun s => issue s t 0xD8 w { d := .x, i := 3, ok := decide (w.i < 3) } (fun c v =>
    let p := s.pwin v.part
    let left := if p.win ≠ winOfI w.i then 0
      else match p.win with
        | .decode => p.d - s.beat.tick
        | .prefill => p.d + p.f - s.beat.tick
        | .bulk => s.beat.period - s.beat.tick
    .next (c.wx w.d (word (s.coarseTick v.part left))) s))

/-- GDECL (R290): the gate class of later gated issues; only prefill and bulk invocations may declare one. -/
def execGdecl (t : Site) (w : GWord) (s : State) : Out3 :=
  whenUp s (fun s => issue s t 0xD9 w { i := 3, ok := w.i == 1 || w.i == 2 } (fun c v =>
    match v.cls with
    | .prefill | .bulk => .next { c with inv := some { v with gate := if w.i = 1 then .prefill else .bulk } } s
    | _ => .fault 1))

end Sys2Proof.Machine
end

