-- ==== Sys2Proof/Machine/Beat.lean ====
section
/-! DEFINITION. The beat, its windows and the step scheduler (06_beat_and_windows; 03_state_fabric R88; 09_scaesh R230): BEAT, BEAT_TICK0,
ROSTER, PREFILL_WINDOW_OPEN, BULK_WINDOW_OPEN, SYNTHETIC_BEAT, BEAT_HOLD, RESYNC, BEAT_NOW_READ, STALL_TIMEOUT, CARRY_LIMIT. -/

namespace Sys2Proof.Machine

/-! ### Time -/

/-- The tick counter's last value: it saturates there (R156). -/
def tickMax : Nat := 0xFFFFFFFE

/-- Let data-plane ticks pass: the beat's tick counter rises, pending beats come nearer. -/
def State.pass (s : State) (n : Nat) : State :=
  { s with
    tick := s.tick + n
    beat := { s.beat with
      tick := min tickMax (s.beat.tick + n)
      pend := s.beat.pend.map (fun b => { b with left := b.left - n }) } }

/-- Let time pass until a tick of the beat; no time passes where the tick has come. DESIGN CHOICE: 25 (an event of a tick brings
its tick with it). -/
def State.passTo (s : State) (n : Nat) : State := s.pass (n - s.beat.tick)

/-! ### Partitions in a beat -/

/-- The partitions that exist. -/
def State.partList (s : State) : List Nat := (s.part.parts.filter (fun p => p.2.st != .none_)).map (·.1)

/-- Whether a partition's decode and prefill windows stay closed from the next tick 0 on: a recomposition concerns it
(14_partitions R378), or in composable mode it has lost a die (16 R434). -/
def State.quiescing (s : State) (p : Nat) : Bool :=
  (s.part.composable && s.dieLost p) ||
  (match s.part.recomp with
   | some r => r.stage != .switched && r.recs.any (fun q => q.part == p)
   | none => false)

/-- Whether decode work of a partition is queued or running on its cores (R163). -/
def State.decodeLeft (s : State) (p : Nat) : Bool :=
  (s.coresOf p).any (fun c => !(tabGet [] s.att.decodeQ c).isEmpty ||
    [0, 1, 2, 3].any (fun k => ((s.core c).ctx k).inv.any (fun v => v.event == 1)))

/-- Change a partition's windows. -/
def State.modWin (s : State) (p : Nat) (f : PWin → PWin) : State := s.modBeat (fun b => { b with wins := tabMod {} b.wins p f })

/-- The decode window of a partition closes with decode work left: the beat counts once in SCHED_OVERRUN (R163). -/
def State.countOverrun (s : State) (p : Nat) : State :=
  if (s.pwin p).win = .decode ∧ !(s.pwin p).overrun ∧ s.decodeLeft p then
    (s.modWin p (fun w => { w with overrun := true })).bump .schedOverrun p
  else s

/-- The window lengths d and f of R159 for a SCHED_WIN value and a period. -/
def winLens (win period : Nat) : Nat × Nat :=
  let bm := min (bits win 48 16) (period / 2)
  let d := min (bits win 0 24) (period - bm)
  (d, min (bits win 24 24) (period - bm - d))

/-- A partition's bulk window opens: its flash channels' buffers have room and data again (R161). -/
def State.freshBulk (s : State) (p : Nat) : State := s.modFab (fun b => { b with chanWait := b.chanWait.filter (fun c => c / 32 != p) })

/-- Size a partition's windows at tick 0 and open its decode window (R159); a partition that a recomposition quiesces has bulk
window throughout. -/
def State.openWindows (s : State) (p : Nat) : State :=
  if s.quiescing p then (s.modWin p (fun _ => {})).freshBulk p
  else
    let l := winLens (s.reg .schedWin p) s.beat.period
    s.modWin p (fun _ => { d := l.1, f := l.2, win := .decode })

/-! ### Scaesh contexts and windows (09_scaesh R230, R243) -/

/-- The sites of every context the cores list. -/
def State.sites (s : State) : List Site := s.cores.core.flatMap (fun c => [0, 1, 2, 3].map (fun k => (⟨c.1, k⟩ : Site)))

/-- Release the contexts in a waiting state whose invocation meets a test. -/
def State.releaseIf (s : State) (st : CtxSt) (f : Inv → Bool) : State :=
  s.sites.foldl (fun s t => if (s.ctxAt t).st = st ∧ (s.ctxAt t).inv.any f then s.release t else s) s

/-- Suspend the invocations that CALLs started in some partitions and whose gate class is prefill or bulk (09_scaesh R230, 10 R290); one that
waits is suspended at the end of its wait. -/
def State.suspendIf (s : State) (f : Nat → Bool) : State :=
  s.sites.foldl (fun s t =>
    let c := s.ctxAt t
    if !c.inv.any (fun v => v.event == 0 && (v.gate == .prefill || v.gate == .bulk) && f v.part) then s
    else match c.st with
      | .running => (s.setCtxAt t { c with st := .suspended }).bump .coreSuspends t.core
      | .waitBeat | .waitWin _ | .waitBar _ _ => s.setCtxAt t { c with inv := c.inv.map (fun v => { v with susp := true }) }
      | _ => s) s

/-- Resume a partition's suspended invocations of a gate class. -/
def State.resumeIf (s : State) (p : Nat) (cls : InvClass) : State :=
  s.sites.foldl (fun s t =>
    let c := s.ctxAt t
    if !c.inv.any (fun v => v.part == p && v.gate == cls) then s
    else s.setCtxAt t { c with st := if c.st = .suspended then .running else c.st, inv := c.inv.map (fun v => { v with susp := false }) }) s

/-! ### The float at tick 0 (R161) -/

/-- Units that have ended are copied; a unit that the decode window catches is abandoned and stays at the head of its queue, and so is a read
for a checkpoint. -/
def State.abandonUnits (s : State) : State :=
  let s1 := s.fab.float.foldl (fun s f =>
    if !f.running || s.quiescing f.part then s
    else if f.until_ ≤ s.tick then s.unitOver f
    else (s.setReq f { f with running := false, head := true }).bump .gateBulkAbort f.part) s
  s1.ckReads.foldl (fun s r =>
    if !r.running || s.quiescing r.part then s
    else if r.until_ ≤ s.tick then s.readOver r
    else (s.modReads (listMod (fun q => q == r) (fun q => { q with running := false }))).bump .gateBulkAbort r.part) s1

/-! ### The scheduler (R164, R165, R167) -/

/-- Whether a session is eligible for the partition's step (R164). -/
def State.eligibleStep (s : State) (x : Sess) : Bool :=
  x.st == .running && decide (x.pend ≤ 1) && !x.cancelReq && !x.kvsvc && x.step.isNone &&
    !x.pages.any (fun d => d.valid && decide (2 ≤ (s.locate d).tier)) && !s.quiescing x.part && !s.dieLost x.part && !s.beat.hold && !s.beat.none_ &&
    decide (0 < bits (s.reg .schedCfg x.part) 0 13)

/-- Whether a session is due (R165): its DEADLINE is reached, or it was left out AGE beats in a row. -/
def State.due (s : State) (x : Sess) : Bool :=
  (x.deadline != 0 && decide (x.deadline ≤ s.now)) || decide (bits (s.reg .schedCfg x.part) 16 8 ≤ x.leftOut)

/-- The scheduler's key (R165). -/
def State.admitKey (s : State) (id : Nat) (x : Sess) : List Nat :=
  [if s.due x then 0 else 1, 15 - x.prio, if x.deadline = 0 then 2 ^ 48 else x.deadline, x.lastStep, id]

/-- Admit a session to a step (R37, R165): its position is LENGTH; the profile in force is kept with the step, profile 0 where
its own is not loaded (07_sampling R184). -/
def State.admitStep (s : State) (id : Nat) : State :=
  let x := s.getSess id
  let pr := s.prof? x.part x.profile
  let s1 := s.modSess id (fun x => { x with
    leftOut := 0
    lastStep := s.now
    step := some { emitOnly := x.pend == 0, position := x.length, beat := s.now, profile := pr.getD profile0 } })
  let s2 := s1.bump .schedAdmitted x.part
  let s3 := if x.pend = 0 then s2.bump .schedEmitOnly x.part else s2
  if pr.isNone then s3.bump .emitProfMissing x.part else s3

/-- A step's stall has reached SF_STALL_LIMIT (03_state_fabric R88). -/
def State.stallOver (s : State) (x : Sess) (st : InStep) : Bool :=
  st.stall.isSome && decide (st.stallBeat + bits (s.reg .sfStallLimit x.part) 0 8 ≤ s.now)

/-- A step that waits on the accelerator, or whose TOKEN_OUT was dropped with its port (13 R354), has reached CARRY_LIMIT (R167): the beat's
number is its admission's plus CARRY_LIMIT or above (DESIGN CHOICE: 90). -/
def State.carryOver (s : State) (id : Nat) (x : Sess) (st : InStep) : Bool :=
  st.stall.isNone && !(st.committed && s.tokenWaits (handleOf id x)) && decide (st.beat + bits (s.reg .schedCfg x.part) 24 8 ≤ s.now)

/-- Carry a partition's open steps into the new beat (R167), but those that are taken out at its start: each is counted at its first
carry. -/
def State.carry (s : State) (p : Nat) : List Nat × State :=
  let old := (s.roster p).steps.filter (fun id =>
    let x := s.getSess id
    x.step.any (fun st => !s.stallOver x st && !s.carryOver id x st))
  (old, old.foldl (fun s id =>
    match (s.getSess id).step with
    | some st =>
      let s1 := s.modSess id (fun x => { x with step := some { st with carried := true } })
      if st.carried then s1 else s1.bump .schedCarry p
    | none => s) s)

/-- Build a partition's roster at tick 0 (R164 to R167). -/
def State.buildRoster (s : State) (p : Nat) : State :=
  let (old, s1) := s.carry p
  let max_ := bits (s.reg .schedCfg p) 0 13
  let cands := (s1.live p).filter (fun x => s1.eligibleStep x.2)
  let order := listSort (fun (a b : List Nat × Nat) => lexLt a.1 b.1) (cands.map (fun x => (s1.admitKey x.1 x.2, x.1)))
  let take := (order.take (max_ - old.length)).map (·.2)
  let left := (order.drop (max_ - old.length)).map (·.2)
  let s2 := (s1.live p).foldl (fun s x =>
    if cands.any (fun c => c.1 == x.1) || x.2.leftOut == 0 then s else s.modSess x.1 (fun x => { x with leftOut := 0 })) s1
  let s3 := left.foldl (fun s id =>
    let s' := if s.due (s.getSess id) then s.bump .schedDueLeft p else s
    s'.modSess id (fun x => { x with leftOut := x.leftOut + 1 })) s2
  (take.foldl State.admitStep s3).modRoster p (fun r => { r with steps := old ++ take, fixed := false })

/-! ### Taking a beat (R156 to R159, R167, R170) -/

/-- What tick 0 of a taken or synthetic beat does: the windows of the last beat end, the windows, gates and admission of the new
one follow. -/
def State.newBeat (s : State) (f : BeatUnit → BeatUnit) : State :=
  let ps := s.partList
  let s1 := ps.foldl State.countOverrun s.abandonUnits
  let s2 := s1.modBeat (fun b => let b' := f b; { b' with tick := 0, hold := false, none_ := false })
  let s3 := ps.foldl State.openWindows s2
  let s4 := s3.cores.core.foldl (fun s c => s.abortPrefill c.1) s3
  let s5 := (s4.releaseIf .waitBeat (fun _ => true)).releaseIf (.waitWin .decode) (fun v => (s4.pwin v.part).win == .decode)
  let open_ : Nat → Bool := fun p => (s5.pwin p).win == .decode
  let s6 := (ps.filter (fun p => !open_ p && s5.part.recomp.isNone)).foldl (fun s p =>
    (s.resumeIf p .bulk).releaseIf (.waitWin .bulk) (fun v => v.part == p)) (s5.suspendIf open_)
  let s7 := s6.modCores (fun k => { k with switches := k.switches.map (fun w => { w with armed := true }) })
  let s8 := (s7.modCkpt (fun c => { c with
    beatHalf := c.beatHalf + 1
    armed := c.deferred && !s.partBusy
    take := c.take.map (fun k => { k with armed := true })
    restore := c.restore.map (fun k => { k with armed := true }) })).modPartU (fun u => { u with armed := true })
  let s9 := ps.foldl (fun s p => s.bumpBy .sfEvtPrimerWait p ((s.primerDue p).filter (fun x => !s.reviveFits x.1)).length) s8
  (ps.foldl State.buildRoster s9).placeHeld

/-- Take a pending beat. -/
def State.takeBeat (s : State) (b : PendBeat) : State :=
  (s.newBeat (fun u => { u with
    num := b.num
    period := b.period
    phase0 := b.phase0
    synth := false
    lost := false
    resyncPend := false
    synthRun := 0 })).bump .beatRx 0

/-- BEAT (R155, 13_cunis_link R356): the BEAT at the head of a port's VC0 is checked and waits for its tick 0. -/
def execBeat (port : Nat) (s : State) : Out3 :=
  whenUp s (fun s =>
    match s.headMsg port 0 2 with
    | none => s
    | some m =>
      let s1 := s.takeMsg port 0 m
      let b : PendBeat := { num := field m.body 8 6, period := field m.body 16 3, phase0 := field m.body 20 2, left := field m.body 20 2 }
      if port ≠ s.beat.port then s1.bump .beatOtherport 0
      else if byteAt m.body 0 % 16 ≠ 1 ∨ b.period < 10000 ∨ 16777214 < b.period then s1.bump .beatBad 0
      else s1.modBeat (fun u => { u with pend := u.pend ++ [b] }))

/-- The pending beat whose tick 0 comes first, the earlier arrival on a tie (R157). -/
def nextPend (l : List PendBeat) : Option PendBeat :=
  l.foldl (fun best b => match best with
    | some a => if b.left < a.left then some b else some a
    | none => some b) none

/-- BEAT_TICK0 (R156, R157, R158, R170): the first pending beat reaches tick 0 and is judged against the current number: taken, taken
as a jump, or dropped as stale. A beat pending since before RESYNC was written uses the request up too (DESIGN CHOICE: 91). `loads` are
the entries the engine reads from tier 0 then (02_sessions R33, R34, R44). -/
def execBeatTick0 (loads : List (Nat × List Nat)) (s : State) : Out3 :=
  whenUp s (fun s =>
    match nextPend s.beat.pend with
    | none => s
    | some b =>
      let s1 := ((s.pass b.left).loadEntries loads).modBeat (fun u => { u with pend := listDropFirst (fun x => x.num == b.num && x.left == 0) u.pend })
      if s1.beat.none_ || s1.beat.resyncPend then s1.takeBeat b
      else if s1.now + 1 < b.num then (s1.takeBeat b).bump .beatJump 0
      else if b.num ≤ s1.now then s1.bump .beatStale 0
      else s1.takeBeat b)

/-- The tick at which the device stops waiting for a beat: P + TOL (R168). -/
def BeatUnit.limit (b : BeatUnit) : Nat := b.period + b.period / 16

/-- SYNTHETIC_BEAT (R168): no beat has come by tick P + TOL and none is pending; up to eight in a row. -/
def execSyntheticBeat (s : State) : Out3 :=
  whenUp s (fun s =>
    if s.beat.none_ || s.beat.hold || !s.beat.pend.isEmpty || decide (8 ≤ s.beat.synthRun) then s
    else
      ((s.passTo s.beat.limit).newBeat (fun u => { u with
        num := (u.num + 1) % 2 ^ 48
        synth := true
        lost := true
        synthRun := u.synthRun + 1 })).bump .beatSynth 0)

/-! ### Out of a step (R38, R88, R141, R167, R169, R45) -/

/-- Take a session out of its step: its decode requests end with STALL_TIMEOUT, its generate ends, cancelled where a cancel had come. -/
def State.takeOut (s : State) (id : Nat) (c : Counter) : State :=
  let x := s.getSess id
  let h := handleOf id x
  let s1 := s.bump c x.part
  let s2 := (s1.att.reqs.filter (fun r => r.handle == h && r.vc == 1)).foldl (fun s r => s.answerQ r Status.stallTimeout.code [] false) (s1.recall h)
  let s3 := s2.modEmit (fun e => { e with fetch := e.fetch.filter (fun i => i != id) })
  if x.cancelReq then (s3.ctrlEndNext x.part h).endGenIdle id .cancelled else s3.endGenIdle id .stallTimeout

/-- The sessions in a step. -/
def State.stepping (s : State) : List Nat := (s.sess.filter (fun p => p.2.step.isSome)).map (·.1)

/-- BEAT_HOLD (R169): no beat has come by tick P + TOL of the eighth synthetic beat. Decode and prefill windows close, sessions leave
their steps, the bulk window stays open. -/
def execBeatHold (s : State) : Out3 :=
  whenUp s (fun s =>
    if s.beat.none_ || s.beat.hold || !s.beat.pend.isEmpty || decide (s.beat.synthRun < 8) then s
    else
      let s1 := ((s.passTo s.beat.limit).modBeat (fun u => { u with hold := true })).bump .beatHolds 0
      let s2 := s1.partList.foldl (fun s p => ((s.countOverrun p).modWin p (fun _ => {})).freshBulk p) s1
      let s3 := s2.stepping.foldl (fun s id => s.takeOut id .schedHoldOut) s2
      let s4 := s3.cores.core.foldl (fun s c => s.abortPrefill c.1) s3
      let s5 := s4.partList.foldl (fun s p => s.resumeIf p .bulk) s4
      s5.releaseIf (.waitWin .bulk) (fun _ => true))

/-- STALL_TIMEOUT (03_state_fabric R88): a session's stall reaches SF_STALL_LIMIT. -/
def execStallTimeout (sess : Nat) (s : State) : Out3 :=
  whenUp s (fun s =>
    let x := s.getSess sess
    match x.step with
    | none => s
    | some st =>
      if s.stallOver x st then s.takeOut sess .sfStallTo else s)

/-- CARRY_LIMIT (R167): a step that waits on the accelerator reaches the limit. -/
def execCarryLimit (sess : Nat) (s : State) : Out3 :=
  whenUp s (fun s =>
    let x := s.getSess sess
    match x.step with
    | none => s
    | some st =>
      if s.carryOver sess x st then s.takeOut sess .schedCarryTo else s)

/-! ### The roster (R166) -/

/-- An entry of a CTRL ROSTER. -/
def State.rosterEntry (s : State) (id : Nat) : Bytes :=
  let x := s.getSess id
  match x.step with
  | some st => natLe 4 (handleOf id x) ++ natLe 4 (st.position + b2n st.emitOnly * 2 ^ 30 + b2n st.carried * 2 ^ 31)
  | none => []

/-- ROSTER (R166): CTRL END for sessions cancelled between steps, then the roster, on every port of the partition on which HELLO has
completed; the masks its sessions need are fetched (07_sampling R181). A session whose step has ended by then is left out (DESIGN CHOICE:
89). -/
def execRoster (part : Nat) (s : State) : Out3 :=
  whenUp s (fun s =>
    let r := s.roster part
    if r.fixed then s
    else
      let ids := r.steps.filter (fun id => (s.getSess id).step.isSome)
      let s1 := r.ctrlEnd.foldl (fun s h => s.ctrlEnd part h) s
      let m := ctrlMsg 1 1 0 0 (natLe 6 s.now ++ natLe 2 0 ++ natLe 2 ids.length) (ids.flatMap s.rosterEntry)
      let s2 := (s1.upPorts part).foldl (fun s port => s.send port m) s1
      let s3 := s2.modRoster part (fun r => { r with fixed := true, ctrlEnd := [] })
      ids.foldl State.fetchMask s3)

/-! ### Windows (R159, R160, R163) -/

/-- A window of a partition opens: suspended invocations of its class go on, contexts that wait for it are released. -/
def State.enterWindow (s : State) (p : Nat) (w : Window) (cls : InvClass) : State :=
  ((s.modWin p (fun x => { x with win := w })).resumeIf p cls).releaseIf (.waitWin w) (fun v => v.part == p)

/-- PREFILL_WINDOW_OPEN: at tick d, where the prefill window is not empty. -/
def execPrefillWindowOpen (part : Nat) (s : State) : Out3 :=
  whenUp s (fun s =>
    let w := s.pwin part
    if w.win ≠ .decode ∨ w.f = 0 then s else ((s.passTo w.d).countOverrun part).enterWindow part .prefill .prefill)

/-- BULK_WINDOW_OPEN: at tick d + f. Degraded token logs are rewritten from here on (02_sessions R50). -/
def execBulkWindowOpen (part : Nat) (s : State) : Out3 :=
  whenUp s (fun s =>
    let w := s.pwin part
    if w.win = .bulk ∨ (w.win = .decode ∧ w.f ≠ 0) then s
    else
      let s1 := (((s.passTo (w.d + w.f)).countOverrun part).enterWindow part .bulk .bulk).freshBulk part
      (s1.live part).foldl (fun s x =>
        if x.2.lostCopy = 1 ∨ x.2.lostCopy = 2 then
          s.queueMove { queue := .b, kind := .remirror, beat := s.now, part := part, sess := x.1, block := 0 }
        else s) s1)

/-! ### BEAT_CFG.RESYNC and BEAT_NOW (R158, R172) -/

/-- RESYNC (R158): PF0 of port A arms it; a write from any other function is ignored. -/
def execResync (fn : Nat) (s : State) : Out3 :=
  whenUp s (fun s => if fn = pf0A then s.modBeat (fun b => { b with resyncWorb := true, resyncPend := true }) else s)

/-- BEAT_NOW as it reads. -/
def BeatUnit.nowReg (b : BeatUnit) : Nat :=
  b.num + b2n b.synth * 2 ^ 48 + b2n b.lost * 2 ^ 49 + b2n b.hold * 2 ^ 50 + b2n b.none_ * 2 ^ 51

/-- BEAT_NOW_READ (R172): a read of BEAT_NOW latches the tick for BEAT_TICK; PF0 and the functions bound to a partition may read, any other
read is refused and counted (01 R23, 15_security R391). -/
def execBeatNowRead (fn : Nat) (s : State) : Out3 :=
  whenUp s (fun s =>
    if fnIsPf0 fn || (s.fnPart fn).isSome then
      (s.modBeat (fun b => { b with latched := b.tick })).emitOut (.regRead fn 0xA00000 s.beat.nowReg)
    else (s.bump .secDenied fn).emitOut (.regRead fn 0xA00000 0))

end Sys2Proof.Machine
end

