-- ==== Sys2Proof/Machine/Retrieval.lean ====
section
/-! DEFINITION. Flash retrieval (11_flash_retrieval R292 to R313): INDEX_CREATE, INDEX_WRITE, SEARCH, INDEX_COMPACT, INDEX_DROP,
SEARCH_CHANNEL_SCAN, RET_MERGE, INDEX_COMMIT, COMPACT_CELL_SWITCH. -/

namespace Sys2Proof.Machine

/-! ### Vectors and codes (R295, R296, R299) -/

/-- An index of a partition. -/
def State.index (s : State) (p n : Nat) : Index := tabGet {} s.ret.ixs (p * 256 + n)

/-- Put an index. -/
def State.setIndex (s : State) (p n : Nat) (x : Index) : State :=
  s.modRet (fun r => { r with ixs := tabPut {} r.ixs (p * 256 + n) x })

/-- The FP32 value number k of an image's arrays. -/
def imgVal (b : Bytes) (k : Nat) : W32 := BitVec.ofNat 32 (field b (64 + 4 * k) 4)

/-- MIN of a dimension. -/
def Index.minOf (x : Index) (d : Nat) : W32 := imgVal x.img d

/-- STEP of a dimension. -/
def Index.stepOf (x : Index) (d : Nat) : W32 := imgVal x.img (x.dim + d)

/-- A finite value as a signed integer times a power of two; zero for anything else. -/
def fixOf : FVal → Int × Int
  | .fin neg m e => (if neg then -(m : Int) else m, e)
  | _ => (0, 0)

/-- n / d to the nearest integer, ties to even, for d > 0. -/
def rneDiv (n d : Nat) : Nat :=
  let q := n / d
  let r := n % d
  if 2 * r < d then q else if d < 2 * r then q + 1 else q + q % 2

/-- The SQ8 code of a value in a dimension (R296): clamp(round((x − MIN) / STEP), 0, 255). -/
def sq8 (x mn st : W32) : Nat :=
  let a := fixOf (fAdd (f32 x) (fNeg (f32 mn)))
  let (nx, ex) := fixOf (f32 x)
  let (nm, em) := fixOf (f32 mn)
  let e := min ex em
  let diff := nx * 2 ^ (ex - e).toNat - nm * 2 ^ (em - e).toNat
  let (ns, es) := fixOf (f32 st)
  if diff ≤ 0 ∨ ns ≤ 0 ∨ a.1 < 0 then 0
  else
    let n := if es ≤ e then diff.toNat * 2 ^ (e - es).toNat else diff.toNat
    let d := if es ≤ e then ns.toNat else ns.toNat * 2 ^ (es - e).toNat
    min 255 (rneDiv n d)

/-- The value of an SQ8 code (R296): MIN + c × STEP, rounded once to FP32. -/
def Index.value (x : Index) (d c : Nat) : W32 :=
  toF32 (fAdd (f32 (x.minOf d)) (fMul (fInt c) (f32 (x.stepOf d))))

/-- The SQ8 code of a vector. -/
def Index.codeOf (x : Index) (v : List W32) : Bytes := (v.zipIdx).map (fun e => byte (sq8 e.1 (x.minOf e.2) (x.stepOf e.2)))

/-- The vector an SQ8 code reads back as. -/
def Index.decode (x : Index) (c : Bytes) : List W32 := (c.zipIdx).map (fun e => x.value e.2 e.1.toNat)

/-- The decoded centroid of a cell: centroids are quantised like vectors (R296). -/
def Index.centroid (x : Index) (cell : Nat) : List W32 :=
  x.decode (x.codeOf ((List.range x.dim).map (fun d => imgVal x.img (2 * x.dim + cell * x.dim + d))))

/-- The binary code of a vector against a cell's centroid (R299). -/
def binary (v cen : List W32) : List Bool := (v.zip cen).map (fun e => fLt (f32 e.2) (f32 e.1))

/-- The bits in which two binary codes differ. -/
def bitDist (a b : List Bool) : Nat := ((a.zip b).filter (fun e => e.1 != e.2)).length

/-- The distance of a query to a vector in FP32 (R295): squared L2, or negative inner product. The order of the sum is free. -/
def Index.dist (x : Index) (n : Nat) (q v : List W32) : W32 :=
  let terms := (q.zip v).map (fun e =>
    if x.metric = 0 then
      let d := f32Add e.1 (toF32 (fNeg (f32 e.2)))
      f32Mul d d
    else f32Mul e.1 e.2)
  let sum := f32Accum (Config.order n) terms.length terms
  if x.metric = 0 then sum else toF32 (fNeg (f32 sum))

/-- Order by distance, then by a number. -/
def distLt (a b : W32 × Nat) : Bool := fLt (f32 a.1) (f32 b.1) || (!fLt (f32 b.1) (f32 a.1) && decide (a.2 < b.2))

/-- The cells of an index by distance to a vector, the nearest first, the lower number on a tie (R301, R304). -/
def Index.nearest (x : Index) (n : Nat) (q : List W32) : List Nat :=
  (listSort distLt ((List.range x.cells).map (fun c => (x.dist (n + c) q (x.centroid c), c)))).map (·.2)

/-! ### Space (R296 to R298) -/

/-- The channel of a record (R298). -/
def IxRec.channel (r : IxRec) : Nat := (r.cell + r.ord) % 32

/-- Records in a binary page. -/
def Index.binPer (x : Index) : Nat := 4096 / (24 + x.dim / 8)

/-- Records in an SQ8 page. -/
def Index.sqPer (x : Index) : Nat := 4096 / x.dim

/-- The centroid-memory pages of an index. -/
def cmemPages (cells dim retireMax : Nat) : Nat := ceilDiv (cells * dim + 8 * dim + 32 * retireMax) 4096

/-- Every record that has a place: stored and pending. -/
def Index.placed (x : Index) : List IxRec := x.recs ++ (x.pend.filter (fun p => p.op != 2)).map (·.rec_)

/-- A key of a page: its cell, channel, kind and number in its chain. -/
def pageKey (cell ch kind n : Nat) : Nat := ((n * 65536 + cell) * 32 + ch) * 2 + kind

/-- The pages some records take. -/
def pagesOf (l : List IxRec) : List Nat :=
  (l.flatMap (fun r => [pageKey r.cell r.channel 0 r.page, pageKey r.cell r.channel 1 r.sq])).eraseDups

/-- The catalogue bytes of an index: 4 KiB for each cell and channel. -/
def catalogBytes (cells : Nat) : Nat := 32 * cells * 4096

/-- The index-region bytes of an index: its catalogue, the pages of its records, pages a compaction could not free yet. -/
def Index.bytes (x : Index) : Nat :=
  if x.st = .free then 0 else catalogBytes x.cells + 4096 * ((pagesOf x.placed).length + sumOf (·.1) x.old)

/-- The indexes of a partition. -/
def State.indexes (s : State) (p : Nat) : Tab Index := s.ret.ixs.filter (fun x => x.1 / 256 == p && x.2.st != .free)

/-- The index quota a partition uses. -/
def State.ixUsed (s : State) (p : Nat) : Nat := sumOf (fun x => x.2.bytes) (s.indexes p)

/-- The free bytes of a partition's index quota. -/
def State.ixFree (s : State) (p : Nat) : Nat := (s.getPart p).ixQuota * 2 ^ 30 - s.ixUsed p

/-- Centroid-memory pages of a partition (R296). -/
def State.cmemAll (s : State) (p : Nat) : Nat := 512 * (s.clustersOf p).length

/-- Free centroid-memory pages of a partition. -/
def State.cmemFree (s : State) (p : Nat) : Nat :=
  s.cmemAll p - sumOf (fun x => cmemPages x.2.cells x.2.dim x.2.retireMax) (s.indexes p)

/-! ### INDEX_CREATE (R295, R297) -/

/-- Whether an FP32 value is finite. -/
def isFinite (w : W32) : Bool := w.toNat / 2 ^ 23 % 256 != 255

/-- INDEX_CREATE. -/
def execIndexCreate (qk : Nat) (data : Bytes) (s : State) : Out3 :=
  withCmd s qk 0x40 (fun s c =>
    let n := field c.raw 32 4
    let b := fit 0 n data
    let ix := byteAt b 1
    let dim := field b 4 2 % 2 ^ 13
    let cells := field b 8 4 % 2 ^ 17
    let rm := field b 12 4 % 2 ^ 21
    let dom := field b 6 2
    let ok := byteAt b 0 % 16 == 1 && field b 60 4 == crc32c (slice b 0 60) && decide (1 ≤ ix) && decide (ix ≤ 254) &&
      decide (64 ≤ dim) && decide (dim ≤ 4096) && dim % 64 == 0 && decide (1 ≤ dom) && decide (dom ≤ 65534) && decide (1 ≤ cells) &&
      decide (cells ≤ 65536) && decide (rm ≤ 1048576)
    if s.isN then s.done c.serial .versionUnsupported
    else if allOnes n 32 ∨ c.len0 < n ∨ n < 64 ∨ n ≠ 64 + 8 * dim + 4 * cells * dim then s.done c.serial .formatInvalid
    else if !ok || !(List.range (2 * dim + cells * dim)).all (fun k => isFinite (imgVal b k)) ||
        !(List.range dim).all (fun d => fLt (f32 0) (f32 (imgVal b (dim + d)))) then s.done c.serial .formatInvalid
    else if !s.domBound c.part dom then s.done c.serial .domainDenied
    else if (s.index c.part ix).st ≠ .free then s.done c.serial .badState
    else if s.cmemFree c.part < cmemPages cells dim rm ∨ s.ixFree c.part < catalogBytes cells then s.done c.serial .noSpace
    else (s.setIndex c.part ix
      { st := .ready, metric := byteAt b 2 % 2, dim := dim, domain := dom, cells := cells, retireMax := rm, img := b }).done c.serial .ok)

/-! ### INDEX_WRITE (R300, R301) -/

/-- A record of an INDEX_WRITE: OP, ID, ATTR, vector. -/
structure WriteRec where
  op : Nat
  id : Nat
  attr : Nat
  vec : List W32
  deriving DecidableEq, Repr

/-- The records of an INDEX_WRITE's buffer. -/
def writeRecs (dim count : Nat) (b : Bytes) : List WriteRec :=
  (List.range count).map (fun i =>
    let r := slice b (i * (24 + 2 * dim)) (24 + 2 * dim)
    { op := byteAt r 0 % 4, id := field r 8 8, attr := field r 16 8,
      vec := (List.range dim).map (fun d => BitVec.ofNat 32 (field r (24 + 2 * d) 2 * 2 ^ 16)) })

/-- The next page of a chain that a command's records open: one beyond every page the chain has. -/
def Index.nextPage (x : Index) (cell ch : Nat) (f : IxRec → Nat) : Nat :=
  ((x.placed.filter (fun r => r.cell == cell && r.channel == ch)).map f).foldl (fun n p => max n (p + 1)) 0

/-- Place one INSERT or REPLACE record of a command whose first sequence number is `from_` (R298, R301): records of one command share
pages, records of different commands do not. -/
def Index.place (x : Index) (n from_ : Nat) (w : WriteRec) : IxRec × Index :=
  let code := x.codeOf w.vec
  let cell := (x.nearest n (x.decode code)).headD 0
  let ord := tabGet 0 x.ords cell
  let ch := (cell + ord) % 32
  let mine := x.placed.filter (fun r => r.cell == cell && r.channel == ch && decide (from_ ≤ r.seq))
  let at_ : (IxRec → Nat) → Nat → Nat := fun f per =>
    match mine.getLast? with
    | none => x.nextPage cell ch f
    | some l => if (mine.filter (fun r => f r == f l)).length < per then f l else x.nextPage cell ch f
  let r : IxRec := { id := w.id, attr := w.attr, seq := x.nextSeq, cell := cell, ord := ord, page := at_ (·.page) x.binPer,
                     sq := at_ (·.sq) x.sqPer, code := code }
  (r, { x with ords := tabSet x.ords cell (ord + 1) })

/-- Take the records of a command into the index as pending. -/
def Index.accept (x : Index) (n serial from_ total : Nat) : List WriteRec → Index
  | [] => x
  | w :: l =>
    let base : IxPend := { serial := serial, seq := x.nextSeq, first := x.nextSeq == from_, last := l.isEmpty, op := w.op,
                           rec_ := { id := w.id, attr := 0, seq := x.nextSeq, cell := 0, ord := 0, page := 0, sq := 0, code := [] } }
    let r := if w.op = 2 then (base, x) else
      let q := x.place (n + x.nextSeq * 65536) from_ w
      ({ base with rec_ := q.1 }, q.2)
    Index.accept { r.2 with pend := r.2.pend ++ [r.1], nextSeq := x.nextSeq + 1 } n serial from_ total l

/-- INDEX_WRITE (R300, R301): the records take sequence numbers and places; they are seen once COMMIT_SEQ covers them. -/
def execIndexWrite (qk : Nat) (data : Bytes) (s : State) : Out3 :=
  withCmd s qk 0x41 (fun s c =>
    let ix := byteAt c.raw 36
    let x := s.index c.part ix
    let count := field c.raw 32 4
    let len := count * (24 + 2 * x.dim)
    let ws := writeRecs x.dim (min count 65536) (fit 0 len data)
    let y := x.accept s.free c.serial x.nextSeq count ws
    let supers := (ws.filter (fun w => w.op != 0)).length
    if s.isN then s.done c.serial .versionUnsupported
    else if x.st ≠ .ready ∧ x.st ≠ .compacting then s.done c.serial .badState
    else if count = 0 ∨ 65536 < count ∨ c.len0 ≠ len ∨ ws.any (fun w => w.op == 3) ∨
        ws.any (fun w => w.op != 2 && !w.vec.all isFinite) then s.done c.serial .formatInvalid
    else if s.ixFree c.part + x.bytes < y.bytes then s.done c.serial .noSpace
    else if x.retireMax < x.retire.length + supers then s.done c.serial .noSpace
    else ({ s with free := s.free + 2 ^ 64 } : State).setIndex c.part ix y)

/-! ### Faults (R311) -/

/-- Searches of an index in flight. -/
def State.ixSearches (s : State) (p n : Nat) : List Search := s.ret.searches.filter (fun q => q.part == p && q.ix == n)

/-- Drop the searches of an index. -/
def State.dropSearches (s : State) (p n : Nat) : State :=
  s.modRet (fun r => { r with searches := r.searches.filter (fun q => q.part != p || q.ix != n) })

/-- A catalogue entry, page map or retire entry fails its CRC: the index is FAULTED, everything in flight on it ends with
TIER_FAULT; the searches among it count as completed, with the pages they had skipped (R315). -/
def State.ixFault (s : State) (p n : Nat) : State :=
  let x := s.index p n
  let serials := (s.ixSearches p n).map (·.serial) ++ (x.pend.filter (·.last)).map (·.serial) ++
    (if x.compactSerial = 0 then [] else [x.compactSerial])
  let s1 := (s.dropSearches p n).setIndex p n
    { x with st := if x.st = .dropping then .free else .faulted, pend := [], compactSerial := 0, old := [], before := none }
  let s2 := (s1.bumpBy .retSearches p (s.ixSearches p n).length).bumpBy .retLostPages p (sumOf (·.lost) (s.ixSearches p n))
  serials.foldl (fun s k => s.done k .tierFault) s2

/-- Whether nothing needs a retire entry any more (R309): no record of its identifier has a lower SEQ and no search in flight has a
snapshot below its SEQ. -/
def IxRetire.unneeded (e : IxRetire) (recs : List IxRec) (live : List Search) : Bool :=
  !recs.any (fun r => r.id == e.id && decide (r.seq < e.seq)) && !live.any (fun q => decide (q.snap < e.seq))

/-- The last search of a dropping index has ended: it is FREE (R310). A compaction's old pages go with the searches that could read
them, and the retire entries a compaction had to keep for one (R309). -/
def State.ixSweep (s : State) (p n : Nat) : State :=
  let x := s.index p n
  let live := s.ixSearches p n
  if x.st = .dropping ∧ live.isEmpty then s.setIndex p n {}
  else s.setIndex p n { x with
    old := x.old.filter (fun o => live.any (fun q => decide (q.num ≤ o.2)))
    retire := x.retire.filter (fun e => !(e.due && e.unneeded x.recs live)) }

/-! ### SEARCH (R303, R304) -/

/-- The query of a search in FP32. -/
def searchVals (dim fmt : Nat) (b : Bytes) : List W32 :=
  (List.range dim).map (fun d => if fmt = 0 then BitVec.ofNat 32 (field b (2 * d) 2 * 2 ^ 16) else BitVec.ofNat 32 (field b (4 * d) 4))

/-- SEARCH: the checks, the snapshot, the cells. -/
def execSearch (qk : Nat) (data : Bytes) (s : State) : Out3 :=
  withCmd s qk 0x42 (fun s c =>
    let r := c.raw
    let ix := byteAt r 8
    let x := s.index c.part ix
    let fmt := byteAt r 9
    let dom := field r 10 2
    let k := field r 12 2
    let nprobe := field r 14 2
    let rerank := field r 2 2
    let qlen := x.dim * (if fmt = 0 then 2 else 4)
    let q := searchVals x.dim fmt (fit 0 qlen data)
    if s.isN then s.done c.serial .versionUnsupported
    else if x.st ≠ .ready ∧ x.st ≠ .compacting then s.done c.serial .badState
    else if !s.domBound c.part dom ∨ dom ≠ x.domain then s.done c.serial .domainDenied
    else if k = 0 ∨ 1024 < k ∨ nprobe = 0 ∨ min x.cells 1024 < nprobe ∨ rerank = 0 ∨ 256 < rerank ∨ 2 ≤ fmt ∨ c.len0 ≠ qlen ∨
        !q.all isFinite ∨ field r 56 4 < 32 + 32 * k then s.done c.serial .formatInvalid
    else
      let num := tabGet 0 s.ret.nextNum c.part
      let cells := listSort (fun a b => decide (a < b)) ((x.nearest s.free q).take nprobe)
      let w : Search := { serial := c.serial, qk := c.qk, part := c.part, ix := ix, num := num, k := k, rerank := rerank,
                          fmask := field r 32 8, fvalue := field r 40 8, outAddr := field r 48 8, query := q, snap := x.commit,
                          cells := cells }
      ({ s with free := s.free + 65536 } : State).modRet (fun t => { t with
        searches := t.searches ++ [w]
        nextNum := tabSet t.nextNum c.part (num + 1) }))

/-! ### The channel engines (R304, R305) -/

/-- Whether a record is visible to a snapshot (R305). -/
def Index.visible (x : Index) (r : IxRec) (snap : Nat) : Bool :=
  let newest := match x.retire.find? (fun e => e.id == r.id) with
    | some e => if e.seq ≤ snap then some e.seq else if 0 < e.prev ∧ e.prev ≤ snap then some e.prev else none
    | none => none
  decide (r.seq ≤ snap) && (match newest with
    | some n => decide (n ≤ r.seq)
    | none => true)

/-- The first of a list by a comparison, up to a count. -/
def best {α : Type} (lt : α → α → Bool) (n : Nat) (l : List α) : List α := (listSort lt l).take n

/-- SEARCH_CHANNEL_SCAN (R304, R305, R311): a channel engine reads a search's cells, reranks, and sends its nearest records to the
merge. `lost` names the pages whose read failed, `cat` that a catalogue entry or a page map failed its CRC. -/
def execSearchChannelScan (serial channel : Nat) (lost : List Nat) (cat : Bool) (s : State) : Out3 :=
  whenUp s (fun s =>
    match s.ret.searches.find? (fun q => q.serial == serial) with
    | none => s
    | some q =>
      if 32 ≤ channel ∨ q.channels.contains channel then s
      else if cat then s.ixFault q.part q.ix
      else
        let x := s.index q.part q.ix
        let gone : Nat → Bool := fun k => s.ckpt.lostChannels.contains channel || lost.contains k
        let mine := q.cells.flatMap (fun c => x.recs.filter (fun r => r.cell == c && r.channel == channel && decide (r.seq ≤ x.commit)))
        let binPages := (mine.map (fun r => pageKey r.cell channel 0 r.page)).eraseDups
        let read := mine.filter (fun r => !gone (pageKey r.cell channel 0 r.page))
        let seen := read.filter (fun r => x.visible r q.snap)
        let ranked := (seen.zipIdx).map (fun e =>
          let cen := x.centroid e.1.cell
          ([bitDist (binary q.query cen) (binary (x.decode e.1.code) cen), e.2], e.1))
        let kept := (best (fun (a b : List Nat × IxRec) => lexLt a.1 b.1) q.rerank ranked).map (·.2)
        let sqPages := (kept.map (fun r => pageKey r.cell channel 1 r.sq)).eraseDups
        let scored := ((kept.filter (fun r => !gone (pageKey r.cell channel 1 r.sq))).zipIdx).map (fun e =>
          ({ id := e.1.id, attr := e.1.attr, seq := e.1.seq, dist := x.dist (s.free + e.2) q.query (x.decode e.1.code) } : IxHit))
        let out := best (fun (a b : IxHit) => distLt (a.dist, a.id) (b.dist, b.id)) (min q.rerank q.k) scored
        let bad := ((binPages ++ sqPages).filter gone).length
        ({ s with free := s.free + 256 } : State).modRet (fun t => { t with
          searches := listMod (fun w => w.serial == serial) (fun w => { w with
            channels := channel :: w.channels
            hits := w.hits ++ out
            scanned := w.scanned + read.length
            lost := w.lost + bad }) t.searches }))

/-! ### The merge (R306 to R308) -/

/-- Remove duplicate identifiers: of two entries the one with the higher SEQ stays, then the nearer one. -/
def dedupHits : List IxHit → List IxHit
  | [] => []
  | h :: t =>
    let r := dedupHits t
    match r.find? (fun g => g.id == h.id) with
    | none => h :: r
    | some g =>
      if g.seq < h.seq ∨ (g.seq = h.seq ∧ !fLt (f32 g.dist) (f32 h.dist)) then h :: r.filter (fun e => e.id != h.id) else r

/-- The result a search writes (R308). -/
def resultBytes (snap dups scanned lost : Nat) (l : List IxHit) : Bytes :=
  natLe 8 1 ++ natLe 8 snap ++ natLe 4 l.length ++ natLe 4 dups ++ natLe 4 (min scanned 0xFFFFFFFE) ++ natLe 4 (min lost 0xFFFF) ++
    l.flatMap (fun h => natLe 8 h.id ++ natLe 8 h.attr ++ natLe 4 h.seq ++ natLe 2 (h.seq / 2 ^ 32) ++ natLe 2 0 ++
      natLe 4 h.dist.toNat ++ natLe 4 0)

/-- The core a search's merge runs on (R306): core 8c of cluster c_(i mod N). -/
def State.mergeCore (s : State) (q : Search) : Nat :=
  let cs := s.clustersOf q.part
  8 * cs.getD (q.num % max 1 cs.length) 0

/-- RET_MERGE (R306 to R308): the lists of all 32 channels are merged, filtered and written; the command completes. It runs in context 2
of its core once nothing else is there. -/
def execRetMerge (serial : Nat) (s : State) : Out3 :=
  whenUp s (fun s =>
    match s.ret.searches.find? (fun q => q.serial == serial) with
    | none => s
    | some q =>
      if q.channels.length < 32 || !s.ctxFree ⟨s.mergeCore q, 2⟩ then s
      else
        let uniq := dedupHits q.hits
        let dups := q.hits.length - uniq.length
        let top := best (fun (a b : IxHit) => distLt (a.dist, a.id) (b.dist, b.id)) q.k uniq
        let found := top.filter (fun h => Nat.land h.attr q.fmask == q.fvalue)
        let st : Status := if 0 < q.lost then .tierFault else if found.length < q.k then .short else .ok
        let s1 := s.modRet (fun t => { t with searches := t.searches.filter (fun w => w.serial != serial) })
        let s2 := ((s1.bump .retSearches q.part).bumpBy .retDups q.part dups).bumpBy .retFiltered q.part (top.length - found.length)
        let s3 := s2.bumpBy .retLostPages q.part q.lost
        let s4 := if st = .short then s3.bump .retShort q.part else s3
        let s5 := s4.emitOut (.hostWrite (fnPort (q.qk / 64)) q.outAddr (resultBytes q.snap dups q.scanned q.lost found))
        (s5.ixSweep q.part q.ix).final serial st 0 (found.length + dups % 2 ^ 16 * 2 ^ 16) 0 0)

/-! ### Commit, compaction, drop (R301, R302, R309, R310) -/

/-- The retire list after a REPLACE or DELETE (R302). -/
def retireUpd (l : List IxRetire) (id seq : Nat) : List IxRetire :=
  if l.any (fun e => e.id == id) then listMod (fun e => e.id == id) (fun e => { id := e.id, seq := seq, prev := e.seq }) l
  else l ++ [{ id := id, seq := seq, prev := 0 }]

/-- A page of a command's records failed to program twice (R311): the command ends with TIER_FAULT, and none of its records is visible:
those not committed yet go, and those COMMIT_SEQ has passed go with what they did to the retire list (DEDUCED: 98). -/
def State.programFailed (s : State) (p n : Nat) (serial : Nat) : State :=
  let x := s.index p n
  let keep := x.before.getD (x.commit, x.retire)
  (s.setIndex p n { x with
    pend := x.pend.filter (fun e => e.serial != serial)
    recs := if x.before.isSome then x.recs.filter (fun r => decide (r.seq ≤ keep.1)) else x.recs
    retire := keep.2
    before := none }).done serial .tierFault

/-- Whether the update of a retire entry must wait: a search in flight has a snapshot below the entry's current SEQ. -/
def State.retireWaits (s : State) (p n : Nat) (x : Index) (r : IxPend) : Bool :=
  r.op != 0 && x.retire.any (fun e => e.id == r.rec_.id && (s.ixSearches p n).any (fun q => decide (q.snap < e.seq)))

/-- INDEX_COMMIT (R301, R302, R311): the first pending record of an index is programmed and COMMIT_SEQ takes its number; its command
completes at its last record. `check` 1 says that a program of the command's pages failed twice, 2 that a retire or catalogue
entry failed its CRC. -/
def execIndexCommit (part ix check : Nat) (s : State) : Out3 :=
  whenUp s (fun s =>
    let x := s.index part ix
    match x.pend with
    | [] => s
    | r :: rest =>
      if check = 2 then s.ixFault part ix
      else if check = 1 then s.programFailed part ix r.serial
      else if s.retireWaits part ix x r then s
      else
        let y : Index := { x with
          pend := rest
          commit := r.seq
          before := if r.last then none else if r.first then some (x.commit, x.retire) else x.before
          recs := if r.op = 2 then x.recs else x.recs ++ [r.rec_]
          retire := if r.op = 0 then x.retire else retireUpd x.retire r.rec_.id r.seq }
        let s1 := s.setIndex part ix y
        let s2 := if r.op = 2 then s1 else s1.bump .retRecWritten part
        if r.last then s2.final r.serial .ok 0 0 r.seq 0 else s2)

/-- INDEX_COMPACT (R309). -/
def execIndexCompact (qk : Nat) (s : State) : Out3 :=
  withCmd s qk 0x43 (fun s c =>
    let ix := byteAt c.raw 36
    let x := s.index c.part ix
    if s.isN then s.done c.serial .versionUnsupported
    else if x.st ≠ .ready then s.done c.serial .badState
    else s.setIndex c.part ix { x with st := .compacting, compactCell := 0, compactSerial := c.serial })

/-- Records repacked into fresh pages from a page number on, in their order on their channel. -/
def Index.repack (x : Index) (cell : Nat) (l : List IxRec) : List IxRec :=
  l.map (fun r =>
    let before := (l.filter (fun o => o.channel == r.channel && decide (o.ord < r.ord))).length
    { r with page := x.nextPage cell r.channel (·.page) + before / x.binPer, sq := x.nextPage cell r.channel (·.sq) + before / x.sqPer })

/-- COMPACT_CELL_SWITCH (R309, R311): the next cell's records that some snapshot can still see stand in new pages; retire entries nothing
needs any more go; after the last cell the index is READY and the command completes. `bad` says that a page map, a catalogue entry or a
retire entry failed its CRC. The state before a command that is partly committed counts as a snapshot, since R311 may bring it back
(DEDUCED: 98). -/
def execCompactCellSwitch (part ix : Nat) (bad : Bool) (s : State) : Out3 :=
  whenUp s (fun s =>
    let x := s.index part ix
    if x.st ≠ .compacting then s
    else if bad then s.ixFault part ix
    else
      let live := s.ixSearches part ix
      let cell := x.compactCell
      let here := x.recs.filter (fun r => r.cell == cell)
      let keep := here.filter (fun r => x.visible r x.commit || live.any (fun q => x.visible r q.snap) ||
        x.before.any (fun b => ({ x with retire := b.2 } : Index).visible r b.1))
      let recs := x.recs.filter (fun r => r.cell != cell) ++ x.repack cell keep
      let retire := (x.retire.filter (fun e => !e.unneeded recs live)).map (fun e =>
        ({ e with due := !recs.any (fun r => r.id == e.id && decide (r.seq < e.seq)) } : IxRetire))
      let newest := live.foldl (fun n q => max n q.num) 0
      let y : Index := { x with
        recs := recs
        retire := retire
        compactCell := cell + 1
        old := if live.isEmpty then x.old else x.old ++ [((pagesOf here).length, newest)] }
      if cell + 1 < x.cells then s.setIndex part ix y
      else (s.setIndex part ix { y with st := .ready, compactSerial := 0, compactCell := 0 }).done x.compactSerial .ok)

/-- INDEX_DROP (R310): the index is DROPPING at once; writes not committed and a compaction end with CANCELLED; it is FREE when its last
search ends. -/
def execIndexDrop (qk : Nat) (s : State) : Out3 :=
  withCmd s qk 0x44 (fun s c =>
    let ix := byteAt c.raw 36
    let x := s.index c.part ix
    if s.isN then s.done c.serial .versionUnsupported
    else if x.st = .free ∨ x.st = .dropping then s.done c.serial .badState
    else
      let serials := (x.pend.filter (·.last)).map (·.serial) ++ (if x.compactSerial = 0 then [] else [x.compactSerial])
      let s1 := s.setIndex c.part ix { x with st := .dropping, pend := [], compactSerial := 0, before := none }
      let s2 := serials.foldl (fun s k => s.done k .cancelled) s1
      (s2.ixSweep c.part ix).done c.serial .ok)

end Sys2Proof.Machine
end

