-- ==== Sys2Proof/Machine/Host.lean ====
section
/-! DEFINITION. The host interface (12_host_interface R318 to R340; 14_partitions R380, R381): doorbells, the fetch of a command with
the common checks and admission, queue sets, FLR and link loss, MSI-X, mailboxes, the recovery lease. -/

namespace Sys2Proof.Machine

/-! ### What a function reaches (R318, 15_security R390) -/

/-- Whether a function serves a partition or is a PF0: any other reaches only the identity registers and HIF_FN. -/
def State.bound (s : State) (fn : Nat) : Bool := decide (fn < fnCount) && (fnIsPf0 fn || (s.fnPart fn).isSome)

/-- An access R23 or R391 refuses: it is discarded and counted. -/
def State.denied (s : State) (fn : Nat) : State := s.bump .secDenied fn

/-- Run what a function asks for where it is bound, deny it otherwise. -/
def withBound (s : State) (fn : Nat) (f : State → State) : Out3 := whenUp s (fun s => if s.bound fn then f s else s.denied fn)

/-- Whether a partition is bound to a host port: some function of the port serves it. -/
def State.partOnPort (s : State) (p port : Nat) : Bool := s.part.fns.any (fun x => x.2 == p && fnPort x.1 == port)

/-- The partition in PF0's view (R318): the one HIF_PF0_VIEW names, while it is bound to the port. -/
def State.view (s : State) (fn : Nat) : Option Nat :=
  let p := s.reg .hifPf0View fn
  if s.partExists p && s.partOnPort p (fnPort fn) then some p else none

/-! ### Doorbells (R320) -/

/-- The queue set of a doorbell page that is not ignored; `ring` is the ring the row's name says. -/
def State.bellOk (s : State) (fn page width value ring : Nat) : Bool :=
  let q := s.qs (fn * 64 + page / 4)
  let log := if ring = 0 then q.cmdLog2 else if ring = 1 then q.cplLog2 else q.emitLog2
  width == 4 && decide (page / 4 < 64) && page % 4 == ring && q.en && decide (value % 65536 < (if log = 0 then 0 else 2 ^ log))

/-- A doorbell write: its effect on the queue set, or one more ignored write. A page that is not the row's ring is the reserved page, or
another row's. -/
def doorbell (s : State) (fn page width value ring : Nat) (f : State → Nat → Nat → State) : Out3 :=
  withBound s fn (fun s =>
    if s.bellOk fn page width value ring then f s (fn * 64 + page / 4) (value % 65536)
    else if page % 4 = ring ∨ page % 4 = 3 ∨ 64 ≤ page / 4 then s.bump .hifDbBad fn
    else s)

/-- CMD_DOORBELL: the new command tail. -/
def execCmdDoorbell (fn page width value : Nat) (s : State) : Out3 :=
  doorbell s fn page width value 0 (fun s qk i => s.modQs qk (fun q => { q with cmdTail := i }))

/-- The commits of a queue set's generates that its rings withheld (HOST_LATE) are tried again (R327, 08_text_unit R218). -/
def State.retryCommits (s : State) (qk : Nat) : State :=
  s.sess.foldl (fun s x =>
    match x.2.step, x.2.open? with
    | some st, some g => if g.qk = qk ∧ st.stall = some 3 ∧ st.emit.ranked.isSome then s.commit x.1 (st.emit.drawn.getD 0) else s
    | _, _ => s) s

/-- CPL_DOORBELL: the host's new place in the completion ring; ACCEPT and NOTIFY entries that waited follow, and withheld commits are tried
again (R327). -/
def execCplDoorbell (fn page width value : Nat) (s : State) : Out3 :=
  doorbell s fn page width value 1 (fun s qk i =>
    let s1 := s.modQs qk (fun q => { q with cplHead := i, cplUsed := (q.cplTail + 2 ^ q.cplLog2 - i) % 2 ^ q.cplLog2 })
    (s1.flushCpl qk 65536).retryCommits qk)

/-- EMIT_DOORBELL: the host's new place in the emit ring; records that waited are written, and commits withheld for want of space are
tried again (08_text_unit R218). -/
def execEmitDoorbell (fn page width value : Nat) (s : State) : Out3 :=
  doorbell s fn page width value 2 (fun s qk i =>
    let s1 := s.modQs qk (fun q => { q with emitHead := i, emitUsed := (q.emitTail + 2 ^ q.emitLog2 - i) % 2 ^ q.emitLog2 })
    s1.flushWaits.retryCommits qk)

/-! ### Admission (14_partitions R380, R381) -/

/-- The three colours. -/
inductive Colour where
  | green | yellow | red
  deriving DecidableEq, Repr

/-- Buckets filled to a tick (R381): rates in units a second are rates in 10^-9 units a tick. -/
def Meter.fill (m : Meter) (now : Nat) : Meter :=
  { m with
    tc := min (m.cbs * 10 ^ 9) (m.tc + m.cir * (now - m.at_))
    tp := min (m.pbs * 10 ^ 9) (m.tp + m.pir * (now - m.at_))
    at_ := now }

/-- Colour a command of B request units by RFC 2698 with a pre-colour (green is colour-blind); a meter with PIR 0 changes no bucket and
adds no colour of its own. -/
def Meter.colour (m : Meter) (now b : Nat) (pre : Colour) : Colour × Meter :=
  if m.pir = 0 then (pre, m)
  else
    let f := m.fill now
    let n := b * 10 ^ 9
    if pre = .red ∨ f.tp < n then (.red, f)
    else if pre = .yellow ∨ f.tc < n then (.yellow, { f with tp := f.tp - n })
    else (.green, { f with tp := f.tp - n, tc := f.tc - n })

/-- The pre-colour a command carries. -/
def preColour (n : Nat) : Colour := if n = 0 then .green else if n = 1 then .yellow else .red

/-- Commands marked P (R324). -/
def opPf0Only (op : Nat) : Bool := (decide (0x50 ≤ op) && decide (op ≤ 0x53)) || op == 0x60 || op == 0x61

/-- Commands marked M. -/
def opManaged (op : Nat) : Bool := (decide (0x50 ≤ op) && decide (op ≤ 0x56)) || op == 0x60 || op == 0x61

/-- The opcodes of R324. -/
def opListed (op : Nat) : Bool :=
  (decide (1 ≤ op) && decide (op ≤ 10)) || (decide (0x10 ≤ op) && decide (op ≤ 0x12)) || (decide (0x20 ≤ op) && decide (op ≤ 0x28)) ||
    (decide (0x30 ≤ op) && decide (op ≤ 0x33)) || (decide (0x40 ≤ op) && decide (op ≤ 0x44)) || opManaged op

/-- Whether a command is never metered (R380). -/
def opFree (op : Nat) : Bool := opManaged op || op == 0x08 || op == 0x09 || op == 0x33

/-- The cost of a command in request units (R380). -/
def State.cost (s : State) (p : Nat) (raw : Bytes) : Nat :=
  let op := byteAt raw 0
  let n := field raw 32 4
  let text := bitAt (byteAt raw 36) 0
  s.reg .admOverhead p +
    (if op = 2 ∧ !text ∧ n ≤ 2097152 then n
     else if ((op = 2 ∧ text) ∨ op = 0x28) ∧ n ≤ 67108864 then ceilDiv n 4
     else 0)

/-- The domain of a command (R381): the named session's, or the field of SESS_OPEN, SEARCH and DIR_RETIRE_DOMAIN. -/
def State.cmdDomain (s : State) (raw : Bytes) : Nat :=
  let op := byteAt raw 0
  if opHasHandle op then (s.getSess (hId (field raw 8 4))).domain
  else if op = 1 ∨ op = 0x12 then field raw 32 2
  else if op = 0x42 then field raw 10 2
  else if op = 0x32 ∧ field raw 8 4 ≠ 0 then (s.getSess (hId (field raw 8 4))).domain
  else 0

/-- Colour a command in both stages (R381): its colour, and the meters after it. -/
def State.admitCmd (s : State) (p : Nat) (raw : Bytes) : Colour × State :=
  let b := s.cost p raw
  let d := s.cmdDomain raw
  let first : Colour × State := match tabGet? s.part.doms d with
    | some x =>
      if x.part = p then
        let r := x.meter.colour s.tick b (if x.aware ∧ x.meter.pir ≠ 0 then preColour (byteAt raw 1 / 16 % 4) else .green)
        (r.1, s.modPartU (fun u => { u with doms := tabSet u.doms d { x with meter := r.2 } }))
      else (.green, s)
    | none => (.green, s)
  let r := (first.2.getPart p).meter.colour s.tick b first.1
  let s1 := first.2.modPart p (fun x => { x with meter := r.2 })
  let s2 := match r.1 with
    | .green => s1.bump .admGreen p
    | .yellow => s1.bump .admYellow p
    | .red => s1.bump .admRed p
  (r.1, s2)

/-! ### Fetching a command (R321 to R323, R327) -/

/-- The offsets of the descriptors a command reads or writes through. -/
def opDescs (op : Nat) : List Nat :=
  if op = 0x28 ∨ op = 0x42 then [16, 48]
  else if [0x02, 0x20, 0x22, 0x24, 0x26, 0x30, 0x32, 0x40, 0x41, 0x50, 0x52, 0x56].contains op then [16]
  else []

/-- Whether a descriptor is one a command may carry (R322). -/
def descOk (raw : Bytes) (o : Nat) : Bool :=
  let len := field raw (o + 8) 4
  !allOnes len 32 && decide (field raw o 8 + len ≤ 2 ^ 64)

/-- The partition a command of a function acts on: the one it serves; for PF0 in composable mode, the domain and meter commands act
for the partition in its view (14 R375). -/
def State.cmdPart (s : State) (fn op : Nat) : Option Nat :=
  match s.fnPart fn with
  | some p => some p
  | none => if s.part.composable && fnIsPf0 fn && (op == 0x54 || op == 0x55) then s.view fn else none

/-- The checks of R323 that come before admission: the status of the first that fails. -/
def State.fetchCheck (s : State) (fn : Nat) (raw : Bytes) : Option Status :=
  let op := byteAt raw 0
  let h := field raw 8 4
  let served := s.cmdPart fn op
  let wantsHandle := opHasHandle op || (op == 0x32 && h != 0)
  if byteAt raw 1 % 16 ≠ 1 then some .versionUnsupported
  else if !opListed op then some .formatInvalid
  else if opPf0Only op then
    if !fnIsPf0 fn then some .secureOnly else if s.host.inReset then some .locked else none
  else if served.isNone && !(op == 0x56 && fnIsPf0 fn) then some .secureOnly
  else if opManaged op && s.host.inReset then some .locked
  else
    let p := served.getD 0
    if served.any (fun p => (s.getPart p).st == .destroying) then some .badState
    else if wantsHandle ∧ 2 ^ 28 ≤ h then some .formatInvalid
    else if wantsHandle ∧ (s.handle? p h).isNone then some .badSession
    else if s.ckpt.restore.isSome && !s.part.composable && (decide (op ≤ 10) || op == 0x10) then some .locked
    else none

/-- A command that fails a common check completes at once (R323). -/
def State.rejectCmd (s : State) (qk : Nat) (raw : Bytes) (st : Status) : State :=
  let s1 := s.bump .hifRejected (qk / 64)
  let s2 := if st = .policed then s1.bump .hifPoliced (qk / 64) else s1
  s2.postCpl qk { kind := 0, status := st, cmdHead := 0, cid := field raw 4 4, phase := false }

/-- CMD_FETCH (R323, R327): the next command of a queue set is fetched once a completion entry is free for it, and passes the common
checks. `raw` is what the command ring holds at the head, `loads` the entries the engine reads from tier 0 for it (02_sessions R33, R34). -/
def execCmdFetch (qk : Nat) (raw : Bytes) (loads : List (Nat × List Nat)) (s : State) : Out3 :=
  whenUp s (fun s =>
    let q := s.qs qk
    let fn := qk / 64
    let r := fit 0 64 raw
    let op := byteAt r 0
    if !q.en || q.cmdHead == q.cmdTail || decide (cplFree q ≤ s.inFlight qk) then s
    else
      let s1 := (s.modQs qk (fun q => { q with cmdHead := (q.cmdHead + 1) % 2 ^ q.cmdLog2 })).loadEntries loads
      match s1.fetchCheck fn r with
      | some st => s1.rejectCmd qk r st
      | none =>
        let p := (s1.cmdPart fn op).getD 0
        let take : State → State := fun s =>
          if !(opDescs op).all (descOk r) then s.rejectCmd qk r .formatInvalid
          else s.modHost (fun h => { h with
            cmds := h.cmds ++ [{ serial := h.serial + 1, qk := qk, part := p, raw := r }]
            serial := h.serial + 1 })
        if opFree op then take s1
        else if byteAt r 1 / 16 % 4 = 3 then s1.rejectCmd qk r .formatInvalid
        else
          let a := s1.admitCmd p r
          if a.1 = .red then a.2.rejectCmd qk r .policed else take a.2)

/-! ### Queue sets (R319, R331) -/

/-- Cancel the generates that were started through a queue set, held ones included (R331). -/
def State.cancelGens (s : State) (qk : Nat) : State :=
  s.sess.foldl (fun s x =>
    match x.2.open?, x.2.held with
    | some g, _ => if g.qk = qk ∧ x.2.st = .running then s.cancelRun x.1 else s
    | none, some h =>
      if h.isGen && ((s.cmd? h.serial).map (·.qk)) == some qk then s.dropHeld x.1 .cancelled else s
    | none, none => s) s

/-- Stop a queue set (R331): nothing of it is fetched or written any more; BUSY reads 1 until its work has ended. -/
def State.stopQs (s : State) (qk : Nat) : State :=
  if !(s.qs qk).en then s
  else
    let s1 := s.modQs qk (fun q => { q with en := false, busy := true, cplUnsig := 0, emitUnsig := 0 })
    let s2 := (s1.cancelGens qk).flushWaits
    let s3 := s2.modCores (fun k => { k with
      bells := k.bells.filter (fun b => b.qk != qk)
      calls := listMod (fun c => c.qk == qk) (fun c => { c with accepted := true }) k.calls })
    let s4 := (s3.cores.calls.filter (fun c => c.qk == qk)).foldl (fun s c => s.callDone c.id) s3
    s4.modQs qk (fun q => { q with busy := decide (0 < s4.inFlight qk) })

/-- The MSI-X vectors of a function (R332). -/
def vecCount (fn : Nat) : Nat := if fnIsPf0 fn then 128 else 120

/-- Whether the fields of a QS_CTRL value are in range (R319): vectors the function has, and a count that is not all ones (00_scope R6). -/
def ctrlOk (fn v : Nat) : Bool :=
  decide (bits v 8 7 < vecCount fn) && decide (bits v 16 7 < vecCount fn) && !allOnes (bits v 24 8) 8

/-- QS_CTRL's fields beside EN. -/
def QueueSet.ctrl (q : QueueSet) (v : Nat) : QueueSet :=
  { q with cplVec := bits v 8 7, emitVec := bits v 16 7, coalCnt := bits v 24 8, coalT := bits v 32 16 }

/-- A write of QS_CTRL (R319): an enable starts every head and tail at 0 and every phase at 1; a disable stops the queue set; a write
out of range, an enable without ring sizes or while BUSY is ignored and counted. -/
def State.writeCtrl (s : State) (fn q v : Nat) : State :=
  let qk := fn * 64 + q
  let x := s.qs qk
  if !ctrlOk fn v then s.bump .hifBadcfg fn
  else if !bitAt v 0 then (s.stopQs qk).modQs qk (fun q => q.ctrl v)
  else if x.en then s.modQs qk (fun q => q.ctrl v)
  else if x.busy ∨ x.cmdLog2 = 0 ∨ x.cplLog2 = 0 then s.bump .hifBadcfg fn
  else s.modQs qk (fun q =>
    { (q.ctrl v) with
      en := true, cmdHead := 0, cmdTail := 0, cplTail := 0, cplHead := 0, emitTail := 0, emitHead := 0, cplUsed := 0, emitUsed := 0,
      cplPhase := true, emitPhase := true, cplUnsig := 0, emitUnsig := 0 })

/-- QS_ENABLE: a write of QS_CTRL that sets EN; `value` holds the other fields. -/
def execQsEnable (fn q value : Nat) (s : State) : Out3 :=
  withBound s fn (fun s => if q < 64 then s.writeCtrl fn q (value / 2 * 2 + 1) else s)

/-- QS_DISABLE: a write of QS_CTRL that clears EN. -/
def execQsDisable (fn q value : Nat) (s : State) : Out3 :=
  withBound s fn (fun s => if q < 64 then s.writeCtrl fn q (value / 2 * 2) else s)

/-- QS_WORK_DRAINED (R331): the work of a stopped queue set has ended. -/
def execQsWorkDrained (qk : Nat) (s : State) : Out3 :=
  whenUp s (fun s => if (s.qs qk).busy ∧ s.inFlight qk = 0 then s.modQs qk (fun q => { q with busy := false }) else s)

/-- MSIX_COALESCE_TIMER (R332): COAL_T after the first unsignalled entry of a ring, one message signals what was written. -/
def execMsixCoalesceTimer (qk : Nat) (emit : Bool) (s : State) : Out3 :=
  whenUp s (fun s =>
    let q := s.qs qk
    if q.coalT = 0 ∨ (if emit then q.emitUnsig else q.cplUnsig) = 0 then s
    else if emit then (s.modQs qk (fun q => { q with emitUnsig := 0 })).fireVec (qk / 64) q.emitVec
    else (s.modQs qk (fun q => { q with cplUnsig := 0 })).fireVec (qk / 64) q.cplVec)

/-! ### FLR, link loss, PERST (R316, R331, 18_power R463, R471) -/

/-- Reset a function: its queue sets stop; its queue-set registers, vectors, view, EMPTIED bits and counters take their reset values.
DESIGN CHOICE: 26 (the spec says the function is reset and names no registers). -/
def State.resetFn (s : State) (fn : Nat) : State :=
  let mine : Nat → Bool := fun qk => qk / 64 == fn
  let s1 := (s.host.qs.filter (fun q => mine q.1)).foldl (fun s q => s.stopQs q.1) s
  let s2 := s1.modHost (fun h => { h with
    qs := (h.qs.map (fun q => if mine q.1 then (q.1, { busy := q.2.busy }) else q)).filter (fun q => !mine q.1 || q.2.busy)
    msix := h.msix.filter (fun v => v.1 / 128 != fn)
    mbxPend := tabErase h.mbxPend fn })
  let s3 := s2.setReg .hifPf0View fn 0
  { s3 with ctrs := s3.ctrs.filter (fun c => c.1 % 65536 != fn ||
      !(([.hifBadcfg, .hifDbBad, .hifRejected, .hifPoliced] : List Counter).any (fun k => k.num == c.1 / 65536))) }

/-- FLR, or a return from D3hot. -/
def execFlr (fn : Nat) (s : State) : Out3 := whenUp s (fun s => if fn < fnCount then s.resetFn fn else s)

/-- The functions of a port. -/
def portFns (port : Nat) : List Nat := (List.range 17).map (fun v => port * 17 + v)

/-- A PCIe port's state. -/
def HostIf.pcie (h : HostIf) (port : Nat) : PciePort := if port = 0 then h.portA else h.portB

/-- Change a PCIe port's state. -/
def State.modPcie (s : State) (port : Nat) (f : PciePort → PciePort) : State :=
  s.modHost (fun h => if port = 0 then { h with portA := f h.portA } else { h with portB := f h.portB })

/-- Reset a port's PCIe block and functions, its mailboxes among them. -/
def State.resetPort (s : State) (port : Nat) : State :=
  ((portFns port).foldl State.resetFn s).modHost (fun h => { h with mbx := h.mbx.filter (fun m => m.1 / 64 != port) })

/-- PCIE_LINK_DOWN: every function of the port is reset, and the link trains again. -/
def execPcieLinkDown (port : Nat) (s : State) : Out3 :=
  whenUp s (fun s => if port < 2 then (s.resetPort port).modPcie port (fun p => { p with training := !p.perst }) else s)

/-- PERST_ASSERT. -/
def execPerstAssert (port : Nat) (s : State) : Out3 :=
  if 2 ≤ port then .next s
  else
    let s1 := s.modPcie port (fun _ => { perst := true, training := false })
    .next (if s.up then s1.resetPort port else s1)

/-- PERST_DEASSERT (R463): training starts at the later of this and the release of internal reset. -/
def execPerstDeassert (port : Nat) (s : State) : Out3 :=
  .next (if 2 ≤ port then s else s.modPcie port (fun _ => { perst := false, training := s.up }))

/-! ### Mailboxes (R333 to R336) -/

/-- The function that owns a mailbox of a port (R333). -/
def mbxOwner (port n : Nat) : Nat := port * 17 + (if n < 32 then 0 else 1 + (n - 32) / 2)

/-- A mailbox page. -/
def State.mbxAt (s : State) (port n : Nat) : Mailbox := tabGet {} s.host.mbx (port * 64 + n)

/-- Put a mailbox page. -/
def State.setMbx (s : State) (port n : Nat) (m : Mailbox) : State :=
  s.modHost (fun h => { h with mbx := tabPut {} h.mbx (port * 64 + n) m })

/-- Empty a mailbox: the reply is in place, GO clears, EMPTIED is set and the owner's vector 0 fires (R335). -/
def State.emptyMbx (s : State) (port n : Nat) (reply : List W32) (err : Bool) : State :=
  let m := s.mbxAt port n
  let fn := mbxOwner port n
  let s1 := s.setMbx port n { m with data := reply ++ m.data.drop reply.length, go := false, err := err, rlen := reply.length }
  let pend := tabGet 0 s1.host.mbxPend fn
  let s2 := s1.modHost (fun h => { h with mbxPend := tabSet h.mbxPend fn (pend ||| BitVec.ofNat 64 (2 ^ n)) })
  (s2.emitOut (.mailbox port n reply)).fireVec fn 0

/-- The bytes of mailbox words. -/
def wordBytes (l : List W32) : Bytes := l.flatMap (fun w => natLe 4 w.toNat)

/-- Whether a mailbox message is one the hawk heeds (R335): its length, its CRC, its version. -/
def Mailbox.heard (m : Mailbox) : Bool :=
  decide (8 ≤ m.len) && decide (m.len ≤ 16) && (m.data.headD 0).toNat / 2 ^ 16 % 16 == 1 &&
    (m.data.getD (m.len - 1) 0).toNat == crc32c (wordBytes (m.data.take (m.len - 1)))

/-- Ignore a message: it is counted, and its mailbox emptied with ERR. -/
def State.ignoreMbx (s : State) (port n : Nat) : State :=
  (s.setMbx port n { s.mbxAt port n with drop := (s.mbxAt port n).drop + 1 }).emptyMbx port n [] true

/-- Whether the hawk is at work. -/
def State.hawkUp (s : State) : Bool := s.mgmt.ready && !s.mgmt.failed && !s.host.inReset

/-- A message sent through a mailbox that is not full (R335): one the hawk ignores is emptied at once; a mailbox stays full while the hawk
is down. -/
def State.mbxSend (s : State) (port n len : Nat) : State :=
  let m1 := { s.mbxAt port n with len := len % 32, go := true }
  let s1 := s.setMbx port n m1
  if s.hawkUp && !m1.heard then s1.ignoreMbx port n else s1

/-- MBX_GO (R335): a write of MBX_CTRL with GO. -/
def execMbxGo (fn n len : Nat) (s : State) : Out3 :=
  whenUp s (fun s =>
    let port := fnPort fn
    if 64 ≤ n ∨ fnCount ≤ fn then s
    else if !s.bound fn || mbxOwner port n != fn then s.denied fn
    else if (s.mbxAt port n).go then s
    else s.mbxSend port n len)

/-! ### The recovery lease (R337, R338) -/

/-- Count an ignored lease or reset write. -/
def State.leaseIgnored (s : State) (port : Nat) : State := s.bump .ykIgnored port

/-- Note the last value written to YK_LEASE's action bits. -/
def State.leaseWrote (s : State) (v : Nat) : State := s.modHost (fun h => { h with leaseWorb := v })

/-- CLAIM (R338): port A takes precedence over a claim of port B in the same management tick, also where B held the lease and it could be taken. -/
def execClaim (port : Nat) (s : State) : Out3 :=
  whenUp s (fun s =>
    let s := s.leaseWrote 4
    let me := port + 1
    let take : State → State := fun s => s.modHost (fun h => { h with holder := me, age := 0, claimedByB := port == 1 })
    if 2 ≤ port then s
    else if s.host.holder = me then s.modHost (fun h => { h with age := 0, claimedByB := h.claimedByB || (port == 1 && decide (1000 ≤ h.age)) })
    else if s.host.holder = 0 ∨ 1000 ≤ s.host.age then take s
    else if port = 0 ∧ s.host.claimedByB then (take s).leaseIgnored 1
    else s.leaseIgnored port)

/-- RENEW (R337). -/
def execRenew (port : Nat) (s : State) : Out3 :=
  whenUp s (fun s =>
    let s := s.leaseWrote 8
    if s.host.holder = port + 1 then s.modHost (fun h => { h with age := 0 }) else s.leaseIgnored port)

/-- RELEASE (R337). -/
def execRelease (port : Nat) (s : State) : Out3 :=
  whenUp s (fun s =>
    let s := s.leaseWrote 16
    if s.host.holder = port + 1 then s.modHost (fun h => { h with holder := 0 }) else s.leaseIgnored port)

end Sys2Proof.Machine
end

