-- ==== Sys2Proof/Machine/Loads.lean ====
section
/-! DEFINITION. Loads (07_sampling_and_stencils R174 to R184; 08_text_unit R201 to R212, R219): STENCIL_LOAD, STENCIL_UNLOAD, SAMP_LOAD,
SAMP_UNLOAD, STOP_LOAD, STOP_UNLOAD, TOK_LOAD, TOK_UNLOAD, TOK_ENCODE, LANE_TOKENISE. -/

namespace Sys2Proof.Machine

/-! ### The stores (R174, R201) -/

/-- Emit-store pages a partition uses (R174, R175): its sets and profiles, and replaced or unloaded profiles that a step still uses. -/
def State.emitPages (s : State) (p : Nat) : Nat :=
  let profs := s.emit.profs.filter (fun e => e.1 / 65536 == p)
  let kept := (s.live p).filterMap (fun x => match x.2.step with
    | some st => if st.profile.ver = 0 ∨ profs.any (fun e => e.2.ver == st.profile.ver) then none else some (st.profile.ver, st.profile.pages)
    | none => none)
  sumOf (fun e => e.2.pages) (s.emit.sets.filter (fun e => e.1 / 65536 == p)) + sumOf (fun e => e.2.pages) profs +
    sumOf (fun e => e.2) kept.eraseDups

/-- Pages of a partition's emit store: 8 MiB for each cluster (R174). -/
def State.emitStore (s : State) (p : Nat) : Nat := 2048 * (s.clustersOf p).length

/-- Text-store pages a partition uses (R201, R219): whole pages for a tokeniser image, 66 for a stop set. -/
def State.textPages (s : State) (p : Nat) : Nat :=
  sumOf (fun e => ceilDiv e.2.length 4096) (s.text.toks.filter (fun e => e.1 / 256 == p)) +
    66 * (s.text.stops.filter (fun e => e.1 / 65536 == p)).length

/-- Pages of a partition's text store: 8 MiB for each cluster (R201). -/
def State.textStore (s : State) (p : Nat) : Nat := 2048 * (s.clustersOf p).length

/-- The number of a set, profile or stop set: 0 and 0xFFFF are none (R175, R202). -/
def loadNumOk (n : Nat) : Bool := n != 0 && n != 0xFFFF

/-- BYTES of a load, and whether it is a count and lies within the buffer descriptor. -/
def Cmd.bytesOk (c : Cmd) : Bool := !allOnes (field c.raw 32 4) 32 && decide (field c.raw 32 4 ≤ c.len0)

/-- The image a load reads. -/
def Cmd.image (c : Cmd) (data : Bytes) : Bytes := bufData (field c.raw 32 4) data

/-- Whether non-FREE sessions of a partition name a model (05_attention R126). -/
def State.modelInUse (s : State) (p m : Nat) : Bool := (s.live p).any (fun x => x.2.model == m)

/-! ### Stencil sets (R175 to R178) -/

/-- STENCIL_LOAD. -/
def execStencilLoad (qk : Nat) (data : Bytes) (s : State) : Out3 :=
  withCmd s qk 0x20 (fun s c =>
    let n := field c.raw 36 2
    let b := c.image data
    let pages := ceilDiv b.length 4096
    if !loadNumOk n ∨ !c.bytesOk ∨ !stencilOk b then s.done c.serial .formatInvalid
    else if (s.set? c.part n).isSome then s.done c.serial .badState
    else if s.emitStore c.part < s.emitPages c.part + pages then s.done c.serial .noSpace
    else (s.modEmit (fun e => { e with sets := tabSet e.sets (c.part * 65536 + n) { img := b, pages := pages } })).done c.serial .ok)

/-- STENCIL_UNLOAD: its masks leave the caches with it. -/
def execStencilUnload (qk : Nat) (s : State) : Out3 :=
  withCmd s qk 0x21 (fun s c =>
    let n := field c.raw 36 2
    let key := c.part * 65536 + n
    if !loadNumOk n then s.done c.serial .formatInvalid
    else if (s.set? c.part n).isNone ∨ (s.live c.part).any (fun x => x.2.stencilSet == n) then s.done c.serial .badState
    else (s.modEmit (fun e => { e with
      sets := tabErase e.sets key
      cache := e.cache.map (fun l => (l.1, l.2.filter (fun m => m.set != key))) })).done c.serial .ok)

/-! ### Sampler profiles (R175, R182 to R184) -/

/-- SAMP_LOAD: a number already loaded is replaced; the profile being replaced counts as still present. -/
def execSampLoad (qk : Nat) (data : Bytes) (s : State) : Out3 :=
  withCmd s qk 0x22 (fun s c =>
    let n := field c.raw 36 2
    let b := c.image data
    if !loadNumOk n ∨ !c.bytesOk then s.done c.serial .formatInvalid
    else match profileOk b with
      | none => s.done c.serial .formatInvalid
      | some f =>
        if s.emitStore c.part < s.emitPages c.part + f.pages then s.done c.serial .noSpace
        else (s.modEmit (fun e => { e with
          profs := tabSet e.profs (c.part * 65536 + n) { f with ver := e.nextVer }
          nextVer := e.nextVer + 1 })).done c.serial .ok)

/-- SAMP_UNLOAD. -/
def execSampUnload (qk : Nat) (s : State) : Out3 :=
  withCmd s qk 0x23 (fun s c =>
    let n := field c.raw 36 2
    let key := c.part * 65536 + n
    if !loadNumOk n then s.done c.serial .formatInvalid
    else if (tabGet? s.emit.profs key).isNone then s.done c.serial .badState
    else (s.modEmit (fun e => { e with profs := tabErase e.profs key })).done c.serial .ok)

/-! ### Stop sets (R202, R219) -/

/-- STOP_LOAD. -/
def execStopLoad (qk : Nat) (data : Bytes) (s : State) : Out3 :=
  withCmd s qk 0x26 (fun s c =>
    let n := field c.raw 36 2
    let key := c.part * 65536 + n
    if !loadNumOk n ∨ !c.bytesOk then s.done c.serial .formatInvalid
    else match stopOk (c.image data) with
      | none => s.done c.serial .formatInvalid
      | some l =>
        if (tabGet? s.text.stops key).isSome then s.done c.serial .badState
        else if s.textStore c.part < s.textPages c.part + 66 then s.done c.serial .noSpace
        else (s.modText (fun t => { t with stops := tabSet t.stops key l })).done c.serial .ok)

/-- STOP_UNLOAD. -/
def execStopUnload (qk : Nat) (s : State) : Out3 :=
  withCmd s qk 0x27 (fun s c =>
    let n := field c.raw 36 2
    let key := c.part * 65536 + n
    if !loadNumOk n then s.done c.serial .formatInvalid
    else if (tabGet? s.text.stops key).isNone ∨ (s.live c.part).any (fun x => x.2.stopSet == n) then s.done c.serial .badState
    else (s.modText (fun t => { t with stops := tabErase t.stops key })).done c.serial .ok)

/-! ### Tokeniser images (R202 to R205) -/

/-- TOK_LOAD. -/
def execTokLoad (qk : Nat) (data : Bytes) (s : State) : Out3 :=
  withCmd s qk 0x24 (fun s c =>
    let m := byteAt c.raw 36
    let b := c.image data
    if m = 255 ∨ !c.bytesOk ∨ !tokOk b (s.model c.part m).vocab then s.done c.serial .formatInvalid
    else if s.modelInUse c.part m ∨ (s.tok? c.part m).isSome then s.done c.serial .badState
    else if s.textStore c.part < s.textPages c.part + ceilDiv b.length 4096 then s.done c.serial .noSpace
    else (s.modText (fun t => { t with toks := tabSet t.toks (c.part * 256 + m) b })).done c.serial .ok)

/-- TOK_UNLOAD. -/
def execTokUnload (qk : Nat) (s : State) : Out3 :=
  withCmd s qk 0x25 (fun s c =>
    let m := byteAt c.raw 36
    if m = 255 then s.done c.serial .formatInvalid
    else if s.modelInUse c.part m ∨ (s.tok? c.part m).isNone then s.done c.serial .badState
    else (s.modText (fun t => { t with toks := tabErase t.toks (c.part * 256 + m) })).done c.serial .ok)

/-! ### Tokenising (R206 to R212) -/

/-- TOK_ENCODE: the text goes to a lane of the partition, the clusters taking the commands in turn (R211). A model without an image and
a byte count out of range are refused as R210 refuses an append's. -/
def execTokEncode (qk : Nat) (data : Bytes) (s : State) : Out3 :=
  withCmd s qk 0x28 (fun s c =>
    let m := byteAt c.raw 36
    let n := field c.raw 32 4
    let cs := s.clustersOf c.part
    let k := tabGet 0 s.text.turn c.part
    if (s.tok? c.part m).isNone ∨ !c.bytesOk ∨ 67108864 < n then s.done c.serial .formatInvalid
    else
      let j : LaneJob := { serial := c.serial, encode := true, part := c.part, model := m, handle := 0, text := c.image data,
                           room := field c.raw 56 4 / 4 }
      s.modText (fun t => { t with
        turn := tabSet t.turn c.part (k + 1)
        lanes := tabMod [] t.lanes (cs.getD (k % max 1 cs.length) 0) (fun l => l ++ [j]) }))

/-- Count what a lane did with some pieces (R223). DESIGN CHOICE: 60 (pieces before an untokenisable byte count). -/
def State.countPieces (s : State) (p : Nat) (l : List PieceTok) : State :=
  (((s.bumpBy .textInBytes p (sumOf (·.len) l)).bumpBy .textInTokens p (sumOf (fun x => x.toks.length) l)).bumpBy .textBytemode p
    (l.filter (·.byteMode)).length).bumpBy .textMergemode p (l.filter (fun x => !x.byteMode)).length

/-- A text that cannot be tokenised (R209): counted, recorded with its offset. -/
def State.untok (s : State) (p handle off : Nat) : State :=
  (s.bump .textUntok p).setReg .textUntokLast p (handle + off % 2 ^ 32 * 2 ^ 32)

/-- The whole pieces that fit an output buffer of some tokens. -/
def fitPieces : Nat → List PieceTok → List PieceTok
  | _, [] => []
  | room, x :: l => if x.toks.length ≤ room then x :: fitPieces (room - x.toks.length) l else []

/-- A TOK_ENCODE ends (R211, R209): OK, SHORT where the buffer filled, UNTOKENISABLE where a byte without a token comes first. -/
def State.encodeEnds (s : State) (j : LaneJob) (t : TokImg) : State :=
  let r := tokenise t j.text
  let fits := fitPieces j.room r.1
  let short := decide (fits.length < r.1.length)
  match s.cmd? j.serial with
  | none => s
  | some c =>
    match r.2, short with
    | some off, false => ((s.countPieces j.part r.1).untok j.part 0 off).final j.serial .untokenisable 0 0 0 off
    | _, _ =>
      let toks := fits.flatMap (·.toks)
      let s1 := (s.countPieces j.part fits).emitOut (.hostWrite (fnPort (c.qk / 64)) (field c.raw 48 8) (toks.flatMap (natLe 4)))
      s1.final j.serial (if short then .short else .ok) 0 toks.length (sumOf (·.len) fits) 0

/-- A text append ends (R209, R210): its tokens enter the append as if a buffer had given them. -/
def State.appendEnds (s : State) (j : LaneJob) (t : TokImg) : State :=
  let id := hId j.handle
  let s0 := s.modSess id (fun x => { x with busyCmd := false })
  let x := s0.getSess id
  let r := tokenise t j.text
  if handleOf id x ≠ j.handle ∨ x.st = .free ∨ x.st = .ended then s0.done j.serial .cancelled
  else if x.st = .stripped ∨ x.st = .faulted then s0.done j.serial .tierFault
  else if x.exporting then s0.done j.serial .badState
  else
    let s1 := s0.countPieces j.part r.1
    match r.2 with
    | some off => (s1.untok j.part j.handle off).final j.serial .untokenisable 0 off (lenRes x) x.coatPos
    | none => s1.applyAppend id j.serial ((r.1.flatMap (·.toks)).map (fun k => ⟨k, 0⟩))

/-- LANE_TOKENISE (R212): the first job of a cluster's lane ends. -/
def execLaneTokenise (cluster : Nat) (s : State) : Out3 :=
  whenUp s (fun s =>
    match tabGet [] s.text.lanes cluster with
    | [] => s
    | j :: l =>
      let s1 := s.modText (fun t => { t with lanes := tabPut [] t.lanes cluster l })
      match s1.tok? j.part j.model with
      | none => (s1.modSess (hId j.handle) (fun x => if j.encode then x else { x with busyCmd := false })).done j.serial .formatInvalid
      | some t => if j.encode then s1.encodeEnds j t else s1.appendEnds j t)

end Sys2Proof.Machine
end

