-- ==== Sys2Proof/Machine/Partitions.lean ====
section
/-! DEFINITION. Partitions, binding, domains, recomposition and meter reports (14_partitions_and_admission R366 to R383; 15_security R398,
R400; 04_undercoat R122; 09_scaesh R238): PART_CREATE, PART_CREATE_COMMIT, PART_DESTROY, PART_DESTROY_DONE, PART_BIND, DOM_BIND,
DOM_UNBIND, METER_REPORT, PART_RECOMPOSE and its four stages. -/

namespace Sys2Proof.Machine

/-! ### What every command asks -/

/-- Where a stage would wait for tick 0 of a beat, whether it may go on: a tick 0 has come since, or there is no beat to wait for
(R371, R378). -/
def State.atTick0 (s : State) : Bool := s.beat.none_ || s.beat.hold || (s.part.armed && s.beat.tick == 0)

/-- The partitions that exist and are not being destroyed. -/
def State.partLive (s : State) (p : Nat) : Bool := (s.getPart p).st == .active

/-- The clusters of a bit mask. -/
def clustersOfMask (n : Nat) : List Nat := (List.range 32).filter (bitAt n)

/-- Whether quotas of some partitions fit the two regions beside those of the others (R371, R377). -/
def State.quotasFit (s : State) (news : List (Nat × Nat × Nat)) : Bool :=
  let rest := (s.part.parts.filter (fun x => x.2.st != .none_ && !news.any (fun n => n.1 == x.1)))
  decide (sumOf (fun x => x.2.t2Quota) rest + sumOf (fun n => n.2.1) news ≤ s.usableGib - s.indexGib) &&
    decide (sumOf (fun x => x.2.ixQuota) rest + sumOf (fun n => n.2.2) news ≤ (if s.isN then 0 else s.indexGib))

/-- A place of consecutive directory rows, the lowest free one (04 R100); none where the free rows are scattered.
DESIGN CHOICE: 41 (ROW_BASE is the device's choice). -/
def State.rowPlace (s : State) (skip : List Nat) (n : Nat) : Option Nat :=
  fitPlace 0 4096 n ((s.part.parts.filter (fun x => x.2.st != .none_ && !skip.contains x.1)).map (fun x => (x.2.rowBase, x.2.rows)))

/-! ### PART_CREATE (R370, R371, R398) -/

/-- The partition that a PART_CREATE describes. -/
def createFields (raw data : Bytes) : Part :=
  let b := byteAt raw 13
  { st := .creating
    clusters := clustersOfMask (field raw 32 4)
    groupBase := byteAt raw 36
    groups := field raw 38 2 % 512
    pool := b2n (bitAt b 1)
    conf := bitAt b 0
    t2Quota := field raw 44 2
    ixQuota := field raw 48 2
    domBase := field raw 40 2
    domCount := field raw 42 2
    owner := if bitAt b 0 then fit 0 32 data else [] }

/-- Whether a PART_CREATE's fields are in range and its reserved bits 0 (the third row of R371). -/
def createOk (raw : Bytes) (n : Part) : Bool :=
  decide (byteAt raw 12 < 16) && decide (byteAt raw 13 < 4) && decide (field raw 38 2 < 512) && field raw 46 2 == 0 && field raw 50 2 == 0 &&
    decide (1 ≤ n.clusters.length) && decide (n.clusters.length ≤ 16) && decide (1 ≤ n.groups) && decide (n.groupBase + n.groups ≤ 256) &&
    decide (1 ≤ n.domBase) && decide (n.domBase ≤ 65534) && decide (1 ≤ n.domCount) && decide (n.domCount ≤ 65534) &&
    decide (n.domBase + n.domCount ≤ 65535) && field raw 24 4 == (if n.conf then 32 else 0)

/-- Whether a new partition shares a cluster, an entry group or a domain number with an existing one (R371). -/
def State.createOverlaps (s : State) (n : Part) : Bool :=
  s.part.parts.any (fun x => x.2.st != .none_ && (n.clusters.any x.2.clusters.contains ||
    (decide (n.groupBase < x.2.groupBase + x.2.groups) && decide (x.2.groupBase < n.groupBase + n.groups)) ||
    (decide (n.domBase < x.2.domBase + x.2.domCount) && decide (x.2.domBase < n.domBase + n.domCount))))

/-- The first status of R371 that applies, or where the partition's directory rows go. A set that names a lost cluster fails with
BAD_STATE (16_checkpoint R434). -/
def State.createCheck (s : State) (raw : Bytes) (n : Part) : Except Status Nat :=
  if !s.part.composable then .error .badState
  else if s.partBusy then .error .locked
  else if !createOk raw n then .error .formatInvalid
  else if s.partExists (byteAt raw 12 % 16) ∨ n.clusters.any (fun c => s.ckpt.lostDies.contains (dieOf c)) then .error .badState
  else if s.createOverlaps n then .error .noSpace
  else if !s.quotasFit [(16, n.t2Quota, n.ixQuota)] then .error .noSpace
  else match s.rowPlace [] (128 * n.clusters.length) with
    | none => .error .noSpace
    | some r => .ok r

/-- Whether a counter's key is one of a partition's counters. -/
def partCtr (key : Nat) : Bool := counterTable.any (fun e => e.1.num == key / 65536 && e.2.2.1 == Scope.part)

/-- Per-partition registers, counters, models and schedules of a number return to their reset values (R371). -/
def State.freshPart (s : State) (p : Nat) : State :=
  { s with
    regs := s.regs.filter (fun r => r.1 % 65536 != p || deviceRegs.any (fun k => k.num == r.1 / 65536))
    ctrs := s.ctrs.filter (fun c => c.1 % 65536 != p || !partCtr c.1)
    att := { s.att with models := s.att.models.filter (fun m => m.1 / 256 != p) }
    beat := { s.beat with wins := tabErase s.beat.wins p, rosters := tabErase s.beat.rosters p }
    emit := { s.emit with
      sets := s.emit.sets.filter (fun e => e.1 / 65536 != p)
      profs := s.emit.profs.filter (fun e => e.1 / 65536 != p) }
    text := { s.text with
      toks := s.text.toks.filter (fun e => e.1 / 256 != p)
      stops := s.text.stops.filter (fun e => e.1 / 65536 != p)
      turn := tabErase s.text.turn p }
    cores := { s.cores with
      progs := s.cores.progs.filter (fun g => g.part != p)
      unloaded := s.cores.unloaded.filter (fun u => u / 256 != p) }
    sec := { s.sec with latch := s.sec.latch.filter (fun c => c.1 % 65536 != p || !partCtr c.1) } }

/-- The partition is created: it is active, its first beat's windows open where there is a beat, its composition begins, and its secret is drawn.
The first confidential partition locks JTAG and drops an attached session (15_security R400). -/
def State.createdPart (s : State) (p serial : Nat) : State :=
  let n := s.getPart p
  let s0 := if s.beat.none_ || s.beat.hold then s.freshPart p else (s.freshPart p).openWindows p
  let s1 := s0.modPart p (fun x => { x with
    st := .active
    secret := Config.pick s.free % 2 ^ 64
    epoch := x.epoch + 1
    comps := [{ num := s.part.compNum, startMs := s.mgmt.ms, clusters := x.clusters.length, conf := x.conf, pool := x.pool }] })
  let s2 := s1.draw.modPartU (fun u => { u with compNum := u.compNum + 1, creating := none })
  let s3 := if n.conf then s2.modSec (fun c => { c with jtagLock := true, jtagAttached := false }) else s2
  s3.done serial .ok

/-- PART_CREATE: the partition takes its place, and waits for tick 0 of the next beat where there is one to wait for. -/
def execPartCreate (qk : Nat) (data : Bytes) (s : State) : Out3 :=
  withCmd s qk 0x50 (fun s c =>
    let n := createFields c.raw data
    let p := byteAt c.raw 12 % 16
    match s.createCheck c.raw n with
    | .error e => s.done c.serial e
    | .ok row =>
      let old := s.getPart p
      let s1 := s.modPart p (fun _ => { n with rowBase := row, rows := 128 * n.clusters.length, epoch := old.epoch, comps := old.comps })
      let s2 := s1.modPartU (fun u => { u with creating := some (p, c.serial), armed := false })
      if s.beat.none_ ∨ s.beat.hold then s2.createdPart p c.serial else s2)

/-- PART_CREATE_COMMIT (R371): at tick 0 of the next beat, the partition's first. -/
def execPartCreateCommit (s : State) : Out3 :=
  whenUp s (fun s =>
    match s.part.creating with
    | none => s
    | some (p, serial) => if s.atTick0 then s.createdPart p serial else s)

/-! ### Unbinding (R374) -/

/-- A function serves a partition no longer: its queue sets are stopped. -/
def State.unbindFn (s : State) (fn : Nat) : State :=
  let s1 := (s.host.qs.filter (fun q => q.1 / 64 == fn)).foldl (fun s q => s.stopQs q.1) s
  s1.modPartU (fun u => { u with fns := tabErase u.fns fn })

/-- Drop what a port's VC1 to VC3 hold: received messages, one still in parts among them, are counted in RX_VC and return their credit. -/
def State.clearVcs (s : State) (port : Nat) : State :=
  let held := s.att.held.filter (fun k => k.port == port)
  let s0 := s.modAtt (fun a => { a with held := a.held.filter (fun k => k.port != port) })
  [1, 2, 3].foldl (fun s vc =>
    let v := (s.port port).vc vc
    let mine := held.filter (fun k => k.vc == vc)
    let s1 := s.bumpBy .rxVc port (v.inbox.length + mine.length + b2n (!v.part_.isEmpty))
    let s2 := s1.freeCredit port vc (sumOf (·.cost) v.inbox + sumOf (·.cost) mine + v.partCost)
    s2.modPort port (fun p =>
      let w := p.vc vc
      p.setVc vc { w with
        inbox := []
        egress := []
        sent := 0
        gated := false
        part_ := []
        partCost := 0
        skip := v.skip || !v.part_.isEmpty })) s0

/-- A Cunis port carries only VC0 from now on. -/
def State.unbindPort (s : State) (port : Nat) : State := (s.clearVcs port).modPartU (fun u => { u with ports := tabErase u.ports port })

/-! ### PART_DESTROY (R372, R402) -/

/-- Close every session that can be closed now; the others are closed once their lookup or tokenising has ended. -/
def State.closeAll (s : State) (p : Nat) : State :=
  (s.live p).foldl (fun s x =>
    let y := s.getSess x.1
    if y.st = .ended ∨ y.busyCmd ∨ y.closeSerial ≠ 0 then s else s.closeSess x.1 (2 ^ 64)) s

/-- Unload a partition's sets, profiles, images and programs; what its programs have sent is discarded (10 R287). -/
def State.unloadAll (s : State) (p : Nat) : State :=
  (({ s with
      emit := { s.emit with
        sets := s.emit.sets.filter (fun e => e.1 / 65536 != p)
        profs := s.emit.profs.filter (fun e => e.1 / 65536 != p)
        cache := s.emit.cache.map (fun e => (e.1, e.2.filter (fun m => m.set / 65536 != p))) }
      text := { s.text with
        toks := s.text.toks.filter (fun e => e.1 / 256 != p)
        stops := s.text.stops.filter (fun e => e.1 / 65536 != p) } } : State).modCores (fun k => { k with
    progs := listMod (fun g => g.part == p) (fun g => { g with gone := true }) k.progs
    chans := k.chans.map (fun c => (c.1, c.2.filter (fun m => m.part != p)))
    sends := k.sends.filter (fun d => d.msg.part != p) })).sweepProgs

/-- PART_DESTROY: steps 1 to 6 of R372. -/
def execPartDestroy (qk : Nat) (s : State) : Out3 :=
  withCmd s qk 0x51 (fun s c =>
    let p := byteAt c.raw 12 % 16
    if !s.part.composable then s.done c.serial .badState
    else if s.partBusy then s.done c.serial .locked
    else if 16 ≤ byteAt c.raw 12 then s.done c.serial .formatInvalid
    else if !s.partLive p then s.done c.serial .badState
    else
      let s1 := (s.modPart p (fun x => { x with st := .destroying })).modPartU (fun u => { u with destroying := some (p, c.serial) })
      let fns := (s1.part.fns.filter (fun f => f.2 == p)).map (·.1)
      let s2 := fns.foldl (fun s fn => (s.host.qs.filter (fun q => q.1 / 64 == fn)).foldl (fun s q => s.stopQs q.1) s) s1
      let s3 := (s2.closeAll p).unloadAll p
      (s3.dir.recs.filter (fun r => r.2.part == p)).foldl (fun s r => s.retireEntry r.1) s3)

/-- Whether every block, reference and invocation of a partition is released (step 7 of R372). -/
def State.partIdle (s : State) (p : Nat) : Bool :=
  (s.live p).isEmpty && !s.dir.recs.any (fun r => r.2.part == p) && !s.fab.float.any (fun f => f.part == p) && !s.ckReads.any (fun r => r.part == p) &&
    !s.att.reqs.any (fun r => r.part == p) && !s.ret.searches.any (fun q => q.part == p) && !s.host.cmds.any (fun c => c.part == p &&
      !opPf0Only (byteAt c.raw 0)) &&
    !(s.coresOf p).any (fun c => [0, 1, 2, 3].any (fun k => ((s.core c).ctx k).inv.isSome || !((s.core c).ctx k).queue.isEmpty))

/-- Zero a cluster's SRAM, local data memories and working space, and discard the messages queued at its cores (R372, R378, 09 R238, 10 R287). -/
def State.zeroCluster (s : State) (cl : Nat) : State :=
  { s with
    cores := { s.cores with
      core := s.cores.core.map (fun c => if c.1 / 8 = cl then (c.1, { c.2 with ldm := [] }) else c)
      cws := tabErase s.cores.cws cl
      merge := tabErase s.cores.merge cl
      areas := tabErase s.cores.areas cl
      chans := s.cores.chans.filter (fun c => c.1 / 512 != cl)
      sends := s.cores.sends.filter (fun d => d.chan / 512 != cl) }
    emit := { s.emit with cache := tabErase s.emit.cache cl } }

/-- Seal the open composition of a partition (R382): the device keeps the 15 most recent sealed ones. -/
def Part.seal (x : Part) (ms : Nat) : Part :=
  { x with comps := (listMod (fun c => c.endMs.isNone) (fun c => { c with endMs := some ms }) x.comps).take 15 }

/-- PART_DESTROY_DONE (R372, R402): sessions that could not be closed before are closed now; once nothing of the partition is left, its
bindings and domains go, its clusters are zeroed and its composition is sealed. -/
def execPartDestroyDone (s : State) : Out3 :=
  whenUp s (fun s =>
    match s.part.destroying with
    | none => s
    | some (p, serial) =>
      if !s.partIdle p then s.closeAll p
      else
        let x := s.getPart p
        let s1 := ((s.part.fns.filter (fun f => f.2 == p)).map (·.1)).foldl State.unbindFn s
        let s2 := ((s1.part.ports.filter (fun f => f.2 == p)).map (·.1)).foldl State.unbindPort s1
        let s3 := x.clusters.foldl State.zeroCluster s2
        let s4 := if x.conf then s3.modRet (fun r => { r with ixs := r.ixs.filter (fun i => i.1 / 256 != p) }) else s3
        let y := x.seal s4.mgmt.ms
        let s5 := s4.modPart p (fun _ => { comps := y.comps, epoch := y.epoch })
        (s5.modPartU (fun u => { u with doms := u.doms.filter (fun d => d.2.part != p), destroying := none })).done serial .ok)

/-! ### PART_BIND (R373, R374) -/

/-- PART_BIND. -/
def execPartBind (qk : Nat) (s : State) : Out3 :=
  withCmd s qk 0x53 (fun s c =>
    let p := byteAt c.raw 12 % 16
    let kind := byteAt c.raw 13
    let port := byteAt c.raw 14
    let vf := byteAt c.raw 15 % 16
    let unbind := bitAt (byteAt c.raw 32) 0
    let fn := port * 17 + 1 + vf
    let bad : Bool := decide (16 ≤ byteAt c.raw 12) || decide (2 ≤ kind) || decide ((if kind = 0 then 2 else 16) ≤ port) ||
      decide (16 ≤ byteAt c.raw 15) || decide (2 ≤ byteAt c.raw 32)
    if !s.part.composable then s.done c.serial .badState
    else if bad then s.done c.serial .formatInvalid
    else if !s.partLive p then s.done c.serial .badState
    else if kind = 0 then
      if unbind then
        if s.fnPart fn = some p then (s.unbindFn fn).done c.serial .ok else s.done c.serial .badState
      else if (s.fnPart fn).isSome ∨ s.partOnPort p port then s.done c.serial .badState
      else (s.modPartU (fun u => { u with fns := tabSet u.fns fn p })).done c.serial .ok
    else if unbind then
      if s.portPart port = some p then (s.unbindPort port).done c.serial .ok else s.done c.serial .badState
    else if (s.portPart port).isSome ∨ !(s.clustersOf p).any (fun k => dieOf k == port / 4) then s.done c.serial .badState
    else ((s.clearVcs port).modPartU (fun u => { u with ports := tabSet u.ports port p })).done c.serial .ok)

/-! ### Domains (R375) -/

/-- The checks DOM_BIND and DOM_UNBIND share. -/
def State.domCheck (s : State) (p d : Nat) : Option Status :=
  let x := s.getPart p
  if d = 0 ∨ d = 0xFFFF then some .formatInvalid
  else if d < x.domBase ∨ x.domBase + x.domCount ≤ d then some .domainDenied
  else none

/-- DOM_BIND. -/
def execDomBind (qk : Nat) (s : State) : Out3 :=
  withCmd s qk 0x54 (fun s c =>
    let d := field c.raw 32 2
    match s.domCheck c.part d with
    | some e => s.done c.serial e
    | none =>
      if s.domBound c.part d then s.done c.serial .badState
      else if 4096 ≤ (s.part.doms.filter (fun x => x.2.part == c.part)).length then s.done c.serial .noSpace
      else (s.modPartU (fun u => { u with doms := tabSet u.doms d { part := c.part, aware := bitAt (byteAt c.raw 34) 0 } })).done
        c.serial .ok)

/-- DOM_UNBIND: the domain's entries are retired as DIR_RETIRE_DOMAIN with MODEL 255 would; the binding goes when that has ended. -/
def execDomUnbind (qk : Nat) (s : State) : Out3 :=
  withCmd s qk 0x55 (fun s c =>
    let d := field c.raw 32 2
    match s.domCheck c.part d with
    | some e => s.done c.serial e
    | none =>
      if !s.domBound c.part d ∨ (s.live c.part).any (fun x => x.2.domain == d) ∨ (s.indexes c.part).any (fun x => x.2.domain == d) then
        s.done c.serial .badState
      else s.addRetire { serial := c.serial, part := c.part, domain := d, model := 255, sweepRow := some (s.getPart c.part).rowBase })

/-! ### METER_REPORT (R383) -/

/-- The composition of a partition's number that WHICH names: 0 the open one, n the n-th most recent sealed one (R383). -/
def Part.comp? (x : Part) (which : Nat) : Option CompRec :=
  if which = 0 then x.comps.find? (fun c => c.endMs.isNone)
  else (x.comps.filter (fun c => c.endMs.isSome))[which - 1]?

/-- The 80 bytes of a meter report (R383). -/
def meterBytes (p : Nat) (c : CompRec) : Bytes :=
  let b := natLe 1 1 ++ natLe 1 p ++ natLe 1 c.clusters ++ natLe 1 (b2n c.endMs.isSome + 2 * b2n c.conf + 4 * c.pool) ++ natLe 4 c.num ++
    natLe 8 (c.startMs % 2 ^ 48) ++ natLe 8 (c.endMs.getD 0 % 2 ^ 48) ++ natLe 8 c.m.clusterMs ++ natLe 8 c.m.t0 ++ natLe 8 c.m.t1 ++
    natLe 8 c.m.t2 ++ natLe 8 c.m.t3 ++ natLe 4 Config.keyGroup.toNat ++ List.replicate 8 0
  b ++ natLe 4 (crc32c b)

/-- METER_REPORT. -/
def execMeterReport (qk : Nat) (s : State) : Out3 :=
  withCmd s qk 0x56 (fun s c =>
    let p := if s.part.composable && fnIsPf0 (qk / 64) then byteAt c.raw 12 % 16 else c.part
    if c.len0 < 80 then s.done c.serial .formatInvalid
    else match (s.getPart p).comp? (byteAt c.raw 32 % 16) with
      | none => s.done c.serial .badState
      | some k => (s.emitOut (.hostWrite (fnPort (qk / 64)) (field c.raw 16 8) (meterBytes p k))).done c.serial .ok)

/-! ### PART_RECOMPOSE: the checks (R376, R377) -/

/-- The records of a PART_RECOMPOSE. -/
def recompRecs (n : Nat) (data : Bytes) : List RecompRec :=
  (List.range n).map (fun k =>
    let b := slice data (16 * k) 16
    { part := byteAt b 12 % 16, clusters := clustersOfMask (field b 0 4), t2Quota := field b 4 2, ixQuota := field b 8 2,
      pool := b2n (bitAt (byteAt b 12) 4) })

/-- Whether the records' reserved bits are 0. -/
def recompRsv (n : Nat) (data : Bytes) : Bool :=
  (List.range n).all (fun k =>
    let b := slice data (16 * k) 16
    field b 6 2 == 0 && field b 10 2 == 0 && decide (byteAt b 12 < 32) && field b 13 3 == 0)

/-- Whether a record changes its partition's clusters, quotas or pool: the partition is concerned (R376). -/
def State.concerned (s : State) (r : RecompRec) : Bool :=
  let x := s.getPart r.part
  x.clusters != r.clusters || x.t2Quota != r.t2Quota || x.ixQuota != r.ixQuota || x.pool != r.pool

/-- The clusters that leave a record's partition. -/
def State.leaving (s : State) (r : RecompRec) : List Nat := (s.clustersOf r.part).filter (fun c => !r.clusters.contains c)

/-- The requests that move a partition's blocks off leaving clusters (R378): its sessions' own blocks in tiers 0 and 1, and the blocks of
its directory entries. -/
def State.evacReqs (s : State) (p : Nat) (gone : List Nat) : List FReq :=
  let own := (s.live p).flatMap (fun x => (x.2.pages.zipIdx).filterMap (fun d =>
    if d.1.valid ∧ !d.1.shared ∧ d.1.tier < 2 ∧ gone.contains d.1.cluster then
      some ({ queue := .e, kind := .give, beat := s.now, part := p, sess := x.1, block := d.2 } : FReq)
    else none))
  let recs := s.dir.recs.filterMap (fun r =>
    if r.2.part = p ∧ r.2.blk ≠ 0 ∧ r.2.tier < 2 ∧ gone.contains r.2.cluster then
      some ({ queue := .e, kind := .give, beat := s.now, part := p, onRec := true, sess := r.1, block := r.2.depth } : FReq)
    else none)
  (own ++ recs).filter (fun f => !s.fab.float.any (fun g => g.onRec == f.onRec && g.sess == f.sess && g.block == f.block && g.kind != .release))

/-- Whether requests find their destinations one after the other (R377). -/
def State.allPlaced (s : State) : List FReq → Bool
  | [] => true
  | f :: l => match s.moveSrc f with
    | none => s.allPlaced l
    | some d => match s.moveDst f d with
      | none => false
      | some (pl, t) => (t.modFab (fun g => { g with float := g.float ++ [{ f with dst := some pl }] })).allPlaced l

/-- The pages of a session's page list take their places at its home (R378, 03 R65, R495). -/
def State.relist (s : State) (id : Nat) : State :=
  let x := s.getSess id
  if x.pageRoot = 0 then s
  else
    let s1 := s.modSess id (fun y => { y with pageRoot := 0, leaves := [] })
    let s2 := (s1.modSess id (fun y => { y with pageRoot := freeAddr (s1.usedPool x.home) sliceKv slicePool 1 (Config.pick s1.free) })).draw
    x.leaves.foldl (fun s l =>
      let a := if l.t1 then s.dieAddr (dieOf x.home) 1 s.free [] else freeAddr (s.usedPool x.home) sliceKv slicePool 1 (Config.pick s.free)
      (s.modSess id (fun y => { y with leaves := y.leaves ++ [{ l with addr := a }] })).draw) s2

/-- Rebind a session homed on a leaving cluster (R378): a new home by R69 in one entry update, and its token log in the new home's share;
a log copy that lies on a leaving cluster moves with it. -/
def State.rebind (s : State) (gone stay : List Nat) (id : Nat) : State :=
  let x := s.getSess id
  let home := if gone.contains x.home then s.pickHome stay else x.home
  let moves := gone.contains x.home
  let pri := if (moves && x.lostCopy != 1) || gone.contains x.priCl then home else x.priCl
  let mir := if s.isN && gone.contains x.mirCl then s.mirrorCluster x.part home else x.mirCl
  if home = x.home ∧ pri = x.priCl ∧ mir = x.mirCl then s
  else
    let root := if pri = x.priCl then x.pri.root else s.dieAddr (dieOf pri) 1 s.free []
    let s1 := (s.upd id (fun x => { x with
      home := home
      priCl := pri
      mirCl := mir
      tokPtr := if pri = x.priCl then x.tokPtr else root * kib4
      pri := if pri = x.priCl then x.pri else { root := root }
      mir := if mir = x.mirCl then x.mir else {} })).draw.logGrow id
    if home = x.home then s1 else s1.relist id

/-- The headers of parked blocks that lie in the leaving clusters' tier 1 move to a staying cluster. -/
def State.moveHeaders (s : State) (gone stay : List Nat) (id : Nat) : State :=
  let x := s.getSess id
  let n := (s.model x.part x.model).hdrBytes / kib4
  (x.pages.zipIdx).foldl (fun s d =>
    if d.1.valid && !d.1.shared && decide (2 ≤ d.1.tier) && gone.contains d.1.cluster then
      let cl := (stay[d.2 % max 1 stay.length]?).getD d.1.cluster
      (s.modSess id (fun y => y.putDesc d.2 { d.1 with cluster := cl, hdr := s.dieAddr (dieOf cl) n s.free [] })).draw
    else s) s

/-- What leaves a cluster beside blocks: rebinding, log copies, headers of parked blocks. -/
def State.rebindAll (s : State) (r : RecompRec) : State :=
  let gone := s.leaving r
  let stay := (s.clustersOf r.part).filter r.clusters.contains
  (s.live r.part).foldl (fun s x => (s.rebind gone stay x.1).moveHeaders gone stay x.1) s

/-- Directory rows for the records whose partition changes its row count (04 R100, R122): partition, first row, rows; none where the free
rows are too scattered. `skip` names the partitions still to place, whose old rows are free. -/
def State.rowPlan (s : State) : List RecompRec → List Nat → Option (List (Nat × Nat × Nat))
  | [], _ => some []
  | r :: l, skip =>
    let n := 128 * r.clusters.length
    match s.rowPlace skip n with
    | none => none
    | some b => ((s.modPart r.part (fun x => { x with rowBase := b, rows := n })).rowPlan l (skip.filter (fun p => p != r.part))).map
        (fun t => (r.part, b, n) :: t)

/-- The row plan of a recomposition. A partition that keeps its number of clusters keeps its rows (DESIGN CHOICE: 92). -/
def State.rowsOf (s : State) (recs : List RecompRec) : Option (List (Nat × Nat × Nat)) :=
  let l := recs.filter (fun r => (s.getPart r.part).rows != 128 * r.clusters.length)
  s.rowPlan l (l.map (·.part))

/-- Whether what lies in a record's leaving clusters fits the staying ones (R377), on a trial. -/
def State.evacFits (s : State) (r : RecompRec) : Bool :=
  let t := s.rebindAll r
  let stay := (s.clustersOf r.part).filter r.clusters.contains
  t.allPlaced (t.evacReqs r.part (s.leaving r)) && stay.all (fun c => decide (t.t1Used c ≤ t1Size) && decide (t.poolUsed c ≤ poolSize))

/-- The fourth row of R377, and the lost clusters of 16_checkpoint R434. -/
def State.recompStateBad (s : State) (recs : List RecompRec) : Bool :=
  let others := s.part.parts.filter (fun x => x.2.st != .none_ && !recs.any (fun r => r.part == x.1))
  recs.any (fun r => !s.partLive r.part || r.clusters.any (fun c => s.ckpt.lostDies.contains (dieOf c) ||
      others.any (fun x => x.2.clusters.contains c) || recs.any (fun q => q.part != r.part && q.clusters.contains c)) ||
    ((s.getPart r.part).pool != r.pool && !(s.live r.part).isEmpty) ||
    s.part.ports.any (fun b => b.2 == r.part && !r.clusters.any (fun c => dieOf c == b.1 / 4)))

/-- The fifth row of R377. -/
def State.recompNoRoom (s : State) (recs : List RecompRec) : Bool :=
  !s.quotasFit (recs.map (fun r => (r.part, r.t2Quota, r.ixQuota))) ||
    recs.any (fun r => decide (r.t2Quota * 2 ^ 30 < s.t2Used r.part) || decide (r.ixQuota * 2 ^ 30 < s.ixUsed r.part) ||
      decide (2048 * r.clusters.length < s.emitPages r.part) || decide (2048 * r.clusters.length < s.textPages r.part) ||
      decide (512 * r.clusters.length < s.cmemAll r.part - s.cmemFree r.part)) ||
    (s.rowsOf recs).isNone ||
    (let t := s.modPartU (fun u => { u with recomp := some { serial := 0, recs := recs, stage := .quiesced } })
     !recs.all (fun r => t.evacFits r))

/-- Stage 1, Quiesce (R378): from now on blocks go to staying clusters only; CALL invocations are suspended (09 R230). -/
def State.quiesce (s : State) (r : Recomp) : State :=
  let mine : Nat → Bool := fun p => r.recs.any (fun q => q.part == p)
  let s1 := s.modPartU (fun u => { u with recomp := some { r with stage := .quiesced }, armed := false })
  let s2 := (r.recs.map (·.part)).foldl (fun s p => s.modWin p (fun _ => {})) s1
  let s3 := ((r.recs.flatMap (fun q => s.coresOf q.part))).foldl State.abortPrefill s2
  s3.suspendIf mine

/-- PART_RECOMPOSE. -/
def execPartRecompose (qk : Nat) (data : Bytes) (s : State) : Out3 :=
  withCmd s qk 0x52 (fun s c =>
    let n := byteAt c.raw 12
    let recs := recompRecs n data
    if !s.part.composable then s.done c.serial .badState
    else if s.partBusy then s.done c.serial .locked
    else if n = 0 ∨ 16 < n ∨ c.len0 ≠ 16 * n ∨ !recompRsv n data ∨ (recs.map (·.part)).eraseDups.length ≠ n ∨
        recs.any (fun r => decide (r.clusters.length = 0) || decide (16 < r.clusters.length)) then s.done c.serial .formatInvalid
    else if s.recompStateBad recs then s.done c.serial .badState
    else
      let mine := recs.filter s.concerned
      if s.recompNoRoom mine then s.done c.serial .noSpace
      else
        let r : Recomp := { serial := c.serial, recs := mine }
        if s.beat.none_ ∨ s.beat.hold then s.quiesce r
        else s.modPartU (fun u => { u with recomp := some r, armed := false }))

/-- RECOMPOSE_QUIESCE (R378): at tick 0 of the next beat. -/
def execRecomposeQuiesce (s : State) : Out3 :=
  whenUp s (fun s =>
    match s.part.recomp with
    | some r => if r.stage = .accepted ∧ s.atTick0 then s.quiesce r else s
    | none => s)

/-! ### Stages 2 to 4 (R378) -/

/-- End every invocation on some cores with CANCELLED (09 R238). -/
def State.cancelOn (s : State) (cores : List Nat) : State :=
  cores.foldl (fun s c => [0, 1, 2, 3].foldl (fun s k =>
    let n := ((s.core c).ctx k).queue.length + 1
    (List.range n).foldl (fun s _ =>
      let x := (s.core c).ctx k
      match x.inv, x.queue with
      | some _, _ => s.killInv ⟨c, k⟩ Status.cancelled.code
      | none, v :: l => (s.setCtxAt ⟨c, k⟩ { x with inv := some v, queue := l }).killInv ⟨c, k⟩ Status.cancelled.code
      | none, [] => s) s) s) s

/-- Attention work queued on some cores is dealt again where its blocks now lie; a request with a merge on one of them ends with
CANCELLED (09 R238). -/
def State.redeal (s : State) (cores : List Nat) : State :=
  let on : Nat → Bool := cores.contains
  let broken := s.att.reqs.filter (fun r => r.parts.any (fun q => on (8 * q.cluster)) ||
    (s.att.decodeQ ++ s.att.prefillQ).any (fun q => on q.1 && q.2.any (fun i => i.req == r.id && i.cont)))
  let s1 := broken.foldl (fun s r => s.answerQ r Status.cancelled.code [] false) s
  let items := (s1.att.decodeQ ++ s1.att.prefillQ).filter (fun q => on q.1)
  let s2 := s1.modAtt (fun a => { a with
    decodeQ := a.decodeQ.filter (fun q => !on q.1)
    prefillQ := a.prefillQ.filter (fun q => !on q.1) })
  let at_ : QReq → Nat → Nat := fun r b => (s.locate ((s.getSess (hId r.handle)).desc b)).cluster
  let s3 := items.foldl (fun s q => q.2.foldl (fun s i => s.modReq i.req (fun r => { r with
    todo := r.todo ++ [{ cluster := at_ r i.block, block := i.block, row := i.row, rows := i.rows }]
    dealt := listDropFirst (fun d => d == (i.row, q.1)) r.dealt })) s) s2
  s3.modAtt (fun a => { a with reqs := a.reqs.map (fun r => { r with
    todo := r.todo.map (fun u => if on (8 * u.cluster) then { u with cluster := at_ r u.block } else u) }) })

/-- The leaving cores of a record. -/
def State.leavingCores (s : State) (r : RecompRec) : List Nat := (s.leaving r).flatMap (fun c => (List.range 8).map (fun k => 8 * c + k))

/-- Moves within a leaving cluster are dropped, and revives that have a destination there are placed again. -/
def State.turnMoves (s : State) (p : Nat) (gone : List Nat) : State :=
  let here : FReq → Bool := fun f => f.part == p && f.dst.any (fun d => gone.contains d.cluster)
  s.modFab (fun b => { b with float := (b.float.filter (fun f => !(here f && (f.kind == .demote || f.kind == .promote)))).map (fun f =>
    if here f && f.kind == .revive then { f with dst := none, units := 0, running := false, copied := false } else f) })

/-- RECOMPOSE_EVACUATE (stage 2): once no step runs in a concerned partition, invocations on leaving clusters end, sessions are rebound,
and float queue E takes what is to move. -/
def execRecomposeEvacuate (s : State) : Out3 :=
  whenUp s (fun s =>
    match s.part.recomp with
    | none => s
    | some r =>
      if r.stage ≠ .quiesced ∨ r.recs.any (fun q => (s.live q.part).any (fun x => x.2.step.isSome)) then s
      else
        let s1 := s.modPartU (fun u => { u with recomp := some { r with stage := .evacuated } })
        r.recs.foldl (fun s q =>
          let t := ((s.cancelOn (s.leavingCores q)).rebindAll q).turnMoves q.part (s.leaving q)
          (t.evacReqs q.part (s.leaving q)).foldl State.queueMove t) s1)

/-- Whether evacuation has ended: nothing of a concerned partition is left on, or on its way to, a cluster that leaves it. -/
def State.evacuated (s : State) (r : Recomp) : Bool :=
  r.recs.all (fun q =>
    let gone := s.leaving q
    !s.phys.any (fun x => x.part == q.part && gone.contains x.cluster) &&
      !(s.live q.part).any (fun x => gone.contains x.2.home || (gone.contains x.2.priCl && x.2.lostCopy != 1) ||
        (s.isN && gone.contains x.2.mirCl && x.2.lostCopy != 2)))

/-- Load a partition's customer images onto cores that it gains. -/
def State.loadProgs (s : State) (p : Nat) (cores : List Nat) : State :=
  (s.cores.progs.filter (fun g => g.part == p && !g.gone)).foldl (fun s g =>
    s.writeData cores g.ldmBase (slice g.img (192 + g.codeBytes) g.dataBytes)) s

/-- RECOMPOSE_SWITCH (stage 3): the cluster sets change, clusters that change partition are zeroed, programs are loaded on gained cores.
Blocks that a new placement has put on a leaving cluster meanwhile are queued first. -/
def execRecomposeSwitch (s : State) : Out3 :=
  whenUp s (fun s =>
    match s.part.recomp with
    | none => s
    | some r =>
      if r.stage ≠ .evacuated then s
      else if !s.evacuated r then
        r.recs.foldl (fun s q =>
          let t := s.rebindAll q
          (t.evacReqs q.part (s.leaving q)).foldl State.queueMove t) s
      else
        let s1 := r.recs.foldl (fun s q => (s.cancelOn (s.leavingCores q)).redeal (s.leavingCores q)) s
        let moved := (r.recs.flatMap (fun q => s.leaving q ++ q.clusters.filter (fun c => !(s.clustersOf q.part).contains c))).eraseDups
        let s2 := moved.foldl State.zeroCluster s1
        let s3 := r.recs.foldl (fun t q => t.modPart q.part (fun x => { x with clusters := q.clusters })) s2
        let s4 := r.recs.foldl (fun t q => t.loadProgs q.part
          ((q.clusters.filter (fun c => !(s.clustersOf q.part).contains c)).flatMap (fun c => (List.range 8).map (fun k => 8 * c + k)))) s3
        s4.modPartU (fun u => { u with recomp := some { r with stage := .switched }, armed := false }))

/-- The directory of a partition in its new rows (04 R122): records outside the new range are retired, the slots are cleared and the valid
entries wait to be rebuilt, published ones first. -/
def State.newRows (s : State) (p base n : Nat) : State :=
  let x := s.getPart p
  if x.rows = n ∧ x.rowBase = base then s
  else
    let s1 := s.modPart p (fun x => { x with rowBase := base, rows := n })
    let y := s1.getPart p
    let out := (s1.dir.recs.filter (fun r => r.2.part == p && !inRecs y r.1)).map (·.1)
    let s2 := out.foldl State.retireEntry s1
    let live := s2.dir.recs.filter (fun r => r.2.part == p && (r.2.st == .valid || r.2.st == .writing) && !r.2.tail)
    (s2.modDir (fun d => { d with
      slots := d.slots.filter (fun k => (s2.dirRec k.2.ix).part != p)
      rebuildArr := tabSet d.rebuildArr p d.clock
      rebuild := d.rebuild.filter (fun e => e.1 != p) ++ ((live.filter (fun r => r.2.published)).map (fun r => (p, r.1))) ++
        ((live.filter (fun r => !r.2.published)).map (fun r => (p, r.1))) })).stamp

/-- RECOMPOSE_COMMIT (stage 4): at tick 0 of the next beat the new composition is in force: quotas and pools, directory rows, sealed and
new compositions; the command completes. -/
def execRecomposeCommit (s : State) : Out3 :=
  whenUp s (fun s =>
    match s.part.recomp with
    | none => s
    | some r =>
      if r.stage ≠ .switched ∨ !s.atTick0 then s
      else
        let s1 := s.modPartU (fun u => { u with recomp := none })
        let s2 := r.recs.foldl (fun s q =>
          let n := s.part.compNum
          let s1 := s.modPart q.part (fun x =>
            let y := x.seal s.mgmt.ms
            { y with
              t2Quota := q.t2Quota
              ixQuota := q.ixQuota
              pool := q.pool
              comps := { num := n, startMs := s.mgmt.ms, clusters := q.clusters.length, conf := x.conf, pool := q.pool } :: y.comps })
          s1) s1
        let s3 := ((s2.rowsOf r.recs).getD []).foldl (fun s q => s.newRows q.1 q.2.1 q.2.2) s2
        (s3.modPartU (fun u => { u with compNum := u.compNum + 1 })).done r.serial .ok)

end Sys2Proof.Machine
end

