-- ==== Sys2Proof/Machine/Reset.lean ====
section
/-! DEFINITION. Module reset and what it keeps (18_power_clocks_reset R471, R473, R474; 11_flash R294; 15_security R393, R405; 17_management
R443), partition 0 of full-span mode (14_partitions R366), the safe states (18 R468). -/

namespace Sys2Proof.Machine

/-! ### The boot store (17_management R443; 15_security R405) -/

/-- The boot configuration a module reset takes: the newer intact copy, the values of manufacture where neither is intact (R443). The
two copies are written one after the other, A first. -/
def Mgmt.bootCfg (m : Mgmt) : BootCfg :=
  match m.cfgA, m.cfgB with
  | some a, _ => a
  | none, some b => b
  | none, none => {}

/-- Whether the boot ROM accepts a firmware slot (R405); its signature is checked when it is committed. -/
def Security.slotOk (c : Security) (n : Nat) : Bool :=
  match c.slots[n]? with
  | some w => w.valid && !bitAt c.revoked w.vkey && decide (c.fuseSvn ≤ w.svn) && decide (w.svn ≤ 64)
  | none => false

/-- The number that stands for no slot. -/
def noSlot : Nat := 2

/-- The slot the boot ROM starts: the acceptable slot of the higher SVN (R405). -/
def Security.bootSlot (c : Security) : Nat :=
  let svn : Nat → Nat := fun n => ((c.slots[n]?).map (·.svn)).getD 0
  if c.slotOk 0 && c.slotOk 1 then (if svn 0 < svn 1 then 1 else 0)
  else if c.slotOk 0 then 0
  else if c.slotOk 1 then 1
  else noSlot

/-! ### Module reset (R471) -/

/-- An index as a reset leaves it (11_flash R294, R301): its committed records; what no COMMIT_SEQ covers is gone, and so are the retire
entries that a compaction kept only for a search in flight (R309). -/
def Index.afterReset (i : Index) : Index :=
  { i with
    st := if i.st = .faulted then .faulted else if i.st = .free then .free else .ready
    retire := (i.retire.filter (fun r => !r.due)).filterMap (fun r =>
      if r.seq ≤ i.commit then some r else if 0 < r.prev ∧ r.prev ≤ i.commit then some { r with seq := r.prev, prev := 0 } else none)
    recs := i.recs.filter (fun r => decide (r.seq ≤ i.commit))
    pend := []
    before := none
    old := []
    compactCell := 0
    compactSerial := 0 }

/-- The indexes a reset keeps: those of a confidential partition are erased (R294), and those being dropped are gone. -/
def State.keptIndexes (s : State) : Tab Index :=
  (s.ret.ixs.filter (fun i => !(s.getPart (i.1 / 256)).conf && i.2.st != .dropping && i.2.st != .free)).map (fun i => (i.1, i.2.afterReset))

/-- INDEX_GIB at reset (R293): an eighth of the flash, rounded by the order's table. -/
def Order.indexGib : Order → Nat
  | .f64 => 8192
  | .f16 => 2048
  | .n => 0

/-- What a module reset makes of the machine: every die, memory and register takes its reset value; fuses, boot store, index content,
checkpoints in host memory and the recorded cause stay (R471, R473). The module is in `st`, its outputs in their reset states (R475).
BOOT_NONCE and the INSTANCE of HELLO are drawn anew (15_security R393, 13_cunis_link R353). -/
def State.moduleReset (s : State) (st : PwrSt) (cause : Nat) : State :=
  let m := s.mgmt
  { unit := s.unit
    free := s.free + 2
    regs := if s.unit.order = .n then [] else [(regKey .retLayout 0, s.unit.order.indexGib)]
    host := {
      inReset := true
      portA := { perst := s.host.portA.perst, training := false }
      portB := { perst := s.host.portB.perst, training := false } }
    ret := { ixs := s.keptIndexes }
    sec := { fuseSvn := s.sec.fuseSvn, revoked := s.sec.revoked, slots := s.sec.slots, running := noSlot, seqHw := s.sec.seqHw,
             bootNonce := s.free }
    part := { composable := m.bootCfg.composable }
    ckpt := { store := s.ckpt.store }
    mgmt := {
      cfgA := m.cfgA
      cfgB := m.cfgB
      cfg := m.bootCfg
      bcDefault := m.cfgA.isNone && m.cfgB.isNone
      sensors := m.sensors.map (fun x => (x.1, { temp := x.2.temp, max_ := x.2.temp }))
      trip := m.trip
      wear := m.wear
      wearRing := m.wearRing }
    pwr := { s.pwr with
      st := st
      cause := cause
      pendCause := 0
      recover := false
      recovered := false
      fbOk := true
      recLock := false
      lockAt := 0
      slewing := false
      autoReturn := true
      forceFb := false
      returnWorb := false
      clkPort := 0 }
    out := .modOk false :: s.out
    pending := s.pending }

/-- Latch the straps (R474). -/
def State.latchStraps (s : State) (x : Straps) : State :=
  s.modPwr (fun p => { p with strapXo := x.xo, strapA := x.a, strapB := x.b })

/-- A module reset as MOD_RESET_N makes it: the straps are latched again, and the device stands in step 6 of R462 (R472, R474). -/
def State.resetModule (s : State) (cause : Nat) (x : Straps) : State := (s.moduleReset .held cause).latchStraps x

/-! ### Safe states (R468) -/

/-- The module enters a safe state: outputs idle, clocks stopped; tier 0, tier 1, parked content and every session are lost. -/
def State.safe (s : State) (st : PwrSt) : State :=
  ({ s with sess := [], fab := {}, dir := {} } : State).modPwr (fun p => { p with
    st := st
    recover := false
    xoDone := false
    recovered := false
    recLock := false
    slewing := false
    fbOk := false }) |>.emitOut (.modOk false)

/-! ### Partition 0 of full-span mode (14_partitions R366) -/

/-- Partition 0 of full-span mode: every cluster, entry, row and domain; the quotas are the whole parked-state region and the whole
index region (R293, R366). -/
def fullSpan (t2 ix pool : Nat) : Part :=
  { st := .active
    clusters := List.range 32
    groups := 256
    pool := pool
    t2Quota := t2
    ixQuota := ix
    domBase := 1
    domCount := 65534
    rows := 4096 }

/-- The hawk creates partition 0: PF0 of both ports and all 16 Cunis ports serve it, and its first composition begins (R366, R382). Its
secret is drawn (15_security R398). -/
def State.createFullSpan (s : State) : State :=
  let ix := if s.isN then 0 else s.indexGib
  let n := s.part.compNum
  let x : Part := { fullSpan (s.usableGib - ix) ix s.mgmt.cfg.pool with
    secret := Config.pick s.free % 2 ^ 64
    epoch := 1
    comps := [{ num := n, startMs := 0, pool := s.mgmt.cfg.pool }] }
  s.draw.modPartU (fun u => { u with
    parts := tabSet u.parts 0 x
    fns := [(0, 0), (17, 0)]
    ports := (List.range 16).map (fun p => (p, 0))
    compNum := n + 1 })

end Sys2Proof.Machine
end

