-- ==== Sys2Proof/Machine/Power.lean ====
section
/-! DEFINITION. Power-up, the clock reference, safe states and module reset (18_power_clocks_reset R458 to R477): INPUT_UP, INPUT_LOCKOUT,
INPUT_OV_RELEASE, BULK_CHARGED, RAIL_REGULATION, RAIL_TIMEOUT, RAIL_RETRY, XO_DLY_EXPIRY, FB_CLK_CHECK, CLOCK_LOCK, MOD_RESET_N,
MOD_RESET_N_RELEASE, MODULE_RESET, FB_CLK_LOST, CDR_LOCK_GAINED, CDR_LOCK_LOST, AUTO_RETURN, RETURN, FORCE_FB, LINK_CLKSEL_WRITE,
SLEW_DONE, CLOCK_LOSS_RECOVERY. -/

namespace Sys2Proof.Machine

/-! ### The 52 V input (R458, R460) -/

/-- Start the power-up of R462 at step 1: the straps are latched, the XO_DLY timer runs. -/
def State.startUp (s : State) (x : Straps) (bulk : Bool) (rails : Nat) : State :=
  (s.latchStraps x).modPwr (fun p => { p with
    st := .rising
    bulk := bulk
    xoDone := false
    rails := rails
    railFails := 0
    railWait := false })

/-- INPUT_UP: the input passes 44.0 V (R462 step 1). A power-up is a module reset of cause 0 (R473). -/
def execInputUp (straps : Straps) (s : State) : Out3 :=
  .next (if s.pwr.st = .off ∧ !s.pwr.overVolt then (s.startUp straps false 0).modPwr (fun p => { p with cause := 0 }) else s)

/-- INPUT_LOCKOUT (R460, R461): the input falls below 42.0 V, or (`high`) rises above 58.0 V. Every rail is off; only the fuses, the boot
store and the NAND keep their content. -/
def execInputLockout (high : Bool) (s : State) : Out3 :=
  .next ((s.moduleReset .off (if high then s.pwr.cause else 0)).modPwr (fun p => { p with
    overVolt := high
    bulk := false
    xoDone := false
    rails := 0
    railFails := 0
    railWait := false }))

/-- INPUT_OV_RELEASE (R458): below 57.0 V the module may power up again. -/
def execInputOvRelease (s : State) : Out3 := .next (s.modPwr (fun p => { p with overVolt := false }))

/-! ### Power-up (R462 to R465) -/

/-- The rail groups of the unit: hub die, I/O, DRAM, compute dies and, where there is flash, NAND (R462, R477). -/
def State.railCount (s : State) : Nat := if s.isN then 4 else 5

/-- BULK_CHARGED: step 1 ends. -/
def execBulkCharged (s : State) : Out3 := .next (if s.pwr.st = .rising then s.modPwr (fun p => { p with bulk := true }) else s)

/-- Whether a rail group is coming up. -/
def State.railsRise (s : State) : Bool :=
  s.pwr.st == .rising && s.pwr.bulk && !s.pwr.railWait && decide (s.pwr.rails < s.railCount)

/-- RAIL_REGULATION: the next group of step 3 is in regulation. -/
def execRailRegulation (s : State) : Out3 :=
  .next (if s.railsRise then s.modPwr (fun p => { p with rails := p.rails + 1 }) else s)

/-- RAIL_TIMEOUT: a group misses regulation within 1 ms, and every rail is turned off. -/
def execRailTimeout (s : State) : Out3 :=
  .next (if s.railsRise then s.modPwr (fun p => { p with rails := 0, railFails := p.railFails + 1, railWait := true }) else s)

/-- RAIL_RETRY: after 100 ms step 3 runs again; after the third failure the rails stay off until the input falls below 42.0 V. -/
def execRailRetry (s : State) : Out3 :=
  .next (if s.pwr.st = .rising ∧ s.pwr.railWait ∧ s.pwr.railFails < 3 then s.modPwr (fun p => { p with railWait := false }) else s)

/-- XO_DLY_EXPIRY (R464): the delay of step 2, or the further delay before another check of FB_CLK (R465, R470). -/
def execXoDlyExpiry (s : State) : Out3 :=
  .next (if s.pwr.st = .rising ∨ s.pwr.st = .safeClock then s.modPwr (fun p => { p with xoDone := true }) else s)

/-- FB_CLK_CHECK (R465): 4,096 periods of FB_CLK are judged. At power-up a pass ends step 4, a failure waits one further XO_DLY. After a
clock loss a pass begins the further delay of R470 whose end CLOCK_LOSS_RECOVERY is. In a running module a pass sets FB_OK. -/
def execFbClkCheck (pass : Bool) (s : State) : Out3 :=
  .next (match s.pwr.st with
    | .rising =>
      if s.pwr.rails = s.railCount ∧ s.pwr.xoDone then
        s.modPwr (fun p => if pass then { p with st := .locking } else { p with xoDone := false })
      else s
    | .safeClock =>
      if s.pwr.recover then (if pass then s else s.modPwr (fun p => { p with xoDone := false }))
      else s.modPwr (fun p => { p with recover := pass, xoDone := false })
    | .running => if pass then s.modPwr (fun p => { p with fbOk := true }) else s
    | _ => s)

/-- CLOCK_LOCK: step 5 ends, and both tick counters start at 0. -/
def execClockLock (s : State) : Out3 :=
  .next (if s.pwr.st = .locking then
      (({ s with tick := 0 } : State).modMgmt (fun m => { m with ms := 0 })).modPwr (fun p => { p with st := .held, fbOk := true })
    else s)

/-- MOD_RESET_N_RELEASE: MOD_RESET_N is high, and in step 6 internal reset is released: MOD_OK_N falls, the boot ROM takes a firmware
slot (15_security R405), PCIe and Cunis links start training (R463). -/
def execModResetNRelease (s : State) : Out3 :=
  let s1 := s.modPwr (fun p => { p with resetLow := false })
  .next (if s.pwr.st ≠ .held then s1
    else
      let s2 := s1.modPwr (fun p => { p with st := .running })
      let s3 := s2.modSec (fun c => { c with running := c.bootSlot })
      let s4 := s3.modHost (fun h => { h with
        portA := { h.portA with training := !h.portA.perst }
        portB := { h.portB with training := !h.portB.perst } })
      s4.emitOut (.modOk true))

/-! ### Module reset (R470 to R474) -/

/-- MOD_RESET_N low for `ns` (R472): a pulse shorter than 1 µs is ignored; the outcome of one shorter than 10 µs is not defined. A valid
assertion resets the module at once and holds it in step 6; after a thermal trip it starts the power-up of step 1 (R470). -/
def execModResetN (ns : Nat) (straps : Straps) (s : State) : Out3 :=
  if ns < 1000 ∨ s.pwr.st = .off then .next s
  else if ns < 10000 then .fault .undefinedPulse
  else
    let low : State → State := fun s => s.modPwr (fun p => { p with resetLow := true })
    .next (match s.pwr.st with
      | .running | .held => low (s.resetModule 1 straps)
      | .safeTrip =>
        let hub := s.mgmt.trip != some 28
        low ((s.moduleReset .safeTrip 5).startUp straps true (b2n hub))
      | _ => low s)

/-- Whether the reset asked for over I3C still waits for a checkpoint that is being written, at most 5,000 management ticks (17_management
R451). -/
def State.resetWaits (s : State) : Bool := s.pwr.pendCause == 2 && s.ckpt.take.isSome && decide (s.mgmt.ms < s.mgmt.resetAt + 5000)

/-- MODULE_RESET: the module reset that a management request asked for (17_management R448, R451), its cause in RST_CAUSE. -/
def execModuleReset (straps : Straps) (s : State) : Out3 :=
  whenUp s (fun s => if s.pwr.pendCause = 0 ∨ s.resetWaits then s else s.resetModule s.pwr.pendCause straps)

/-! ### The reference (R466, R467) -/

/-- Switch to the recovered clock. -/
def State.toRecovered (s : State) : State := (s.modPwr (fun p => { p with recovered := true, slewing := true })).bump .clkToRec 0

/-- Leave the recovered clock: FB_CLK while it is valid, the lock count restarting; a safe state otherwise. -/
def State.leaveRecovered (s : State) : State :=
  if s.pwr.fbOk then (s.modPwr (fun p => { p with recovered := false, slewing := true, lockAt := s.tick })).bump .clkToFb 0
  else s.safe .safeClock

/-- FB_CLK_LOST. -/
def execFbClkLost (s : State) : Out3 :=
  .next (if s.pwr.st = .held then s.safe .safeClock
    else if !s.up || !s.pwr.fbOk then s
    else if s.pwr.recovered then (s.modPwr (fun p => { p with fbOk := false })).bump .clkFbLoss 0
    else if s.pwr.recLock then (s.modPwr (fun p => { p with fbOk := false })).toRecovered
    else s.safe .safeClock)

/-- The clock port's receive clock is there: the lock count starts. -/
def State.clkPortFound (s : State) (port : Nat) : State :=
  if s.pwr.clkPort = port ∧ (s.port port).cdrLock ∧ (s.port port).en ∧ !s.pwr.recLock then
    s.modPwr (fun p => { p with recLock := true, lockAt := s.tick })
  else s

/-- CDR_LOCK_GAINED: a port's receive clock is recovered; for the clock port the lock count starts. -/
def execCdrLockGained (port : Nat) (s : State) : Out3 :=
  whenUp s (fun s => if 16 ≤ port then s else (s.modPort port (fun p => { p with cdrLock := true })).clkPortFound port)

/-- The clock port's receive clock is gone: the reference leaves it. -/
def State.clkPortLost (s : State) (port : Nat) : State :=
  if s.pwr.clkPort ≠ port then s
  else
    let s1 := s.modPwr (fun p => { p with recLock := false })
    if s.pwr.recovered then s1.leaveRecovered else s1

/-- CDR_LOCK_LOST. -/
def execCdrLockLost (port : Nat) (s : State) : Out3 :=
  whenUp s (fun s => if 16 ≤ port then s else (s.modPort port (fun p => { p with cdrLock := false })).clkPortLost port)

/-- The ticks of lock after which the reference returns to the recovered clock. -/
def lockCount : Nat := 1000000

/-- AUTO_RETURN: the clock port has held lock for 1,000,000 ticks. -/
def execAutoReturn (s : State) : Out3 :=
  whenUp s (fun s =>
    if !s.pwr.recovered && s.pwr.recLock && s.pwr.autoReturn && !s.pwr.forceFb then
      (s.pass (s.pwr.lockAt + lockCount - s.tick)).toRecovered
    else s)

/-- A write of CLK_CFG.RETURN. -/
def State.clkReturn (s : State) : State :=
  let s1 := s.modPwr (fun p => { p with returnWorb := true })
  if !s.pwr.recovered && s.pwr.recLock && !s.pwr.forceFb then s1.toRecovered else s1

/-- CLK_CFG.FORCE_FB is set. -/
def State.clkForce (s : State) : State :=
  let s1 := s.modPwr (fun p => { p with forceFb := true })
  if s.pwr.recovered then s1.leaveRecovered else s1

/-- A write that only PF0 of port A may make; one of any other function is ignored (R476). -/
def onlyPf0A (s : State) (fn : Nat) (f : State → State) : Out3 := withBound s fn (fun s => if fn = pf0A then f s else s)

/-- RETURN: CLK_CFG.RETURN written 1. -/
def execReturn (fn : Nat) (s : State) : Out3 := onlyPf0A s fn State.clkReturn

/-- FORCE_FB: CLK_CFG.FORCE_FB written 1. -/
def execForceFb (fn : Nat) (s : State) : Out3 := onlyPf0A s fn State.clkForce

/-- LINK_CLKSEL.PORT as a write gives it. -/
def State.selClk (s : State) (n : Nat) : State :=
  let s1 := s.modPwr (fun p => { p with clkPort := n, recLock := (s.port n).cdrLock && (s.port n).en, lockAt := s.tick })
  if s.pwr.recovered then s1.leaveRecovered else s1

/-- LINK_CLKSEL_WRITE: the port named for the reference changes; the lock count restarts for it, and a recovered clock is left (R466). -/
def execLinkClkselWrite (fn value : Nat) (s : State) : Out3 :=
  onlyPf0A s fn (fun s => s.selClk (value % 16))

/-- SLEW_DONE (R467). -/
def execSlewDone (s : State) : Out3 := whenUp s (fun s => s.modPwr (fun p => { p with slewing := false }))

/-- CLOCK_LOSS_RECOVERY (R470): FB_CLK was valid and, one XO_DLY later, is valid again: a module reset of cause 4 that goes on from step 5
of R462. -/
def execClockLossRecovery (straps : Straps) (s : State) : Out3 :=
  .next (if s.pwr.st = .safeClock ∧ s.pwr.recover ∧ s.pwr.xoDone then (s.moduleReset .locking 4).latchStraps straps else s)

end Sys2Proof.Machine
end

