-- ==== Sys2Proof/Machine/Ckpt.lean ====
section
/-! DEFINITION. Checkpoint, restore and the failures of dies and flash channels (16_checkpoint_and_recovery R414 to R436): CKPT_TAKE,
CKPT_TIMER_HALF, CKPT_BEAT_HALF, CKPT_DEFERRED_START, CKPT_CUT, CKPT_DONE, CKPT_RESTORE, RESTORE_COMMIT, COMPUTE_DIE_LOST,
FLASH_CHANNEL_LOST, HAWK_FAILURE. -/

namespace Sys2Proof.Machine

/-! ### Slots and manifests (R416, R417) -/

/-- A checkpoint slot: 0 is A, 1 is B. -/
def State.ckSlot (s : State) (n : Nat) : CkSlot := tabGet {} s.ckpt.slots n

/-- Where a slot lies: its port and 4 KiB page. -/
def CkSlot.place (x : CkSlot) : Nat := x.port * 2 ^ 52 + x.addr / 4096

/-- The checkpoint whose valid manifest an enabled slot holds. -/
def State.ckHeld (s : State) (n : Nat) : Option CkImage :=
  let x := s.ckSlot n
  if x.en then tabGet? s.ckpt.store x.place else none

/-- The slot of the newest valid checkpoint, with its number (R417). -/
def State.ckNewest (s : State) : Option (Nat × Nat) :=
  match s.ckHeld 0, s.ckHeld 1 with
  | some a, some b => if a.serial < b.serial then some (1, b.serial) else some (0, a.serial)
  | some a, none => some (0, a.serial)
  | none, some b => some (1, b.serial)
  | none, none => none

/-- Change a slot. -/
def State.modSlot (s : State) (n : Nat) (f : CkSlot → CkSlot) : State :=
  s.modCkpt (fun c => { c with slots := tabMod {} c.slots n f })

/-- The engine reads the manifest of each enabled slot. -/
def State.readManifests (s : State) : State :=
  let look : State → Nat → State := fun t n => if (s.ckSlot n).en then t.modSlot n (fun x => { x with valid := (s.ckHeld n).isSome }) else t
  (look (look s 0) 1).modCkpt (fun c => { c with known := s.ckNewest })

/-- The slot a triggered checkpoint takes (R417): an enabled one that does not hold the newest valid checkpoint, A before B. -/
def State.ckSelect (s : State) : Option Nat :=
  [0, 1].find? (fun n => (s.ckSlot n).en && (s.ckNewest.map (·.1)) != some n)

/-- CKPT_SERIAL of the next checkpoint (R417). -/
def State.ckSerial (s : State) : Nat := ((s.ckNewest.map (·.2)).getD 0) + 1

/-- Begin a checkpoint in a slot. -/
def State.startCkpt (s : State) (slot content cmd : Nat) (armed now : Bool) : State :=
  s.readManifests.modCkpt (fun c => { c with
    take := some { slot := slot, serial := s.ckSerial, content := content, cmd := cmd, armed := armed, now := now }
    wslot := slot })

/-- A checkpoint or a restore is in progress. -/
def State.ckBusy (s : State) : Bool := s.ckpt.take.isSome || s.ckpt.restore.isSome

/-- Whether CONTENT is one a checkpoint may have (R414). -/
def contentOk (n : Nat) : Bool := bitAt n 0 && (!bitAt n 3 || bitAt n 2)

/-! ### CKPT_TAKE and the trigger (R418, R419, R425) -/

/-- CKPT_TAKE (R425). -/
def execCkptTake (qk : Nat) (s : State) : Out3 :=
  withCmd s qk 0x60 (fun s c =>
    let n := byteAt c.raw 12
    let content := byteAt c.raw 13
    let slot := if n = 2 then s.ckSelect else some n
    if s.ckBusy then s.done c.serial .locked
    else if 2 < n ∨ 16 ≤ content ∨ !contentOk content then s.done c.serial .formatInvalid
    else match slot with
      | none => s.done c.serial .badState
      | some k => if (s.ckSlot k).en then s.startCkpt k content c.serial false false else s.done c.serial .badState)

/-- CONTENT of triggered checkpoints. -/
def State.trigContent (s : State) : Nat := bits (s.reg .ckptCfg 0) 32 4

/-- A triggered checkpoint starts in the slot R417 selects, or is skipped (R419). -/
def State.trigStart (s : State) (armed now : Bool) : State :=
  match s.ckSelect with
  | none => s.readManifests.bump .ckptSkipped 0
  | some k => s.startCkpt k s.trigContent 0 armed now

/-- The trigger fires (R418, R419): both halves start again; a checkpoint starts, is deferred or is skipped. -/
def State.trigger (s : State) : State :=
  let s1 := s.modCkpt (fun c => { c with msHalf := 0, beatHalf := 0 })
  if s.partBusy then
    if s.ckpt.deferred then s1 else (s1.modCkpt (fun c => { c with deferred := true, armed := false })).bump .ckptDeferred 0
  else s1.trigStart false (s.beat.hold || s.beat.none_)

/-- Whether a half has reached its limit; a limit of 0 is off. -/
def halfDue (count limit : Nat) : Bool := limit != 0 && decide (limit ≤ count)

/-- CKPT_TIMER_HALF. -/
def execCkptTimerHalf (s : State) : Out3 :=
  whenUp s (fun s => if halfDue s.ckpt.msHalf (bits (s.reg .ckptCfg 0) 0 16) then s.trigger else s)

/-- CKPT_BEAT_HALF. -/
def execCkptBeatHalf (s : State) : Out3 :=
  whenUp s (fun s => if halfDue s.ckpt.beatHalf (bits (s.reg .ckptCfg 0) 16 16) then s.trigger else s)

/-- CKPT_DEFERRED_START (R419): tick 0 of the first beat after the work in the way has ended. -/
def execCkptDeferredStart (s : State) : Out3 :=
  whenUp s (fun s =>
    if s.ckpt.deferred && s.ckpt.armed && !s.partBusy && s.beat.tick == 0 then
      (s.modCkpt (fun c => { c with deferred := false, armed := false })).trigStart true false
    else s)

/-! ### The cut (R414, R415, R420) -/

/-- The registers a checkpoint holds for each partition (R428). -/
def ckRegs : List Reg := [.sfWmark, .sfStallLimit, .sfPrimer, .schedWin, .schedCfg, .admOverhead]

/-- A session as a checkpoint holds it: the words and owner bytes of its entry and its token log; its page list is located. A session
whose log is lost in both copies has none. -/
def State.ckSess (s : State) (x : Sess) : Sess :=
  { toEntry := x.toEntry, owner := x.owner, log := if x.logLost then [] else x.log, lostCopy := if x.logLost then 3 else 0,
    pages := x.pages.map s.locate, priCl := x.priCl, mirCl := x.mirCl }

/-- Whether a session is resident at the cut (R414, R429). -/
def SState.resident : SState → Bool
  | .hot => true | .running => true | .idle => true
  | _ => false

/-- A published record as a checkpoint holds it. -/
def State.ckRec (s : State) (r : Rec) : Rec :=
  let t := s.dirRec r.tailIx
  if r.tailSet ∧ t.st = .valid ∧ t.published then r else { r with tailSet := false, tailIx := 0 }

/-- What a checkpoint of some CONTENT holds of the machine at its cut (R414, R420). -/
def State.ckImage (s : State) (serial content : Nat) : CkImage :=
  let parts := s.part.parts.filter (fun p => p.2.st != .none_)
  let groups := ((s.sess.filter (fun x => x.2.st != .free)).map (fun x => x.1 / 4096)).eraseDups
  let recs := if bitAt content 2 then
      (s.dir.recs.filter (fun r => r.2.st == .valid && r.2.published)).map (fun r => (r.1, s.ckRec r.2)) else []
  let own := if bitAt content 3 then
      (s.sess.filter (fun x => x.2.st.resident)).flatMap (fun x => ((x.2.pages.filter (·.valid)).map s.locate).map (·.blk)) else []
  let blks := recs.map (fun r => r.2.blk) ++ own
  let loads : Bool := bitAt content 1
  { serial := serial
    content := content
    beat := s.now
    tick := s.beat.tick
    composable := s.part.composable
    parts := parts
    fns := s.part.fns
    ports := s.part.ports
    doms := s.part.doms
    regs := parts.flatMap (fun p => (ckRegs.filter (fun r => s.reg r p.1 != r.reset)).map (fun r => (regKey r p.1, s.reg r p.1)))
    models := s.att.models
    sess := (s.sess.filter (fun x => groups.contains (x.1 / 4096))).map (fun x => (x.1, s.ckSess x.2))
    recs := recs
    kv := s.fab.kv.filter (fun k => blks.contains k.1)
    sets := if loads then s.emit.sets else []
    profs := if loads then s.emit.profs else []
    toks := if loads then s.text.toks else []
    stops := if loads then s.text.stops else []
    progs := if loads then s.cores.progs.filter (fun g => g.live && !g.gone) else [] }

/-- The records whose blocks a checkpoint has still to read after its cut (R414, R420): those it carries, and those its resident sessions
share besides. -/
def State.cutRecs (s : State) (im : CkImage) : List Nat :=
  let shared := if bitAt im.content 3 then
      (s.sess.filter (fun x => x.2.st.resident)).flatMap (fun x => (x.2.pages.zipIdx).filterMap (fun d =>
        if d.1.valid ∧ d.1.shared ∧ 64 * d.2 < x.2.length then some d.1.ix else none)) else []
  (im.recs.map (·.1) ++ shared).eraseDups

/-- The blocks a checkpoint has still to read after its cut (R420). -/
def State.cutReads (s : State) (im : CkImage) : List CkRead :=
  let own := if bitAt im.content 3 then
      (s.sess.filter (fun x => x.2.st.resident)).flatMap (fun x => (x.2.pages.zipIdx).filterMap (fun d =>
        if d.1.valid ∧ !d.1.shared ∧ 64 * d.2 < x.2.length then
          some ({ part := x.2.part, model := x.2.model, blk := d.1.blk } : CkRead) else none)) else []
  (s.cutRecs im).map (fun ix =>
    let r := s.dirRec ix
    ({ part := r.part, model := r.model, blk := r.blk, ix := some ix } : CkRead)) ++ own

/-- CKPT_CUT (R420, R424): the cut falls, and the slot's manifest is overwritten with zeros. `bad` names the copies of token logs, 1 the primary
and 2 the mirror, that fail their CRC while they are read: the log is degraded, or, with both copies, lost (R50). The blocks are read
from then on; a shared one is held by a reference until it has been (R420). -/
def execCkptCut (bad : List (Nat × Nat)) (s : State) : Out3 :=
  whenUp s (fun s =>
    match s.ckpt.take with
    | none => s
    | some t =>
      if t.image.isSome || !(t.now || (t.armed && s.beat.tick == 0)) then s
      else
        let s1 := bad.foldl (fun s (e : Nat × Nat) =>
          let x := s.getSess e.1
          if x.st = .free ∨ x.logLost then s else s.logCopyLost e.1 e.2 []) s
        let im := s1.ckImage t.serial t.content
        ((s1.cutRecs im).foldl State.refInc s1).modCkpt (fun c => { c with
          take := some { t with image := some im, reads := s1.cutReads im }
          store := tabErase c.store (s.ckSlot t.slot).place
          slots := tabMod {} c.slots t.slot (fun x => { x with valid := false })
          known := if (c.known.map (·.1)) = some t.slot then none else c.known
          msHalf := if t.cmd = 0 then c.msHalf else 0
          beatHalf := if t.cmd = 0 then c.beatHalf else 0 }))

/-! ### Writing (R422 to R425) -/

/-- The plaintext a shard holds at most. -/
def shardMax : Nat := 64 * 2 ^ 20

/-- Shards that records of some sizes, their headers in front, take in order (R422): shards in use, bytes in the last one. -/
def packShards (l : List Nat) : Nat × Nat :=
  l.foldl (fun a n => if a.1 = 0 then (1, n + 16) else if a.2 + n + 16 ≤ shardMax then (a.1, a.2 + n + 16) else (a.1 + 1, n + 16)) (0, 0)

/-- The image bytes of a sampler profile (07_sampling R182). -/
def Profile.bytes (x : Profile) : Nat := 64 + 8 * x.bias.length + 4 * x.allow.length

/-- The image bytes of a stop set (08_text_unit R219). -/
def stopBytes (l : List Bytes) : Nat := 64 + sumOf (fun b => b.length) l

/-- The sizes of the records of a kind in a partition, in order (R422); CONFIG apart. -/
def CkImage.sizes (im : CkImage) (p kind : Nat) : List Nat :=
  let model : Nat → ModelEnt := fun m => tabGet {} im.models (p * 256 + m)
  let mine := im.sess.filter (fun x => x.2.st != .free && x.2.part == p)
  match kind with
  | 1 => ((mine.map (fun x => x.1 / 4096)).eraseDups).map (fun _ => 524288)
  | 2 => (mine.filter (fun x => !x.2.logLost)).map (fun x => 4 * x.2.log.length)
  | 3 => (im.toks.filter (fun e => e.1 / 256 == p)).map (fun e => e.2.length) ++
      (im.sets.filter (fun e => e.1 / 65536 == p)).map (fun e => e.2.img.length) ++
      (im.profs.filter (fun e => e.1 / 65536 == p)).map (fun e => e.2.bytes) ++
      (im.stops.filter (fun e => e.1 / 65536 == p)).map (fun e => stopBytes e.2) ++
      (im.progs.filter (fun g => g.part == p)).map (fun g => g.img.length)
  | 4 => (im.recs.filter (fun r => r.2.part == p)).map (fun r => (model r.2.model).blockBytes + (model r.2.model).hdrBytes)
  | _ => if bitAt im.content 3 then
      (mine.filter (fun x => x.2.st.resident)).flatMap (fun x => (x.2.pages.zipIdx).filterMap (fun d =>
        let m := model x.2.model
        let n := min 64 (x.2.length - 64 * d.2)
        if !d.1.valid || n == 0 || (d.1.shared && im.recs.any (fun r => r.1 == d.1.ix)) then none
        else some (m.hdrBytes + m.layers * m.kvheads * 2 * m.rowBytes * n))) else []

/-- Shards and bytes of a checkpoint as it is written (R422, R423): SHARDS, the shards' stored bytes, the bytes with the manifest. The
spec gives CONFIG no size: `config` is a free value. -/
def CkImage.written (im : CkImage) (config : Nat) : Nat × Nat × Nat :=
  let ps := im.parts.map (·.1)
  let lists := ps.flatMap (fun p => [1, 2, 3, 4, 5].map (im.sizes p))
  let cfgShards := ((0 :: ps).eraseDups).length
  let shards := cfgShards + sumOf (fun l => (packShards l).1) lists
  let stored := config + sumOf (fun l => sumOf (fun n => n + 16) l) lists + 16 * shards
  (shards, stored, stored + 176 + 64 * shards)

/-- A checkpoint ends: its status is recorded, its command completes. -/
def State.ckEnd (s : State) (t : CkTake) (st : Status) (r0 r1 r2 : Nat) : State :=
  (s.modCkpt (fun c => { c with take := none, lastStatus := st.code })).final t.cmd st 0 r0 r1 r2

/-- What a checkpoint holds until it is read is let go (R420). -/
def State.letReads (s : State) : State :=
  s.ckReads.foldl (fun s r => match r.ix with
    | some ix => s.refDec ix
    | none => s) (s.modReads (fun _ => []))

/-- CKPT_DONE (R422 to R425): the shards and the manifest, with a NONCE of their own, are written, once every block has been read (R421); `fails` says that the port or a host
write failed. Bytes a failed checkpoint has written are a free value. -/
def execCkptDone (fails : Bool) (s : State) : Out3 :=
  whenUp s (fun s =>
    match s.ckpt.take with
    | none => s
    | some t =>
      match t.image with
      | none => s
      | some im =>
        let w := im.written (Config.pick s.free)
        let size := (s.ckSlot t.slot).sizeMib * 2 ^ 20
        let lost : Status → State := fun st =>
          let s1 := { s.letReads with free := s.free + 2 }
          ((s1.bump .ckptFailed 0).bumpBy .ckptBytes 0 (Config.pick (s.free + 1) % (w.2.2 + 1))).ckEnd t st 0 0 0
        if fails || t.lost then lost .tierFault
        else if !t.reads.isEmpty then s
        else if size < 4 * 2 ^ 20 + w.2.1 then lost .noSpace
        else
          let s1 := s.draw.draw.modCkpt (fun c => { c with
            store := tabSet c.store (s.ckSlot t.slot).place { im with nonce := s.free + 1 }
            slots := tabMod {} c.slots t.slot (fun x => { x with valid := true })
            known := some (t.slot, t.serial)
            lastBeat := im.beat
            lastTick := im.tick
            lastMs := s.mgmt.ms })
          ((s1.bump .ckptTaken 0).bumpBy .ckptBytes 0 w.2.2).ckEnd t .ok w.1 im.beat w.2.2)

/-! ### What a restore makes (R428, R429) -/

/-- A meter as a restore leaves it: its rates and bursts, its buckets full. -/
def Meter.fresh (m : Meter) (now : Nat) : Meter := { m with tc := m.cbs * 10 ^ 9, tp := m.pbs * 10 ^ 9, at_ := now }

/-- A restored partition (R428): as recorded, with a new secret and a new composition. -/
def State.restorePart (s : State) (p : Nat) (x : Part) : State :=
  let old := (s.getPart p).seal s.mgmt.ms
  let c : CompRec := { num := s.part.compNum, startMs := s.mgmt.ms, clusters := x.clusters.length, conf := x.conf, pool := x.pool }
  let s1 := (if s.part.composable then s.freshPart p else s).modPart p (fun _ => { x with
    st := .active
    secret := Config.pick s.free % 2 ^ 64
    epoch := old.epoch + 1
    comps := if s.part.composable then [c] else c :: old.comps
    meter := x.meter.fresh s.tick })
  let s2 := s1.draw
  if x.conf then s2.modSec (fun u => { u with jtagLock := true, jtagAttached := false }) else s2

/-- A restored published entry (R428): its block is placed, its record keeps its IX, its parent gains a reference; none where it finds no
space. -/
def State.restoreRec (im : CkImage) (s : State) (ix : Nat) (r : Rec) : Option State :=
  match s.placeBlock r.part (s.model r.part r.model) r.home .preferHot r.depth with
  | none => none
  | some (cl, tier, _) =>
    let (pl, s1) := s.placeAt (s.model r.part r.model) cl tier
    let (k, s2) := s1.newBlk
    let s3 := (s2.setBlk k (tabGet {} im.kv r.blk)).setRec ix { r with
      refs := 0
      tier := pl.tier
      cluster := pl.cluster
      hdrT := pl.hdrT
      base := pl.base
      hdr := pl.hdr
      blk := k
      lastUse := s.now }
    some (if r.root then s3 else s3.refInc r.parent)

/-- A restored entry's key returns to its row as R122 builds rows; a tail has none, and a row without a free slot retires it. -/
def State.restoreKey (s : State) (ix : Nat) : State :=
  let r := s.dirRec ix
  if r.st ≠ .valid ∨ r.tail then s
  else match s.lowSlot (rowOf (s.getPart r.part) r.chain) with
    | some k => s.modDir (fun d => { d with
        slots := tabSet d.slots k { domain := r.domain, model := r.model, parent := r.parent, chain := r.chain, ix := ix } })
    | none => s.retireEntry ix

/-- The fields every restored session takes (R429), with fresh token-log copies, placed as R49 and R495 say; a log lost in both copies has none. -/
def State.restoreEntry (s : State) (id : Nat) (x : Sess) : State :=
  let root := s.dieAddr (dieOf x.home) 1 s.free []
  let y : Sess := {
    toEntry := { x.toEntry with
      deadline := 0, wakeSet := false, wake := 0, cancelReq := false, heldCmd := false, degraded := false, seq := 0
      tokPtr := root * kib4, tokPri := 1, tokMir := if s.isN then 1 else 2, pageRoot := 0, coatPos := 0, undercoatIx := 0 }
    owner := x.owner
    log := x.log
    mirrored := x.log.length
    lostCopy := x.lostCopy
    priCl := x.home
    mirCl := s.mirrorCluster x.part x.home
    pri := { root := root } }
  (s.draw.setSess id y).logGrow id

/-- A session restored without its KV (R429): the actions of a strip. -/
def Sess.asStripped (x : Sess) (len pend : Nat) : Sess :=
  { x with st := .stripped, pend := len + pend, length := 0, coatPos := 0, undercoatIx := 0, pageRoot := 0 }

/-- The published entries a session's logged tokens match, at most to its coat boundary at the cut (R429, R107). -/
def State.restoreCoat (s : State) (x : Sess) : List Nat :=
  if x.domain = 0 then []
  else
    let keys := chains (chainRoot x.domain x.model) x.log 0 (x.coatPos / 64)
    (keys.map (s.search0 x.part x.domain x.model)).takeWhile (·.isSome) |>.filterMap id

/-- Put back one block of a resident session: a shared descriptor below the new coat boundary, an own block with its content above it;
none where it finds no space. -/
def State.restoreBlock (im : CkImage) (x : Sess) (coat : List Nat) (s : State) (id b : Nat) : Option State :=
  match coat[b]? with
  | some ix =>
    match s.readyList id b with
    | .error _ => none
    | .ok s1 => some (s1.modSess id (fun y => y.putDesc b { valid := true, shared := true, ix := ix, fill := 64 }))
  | none =>
    match s.newBlock id b with
    | none => none
    | some s1 =>
      let n := min 64 (x.length - 64 * b)
      let d := (s1.getSess id).desc b
      some ((s1.setBlk d.blk ((tabGet {} im.kv (x.desc b).blk).below n)).modSess id (fun y => y.putDesc b { d with fill := n }))

/-- Fold a step that may fail. -/
def foldSome {α β : Type} (f : β → α → Option β) : β → List α → Option β
  | b, [] => some b
  | b, a :: t => match f b a with
    | some b' => foldSome f b' t
    | none => none

/-- Restore a session that was resident at the cut, with its KV (R429); it is STRIPPED where a block finds no space. -/
def State.restoreResident (im : CkImage) (s : State) (id : Nat) (x : Sess) : State :=
  let coat := s.restoreCoat x
  let s1 := s.modSess id (fun y => { y with st := .idle, length := x.length, pend := x.pend })
  match foldSome (fun s b => State.restoreBlock im x coat s id b) s1 (List.range (ceilDiv x.length 64)) with
  | none => (s1.modSess id (fun y => y.asStripped x.length x.pend))
  | some s2 =>
    let s3 := coat.foldl (fun s ix => s.modRec ix (fun r => { r with lastUse := s.now })) s2
    match coat.getLast? with
    | none => s3.coverCheck id
    | some ix => ((s3.refInc ix).modSess id (fun y => { y with coatPos := 64 * coat.length, undercoatIx := ix })).coverCheck id

/-- What is wrong with a restored entry (R429): its version (02_sessions R34), its lengths (02 R44). -/
def Entry.flaw (x : Entry) : Option Status :=
  if x.ver ≠ 1 then some .versionUnsupported
  else if maxPositions < x.length ∨ maxPositions < x.pend ∨ maxPositions < x.length + x.pend then some .lenOverLimit
  else none

/-- Restore one session entry (R429, 02_sessions R34, R44): one with a flaw goes to FAULTED. -/
def State.restoreSess (im : CkImage) (s : State) (id : Nat) (x : Sess) : State :=
  let s1 := s.restoreEntry id x
  if x.flaw.isSome && x.st != .free && x.st != .ended && x.st != .faulted then
    s1.modSess id (fun y => { y with st := .faulted, lastStatus := (x.flaw.map Status.code).getD 0 })
  else
  match x.st with
  | .free => s.setSess id (freed x.gen)
  | .ended => s.setSess id (freed x.gen)
  | .opened => s1
  | .stripped => s1
  | .faulted => s1
  | .hot => if bitAt im.content 3 then State.restoreResident im s1 id x else s1.modSess id (fun y => y.asStripped x.length x.pend)
  | .running => if bitAt im.content 3 then State.restoreResident im s1 id x else s1.modSess id (fun y => y.asStripped x.length x.pend)
  | .idle => if bitAt im.content 3 then State.restoreResident im s1 id x else s1.modSess id (fun y => y.asStripped x.length x.pend)
  | .parked => s1.modSess id (fun y => y.asStripped x.length x.pend)
  | .reviving => s1.modSess id (fun y => y.asStripped x.length x.pend)
  | .moving => s1.modSess id (fun y => y.asStripped x.length x.pend)

/-- A restored program image is on every core of its partition (R428). -/
def State.restoreProg (s : State) (g : Prog) : State :=
  let s1 := s.writeData (s.coresOf g.part) g.ldmBase (slice g.img (192 + g.codeBytes) g.dataBytes)
  s1.modCores (fun k => { k with progs := k.progs ++ [{ g with ver := k.nextVer, live := true }], nextVer := k.nextVer + 1 })

/-- Whether a checkpoint's quotas and loads fit this unit as it is laid out (R426). -/
def State.ckFits (s : State) (im : CkImage) : Bool :=
  decide (sumOf (fun p => p.2.t2Quota) im.parts ≤ s.usableGib - s.indexGib) &&
    decide (sumOf (fun p => p.2.ixQuota) im.parts ≤ (if s.isN then 0 else s.indexGib))

/-- The machine with a checkpoint restored into it (R428, R429); none where something it must hold finds no space. -/
def State.restored (s : State) (im : CkImage) : Option State :=
  if !s.ckFits im then none
  else
    let s1 := im.parts.foldl (fun s p => s.restorePart p.1 p.2) s
    let s2 := s1.modPartU (fun u => { u with
      fns := im.fns
      ports := im.ports
      doms := im.doms.map (fun d => (d.1, { d.2 with meter := d.2.meter.fresh s.tick }))
      compNum := u.compNum + 1 })
    let s3 := im.parts.foldl (fun s p => ckRegs.foldl (fun s r => s.setReg r p.1 (tabGet r.reset im.regs (regKey r p.1))) s) s2
    let s4 := s3.modAtt (fun a => { a with models := im.models })
    let s5 := { s4 with
      emit := { s4.emit with
        sets := im.sets
        profs := (im.profs.zipIdx).map (fun e => (e.1.1, { e.1.2 with ver := s4.emit.nextVer + e.2 }))
        nextVer := s4.emit.nextVer + im.profs.length }
      text := { s4.text with toks := im.toks, stops := im.stops } }
    let s6 := im.progs.foldl State.restoreProg s5
    if im.parts.any (fun p => decide (s6.emitStore p.1 < s6.emitPages p.1) || decide (s6.textStore p.1 < s6.textPages p.1)) then none
    else match foldSome (fun s r => State.restoreRec im s r.1 r.2) s6 im.recs with
      | none => none
      | some s7 =>
        let s8 := im.recs.foldl (fun s r => s.restoreKey r.1) s7
        some (im.sess.foldl (fun s x => State.restoreSess im s x.1 x.2) s8)

/-! ### CKPT_RESTORE and its commit (R426, R427) -/

/-- The rows of R426 from the manifest on, for one slot: `code` says what the host's memory holds there (0 what the device wrote, 1 no
valid manifest, 2 another MAN_VER or part version, 3 another key group, 4 another mode, 5 a damaged shard). -/
def State.restoreCheck (s : State) (slot code : Nat) : Except Status CkImage :=
  match s.ckHeld slot with
  | none => .error .ckptIncomplete
  | some im =>
    if code = 1 then .error .ckptIncomplete
    else if code = 2 then .error .versionUnsupported
    else if code = 3 then .error .keygroupMismatch
    else if code = 4 ∨ im.composable ≠ s.part.composable then .error .shapeMismatch
    else if code ≠ 0 then .error .digestMismatch
    else if (s.restored im).isNone then .error .noSpace
    else .ok im

/-- Whether the device is one a checkpoint may be restored into (R426). -/
def State.restorable (s : State) : Bool :=
  if s.part.composable then !s.part.parts.any (fun p => p.2.st != .none_)
  else (s.live 0).isEmpty && s.emit.sets.isEmpty && s.emit.profs.isEmpty && s.text.toks.isEmpty && s.text.stops.isEmpty && s.cores.progs.isEmpty

/-- CKPT_RESTORE (R426, R427): `a` and `b` say what the host's memory holds in slots A and B. -/
def execCkptRestore (qk a b : Nat) (s : State) : Out3 :=
  withCmd s qk 0x61 (fun s c =>
    let n := byteAt c.raw 12
    let codeOf : Nat → Nat := fun k => if k = 0 then a else b
    let stage : Nat → CkImage → State := fun k im =>
      s.readManifests.modCkpt (fun t => { t with restore := some { slot := k, cmd := c.serial, image := im } })
    let fail : Status → State := fun st => (s.readManifests.modCkpt (fun t => { t with lastStatus := st.code })).done c.serial st
    if s.ckBusy then s.done c.serial .locked
    else if 2 < n then s.done c.serial .formatInvalid
    else if !s.restorable ∨ (n < 2 ∧ !(s.ckSlot n).en) then s.done c.serial .badState
    else if n < 2 then
      match s.restoreCheck n (codeOf n) with
      | .ok im => stage n im
      | .error st => fail st
    else
      let order := (([0, 1].filterMap (fun k => if codeOf k = 1 then none else (s.ckHeld k).map (fun im => (im.serial, k)))))
      let order := listSort (fun (x y : Nat × Nat) => decide (y.1 < x.1)) order
      match order with
      | [] => fail .ckptIncomplete
      | (_, k) :: rest =>
        match s.restoreCheck k (codeOf k) with
        | .ok im => stage k im
        | .error st =>
          match rest with
          | [] => fail st
          | (_, j) :: _ =>
            match s.restoreCheck j (codeOf j) with
            | .ok im => stage j im
            | .error _ => fail st)

/-- RESTORE_COMMIT (R427): at tick 0 of the next beat the staged state becomes visible, and the command completes. -/
def execRestoreCommit (s : State) : Out3 :=
  whenUp s (fun s =>
    match s.ckpt.restore with
    | none => s
    | some t =>
      if !(t.armed && s.beat.tick == 0) then s
      else
        let s0 := s.modCkpt (fun c => { c with restore := none })
        match s0.restored t.image with
        | none => (s0.modCkpt (fun c => { c with lastStatus := Status.noSpace.code })).done t.cmd .noSpace
        | some s1 =>
          let s2 := s1.modCkpt (fun c => { c with
            lastStatus := 0
            lastBeat := t.image.beat
            lastTick := t.image.tick
            lastMs := 0 })
          (s2.bump .ckptRestores 0).done t.cmd .ok)

/-! ### Failures (R432, R434, R435) -/

/-- Every invocation on the cores of a die ends with TIER_FAULT. -/
def State.dieStops (s : State) (die : Nat) : State :=
  (s.sites.filter (fun t => dieOf (clusterOf t.core) == die)).foldl (fun s t => s.killInv t Status.tierFault.code) s

/-- COMPUTE_DIE_LOST (R432, R434): the die's tier 0, tier 1 and cores are gone; every session of a partition with a cluster on it takes a
tier fault. No step or prefill unit is admitted on it any more (`State.dieLost`). -/
def execComputeDieLost (die : Nat) (s : State) : Out3 :=
  whenUp s (fun s =>
    if 4 ≤ die ∨ s.ckpt.lostDies.contains die then s
    else
      let hit : Nat → Bool := fun p => (s.clustersOf p).any (fun c => dieOf c == die)
      let s1 := s.modCkpt (fun c => { c with lostDies := die :: c.lostDies })
      let s2 := s1.modFab (fun f => { f with dieT1Out := if f.dieT1Out.contains die then f.dieT1Out else die :: f.dieT1Out })
      let s3 := (s2.logsLost (fun c => dieOf c == die)).blocksLost (fun d => dieOf d.cluster == die)
      let s4 := (s3.sess.filter (fun x => x.2.st != .free && hit x.2.part)).foldl (fun s x => s.tierFault x.1) s3
      s4.dieStops die)

/-- FLASH_CHANNEL_LOST (R432): every session with a block in tier 2 takes a tier fault, and token-log mirrors on the channel are lost;
which sessions' mirrors lay on it is free. -/
def execFlashChannelLost (channel : Nat) (s : State) : Out3 :=
  whenUp s (fun s =>
    if 32 ≤ channel ∨ s.isN ∨ s.ckpt.lostChannels.contains channel then s
    else
      let s1 := (s.modCkpt (fun c => { c with lostChannels := channel :: c.lostChannels })).blocksLost (fun d => d.tier == 2)
      (s1.sess.filter (fun x => x.2.st != .free && x.2.mirrored != 0)).foldl (fun s x =>
        let on := Config.pick s.free % 2 == 1
        if on then s.draw.logCopyLost x.1 2 [] else s.draw) s1)

/-- HAWK_FAILURE (R435): the hawk's cores stop; the data plane runs on. -/
def execHawkFailure (s : State) : Out3 := whenUp s (fun s => s.modMgmt (fun m => { m with failed := true }))

end Sys2Proof.Machine
end

