-- ==== Sys2Proof/Machine/Link.lean ====
section
/-! DEFINITION. The Cunis Link (13_cunis_link R341 to R358, R363 to R365): port states and HELLO, receive checks, credits, egress;
LINK_RESTART, LINK_EN, LINK_FRAMING, PHY_UP, PHY_DOWN, HELLO, HELLO_RESEND, RX_FRAME, CREDIT, CREDIT_SEND, EGRESS_FRAME. -/

namespace Sys2Proof.Machine

/-! ### Ports (R346, R351, R353, R355) -/

/-- The number of Cunis ports. -/
def portCount : Nat := 16

/-- The credits of a VC's receive buffer (R351). -/
def vcCredits : Nat → Nat
  | 0 => 64
  | 2 => 4096
  | _ => 2048

/-- The INSTANCE of this unit's HELLOs, drawn at reset (R353). -/
def State.linkInst (s : State) : Nat := Config.pick (s.sec.bootNonce + 1) % 2 ^ 32

/-- A port's factory MAC address: B + n, B universally administered and unicast with its four low bits 0 (R346). -/
def portMac (port : Nat) : Nat := Config.macBase / 2 ^ 42 % 2 ^ 6 * 2 ^ 42 + Config.macBase / 2 ^ 4 % 2 ^ 36 * 2 ^ 4 + port

/-- The broadcast address. -/
def broadcast : Nat := 2 ^ 48 - 1

/-- FEAT of this part's HELLO (R355): KV_READ on every port, MOVE on native ones. -/
def Port.ownFeat (p : Port) : Nat := 4 + (if p.framing then 2 else 0)

/-- Every virtual channel of a port changed. -/
def Port.mapVcs (p : Port) (f : Nat → PortVc → PortVc) : Port :=
  { p with vc0 := f 0 p.vc0, vc1 := f 1 p.vc1, vc2 := f 2 p.vc2, vc3 := f 3 p.vc3 }

/-- Send a HELLO on a port (R353, R354): its CRED fields give the buffers less what messages held at their destination occupied when HELLO began;
a CREDIT returns what has drained since. -/
def State.sendHello (s : State) (port agreed : Nat) (ack : Bool) (st : Status) : State :=
  let p := s.port port
  let cred : Nat → Bytes := fun k => natLe 2 (vcCredits k - ((p.vc k).used + (p.vc k).freed))
  let body := natLe 1 1 ++ natLe 1 0x11 ++ natLe 1 agreed ++ natLe 1 (b2n ack + 2) ++ natLe 1 st.code ++ natLe 1 port ++ natLe 2 0 ++
    natLe 8 p.ownFeat ++ natLe 4 Config.keyGroup.toNat ++ natLe 4 s.linkInst ++ cred 0 ++ cred 1 ++ cred 2 ++ cred 3
  s.send port { vc := 0, type := 0, body := body }

/-- HELLO begins on a port (R354). -/
def State.enterHello (s : State) (port : Nat) : State :=
  (s.modPort port (fun p => { (p.mapVcs (fun _ v => { v with freed := 0 })) with
    st := .hello
    ver := 0
    ackSent := false
    ackRecv := false
    helloTick := s.tick })).sendHello port 0 false .ok

/-- A virtual channel after its port left UP (R354): egress and partly received messages gone, credits reset. VC0's flit sequence runs
on, that of the other VCs starts again. -/
def PortVc.cut (v : PortVc) (k used : Nat) : PortVc :=
  { used := used, inbox := v.inbox, skip := v.skip || !v.part_.isEmpty, freedTick := v.freedTick,
    fseqOut := if k = 0 then v.fseqOut % 2 ^ 16 else 0, fseqIn := if k = 0 then v.fseqIn else 0 }

/-- The stall of a session whose O_RETURN or TOKEN_OUT waited for credit is over: the message left, or was dropped (R352, R354). -/
def State.creditStallEnds (s : State) (m : Msg) : State :=
  let id := hId (field m.body 0 4)
  if (m.type = 6 ∨ m.type = 8) ∧ ((s.getSess id).step.bind (·.stall)) = some 4 ∧ handleOf id (s.getSess id) = field m.body 0 4 then
    s.closeStall id
  else s

/-- Reads for an export over a port are given up (R360, R362): they start again after its next LOGGED. -/
def State.dropSends (s : State) (port : Nat) : State :=
  s.modFab (fun b => { b with float := b.float.filter (fun f => f.kind != .send || !s.link.outs.any (fun o => o.port == port && o.sess == f.sess)) })

/-- A port leaves UP, or HELLO starts anew on it (R354): what waited for egress is dropped, and counted where the port was UP; credits are
reset; whole messages received stay. DEDUCED: 30 (those that wait behind a held one too). -/
def State.portLeave (s : State) (port : Nat) : State :=
  let p := s.port port
  let gone := p.vc0.egress ++ p.vc1.egress ++ p.vc2.egress ++ p.vc3.egress
  let s1 := gone.foldl State.creditStallEnds (if p.st = .up then s.bumpBy .txDrop port gone.length else s)
  (s1.dropSends port).modPort port (fun p =>
    { (p.mapVcs (fun k v =>
        let held := s.att.held.filter (fun h => h.port == port && h.vc == k)
        v.cut k (sumOf (·.cost) v.inbox + sumOf (·.cost) held))) with
      ver := 0
      feat := 0
      ackSent := false
      ackRecv := false })

/-- The port leaves UP and stays in a state. -/
def State.portTo (s : State) (port : Nat) (st : PortSt) : State := (s.portLeave port).modPort port (fun p => { p with st := st })

/-- HELLO starts again where the port runs and its PHY is up; otherwise the port is DOWN. -/
def State.portRestart (s : State) (port : Nat) : State :=
  let s1 := s.portTo port .down
  if (s.port port).en ∧ (s.port port).phyUp then s1.enterHello port else s1

/-! ### LINK_CFG (R364) and the PHY -/

/-- LINK_CFG.RESTART as a write gives it. -/
def State.linkRestart (s : State) (port value : Nat) : State :=
  let s1 := s.modPort port (fun p => { p with restartWorb := bitAt value 2 })
  if bitAt value 2 ∧ (s.port port).st ≠ .down then s1.portRestart port else s1

/-- LINK_CFG.EN as a write gives it: 0 idles the port, which stops serving the tick reference (18_power R466). -/
def State.linkEn (s : State) (port value : Nat) : State :=
  if bitAt value 0 = (s.port port).en then s
  else if bitAt value 0 then ((s.modPort port (fun p => { p with en := true })).portRestart port).clkPortFound port
  else ((s.modPort port (fun p => { p with en := false })).portTo port .down).clkPortLost port

/-- LINK_CFG.FRAMING as a write gives it: a change restarts the port. -/
def State.linkFraming (s : State) (port value : Nat) : State :=
  if bitAt value 1 = (s.port port).framing then s
  else (s.modPort port (fun p => { p with framing := bitAt value 1 })).portRestart port

/-- A write of a port's LINK_CFG field by PF0 of port A. -/
def linkCfg (s : State) (fn port : Nat) (f : State → State) : Out3 := onlyPf0A s fn (fun s => if port < portCount then f s else s)

/-- LINK_RESTART. -/
def execLinkRestart (fn port value : Nat) (s : State) : Out3 := linkCfg s fn port (fun s => s.linkRestart port value)

/-- LINK_EN. -/
def execLinkEn (fn port value : Nat) (s : State) : Out3 := linkCfg s fn port (fun s => s.linkEn port value)

/-- LINK_FRAMING. -/
def execLinkFraming (fn port value : Nat) (s : State) : Out3 := linkCfg s fn port (fun s => s.linkFraming port value)

/-- PHY_UP (R354): HELLO starts on a port that runs. -/
def execPhyUp (port : Nat) (s : State) : Out3 :=
  whenUp s (fun s =>
    if portCount ≤ port ∨ (s.port port).phyUp then s
    else
      let s1 := s.modPort port (fun p => { p with phyUp := true })
      if (s.port port).en then s1.enterHello port else s1)

/-- PHY_DOWN (R354): the port is DOWN. -/
def execPhyDown (port : Nat) (s : State) : Out3 :=
  whenUp s (fun s =>
    if portCount ≤ port ∨ !(s.port port).phyUp then s
    else (s.modPort port (fun p => { p with phyUp := false })).portTo port .down)

/-- HELLO_RESEND (R354): 100,000 ticks after the last one, while HELLO runs. -/
def execHelloResend (port : Nat) (s : State) : Out3 :=
  whenUp s (fun s =>
    if portCount ≤ port ∨ (s.port port).st ≠ .hello then s
    else
      let s1 := s.pass ((s.port port).helloTick + 100000 - s.tick)
      let p := s1.port port
      (s1.modPort port (fun p => { p with helloTick := s1.tick })).sendHello port (if p.ackSent then p.ver else 0) p.ackSent .ok)

/-! ### HELLO (R353 to R355) -/

/-- Bits 35:0 of a model's ATT_MODEL_GEOM (05_attention R153), which an OFFER carries (R359). -/
def ModelEnt.geom36 (m : ModelEnt) : Nat :=
  m.layers % 2 ^ 9 + m.qheads % 2 ^ 8 * 2 ^ 9 + m.kvheads % 2 ^ 7 * 2 ^ 17 + m.headDim % 2 ^ 9 * 2 ^ 24 + m.kvFmt % 2 ^ 3 * 2 ^ 33

/-- Send an export's OFFER (R360, R362), over a native port on which MOVE is in use, bound to the session's partition. -/
def State.sendOffer (s : State) (o : MoveOut) : State :=
  let x := s.getSess o.sess
  let p := s.port o.port
  if p.st = .up ∧ p.framing ∧ bitAt p.feat 1 ∧ s.portPart o.port = some x.part then
    let b : MoveBody := { sub := 0, src := handleOf o.sess x, dst := o.dst, total := o.len + o.pend, kvLen := o.len }
    s.send o.port (moveMsg b (natLe 8 (s.model x.part x.model).geom36))
  else s

/-- The port is UP (R354 steps 3 and 4): credits start from the peer's CRED fields, the features in use are those of both; exports over the
port go on with an OFFER (R362). -/
def State.portUp (s : State) (port : Nat) (cred : Nat → Nat) : State :=
  let s1 := s.modPort port (fun p =>
    { (p.mapVcs (fun k v => { v with credit := cred k, cumOut := 0, cumPeer := 0, cumIn := 0, back := 0 })) with
      st := .up
      feat := p.ownFeat &&& p.peerFeat })
  (s.link.outs.filter (fun o => o.port == port)).foldl State.sendOffer s1

/-- The refusal a peer's HELLO meets, by R354's table. -/
def State.helloRefusal (s : State) (port agreed role key : Nat) : Option Status :=
  if agreed < 0x10 then some .versionUnsupported
  else if (s.port port).framing ∧ role ≠ 1 then some .formatInvalid
  else if (s.port port).framing ∧ key ≠ Config.keyGroup.toNat then some .keygroupMismatch
  else none

/-- A refusal is sent or received: the port is REFUSED. -/
def State.portRefused (s : State) (port code : Nat) : State :=
  ((s.portTo port .refused).modPort port (fun p => { p with refusal := code })).bump .helloRefused port

/-- HELLO (R354): the peer's HELLO is judged. On a port that is UP, one with ACK = 1 and the known INSTANCE changes nothing; a port that is
DOWN takes none. -/
def execHello (port : Nat) (s : State) : Out3 :=
  whenUp s (fun s =>
    if portCount ≤ port then s
    else match s.headMsg port 0 0 with
    | none => s
    | some m =>
      let b := m.body
      let s0 := s.takeMsg port 0 m
      let p := s0.port port
      let ack := bitAt (byteAt b 3) 0
      let again := p.st == .up && (!ack || p.peerInst != field b 20 4)
      let agreed := min (byteAt b 1) 0x11
      let role := bits (byteAt b 3) 1 3
      let cred : Nat → Nat := fun k => field b (24 + 2 * k) 2
      if p.st = .down then s0 else
      let s1 := (if again then s0.portRestart port else s0).modPort port (fun p => { p with
        peerRole := role
        peerPort := byteAt b 5 % 16
        peerFeat := field b 8 8
        peerKey := field b 16 4
        peerInst := field b 20 4 })
      if byteAt b 4 ≠ 0 then s1.portRefused port (byteAt b 4)
      else if p.st = .up ∧ !again then s1
      else match s1.helloRefusal port agreed role (field b 16 4) with
        | some st => (s1.portRefused port st.code).sendHello port 0 true st
        | none =>
          let s2 := s1.modPort port (fun p => { p with
            st := .hello
            helloTick := if p.st = .refused then s.tick else p.helloTick
            ver := agreed
            ackSent := true
            ackRecv := ack && byteAt b 2 == agreed })
          let s3 := s2.sendHello port agreed true .ok
          if (s3.port port).ackRecv then s3.portUp port cred else s3)

/-! ### Receiving (R344 to R352) -/

/-- Credit comes back for what never took buffer space, or has left it (R351). -/
def State.giveCredit (s : State) (port k n : Nat) : State :=
  s.modPort port (fun p =>
    let v := p.vc k
    p.setVc k { v with freed := v.freed + n, freedTick := if v.freed = 0 then s.tick else v.freedTick })

/-- A frame or flit as R350's checks see it: its VC, its train marks, its cost, CUM or FSEQ, its message bytes, whether its length fields
fail, the address it came from. -/
structure RxPart where
  vc : Nat
  first : Bool
  last : Bool
  cost : Nat
  seq : Nat
  data : Bytes
  badLen : Bool
  src : Nat := 0
  deriving DecidableEq, Repr

/-- Change one virtual channel of a port. -/
def State.modVc (s : State) (port k : Nat) (f : PortVc → PortVc) : State := s.modPort port (fun p => p.setVc k (f (p.vc k)))

/-- Give up the message being received on a VC: its parts return their credit, the rest is discarded up to the next FIRST (R350). -/
def State.dropTrain (s : State) (port k : Nat) (skip : Bool) : State :=
  let c := ((s.port port).vc k).partCost
  (s.freeCredit port k c).modVc port k (fun v => { v with part_ := [], partCost := 0, skip := skip })

/-- Whether a message type may come on a VC to the device over a framing (R343). -/
def rxAllowed (native : Bool) (type k : Nat) : Bool :=
  match type with
  | 0 | 1 | 2 => k == 0
  | 3 => true
  | 4 | 5 => !native && (k == 1 || k == 2)
  | 7 => !native && k == 1
  | 9 => native && k == 3
  | _ => false

/-- The checks of the message header (R350), once its 16 bytes are there. -/
def State.hdrFault (s : State) (port k : Nat) (b : Bytes) : Option Counter :=
  let p := s.port port
  let type := byteAt b 0 % 16
  if field b 12 4 ≠ crc32c (b.take 12) ∨ byteAt b 0 / 16 ≠ 1 then some .rxHdrCrc
  else if 10 ≤ type then some .rxType
  else if !rxAllowed p.framing type k ∨ byteAt b 1 % 4 ≠ k ∨ (k ≠ 0 ∧ (s.portPart port).isNone) ∨ (type ≠ 0 ∧ p.st ≠ .up) then some .rxVc
  else none

/-- LEN of a message header (R342). -/
def msgLen (b : Bytes) : Nat := field b 4 4 % 2 ^ 25

/-- The length faults of R350 for the content of a train so far. -/
def lenFault (b : Bytes) (last badLen : Bool) : Bool :=
  badLen || (decide (16 ≤ b.length) && (decide (msgLen b < 32) || msgLen b == 2 ^ 25 - 1 || decide (16 + msgLen b < b.length))) ||
    (last && (decide (b.length < 16) || b.length != 16 + msgLen b))

/-- Whether a whole message is one whose subtype this part drops (R355, R358, R359): only KV_READ comes to the device in CTRL. -/
def State.badSub (s : State) (port k : Nat) (b : Bytes) : Bool :=
  let sub := byteAt b 16
  match byteAt b 0 % 16 with
  | 3 => sub != 3 || decide (k < 2) || (s.port port).ver != 0x11
  | 9 => decide (9 ≤ sub)
  | _ => false

/-- A whole message has passed the checks: it goes to its owning block's queue, with the tick it came at (05_attention R153); a HELLO teaches
the peer's address (R346). -/
def State.deliver (s : State) (port k src : Nat) (b : Bytes) : State :=
  let p := s.port port
  let m : Msg := { vc := k, type := byteAt b 0 % 16, body := slice b 16 32, data := b.drop 48, cost := (p.vc k).partCost, since := some s.tick }
  let s1 := (s.modVc port k (fun v => { v with inbox := v.inbox ++ [m], part_ := [], partCost := 0, skip := false })).bump .rxMsgs port
  if m.type = 0 ∧ !p.framing ∧ p.st ≠ .down then s1.modPort port (fun p => { p with mac := src }) else s1

/-- A long message at the head of its VC drains while it arrives (R351): once its parts fill half the buffer, their credit goes back. -/
def State.drainTrain (s : State) (port k : Nat) : State :=
  let v := (s.port port).vc k
  if v.inbox.isEmpty && !s.att.held.any (fun h => h.port == port && h.vc == k) && decide (vcCredits k ≤ 2 * v.partCost) then
    (s.freeCredit port k v.partCost).modVc port k (fun v => { v with partCost := 0 })
  else s

/-- The credit charged for a part: HELLO, CREDIT and BEAT cost none, and nothing is charged on a port that is not UP (R351). -/
def State.partCharge (s : State) (port : Nat) (q : RxPart) : Nat :=
  let v := (s.port port).vc q.vc
  let type := byteAt (if q.first then q.data else v.part_) 0 % 16
  if (s.port port).st ≠ .up ∨ ((q.first || !v.part_.isEmpty) && decide (type < 3)) then 0 else q.cost

/-- The credits of a part that lie in a gap before it (R351), by CUM or by FSEQ. -/
def State.seqGap (s : State) (port : Nat) (q : RxPart) (c : Nat) : Nat :=
  let p := s.port port
  let v := p.vc q.vc
  if p.st ≠ .up then 0
  else if p.framing then (q.seq + 2 ^ 16 - v.fseqIn % 2 ^ 16) % 2 ^ 16
  else (q.seq + 2 ^ 32 - (v.cumIn + c) % 2 ^ 32) % 2 ^ 32

/-- The message checks of a part (R350), in their order, where its message is under way. -/
def State.partFault (s : State) (port : Nat) (q : RxPart) (c : Nat) (b : Bytes) : Option Counter :=
  let v := (s.port port).vc q.vc
  let hdr := if v.part_.length < 16 ∧ 16 ≤ b.length then s.hdrFault port q.vc b else none
  match hdr with
  | some x => some x
  | none =>
    if 0 < c ∧ vcCredits q.vc < v.used + v.freed + c then some .rxOverrun
    else if lenFault b q.last q.badLen then some .rxLen
    else none

/-- A part's place in its channel's sequence: the credit it costs and that of parts missing before it are counted, and a message left
unfinished is dropped (R350). -/
def State.rxTrain (s : State) (port : Nat) (q : RxPart) (c gap : Nat) : State :=
  let s1 := s.modVc port q.vc (fun v => { v with cumIn := v.cumIn + c + (if (s.port port).framing then 0 else gap), fseqIn := q.seq + 1 })
  let s2 := if gap = 0 then s1 else s1.giveCredit port q.vc gap
  if !((s2.port port).vc q.vc).part_.isEmpty && (q.first || decide (0 < gap)) then
    (if gap = 0 then s2.bump .rxLen port else s2).dropTrain port q.vc true
  else s2

/-- A part that follows no first part of its message is discarded, and counted once for its message (R350). -/
def State.rxStray (s : State) (port : Nat) (q : RxPart) (c gap : Nat) : State :=
  let v := (s.port port).vc q.vc
  let skip : State → State := fun s => s.modVc port q.vc (fun v => { v with skip := true })
  if v.skip || decide (0 < gap) then (skip s).giveCredit port q.vc c
  else
    let excess := decide (0 < c) && decide (vcCredits q.vc < v.used + v.freed + c)
    (skip (s.bump (if excess then .rxOverrun else .rxLen) port)).giveCredit port q.vc (if excess then 0 else c)

/-- A part joins its message: its checks, and where it is the last the message's (R350). -/
def State.rxJoin (s : State) (port : Nat) (q : RxPart) (c : Nat) : State :=
  let b := ((s.port port).vc q.vc).part_ ++ q.data
  match s.partFault port q c b with
  | some x => ((s.bump x port).dropTrain port q.vc true).giveCredit port q.vc (if x.num = Counter.rxOverrun.num then 0 else c)
  | none =>
    let s4 := s.modVc port q.vc (fun v => { v with part_ := b, partCost := v.partCost + c, used := v.used + c })
    if !q.last then s4.drainTrain port q.vc
    else if s4.badSub port q.vc b then (s4.bump .rxType port).dropTrain port q.vc true
    else s4.deliver port q.vc q.src b

/-- A part of a message arrives on a VC (R350, R351). A gap shows that parts were dropped, each counted at its own check: what is left of their
message is discarded. -/
def State.rxPart (s : State) (port : Nat) (q : RxPart) : State :=
  let c := s.partCharge port q
  let gap := s.seqGap port q c
  let s1 := s.rxTrain port q c gap
  if !q.first && ((s1.port port).vc q.vc).part_.isEmpty then s1.rxStray port q c gap
  else s1.rxJoin port q c

/-- The segment of an Ethernet frame (R345), its header checked. -/
def segPart (seg : Bytes) (src : Nat) : Option RxPart :=
  let h := byteAt seg 0
  let n := field seg 2 2
  if h / 16 ≠ 1 ∨ byteAt seg 1 ≠ 0 ∨ 2 ^ 14 ≤ n ∨ field seg 8 8 ≠ 0 then none
  else
    let data := slice seg 16 n
    some { vc := h % 4, first := bitAt h 2, last := bitAt h 3, cost := ceilDiv (16 + n) 256, seq := field seg 4 4, data := data,
           badLen := decide (n = 0) || decide (9182 < n) || decide (data.length < n), src := src }

/-- Whether a segment belongs to a HELLO, and whether that HELLO has ACK = 0 as far as its bytes have come (R346, R354). -/
def State.helloSeg (s : State) (port : Nat) (seg : Bytes) : Bool × Bool :=
  let h := byteAt seg 0
  let b := (if bitAt h 2 then [] else ((s.port port).vc (h % 4)).part_) ++ seg.drop 16
  (!b.isEmpty && byteAt b 0 % 16 == 0, !bitAt (byteAt b 19) 0)

/-- An Ethernet frame from its destination address to its FCS (R345, R346, R350); one of PAUSE or PFC is ignored and counted. -/
def State.rxEther (s : State) (port : Nat) (f : Bytes) : State :=
  let n := f.length
  let body := f.take (n - 4)
  let seg := body.drop 14
  let dst := beNat (slice f 0 6)
  let src := beNat (slice f 6 6)
  let mac := (s.port port).mac
  let hello := s.helloSeg port seg
  let op := beNat (slice f 14 2)
  if n < 18 ∨ field f (n - 4) 4 ≠ crc32 body then s.bump .rxFcs port
  else if beNat (slice f 12 2) = 0x8808 ∧ (op = 1 ∨ op = 0x101) then s.bump .rxPause port
  else if beNat (slice f 12 2) ≠ 0x88B5 ∨ (dst ≠ portMac port ∧ dst ≠ broadcast) ∨ (dst = broadcast ∧ !hello.1) ∨
      (mac ≠ 0 ∧ src ≠ mac ∧ !(hello.1 && hello.2)) then s.bump .rxAddr port
  else match segPart seg src with
    | none => s.bump .rxHdrCrc port
    | some q => s.rxPart port { q with badLen := q.badLen || decide (n < 64) || decide (9216 < n) }

/-- A native flit (R347, R350): an idle one carries nothing. -/
def State.rxFlit (s : State) (port : Nat) (f : Bytes) : State :=
  let h := byteAt f 0
  let n := byteAt f 1
  if f.length ≠ 256 ∨ field f 6 2 ≠ crc16 (f.take 6) ∨ 32 ≤ h ∨ field f 4 2 ≠ 0 then s.bump .rxHdrCrc port
  else if bitAt h 4 then s
  else s.rxPart port { vc := h % 4, first := bitAt h 2, last := bitAt h 3, cost := 1, seq := field f 2 2, data := slice f 8 n,
                       badLen := decide (n = 0) || decide (248 < n) }

/-- RX_FRAME (R350): a frame or flit arrives, with the codewords RS-FEC corrected in it; one with an uncorrectable codeword is lost. -/
def execRxFrame (port corr : Nat) (fecBad : Bool) (frame : Bytes) (s : State) : Out3 :=
  whenUp s (fun s =>
    if portCount ≤ port ∨ !(s.port port).phyUp then s
    else
      let s1 := s.bumpBy .rxFecCorr port corr
      if fecBad then s1.bump .rxFecUncorr port
      else if (s.port port).framing then s1.rxFlit port frame
      else s1.rxEther port frame)

/-! ### Credits (R351) -/

/-- CREDIT: what the peer has returned in all, per VC. -/
def execCredit (port : Nat) (s : State) : Out3 :=
  whenUp s (fun s =>
    match s.headMsg port 0 1 with
    | none => s
    | some m =>
      let cum : Nat → Nat := fun k => field m.body (4 + 4 * k) 4
      (s.takeMsg port 0 m).modPort port (fun p => p.mapVcs (fun k v =>
        { v with credit := v.credit + (cum k + 2 ^ 32 - v.cumPeer) % 2 ^ 32, cumPeer := cum k })))

/-- CREDIT_SEND: eight credits of a VC are freed, or the oldest is 10,000 ticks old, at least 64 ticks after the last CREDIT. -/
def execCreditSend (port vc : Nat) (s : State) : Out3 :=
  whenUp s (fun s =>
    let v := (s.port port).vc vc
    if portCount ≤ port ∨ 4 ≤ vc ∨ (s.port port).st ≠ .up ∨ v.freed = 0 then s
    else
      let due := max ((s.port port).creditTick + 64) (if 8 ≤ v.freed then 0 else v.freedTick + 10000)
      let s1 := s.pass (due - s.tick)
      let s2 := s1.modPort port (fun p =>
        { (p.mapVcs (fun _ v => { v with back := (v.back + v.freed) % 2 ^ 32, freed := 0 })) with creditTick := s1.tick })
      let q := s2.port port
      s2.send port { vc := 0, type := 1, body := fit 0 32 (natLe 1 1 ++ natLe 3 0 ++ natLe 4 q.vc0.back ++ natLe 4 q.vc1.back ++
        natLe 4 q.vc2.back ++ natLe 4 q.vc3.back) })

/-! ### Egress (R161, R162, R344 to R349, R352, R363) -/

/-- A message as it stands on the wire: header, body, data (R342). -/
def Msg.wire (m : Msg) : Bytes :=
  let h := natLe 1 (m.type + 16) ++ natLe 1 m.vc ++ natLe 2 0 ++ natLe 4 (32 + m.data.length) ++ natLe 4 0
  h ++ natLe 4 (crc32c h) ++ m.body ++ m.data

/-- The message bytes a frame or flit holds at most. -/
def partMax (native : Bool) : Nat := if native then 248 else 9182

/-- An Ethernet frame from its destination address to its FCS (R345, R346), no shorter than 64 bytes. -/
def etherFrame (dst src vc cum : Nat) (first last : Bool) (d : Bytes) : Bytes :=
  let seg := natLe 1 (vc + 4 * b2n first + 8 * b2n last + 16) ++ natLe 1 0 ++ natLe 2 d.length ++ natLe 4 cum ++ natLe 8 0
  let b := natBe 6 dst ++ natBe 6 src ++ natBe 2 0x88B5 ++ seg ++ d
  let b := b ++ List.replicate (60 - b.length) 0
  b ++ natLe 4 (crc32 b)

/-- A native flit (R347). -/
def flit (vc fseq : Nat) (first last : Bool) (d : Bytes) : Bytes :=
  let h := natLe 1 (vc + 4 * b2n first + 8 * b2n last) ++ natLe 1 d.length ++ natLe 2 fseq ++ natLe 2 0
  h ++ natLe 2 (crc16 h) ++ fit 0 248 d

/-- The next frame of a VC: its bytes, what it costs, its ticks on the wire, its counted length, whether it ends its message. -/
structure NextFrame where
  data : Bytes
  n : Nat
  cost : Nat
  ticks : Nat
  counted : Nat
  last : Bool
  deriving DecidableEq, Repr

/-- Build the next frame or flit of the message at the head of a VC. -/
def State.nextFrame (s : State) (port k : Nat) (m : Msg) : NextFrame :=
  let p := s.port port
  let v := p.vc k
  let all := m.wire
  let d := slice all v.sent (partMax p.framing)
  let last := all.length ≤ v.sent + d.length
  let free := m.type < 3
  if p.framing then
    { data := flit k v.fseqOut (v.sent == 0) last d, n := d.length, cost := if free then 0 else 1, ticks := 3, counted := 256, last := last }
  else
    let c := if free then 0 else ceilDiv (16 + d.length) 256
    let f := etherFrame (if p.mac = 0 then broadcast else p.mac) (portMac port) k ((v.cumOut + c) % 2 ^ 32) (v.sent == 0) last d
    { data := f, n := d.length, cost := c, ticks := ceilDiv (d.length + 54) 100, counted := f.length + bits (s.reg .linkShape port) 32 8,
      last := last }

/-- Whether a frame of a VC may start in the partition's window (R161). -/
def State.egressGate (s : State) (port k ticks : Nat) : Bool :=
  decide (k < 2) ||
  (match s.portPart port with
   | none => false
   | some p =>
     if s.bulkOpen p then s.bulkEndless || decide (s.beat.tick + ticks ≤ s.beat.period)
     else
       let w := s.pwin p
       k == 2 && w.win == .prefill && decide (s.beat.tick + ticks ≤ w.d + w.f))

/-- What the bucket of a port lacks to its burst now, in tenths of a byte (R363). -/
def State.bucketLack (s : State) (port : Nat) : Nat :=
  let p := s.port port
  p.deficit - bits (s.reg .linkShape port) 0 16 * (s.tick - p.bucketTick)

/-- Whether the shaper lets a VC3 frame start (R363). -/
def State.shaperOpen (s : State) (port k counted : Nat) : Bool :=
  let r := s.reg .linkShape port
  k != 3 || bits r 0 16 == 0 || decide (10 * counted + s.bucketLack port ≤ 10240 * bits r 16 16)

/-- The turnaround of an OK decode O_RETURN, to the last bit of its last frame (05_attention R146, R153). -/
def State.turnaround (s : State) (port since ticks : Nat) : State :=
  match s.portPart port with
  | none => s
  | some p =>
    let t := min (s.tick + ticks - since) 0xFFFFFE
    s.setReg .attTurn p (t + max t (bits (s.reg .attTurn p) 24 24) * 2 ^ 24)

/-- A session's TOKEN_OUT without END has left: its step is over, and a cancel that came after the commit ends the generate (02_sessions
R36, R45). -/
def State.tokenLeft (s : State) (m : Msg) : State :=
  let h := field m.body 0 4
  let id := hId h
  let x := s.getSess id
  if m.type = 8 ∧ byteAt m.body 9 % 4 = 1 ∧ handleOf id x = h ∧ x.step.any (·.committed) then
    let s1 := s.modSess id (fun x => { x with step := none })
    if x.cancelReq then (s1.ctrlEndNext x.part h).endGenIdle id .cancelled else s1
  else s

/-- An O_RETURN with OK leaves: a decode or a chunk request is answered (05_attention R154). -/
def State.countAnswer (s : State) (port : Nat) (m : Msg) : State :=
  match s.portPart port with
  | some p =>
    if m.type = 6 ∧ byteAt m.body 12 = 0 then (if m.vc = 1 then s.bump .attDecode p else s.bump .attChunks p) else s
  | none => s

/-- What follows when the last frame of a message starts. -/
def State.msgLeft (s : State) (port ticks : Nat) (m : Msg) : State :=
  let s1 := (s.bump .txMsgs port).creditStallEnds m
  let s2 := match m.since with
    | some t => s1.turnaround port t ticks
    | none => s1
  (s2.countAnswer port m).tokenLeft m

/-- Start the next frame of a VC. -/
def State.startFrame (s : State) (port k : Nat) (m : Msg) (f : NextFrame) : State :=
  let lack := s.bucketLack port
  let s1 := (s.emitOut (.frame port f.data)).modPort port (fun p =>
    let v := p.vc k
    let q := p.setVc k { v with
      credit := v.credit - f.cost
      cumOut := (v.cumOut + f.cost) % 2 ^ 32
      fseqOut := (v.fseqOut + 1) % 2 ^ 64
      sent := if f.last then 0 else v.sent + f.n
      gated := false
      egress := if f.last then v.egress.drop 1 else { m with waited := false } :: v.egress.drop 1 }
    if k = 3 then { q with deficit := if bits (s.reg .linkShape port) 0 16 = 0 then 0 else lack + 10 * f.counted, bucketTick := s.tick }
    else q)
  if f.last then s1.msgLeft port f.ticks m else s1

/-- The next frame of a VC finds its gate closed: it is counted once as held to a later window (06_beat R173). -/
def State.countGate (s : State) (port k : Nat) : State :=
  let v := (s.port port).vc k
  match s.portPart port with
  | none => s
  | some p =>
    if v.gated then s
    else (s.modVc port k (fun v => { v with gated := true })).bump (if k = 2 then .gateWaitVc2 else .gateWaitVc3) p

/-- A message of a step that lacks VC1 credit stalls its session with LINK_CREDIT (R352). -/
def State.creditStall (s : State) (m : Msg) : State :=
  let h := field m.body 0 4
  if (m.type = 6 ∨ m.type = 8) ∧ handleOf (hId h) (s.getSess (hId h)) = h then s.openStall (hId h) 4 else s

/-- The next frame of a VC lacks credit (R352): it is counted once, and the steps that the messages of VC1 answer stall. DEDUCED: 29 (a step
whose message stands behind one that lacks credit lacks it too). -/
def State.countCredit (s : State) (port k : Nat) : State :=
  let v := (s.port port).vc k
  let s1 := match v.egress with
    | m :: l => if m.waited then s else (s.modVc port k (fun v => { v with egress := { m with waited := true } :: l })).bump .txCreditWait port
    | [] => s
  if k = 1 then v.egress.foldl State.creditStall s1 else s1

/-- An idle flit (R347): what the spec does not give of it, its VC, FILL, FSEQ and payload, is free (DESIGN CHOICE: 96). -/
def idleFlit (x : Nat) : Bytes :=
  let h := natLe 1 (x % 4 + 16) ++ natLe 1 (x / 4) ++ natLe 2 (x / 2 ^ 10) ++ natLe 2 0
  h ++ natLe 2 (crc16 h) ++ natLe 248 (x / 2 ^ 26)

/-- Try to start a frame of each VC in turn, the lower number first (R162); with none ready a native port sends an idle flit (R347). -/
def State.tryVcs (s : State) (port : Nat) : List Nat → State
  | [] => if (s.port port).framing then (s.emitOut (.frame port (idleFlit s.drawn))).draw else s
  | k :: l =>
    match ((s.port port).vc k).egress with
    | [] => s.tryVcs port l
    | m :: _ =>
      let f := s.nextFrame port k m
      if !s.egressGate port k f.ticks then (s.countGate port k).tryVcs port l
      else if ((s.port port).vc k).credit < f.cost then (s.countCredit port k).tryVcs port l
      else if !s.shaperOpen port k f.counted then s.tryVcs port l
      else s.startFrame port k m f

/-- EGRESS_FRAME (R162): the next frame of a port at a frame boundary. -/
def execEgressFrame (port : Nat) (s : State) : Out3 :=
  whenUp s (fun s => if portCount ≤ port ∨ (s.port port).st = .down then s else s.tryVcs port [0, 1, 2, 3])

end Sys2Proof.Machine
end

