-- ==== Sys2Proof/Machine/Health.lean ====
section
/-! DEFINITION. What the device reports of itself: identity registers (01_architecture R26), health readings and their coarsening
(17_management R452 to R456), wear entries (R454), SEC_STATE (15_security R412). -/

namespace Sys2Proof.Machine

/-! ### Identity (R26) -/

/-- The ORDER code. -/
def Order.code : Order → Nat
  | .f64 => 0
  | .f16 => 1
  | .n => 2

/-- ID_PART. -/
def State.idPart (s : State) : Nat := 0xB09620 + s.unit.order.code * 2 ^ 24

/-- ID_VERSION. -/
def idVersion : Nat := 0x01110100

/-- ID_CAP. -/
def State.idCap (s : State) : Nat := if s.isN then 0x00002004 else 0x00202007

/-! ### Sensors (R452, R453) -/

/-- The throttle limit of a sensor in °C; 0 for sensors 30 and 31. -/
def thrLimit (n : Nat) : Nat :=
  if n < 4 then 105 else if n < 28 then 95 else if n = 28 then 100 else if n = 29 then 85 else 0

/-- The trip limit of a sensor in °C. -/
def tripLimit (n : Nat) : Nat :=
  if n < 4 then 120 else if n < 28 then 105 else if n = 28 then 115 else if n = 29 then 95 else 0

/-- The compute die a sensor reports on: the die's own, its bonded DRAM's, its stacks'. -/
def sensorDie (n : Nat) : Option Nat := if n < 8 then some (n % 4) else if n < 28 then some ((n - 8) / 5) else none

/-- Whether a die holds a cluster of a confidential partition (R453). -/
def State.dieConf (s : State) (die : Nat) : Bool :=
  s.part.parts.any (fun p => p.2.st != .none_ && p.2.conf && p.2.clusters.any (fun c => dieOf c == die))

/-- A temperature rounded down to a multiple of 4 °C. -/
def coarseTemp (t : Int) : Int := t - t % 64

/-- A sensor as every reader sees it: coarsened and refreshed once in 1,000 management ticks on a die that holds a confidential
partition. -/
def State.sensor (s : State) (n : Nat) : Sensor :=
  let x := tabGet {} s.mgmt.sensors n
  match sensorDie n with
  | some d => if s.dieConf d then tabGet {} s.mgmt.coarse n else x
  | none => x

/-- A signed number in 16 bits. -/
def int16 (t : Int) : Nat := (t % 65536).toNat

/-- HLTH_SENS of a sensor. -/
def State.hlthSens (s : State) (n : Nat) : Nat :=
  let x := s.sensor n
  int16 x.temp + int16 x.max_ * 2 ^ 16 + thrLimit n * 2 ^ 32 + tripLimit n * 2 ^ 40

/-- Whether a compute die is throttled: by its own sensor, its bonded DRAM's, or the power limit (R452). -/
def State.dieThrottled (s : State) (die : Nat) : Bool := (s.sensor die).throttle || (s.sensor (4 + die)).throttle || s.mgmt.pwrThrottle

/-- A list of Booleans as bits, the first lowest. -/
def bitsOf (l : List Bool) : Nat := leNatBits l
where
  /-- The bits of a list. -/
  leNatBits : List Bool → Nat
    | [] => 0
    | b :: t => b2n b + 2 * leNatBits t

/-- HLTH_STATE. -/
def State.hlthState (s : State) : Nat :=
  let m := s.mgmt
  b2n m.ready + bitsOf ([0, 1, 2, 3].map s.ckpt.lostDies.contains) * 2 + bitsOf ([0, 1, 2, 3].map s.dieThrottled) * 2 ^ 5 +
    b2n (s.sensor 28).throttle * 2 ^ 9 + b2n (s.sensor 29).throttle * 2 ^ 10 + b2n m.pwrThrottle * 2 ^ 11 + b2n m.resetReq * 2 ^ 12 +
    b2n m.bcDefault * 2 ^ 13

/-- Whether a stack is out of service (03_state_fabric R91). -/
def State.stackOut (s : State) (n : Nat) : Bool := decide (16 ≤ tabGet 0 s.fab.stackFaults n)

/-- HLTH_STACK. -/
def State.hlthStack (s : State) : Nat :=
  bitsOf ((List.range 20).map s.stackOut) + bitsOf ((List.range 20).map (fun n => (s.sensor (8 + n)).throttle)) * 2 ^ 20

/-- INPUT_W and PEAK_W as every reader sees them (R453). -/
def State.powerReads (s : State) : Nat × Nat :=
  if s.anyConf then (s.mgmt.coarseIn, s.mgmt.coarsePeak) else (s.mgmt.inputW, s.mgmt.peakW)

/-- HLTH_PWR. -/
def State.hlthPwr (s : State) : Nat :=
  s.powerReads.1 % 2 ^ 16 + s.mgmt.vinCv % 2 ^ 16 * 2 ^ 16 + s.powerReads.2 % 2 ^ 16 * 2 ^ 32 + s.mgmt.cfg.pwrLimit * 2 ^ 48

/-! ### Wear (R454) -/

/-- RATED of a wear entry. -/
def wearRated (n : Nat) : Nat := if n < 32 then 3000 else if n < 57 then 61320 else if n = 57 then 100000 else 64

/-- RAW of a wear entry as last known; the fuses' entry is FUSE_SVN; flash channels read 0 on ZV9620-N. -/
def State.wearRaw (s : State) (n : Nat) : Nat :=
  if n = 58 then s.sec.fuseSvn else if n < 32 ∧ s.isN then 0 else tabGet 0 s.mgmt.wear n

/-- PREDICT_DAYS: 0 at the end of life, 0xFFFF where there is no prediction. -/
def State.wearDays (s : State) (n : Nat) : Nat :=
  let raw := s.wearRaw n
  let ring := tabGet [] s.mgmt.wearRing n
  let old := ring.getLastD 0
  if wearRated n ≤ raw then 0
  else if ring.length < 720 ∨ raw ≤ old then 0xFFFF
  else
    let d := (wearRated n - raw) * 30 / (raw - old)
    if d < 0x10000 then d else Config.manyDays d % 0x10000

/-- HLTH_WEAR of an entry; a stack out of service is worn out. -/
def State.hlthWear (s : State) (n : Nat) : Nat :=
  let out := decide (32 ≤ n) && decide (n < 52) && s.stackOut (n - 32)
  let used := if out then 254 else min 254 (100 * s.wearRaw n / wearRated n)
  let days := if out then 0 else s.wearDays n
  used + days * 2 ^ 8 + s.wearRaw n % 2 ^ 40 * 2 ^ 24

/-! ### Firmware and JTAG (15_security R405, R412) -/

/-- The slot of the running firmware; the empty one where none runs. -/
def State.fwSlot (s : State) : FwSlot := (s.sec.slots[s.sec.running]?).getD {}

/-- SEC_STATE. -/
def State.secState (s : State) : Nat :=
  s.sec.fuseSvn + s.fwSlot.svn * 2 ^ 8 + s.sec.revoked % 16 * 2 ^ 16 + s.fwSlot.vkey % 4 * 2 ^ 20 + b2n s.sec.jtagSeen * 2 ^ 22 +
    b2n s.sec.jtagAttached * 2 ^ 23 + b2n s.sec.jtagLock * 2 ^ 24 + b2n s.anyConf * 2 ^ 25

end Sys2Proof.Machine
end

