-- ==== Sys2Proof/Machine/Mgmt.lean ====
section
/-! DEFINITION. The hawk and the monitors around it (17_management_and_health R440 to R457; 12_host_interface R335 to R339; 15_security R400,
R405 to R411; 14_partitions R382, R383; 16_checkpoint R436): HAWK_READY, HEARTBEAT, MGMT_TICK, MGMT_DOMAIN_RESET, PUPOAC_DATAGRAM, the
services, WEAR_SAMPLE, RST_REQ, DYNAMIC_ADDRESS_ASSIGN, THERMAL_SAMPLE, JTAG_ATTACH, JTAG_DETACH. -/

namespace Sys2Proof.Machine

/-! ### Ready, heartbeat, tick (R440, R441, R382) -/

/-- The hawk blows the fuses its firmware asks for (15_security R407): SVN fuses up to SVN, revocation fuses of keys below VKEY. -/
def State.blowFuses (s : State) : State :=
  let w := s.fwSlot
  s.modSec (fun c => { c with
    fuseSvn := max c.fuseSvn w.svn
    revoked := (List.range 4).foldl (fun r k => if bitAt w.revoke k && decide (k < w.vkey) && !bitAt r k then r + 2 ^ k else r) c.revoked })

/-- Mailboxes filled while the hawk was down whose message it does not heed are emptied with ERR (12 R335). -/
def State.ignoreUnheard (s : State) : State :=
  s.host.mbx.foldl (fun s m => if m.2.go && !m.2.heard then s.ignoreMbx (m.1 / 64) (m.1 % 64) else s) s

/-- HAWK_READY (R440): after a module reset the standard programs are loaded and, in full span, partition 0 is created; the heartbeat
starts and YK_MDR.IN_RESET clears. A boot ROM without an acceptable slot never gets here (15_security R405). -/
def execHawkReady (s : State) : Out3 :=
  whenUp s (fun s =>
    if !s.host.inReset || s.sec.running == noSlot then s
    else
      let s1 := if s.mgmt.loaded then s
        else
          let s2 := s.modSec (fun c => { c with stdFrom := s.fwSlot.digest })
          if s.part.composable ∨ s.partExists 0 then s2 else s2.createFullSpan
      let s3 := s1.modMgmt (fun m => { m with ready := true, failed := false, loaded := true, hb := 0, hbAt := m.ms })
      let s4 := (s3.modHost (fun h => { h with inReset := false, hb := 0 })).modCkpt (fun c => { c with msHalf := 0 })
      s4.blowFuses.ignoreUnheard)

/-- HEARTBEAT (R441): once every 10 management ticks. -/
def execHeartbeat (s : State) : Out3 :=
  whenUp s (fun s =>
    if s.hawkUp && decide (s.mgmt.hbAt + 10 ≤ s.mgmt.ms) then
      (s.modMgmt (fun m => { m with hb := m.hb + 1, hbAt := m.hbAt + 10 })).modHost (fun h => { h with hb := h.hb + 1 })
    else s)

/-- MiB of a byte count, rounded up. -/
def mib (n : Nat) : Nat := ceilDiv n (2 ^ 20)

/-- What a management tick adds to a partition's open composition (R382): its clusters, and the MiB it holds in each tier. -/
def State.meterStep (s : State) (p : Nat) : Meters :=
  let cls := s.clustersOf p
  { clusterMs := cls.length
    t0 := mib (sumOf (fun c => s.t0Used c + s.hdr0Used c + kib4 * s.poolUsed c) cls)
    t1 := mib (sumOf s.t1Used cls)
    t2 := mib (s.t2Used p + s.ixUsed p)
    t3 := mib (sumOf s.winUsed (s.winsOf p)) }

/-- Meters added up, each counter modulo 2^64. -/
def Meters.add (a b : Meters) : Meters :=
  { clusterMs := (a.clusterMs + b.clusterMs) % 2 ^ 64
    t0 := (a.t0 + b.t0) % 2 ^ 64
    t1 := (a.t1 + b.t1) % 2 ^ 64
    t2 := (a.t2 + b.t2) % 2 ^ 64
    t3 := (a.t3 + b.t3) % 2 ^ 64 }

/-- The meters of every open composition advance. -/
def State.meterAll (s : State) : State :=
  s.partList.foldl (fun t p => t.modPart p (fun x =>
    { x with comps := listMod (fun c => c.endMs.isNone) (fun c => { c with m := c.m.add (s.meterStep p) }) x.comps })) s

/-- The coarse readings are refreshed (R453): once every 1,000 management ticks. -/
def Mgmt.refresh (m : Mgmt) : Mgmt :=
  if m.ms % 1000 = 0 then
    { m with
      coarse := m.sensors.map (fun x => (x.1, { x.2 with temp := coarseTemp x.2.temp, max_ := coarseTemp x.2.max_ }))
      coarseIn := m.inputW - m.inputW % 50
      coarsePeak := m.peakW - m.peakW % 50 }
  else m

/-- MGMT_TICK: the meters advance while the hawk is up (R382, 16 R435), the lease ages (12 R337), the timer half counts (16 R418). -/
def execMgmtTick (s : State) : Out3 :=
  whenUp s (fun s =>
    let s1 := s.modMgmt (fun m => ({ m with ms := m.ms + 1 } : Mgmt).refresh)
    let s2 := if s.hawkUp then s1.meterAll.modCkpt (fun c => { c with msHalf := c.msHalf + 1 }) else s1
    s2.modHost (fun h => { h with age := if h.holder = 0 then h.age else min 2047 (h.age + 1), claimedByB := false }))

/-! ### Management-domain reset (12 R339; 16 R436; 18 R471) -/

/-- The counters of the health block. -/
def hlthCtrs : List Counter := [.hlthThrEvt, .hlthPupDrop, .hlthMbxServed]

/-- The management domain is reset: mailboxes are emptied with ERR, requests, staging and reports in progress are dropped, health and
telemetry take their reset values, the boot ROM takes a firmware slot again. The data plane runs on. -/
def State.domainReset (s : State) : State :=
  let s1 := s.host.mbx.foldl (fun s m => if m.2.go then s.emptyMbx (m.1 / 64) (m.1 % 64) [] true else s) s
  let s2 := s1.modMgmt (fun m => { m with
    ready := false
    failed := false
    hb := 0
    pup := []
    staging := none
    sensors := m.sensors.map (fun x => (x.1, { x.2 with max_ := x.2.temp }))
    peakW := m.inputW
    i3cPtr := 0
    i3cDyn := none })
  let s3 := s2.modSec (fun c => { c with attests := [], running := c.bootSlot })
  let s4 := s3.modHost (fun h => { h with inReset := true, hb := 0 })
  { s4 with ctrs := s4.ctrs.filter (fun c => !hlthCtrs.any (fun k => k.num == c.1 / 65536)) }

/-- MGMT_DOMAIN_RESET: a write of YK_MDR on a port. It resets with RESET and the key set, by the lease holder, while no such reset is
in progress; any other RESET write is ignored and counted. -/
def execMgmtDomainReset (port value : Nat) (s : State) : Out3 :=
  whenUp s (fun s =>
    if 2 ≤ port then s
    else
      let s1 := s.modHost (fun h => { h with mdrWorb := value % 2 + bits value 8 8 * 2 ^ 8 })
      if !bitAt value 0 then s1
      else if s.host.inReset ∨ s.host.holder ≠ port + 1 ∨ bits value 8 8 ≠ 0x5A then s1.leaseIgnored port
      else s1.domainReset)

/-! ### Requests and their order (R442, R445) -/

/-- A request the hawk serves: over Pupoac, or in a mailbox of a port. -/
inductive ReqPath where
  | pupoac (seq : Nat)
  | mailbox (port n tag : Nat)
  deriving DecidableEq, Repr

/-- A request: its path, service and payload. -/
structure MReq where
  path : ReqPath
  svc : Nat
  op : Nat
  payload : Bytes
  deriving DecidableEq, Repr

/-- The request a full mailbox holds (12 R336). -/
def Mailbox.req (m : Mailbox) (port n : Nat) : MReq :=
  let w := (m.data.headD 0).toNat
  { path := .mailbox port n (bits w 20 12), svc := bits w 0 8, op := bits w 8 8, payload := wordBytes ((m.data.take (m.len - 1)).drop 1) }

/-- The mailboxes that hold a message, secure ones or the others, lowest number first and port A before B. -/
def State.fullMbx (s : State) (secure : Bool) : List MReq :=
  (List.range 64).flatMap (fun n => [0, 1].filterMap (fun port =>
    let m := s.mbxAt port n
    if m.go && decide (n < 16) == secure then some (m.req port n) else none))

/-- The request the hawk serves next (R442): secure mailboxes, then Pupoac in order of arrival, then the other mailboxes. -/
def State.nextReq (s : State) : Option MReq :=
  (s.fullMbx true ++ s.mgmt.pup.map (fun p => (⟨.pupoac p.seq, p.svc, p.op, p.payload⟩ : MReq)) ++ s.fullMbx false).head?

/-- The services the hawk knows. -/
def svcKnown (svc op : Nat) : Bool :=
  match svc with
  | 1 => op == 1
  | 2 => decide (1 ≤ op) && decide (op ≤ 3)
  | 3 => op == 1
  | 4 => op == 1 || op == 2
  | 5 => op == 1
  | 6 => op == 1 || op == 2
  | 7 => decide (1 ≤ op) && decide (op ≤ 4)
  | 8 => op == 1 || op == 2
  | _ => false

/-- Whether a service may be asked for on a path (R445): some only over Pupoac, some only over Pupoac and the secure mailboxes. -/
def svcAllowed (svc op : Nat) : ReqPath → Bool
  | .pupoac _ => true
  | .mailbox _ n _ =>
    if svc = 5 ∨ svc = 8 ∨ (svc = 7 ∧ op ≠ 4) then false
    else if (svc = 6 ∧ op = 2) ∨ svc = 7 then decide (n < 16)
    else true

/-! ### Replies (R446, R447, R449) -/

/-- A Pupoac datagram without its tag. -/
def pupHead (reply svc op st len seq : Nat) : Bytes :=
  natLe 1 (1 + 16 * reply) ++ natLe 1 svc ++ natLe 1 op ++ natLe 1 st ++ natLe 4 len ++ natLe 8 seq ++ natLe 8 Config.serial.toNat ++
    List.replicate 8 0

/-- A reply datagram with its tag under the management key. -/
def pupReply (r : MReq) (seq : Nat) (st : Status) (b : Bytes) : Bytes :=
  let d := pupHead 1 r.svc r.op st.code b.length seq ++ b
  d ++ hmacSha256 Config.mgmtKey d

/-- Bytes as mailbox words. -/
def bytesWords (b : Bytes) : List W32 := (chunks 4 (b.length + 1) b).map (fun w => BitVec.ofNat 32 (leNat w))

/-- A mailbox reply with its CRC word (12 R336). -/
def mbxReply (r : MReq) (tag : Nat) (st : Status) (rest : List W32) : List W32 :=
  let l := BitVec.ofNat 32 (r.svc + r.op * 2 ^ 8 + 2 ^ 16 + tag * 2 ^ 20) :: BitVec.ofNat 32 st.code :: rest
  l ++ [BitVec.ofNat 32 (crc32c (wordBytes l))]

/-- The buffer of a mailbox request (R449): bus address and length. -/
def MReq.buffer (r : MReq) : Nat × Nat := (field r.payload 0 8, field r.payload 8 4)

/-- Answer the next request and let it go. A mailbox result that does not fit its reply goes to the request's buffer; one that is too
short is answered with FORMAT_INVALID. -/
def State.reply (s : State) (r : MReq) (st : Status) (b : Bytes) : State :=
  match r.path with
  | .pupoac seq => (s.emitOut (.pupoac (pupReply r seq st b))).modMgmt (fun m => { m with pup := m.pup.drop 1 })
  | .mailbox port n tag =>
    let out : State → Status → List W32 → State := fun s st l => ((s.emptyMbx port n (mbxReply r tag st l) false).bump .hlthMbxServed 0)
    if st ≠ .ok then out s st []
    else if b.length ≤ 52 then out s .ok (bytesWords b)
    else if r.buffer.2 < b.length ∨ 2 ^ 64 < r.buffer.1 + r.buffer.2 then out s .formatInvalid []
    else out (s.emitOut (.hostWrite port r.buffer.1 b)) .ok [BitVec.ofNat 32 b.length]

/-- Answer the requests at the front that name no service. -/
def State.skipUnknown : Nat → State → State
  | 0, s => s
  | n + 1, s =>
    match s.nextReq with
    | some r => if svcKnown r.svc r.op then s else State.skipUnknown n (s.reply r .formatInvalid [])
    | none => s

/-- More requests than can wait: 128 mailboxes and 64 datagrams. -/
def maxReqs : Nat := 192

/-- Serve the hawk's next request if it is one for this service: refused on a path that may not ask for it. -/
def serve (s : State) (svc op : Nat) (f : State → MReq → State) : Out3 :=
  whenUp s (fun s =>
    if !s.hawkUp then s
    else
      let s1 := State.skipUnknown maxReqs s
      match s1.nextReq with
      | none => s1
      | some r =>
        if r.svc ≠ svc ∨ r.op ≠ op then s1
        else if !svcAllowed svc op r.path then s1.reply r .secureOnly []
        else f s1 r)

/-! ### Pupoac (R442, R446, R447; 15_security R410) -/

/-- Whether a datagram passes the checks of R447. -/
def State.pupOk (s : State) (d : Bytes) : Bool :=
  let len := field d 4 4 % 2 ^ 11
  let body := d.take (d.length - 32)
  d.length == 64 + len && decide (len ≤ 1152) && byteAt d 0 % 16 == 1 && field d 16 8 == Config.serial.toNat &&
    decide (d.drop (d.length - 32) = hmacSha256 Config.mgmtKey body) && decide (s.sec.seqHw < field d 8 8)

/-- PUPOAC_DATAGRAM: dropped where the queue is full or a check fails; else it waits, and SEQ_HW takes its number. -/
def execPupoacDatagram (data : Bytes) (s : State) : Out3 :=
  whenUp s (fun s =>
    if !s.hawkUp then s
    else if 64 ≤ s.mgmt.pup.length then s.bump .hlthPupDrop 0
    else if !s.pupOk data then s.bump .secMgmtReject 0
    else
      let p : Pup := { svc := byteAt data 1, op := byteAt data 2, seq := field data 8 8, payload := slice data 32 (data.length - 64) }
      (s.modSec (fun c => { c with seqHw := field data 8 8 })).modMgmt (fun m => { m with pup := m.pup ++ [p] }))

/-! ### INFO, HEALTH, WEAR, METER (R445) -/

/-- SVN and validity of the two firmware slots. -/
def State.slotBytes (s : State) : Bytes := [0, 1].flatMap (fun n => let w : FwSlot := (s.sec.slots[n]?).getD {}; [byte w.svn, byte (b2n w.valid)])

/-- INFO: identity registers, serial number, HLTH_STATE, heartbeat, firmware slots, the sensor of the last trip (0xFF none). -/
def execInfo (s : State) : Out3 :=
  serve s 1 1 (fun s r =>
    s.reply r .ok (natLe 4 s.idPart ++ natLe 4 idVersion ++ natLe 4 s.idCap ++ natLe 4 Config.keyGroup.toNat ++
      natLe 8 Config.serial.toNat ++ natLe 4 s.hlthState ++ natLe 4 s.mgmt.hb.toNat ++ s.slotBytes ++ natLe 1 (s.mgmt.trip.getD 0xFF)))

/-- HEALTH, state. -/
def execHealthState (s : State) : Out3 := serve s 2 1 (fun s r => s.reply r .ok (natLe 4 s.hlthState ++ natLe 8 s.hlthStack))

/-- HEALTH, sensors: the 32 entries of R456. -/
def execHealthSensors (s : State) : Out3 := serve s 2 2 (fun s r => s.reply r .ok ((List.range 32).flatMap (fun n => natLe 8 (s.hlthSens n))))

/-- HEALTH, power. -/
def execHealthPower (s : State) : Out3 := serve s 2 3 (fun s r => s.reply r .ok (natLe 8 s.hlthPwr))

/-- WEAR: the 59 entries of R454. -/
def execWear (s : State) : Out3 := serve s 3 1 (fun s r => s.reply r .ok ((List.range 59).flatMap (fun n => natLe 8 (s.hlthWear n))))

/-- METER: the report of R383 for PART and WHICH. -/
def execMeter (s : State) : Out3 :=
  serve s 5 1 (fun s r =>
    let p := Config.reqField 5 1 0 r.payload % 16
    match (s.getPart p).comp? (Config.reqField 5 1 1 r.payload % 16) with
    | none => s.reply r .badState []
    | some k => s.reply r .ok (meterBytes p k))

/-! ### ATTEST (15_security R408, R409) -/

/-- Whether a request may ask for a report: any party of the management network; PF0 for the unit and the partitions of its port; a VF
for its own partition (R408). -/
def State.attestAllowed (s : State) (path : ReqPath) (kind part : Nat) : Bool :=
  match path with
  | .pupoac _ => true
  | .mailbox port n _ =>
    let fn := mbxOwner port n
    if fnIsPf0 fn then kind == 0 || s.partOnPort part port else kind == 1 && s.fnPart fn == some part

/-- The function that asks; none over Pupoac. -/
def ReqPath.fn : ReqPath → Nat
  | .pupoac _ => fnCount
  | .mailbox port n _ => mbxOwner port n

/-- Whether a request comes over Pupoac. -/
def ReqPath.isMgmt : ReqPath → Bool
  | .pupoac _ => true
  | .mailbox _ _ _ => false

/-- The bytes of a report. -/
def reportLen : Nat := 8128

/-- ATTEST_START: a report is queued, at most 8; the reply is its ticket. -/
def execAttestStart (s : State) : Out3 :=
  serve s 4 1 (fun s r =>
    let kind := Config.reqField 4 1 0 r.payload % 2
    let part := Config.reqField 4 1 1 r.payload % 16
    if !s.attestAllowed r.path kind part then s.reply r .secureOnly []
    else if !r.path.isMgmt && decide (r.buffer.2 < reportLen) then s.reply r .formatInvalid []
    else if kind = 1 ∧ !s.partExists part then s.reply r .badState []
    else if 8 ≤ (s.sec.attests.filter (fun a => !a.ready)).length then s.reply r .noSpace []
    else
      let a : Attest := { ticket := s.sec.nextTicket, fn := r.path.fn, mgmt := r.path.isMgmt, kind := kind, part := part,
                          nonce := fit 0 32 (Config.reqNonce r.payload) }
      let s1 := s.modSec (fun c => { c with attests := c.attests ++ [a], nextTicket := (c.nextTicket + 1) % 2 ^ 32 })
      s1.reply r .ok (natLe 4 a.ticket))

/-- An image digest (R409): over the image from byte 0 to the end of its data. -/
def imageDigest (img : Bytes) : Bytes := sha256 (img.take (progBody img))

/-- The 256 bytes of a report as the device stands (R409). -/
def State.reportBody (s : State) (a : Attest) : Bytes :=
  let x := s.getPart a.part
  let of : Bytes → Bytes := fun b => if a.kind = 1 then b else List.replicate b.length 0
  let progs := listSort (fun (g h : Prog) => decide (g.id < h.id)) (s.cores.progs.filter (fun g => g.part == a.part && g.live && !g.gone))
  let zero : Bytes := List.replicate 32 0
  let comp := ((x.comps.find? (fun c => c.endMs.isNone)).map (·.num)).getD 0
  fit 0 256 (natLe 1 (1 + 16 * a.kind) ++ natLe 1 (if a.kind = 1 then a.part else 0) ++
    natLe 1 (b2n s.anyConf + 2 * b2n s.sec.jtagLock + 4 * b2n s.sec.jtagSeen + 8 * b2n (a.kind == 1 && x.conf)) ++ natLe 1 0 ++
    natLe 4 s.idPart ++ natLe 4 idVersion ++ natLe 4 s.idCap ++ natLe 4 Config.keyGroup.toNat ++
    natLe 4 (s.sec.fuseSvn + s.fwSlot.svn * 2 ^ 8 + s.sec.revoked % 16 * 2 ^ 16 + s.fwSlot.vkey % 4 * 2 ^ 20) ++
    natLe 8 Config.serial.toNat ++ fit 0 32 a.nonce ++ fit 0 32 s.fwSlot.digest ++ fit 0 32 (Config.stdDigest s.sec.stdFrom) ++
    of (if x.conf then fit 0 32 (sha256 x.owner) else zero) ++
    of (if progs.isEmpty then zero else sha256 (progs.flatMap (fun g => natLe 1 g.id ++ imageDigest g.img))) ++
    of (natLe 4 (if s.part.composable then sumOf (fun c => 2 ^ c) x.clusters else 0xFFFFFFFF)) ++ of (natLe 4 comp) ++
    natLe 8 (s.mgmt.ms % 2 ^ 48) ++ (List.range 8).flatMap (fun k => natLe 4 (Config.idPub k).toNat))

/-- A signature block of the identity key (R401): its 16 header bytes and the signature. -/
def attestBlock (body : Bytes) : Bytes :=
  let head := natLe 1 1 ++ natLe 1 1 ++ natLe 1 2 ++ List.replicate 13 0
  head ++ fit 0 (sigLen - 16) (Config.sign (ascii "YK-ATT-1" ++ sha256 (body ++ head)))

/-- ATTEST_SIGNED: the oldest report waiting is made and signed. -/
def execAttestSigned (s : State) : Out3 :=
  whenUp s (fun s =>
    match s.sec.attests.find? (fun a => !a.ready) with
    | none => s
    | some a =>
      if !s.hawkUp then s
      else
        let body := s.reportBody a
        s.modSec (fun c => { c with
          attests := listMod (fun x => x.ticket == a.ticket) (fun x => { x with ready := true, report := body ++ attestBlock body }) c.attests }))

/-- ATTEST_READ: the bytes of a signed report to the party that asked for it: the whole report into a mailbox request's buffer, as many
as a datagram holds from an offset on over Pupoac. -/
def execAttestRead (s : State) : Out3 :=
  serve s 4 2 (fun s r =>
    match s.sec.attests.find? (fun a => a.ticket == Config.reqField 4 2 0 r.payload % 2 ^ 32) with
    | none => s.reply r .badState []
    | some a =>
      if a.mgmt ≠ r.path.isMgmt ∨ a.fn ≠ r.path.fn then s.reply r .secureOnly []
      else if !a.ready then s.reply r .badState []
      else if a.mgmt then s.reply r .ok (slice a.report (Config.reqField 4 2 1 r.payload) 1152)
      else s.reply r .ok a.report)

/-! ### BOOTCFG (R443, R444) -/

/-- The 64 bytes of a record. -/
def BootCfg.bytes (c : BootCfg) : Bytes :=
  let b := fit 0 60 (natLe 1 c.ver ++ natLe 1 (b2n c.composable + 2 * c.pool) ++ natLe 2 c.pwrLimit ++ natLe 1 c.prefix_ ++
    List.replicate 3 0 ++ natLe 16 c.addr)
  b ++ natLe 4 (crc32c b)

/-- The record that bytes spell. -/
def bootCfgOf (b : Bytes) : BootCfg :=
  { ver := byteAt b 0 % 16, composable := bitAt (byteAt b 1) 0, pool := b2n (bitAt (byteAt b 1) 1), pwrLimit := field b 2 2,
    prefix_ := byteAt b 4, addr := field b 8 16 }

/-- Whether a record is in range. -/
def BootCfg.ok (c : BootCfg) : Bool := c.ver == 1 && decide (1000 ≤ c.pwrLimit) && decide (c.pwrLimit ≤ 2000) && decide (c.prefix_ ≤ 128)

/-- BOOTCFG_GET: the record in force, and the pending one. -/
def execBootcfgGet (s : State) : Out3 := serve s 6 1 (fun s r => s.reply r .ok (s.mgmt.cfg.bytes ++ s.mgmt.bootCfg.bytes))

/-- BOOTCFG_SET: both copies take the record, in force from the next module reset on. -/
def execBootcfgSet (s : State) : Out3 :=
  serve s 6 2 (fun s r =>
    let c := bootCfgOf r.payload
    if c.ok then (s.modMgmt (fun m => { m with cfgA := some c, cfgB := some c })).reply r .ok [] else s.reply r .formatInvalid [])

/-! ### FIRMWARE (R448; 15_security R401, R405) -/

/-- The slot that is not running. -/
def State.spareSlot (s : State) : Nat := if s.sec.running = 0 then 1 else 0

/-- Put a firmware slot. -/
def State.setSlot (s : State) (n : Nat) (w : FwSlot) : State := s.modSec (fun c => { c with slots := c.slots.set n w })

/-- The largest image. -/
def fwMax : Nat := 25165824

/-- FIRMWARE_BEGIN: the slot not running is erased, any staging in progress discarded. -/
def execFirmwareBegin (s : State) : Out3 :=
  serve s 7 1 (fun s r =>
    let n := Config.reqField 7 1 0 r.payload
    if n = 0 ∨ fwMax < n then s.reply r .formatInvalid []
    else ((s.setSlot s.spareSlot {}).modMgmt (fun m => { m with staging := some { size := n } })).reply r .ok [])

/-- The staging buffer with bytes written at an offset: each byte received is listed, a zero byte too, and bytes written again take their
place (R448). -/
def stageWrite (m : Tab Byte) (o : Nat) : Bytes → Tab Byte
  | [] => m
  | b :: t => stageWrite (tabSet m o b) (o + 1) t

/-- FIRMWARE_WRITE: OFFSET, then 1 to 1,024 bytes of data. -/
def execFirmwareWrite (s : State) : Out3 :=
  serve s 7 2 (fun s r =>
    match s.mgmt.staging with
    | none => s.reply r .badState []
    | some g =>
      let o := field r.payload 0 4
      let d := r.payload.drop 4
      if g.committed then s.reply r .badState []
      else if d = [] ∨ 1024 < d.length ∨ g.size < o + d.length then s.reply r .formatInvalid []
      else
        let data := stageWrite g.data o d
        (s.modMgmt (fun m => { m with staging := some { g with data := data, got := data.length } })).reply r .ok [])

/-- FIRMWARE_COMMIT: the staged image is verified, and its slot becomes one the boot ROM tries. -/
def execFirmwareCommit (s : State) : Out3 :=
  serve s 7 3 (fun s r =>
    match s.mgmt.staging with
    | none => s.reply r .badState []
    | some g =>
      let img := memRead g.data 0 g.size
      let before := img.take (g.size - sigLen)
      let block := img.drop (g.size - sigLen)
      let key := byteAt block 3 % 4
      let svn := field block 4 4 % 128
      if g.got < g.size ∨ g.size < sigLen ∨ bitAt s.sec.revoked key ∨ !sigBlockOk 0 (Config.vendorKey key) "YK-FW-1" before block then
        s.reply r .digestMismatch []
      else if svn < s.sec.fuseSvn ∨ 64 < svn then s.reply r .versionUnsupported []
      else
        let w : FwSlot := { valid := true, svn := svn, vkey := key, digest := sha256 before, revoke := byteAt block 8 % 16 }
        ((s.setSlot s.spareSlot w).modMgmt (fun m => { m with staging := some { g with committed := true } })).reply r .ok [])

/-- FIRMWARE_STATUS: the staging state (0 none, 1 in progress, 2 committed), the bytes received, the slots. -/
def execFirmwareStatus (s : State) : Out3 :=
  serve s 7 4 (fun s r =>
    let st := match s.mgmt.staging with
      | none => 0
      | some g => if g.committed then 2 else 1
    s.reply r .ok (natLe 4 st ++ natLe 4 ((s.mgmt.staging.map (·.got)).getD 0) ++ s.slotBytes))

/-! ### RESET (R448, R451) -/

/-- Whether a RESET carries its key. -/
def MReq.keyOk (r : MReq) : Bool := byteAt r.payload 0 == 0x5A

/-- PUPOAC_RESET_MGMT: the reply, then the management-domain reset; no lease is needed. -/
def execPupoacResetMgmt (s : State) : Out3 :=
  serve s 8 1 (fun s r => if r.keyOk then (s.reply r .ok []).domainReset else s.reply r .formatInvalid [])

/-- PUPOAC_RESET_MODULE: the reply, then the module reset, which MODULE_RESET makes. -/
def execPupoacResetModule (s : State) : Out3 :=
  serve s 8 2 (fun s r =>
    if r.keyOk then (s.reply r .ok []).modPwr (fun p => { p with pendCause := 3 }) else s.reply r .formatInvalid [])

/-- Whether the I3C target answers: not during a management-domain reset (R450). -/
def State.i3cUp (s : State) : Bool := !(s.host.inReset && s.mgmt.loaded)

/-- The offset of RST_REQ in the I3C registers. -/
def rstReqAt : Nat := 0x50

/-- RST_REQ (R451): a private write leaves the register pointer at RST_REQ (R450), and 0xA5 asks for a module reset; any other value is
ignored. -/
def execRstReq (value : Nat) (s : State) : Out3 :=
  whenUp s (fun s =>
    if !s.i3cUp then s
    else
      let s1 := s.modMgmt (fun m => { m with i3cPtr := rstReqAt })
      if value ≠ 0xA5 ∨ s.mgmt.resetReq then s1
      else (s1.modMgmt (fun m => { m with resetReq := true, resetAt := m.ms })).modPwr (fun p =>
        { p with pendCause := if p.pendCause = 0 then 2 else p.pendCause }))

/-- The bytes of the I3C registers from offset 0 on (R450); every offset above them reads 0. -/
def State.i3cRegs (s : State) : Bytes :=
  natLe 4 s.idPart ++ natLe 4 s.hlthState ++ natLe 4 s.mgmt.hb.toNat ++ natLe 2 s.powerReads.1 ++ natLe 2 s.mgmt.vinCv ++
    (List.range 32).flatMap (fun n => natLe 2 (int16 (s.sensor n).temp)) ++ natLe 1 (b2n s.mgmt.resetReq)

/-- What a private read of `n` bytes returns: the registers from the pointer upward, nothing while the target is unavailable (R450). -/
def State.i3cRead (s : State) (n : Nat) : Option Bytes := if s.i3cUp then some (fit 0 n (slice s.i3cRegs s.mgmt.i3cPtr n)) else none

/-- DYNAMIC_ADDRESS_ASSIGN (R450). -/
def execDynamicAddressAssign (addr : Nat) (s : State) : Out3 :=
  whenUp s (fun s => if s.i3cUp then s.modMgmt (fun m => { m with i3cDyn := some (addr % 128) }) else s)

/-! ### WEAR_SAMPLE (R454) -/

/-- Whether a component was above its temperature when the hour was sampled: a stack above 85 °C, a compute die or its bonded DRAM, or the
hawk's die, above 95 °C. DESIGN CHOICE: 68, the reading that stands at the sample speaks for the hour. -/
def Mgmt.hourHot (m : Mgmt) (n : Nat) : Bool :=
  let above : Nat → Int → Bool := fun k c => decide (c * 16 < (tabGet {} m.sensors k).temp)
  if n < 52 then above (n - 24) 85 else if n < 56 then above (n - 52) 95 || above (n - 48) 95 else above 28 95

/-- The RAW of an entry at an hourly sample: equivalent hours count 1, or 4 above the component's temperature; the erase cycles of the
flash channels and of the boot store are measured. -/
def State.wearNext (s : State) (raws : List Nat) (n : Nat) : Nat :=
  if n < 32 then (if s.isN then 0 else raws.getD n 0)
  else if n < 57 then tabGet 0 s.mgmt.wear n + (if s.mgmt.hourHot n then 4 else 1)
  else raws.getD n 0

/-- WEAR_SAMPLE: hourly, each entry's RAW goes into its ring of 720 samples. -/
def execWearSample (raws : List Nat) (s : State) : Out3 :=
  whenUp s (fun s =>
    if !s.hawkUp || decide (s.mgmt.ms < (s.mgmt.wearHour + 1) * 3600000) then s
    else
      let s1 := s.modMgmt (fun m => { m with
        wear := (List.range 58).foldl (fun t n => tabPut 0 t n (s.wearNext raws n)) m.wear
        wearHour := m.wearHour + 1 })
      (List.range 59).foldl (fun t n => t.modMgmt (fun m =>
        { m with wearRing := tabMod [] m.wearRing n (fun l => (s1.wearRaw n :: l).take 720) })) s1)

/-! ### THERMAL_SAMPLE (R452, R453) -/

/-- A sensor takes a reading: a throttle begins at the limit, and ends 5 °C below it. -/
def sensorStep (n : Nat) (old : Option Sensor) (t : Int) : Sensor :=
  let was := (old.map (·.throttle)).getD false
  let lim : Int := thrLimit n * 16
  { temp := t
    max_ := max t ((old.map (·.max_)).getD t)
    throttle := if thrLimit n = 0 then false else if lim ≤ t then true else was && decide (lim - 80 < t) }

/-- THERMAL_SAMPLE: every 100,000 ticks the monitor samples the sensors, in sixteenths of a degree, the power averaged over 1,000,000
ticks, INPUT_W and VIN_CV. A sensor at its trip limit puts the module into a safe state: its number goes to the boot store. -/
def execThermalSample (temps : List Int) (avg input vin : Nat) (s : State) : Out3 :=
  whenUp s (fun s =>
    let m := s.mgmt
    let next : Nat → Sensor := fun n => sensorStep n (tabGet? m.sensors n) (temps.getD n 0)
    let begun := ((List.range 32).filter (fun n => (next n).throttle && !(tabGet {} m.sensors n).throttle)).length
    let pwr := if m.cfg.pwrLimit < avg then true else m.pwrThrottle && decide (95 * m.cfg.pwrLimit ≤ 100 * avg)
    let s1 := s.modMgmt (fun m => { m with
      sensors := (List.range 32).map (fun n => (n, next n))
      avgW := avg
      pwrThrottle := pwr
      inputW := input
      vinCv := vin
      peakW := max m.peakW input })
    let s2 := s1.bumpBy .hlthThrEvt 0 (begun + b2n (pwr && !m.pwrThrottle))
    match (List.range 30).find? (fun n => decide (((tripLimit n * 16 : Nat) : Int) ≤ temps.getD n 0)) with
    | none => s2
    | some n =>
      let s3 := (s2.modMgmt (fun m => { m with trip := some n })).safe .safeTrip
      s3.modPwr (fun p => { p with rails := if n = 28 then 0 else 1 }))

/-! ### JTAG (15_security R400, R412) -/

/-- JTAG_ATTACH: refused while JTAG_LOCK is 1. -/
def execJtagAttach (s : State) : Out3 :=
  whenUp s (fun s => if s.sec.jtagLock then s else s.modSec (fun c => { c with jtagAttached := true, jtagSeen := true }))

/-- JTAG_DETACH. -/
def execJtagDetach (s : State) : Out3 := whenUp s (fun s => s.modSec (fun c => { c with jtagAttached := false }))

end Sys2Proof.Machine
end

