-- ==== Sys2Proof/Machine/Moves.lean ====
section
/-! DEFINITION. Moves between units (13_cunis_link R359 to R362; 02_sessions R36): SESS_EXPORT at the source, the reservation and its
log and KV at the destination, the MOVE messages of both. -/

namespace Sys2Proof.Machine

/-- Act on the MOVE message of a subtype at the head of a port's VC3: it is taken, and the effect gets the partition of the port. -/
def onMove (s : State) (port sub : Nat) (f : State → Nat → MoveBody → Msg → State) : Out3 :=
  whenUp s (fun s =>
    match s.headMsg port 3 9, s.portPart port with
    | some m, some part => if (moveBodyOf m).sub = sub then f (s.takeMsg port 3 m) part (moveBodyOf m) m else s
    | some m, none => s.takeMsg port 3 m
    | none, _ => s)

/-! ### The destination (R361) -/

/-- Send an answer to the source of an entry's reservation, or of an OFFER. -/
def State.moveAnswer (s : State) (port sub : Nat) (st : Status) (b : MoveBody) : State :=
  s.send port (moveMsg { sub := sub, status := st.code, src := b.src, dst := b.dst } [])

/-- The reservation a LOG, KV, DONE or ABANDON speaks of: of this port, source session and destination entry. -/
def State.reserved? (s : State) (port : Nat) (b : MoveBody) : Option MoveIn :=
  s.link.ins.find? (fun m => m.port == port && m.srcHandle == b.src && handleOf m.sess (s.getSess m.sess) == b.dst)

/-- The staged log is complete: the first append of R36 with its tokens, then LOGGED (R361). An entry that a command took out of OPEN ends
the stage with BAD_STATE. -/
def State.moveApply (s : State) (m : MoveIn) : State :=
  let x := s.getSess m.sess
  if x.st ≠ .opened ∨ x.total ≠ 0 ∨ x.busyCmd then s.endIn m.sess .badState
  else if m.total = 0 then s.moveLogged m.sess
  else
    let s1 := s.applyAppend m.sess 0 m.staged
    if x.domain ≠ 0 then s1
    else if (s1.getSess m.sess).st = .hot then s1.moveLogged m.sess
    else s1.endIn m.sess .noSpace

/-- Accept an OFFER: the entry is reserved, its staged log empty. -/
def State.moveReserve (s : State) (m : MoveIn) (b : MoveBody) : State :=
  let s1 := s.modLink (fun l => { l with ins := l.ins.filter (fun q => q.sess != m.sess) ++ [m] })
  let s2 := s1.moveAnswer m.port 1 .ok b
  if m.total = 0 then s2.moveApply m else s2

/-- MOVE_OFFER (R361). -/
def execMoveOffer (port : Nat) (s : State) : Out3 :=
  onMove s port 0 (fun s part b m =>
    let p := s.port port
    match s.handle? part b.dst with
    | none => s.moveAnswer port 2 .badSession b
    | some id =>
      let x := s.getSess id
      let fresh : MoveIn := { sess := id, port := port, keyGroup := p.peerKey, inst := p.peerInst, srcHandle := b.src, total := b.total,
                              kvLen := b.kvLen }
      match s.moveIn? id with
      | some r =>
        if r.keyGroup ≠ p.peerKey ∨ r.inst ≠ p.peerInst ∨ r.srcHandle ≠ b.src then s.moveAnswer port 2 .badState b
        else if r.applied then (s.modIn id (fun r => { r with port := port })).moveLogged id
        else if r.total ≠ 0 ∧ r.staged.length = r.total then s.modIn id (fun r => { r with port := port })
        else s.moveReserve fresh b
      | none =>
        if x.st ≠ .opened ∨ x.total ≠ 0 then s.moveAnswer port 2 .badState b
        else if leNat (m.data.take 8) % 2 ^ 36 ≠ (s.model part x.model).geom36 ∨ maxPositions < b.total ∨ b.total < b.kvLen then
          s.moveAnswer port 2 .formatInvalid b
        else s.moveReserve fresh b)

/-- Token-log entries of a LOG message (02_sessions R47). -/
def logToks (data : Bytes) : List LogTok := (chunks 4 (data.length + 1) data).map (fun e => ⟨leNat e % 2 ^ 18, bits (leNat e) 18 2⟩)

/-- MOVE_LOG (R361): entries are staged in position order; the last one completes the log. -/
def execMoveLog (port : Nat) (s : State) : Out3 :=
  onMove s port 3 (fun s _ b m =>
    match s.reserved? port b with
    | none => s
    | some r =>
      let x := s.getSess r.sess
      if r.applied ∨ (r.total ≠ 0 ∧ r.staged.length = r.total) then s
      else if x.st ≠ .opened ∨ x.total ≠ 0 ∨ x.busyCmd then s.endIn r.sess .badState
      else if b.total = 0 ∨ 1008 < b.total ∨ m.data.length ≠ 4 * b.total ∨ b.pos ≠ r.staged.length ∨ r.total < b.pos + b.total then s
      else
        let r1 := { r with staged := r.staged ++ logToks m.data }
        let s1 := s.modIn r.sess (fun _ => r1)
        if r1.staged.length = r1.total then s1.moveApply r1 else s1)

/-- MOVE_KV (R361): written as a KV_APPEND with KV_IN = 1; a rejection is acknowledged at once with its cause. -/
def execMoveKv (port : Nat) (s : State) : Out3 :=
  whenUp s (fun s =>
    match s.headMsg port 3 9, s.portPart port with
    | some m, some part =>
      let b := moveBodyOf m
      if b.sub ≠ 4 then s
      else match s.reserved? port b with
      | none => s.takeMsg port 3 m
      | some r =>
        let k : KvMsg := { port := port, vc := 3, handle := b.dst, pos := b.pos, layer := b.layer, bodyVer := byteAt m.body 1 % 16,
                           count := b.count, kvIn := 1, data := m.data, cost := m.cost }
        match s.kvCheck part false k with
        | .error c => ((s.takeMsg port 3 m).kvReject part k c).endIn r.sess c
        | .ok id => (s.popMsg port 3).kvAccept id k
    | some m, none => s.takeMsg port 3 m
    | none, _ => s)

/-- MOVE_DONE (R361): the ACK follows when LENGTH is KVLEN. -/
def execMoveDone (port : Nat) (s : State) : Out3 :=
  onMove s port 6 (fun s _ b _ =>
    match s.reserved? port b with
    | none => s
    | some r => (s.modIn r.sess (fun r => { r with done := true })).moveDone r.sess)

/-- MOVE_ABANDON (R361, R362): the reservation ends; what was logged or written stays. -/
def execMoveAbandon (port : Nat) (s : State) : Out3 :=
  onMove s port 8 (fun s _ b _ =>
    match s.reserved? port b with
    | none => s
    | some r => s.modLink (fun l => { l with ins := l.ins.filter (fun q => q.sess != r.sess) }))

/-! ### The source (R360) -/

/-- The export an answer speaks of. -/
def State.export? (s : State) (port : Nat) (b : MoveBody) : Option MoveOut :=
  s.link.outs.find? (fun o => o.port == port && handleOf o.sess (s.getSess o.sess) == b.src && o.dst == b.dst)

/-- Whether an offered session is still as its OFFER said (R360). -/
def State.offerHolds (s : State) (o : MoveOut) : Bool :=
  let x := s.getSess o.sess
  x.st == o.prev && x.length == o.len && x.pend == o.pend

/-- Change an export. -/
def State.modOut (s : State) (id : Nat) (f : MoveOut → MoveOut) : State :=
  s.modLink (fun l => { l with outs := listMod (fun o => o.sess == id) f l.outs })

/-- Commit the session to MOVING (export) (R36, R360). -/
def State.commitExport (s : State) (o : MoveOut) : State :=
  (((s.pubStop o.sess .cancelled).upd o.sess (fun x => { x.settled with st := .moving, exporting := true }))).modOut o.sess
    (fun o => { o with phase := .logSent })

/-- Send the LOG messages in position order, 1,008 entries in each (R359, R360). -/
def State.sendLogs (s : State) (o : MoveOut) : State :=
  let x := s.getSess o.sess
  let parts := (chunks 1008 (x.log.length + 1) x.log).zipIdx
  parts.foldl (fun s p =>
    s.send o.port (moveMsg { sub := 3, src := handleOf o.sess x, dst := o.dst, pos := 1008 * p.2, total := p.1.length }
      (p.1.flatMap (fun t => natLe 4 (t.tok + t.src * 2 ^ 18))))) s

/-- After LOGGED the KV from a position on is read, and sent as it is read (R360). -/
def State.sendKv (s : State) (o : MoveOut) (from_ : Nat) : State :=
  (s.modOut o.sess (fun o => { o with phase := .logSent })).queueSends o from_

/-- MOVE_ACCEPT (R360, R362): the session is committed to MOVING (export) where it is still as offered, and its log is sent; otherwise
ABANDON, and the export completes with BAD_STATE. -/
def execMoveAccept (port : Nat) (s : State) : Out3 :=
  onMove s port 1 (fun s _ b _ =>
    match s.export? port b with
    | none => s
    | some o =>
      if o.phase ≠ .offered then s.sendLogs o
      else if s.offerHolds o then (s.commitExport o).sendLogs o
      else s.abandonOut o .badState)

/-- MOVE_LOGGED (R360): KV from the destination's LENGTH on. -/
def execMoveLogged (port : Nat) (s : State) : Out3 :=
  onMove s port 5 (fun s _ b _ =>
    match s.export? port b with
    | none => s
    | some o =>
      if o.phase ≠ .offered then s.sendKv o b.pos
      else if s.offerHolds o then (s.commitExport o).sendKv o b.pos
      else s.abandonOut o .badState)

/-- The destination has acknowledged (R360): a committed export's session goes to FREE, as from ENDED; the command completes with the
status. -/
def State.exportEnds (s : State) (o : MoveOut) (code : Nat) : State :=
  let s1 := s.modLink (fun l => { l with outs := l.outs.filter (fun q => q.sess != o.sess) })
  let s2 := if o.phase = .offered then s1 else if s1.referred o.sess then s1.toEnded o.sess else s1.freeSess o.sess
  s2.done o.serial (statusOfCode code)

/-- MOVE_REFUSE (R360): before the commit the export completes with the status and nothing changes; after it, it is the acknowledgement. -/
def execMoveRefuse (port : Nat) (s : State) : Out3 :=
  onMove s port 2 (fun s _ b _ =>
    match s.export? port b with
    | none => s
    | some o => s.exportEnds o b.status)

/-- MOVE_ACK (R360). -/
def execMoveAck (port : Nat) (s : State) : Out3 :=
  onMove s port 7 (fun s _ b _ =>
    match s.export? port b with
    | none => s
    | some o => s.exportEnds o b.status)

/-- SESS_EXPORT (R360): its checks, then the OFFER. -/
def execSessExport (qk : Nat) (s : State) : Out3 :=
  withSess s qk 0x0A (fun s c id =>
    let x := s.getSess id
    let port := byteAt c.raw 32 % 16
    let p := s.port port
    if !p.framing ∨ s.portPart port ≠ some c.part ∨ (p.st = .up ∧ !bitAt p.feat 1) then s.done c.serial .formatInvalid
    else if p.st ≠ .up ∨ (x.st ≠ .hot ∧ x.st ≠ .idle) ∨ s.link.outs.any (fun o => o.sess == id) then s.done c.serial .badState
    else
      let o : MoveOut := { sess := id, serial := c.serial, port := port, dst := field c.raw 36 4, prev := x.st, len := x.length,
                           pend := x.pend }
      ((s.upd id Sess.disarm).modLink (fun l => { l with outs := l.outs ++ [o] })).sendOffer o)

end Sys2Proof.Machine
end

