-- ==== Sys2Proof/Machine/Readback.lean ====
section
/-! DEFINITION. Which registers a function reaches and what each reads: the address map (01_architecture R22 to R24), the isolation rules
(15_security R390, R391), the dust sheet (R403), and the register tables of every chapter. -/

namespace Sys2Proof.Machine

/-! ### Who reaches what (R390, R391) -/

/-- What an access meets: a register in an instance (partition, function, port or core, 0 for the device), a refusal that is counted, or
nothing. -/
inductive Reach where
  | yes (scope : Nat)
  | denied
  | nothing
  deriving DecidableEq, Repr

/-- The partition whose instances a function reaches, and whether the reach is the limited one of R391: the one it serves, or for PF0 in
composable mode the one in its view. -/
def State.instPart (s : State) (fn : Nat) : Option (Nat × Bool) :=
  if s.part.composable && fnIsPf0 fn then (s.view fn).map (fun p => (p, (s.getPart p).conf)) else (s.fnPart fn).map (fun p => (p, false))

/-- Whether a BAR0 offset is one PF0 reaches of a confidential partition in its view (R391): PART_INFO and PART_QUOTA, the ADM_ and METER_
registers, SF_HWIN_, and the event counters. -/
def limitedOk (o : Nat) : Bool :=
  (decide (0xB00008 ≤ o) && decide (o < 0xB00050)) || (decide (0xB00120 ≤ o) && decide (o < 0xB00150)) ||
    (decide (0x400200 ≤ o) && decide (o < 0x400218)) ||
    counterTable.any (fun e => e.2.2.1 == Scope.part && e.2.1 == o / 8 * 8)

/-- The reach of a per-partition register. -/
def State.partReach (s : State) (fn o : Nat) : Reach :=
  match s.instPart fn with
  | none => .denied
  | some (p, limited) => if limited && !limitedOk o then .denied else .yes p

/-- The reach of a core's window: the cores of the partition a function reaches. -/
def State.coreReach (s : State) (fn core : Nat) : Reach :=
  match s.instPart fn with
  | none => .denied
  | some (p, limited) => if limited || !(s.coresOf p).contains core then .denied else .yes core

/-- The length of a core's window (R24). -/
def coreWindow : Nat := 0x30000

/-- The first core's window. -/
def coreBase : Nat := 0x1000000

/-- The reach of a BAR0 offset (R22, R390). -/
def State.reach (s : State) (fn o : Nat) : Reach :=
  if fnCount ≤ fn then .nothing
  else if o < 0x100000 then .yes fn
  else if !s.bound fn then .denied
  else if o < 0x200000 then .yes fn
  else if o < 0x240000 then (if mbxOwner (fnPort fn) ((o - 0x200000) / 0x1000) = fn then .yes fn else .denied)
  else if o < 0x300000 then .yes fn
  else if o = 0x800000 ∨ o = 0x800130 ∨ o = 0xB00000 then .yes 0
  else if o < 0x900000 then s.partReach fn o
  else if o < 0x910000 then
    let p := (o - 0x900000) / 0x1000
    if fnIsPf0 fn || ((s.fnPart fn).isSome && s.portPart p == s.fnPart fn) then .yes p else .denied
  else if o < 0xA00000 then .yes 0
  else if o < 0xA00100 ∨ (0xA00200 ≤ o ∧ o < 0xA00300) then .yes 0
  else if o < 0xC00000 then s.partReach fn o
  else if o < 0xD00000 then
    if o = 0xC00100 then .yes fn
    else if (0xC00030 ≤ o ∧ o < 0xC00050) ∨ o = 0xC00110 then
      (if o = 0xC00110 ∧ !fnIsPf0 fn then .denied else s.partReach fn o)
    else if fnIsPf0 fn || o < 8 + 0xC00000 && 0xC00000 ≤ o || decide (0xC00010 ≤ o) && decide (o < 0xC00070) then .yes 0
    else .denied
  else if o < coreBase then (if fnIsPf0 fn then .yes 0 else .denied)
  else if o < 0x4000000 then s.coreReach fn ((o - coreBase) / coreWindow)
  else .nothing

/-! ### Counters under the dust sheet (R403) -/

/-- CNT_SHIFT. -/
def State.cntShift (s : State) : Nat := bits (s.reg .secDust 0) 0 5

/-- TIME_SHIFT. -/
def State.timeShift (s : State) : Nat := bits (s.reg .secDust 0) 8 5

/-- EPOCH_LOG2. -/
def State.epochLog2 (s : State) : Nat := bits (s.reg .secDust 0) 16 4

/-- Whether the dust sheet lies over a counter's readings: the event counters of a confidential partition and of the ports bound to it. -/
def State.dusted (s : State) (c : Counter) (k : Scope) (scope : Nat) : Bool :=
  match k with
  | .part => (s.getPart scope).conf && c.num != Counter.admBadcfg.num && c.num != Counter.secSigFail.num
  | .port => match s.portPart scope with
    | some p => (s.getPart p).conf
    | none => false
  | _ => false

/-- A counter as it is read: the latched value under the dust sheet, else the count modulo its width. -/
def State.ctrRead (s : State) (c : Counter) (k : Scope) (width scope : Nat) : Nat :=
  if s.dusted c k scope then (tabGet (0 : Word) s.sec.latch (ctrKey c scope)).toNat else (s.ctr c scope).toNat % 2 ^ width

/-- The counter at an offset of BAR0, or of a port or core block. -/
def ctrAt (kinds : List Scope) (o : Nat) : Option (Counter × Nat × Scope × Nat) :=
  counterTable.find? (fun e => e.2.1 == o && kinds.contains e.2.2.1)

/-- The counter read at an offset, 0 where there is none. -/
def State.readCtr (s : State) (kinds : List Scope) (o scope : Nat) : Nat :=
  match ctrAt kinds o with
  | some e => s.ctrRead e.1 e.2.2.1 e.2.2.2 scope
  | none => 0

/-! ### Copies that a selection takes -/

/-- A block descriptor as it is stored (03_state_fabric R63): 16 bytes as one number; a shared one keeps its location fields at 0 (04 R106). -/
def Desc.stored (d : Desc) : Nat :=
  if !d.valid then 0
  else
    let loc := if d.shared then 0 else d.tier % 4 + d.cluster % 32 * 2 ^ 2 + b2n d.hdrT * 2 ^ 34 + d.base % 2 ^ 28 * 2 ^ 36 + d.hdr % 2 ^ 28 * 2 ^ 64
    let low := loc + b2n d.shared * 2 ^ 7 + (if d.shared then d.ix % 2 ^ 18 else 0) * 2 ^ 8 + d.fill * 2 ^ 26 + 2 ^ 33 + 2 ^ 92
    low + crc32c (natLe 12 low) * 2 ^ 96

/-- The code of a record's state (04_undercoat_directory R105). -/
def RState.code : RState → Nat
  | .free => 0 | .writing => 1 | .valid => 2 | .retired => 3 | .faulted => 4

/-- An entry record's 64 bytes (R105) as one number; a FREE record shows zeros. -/
def Rec.stored (r : Rec) : Nat :=
  if r.st = .free then 0
  else
    let w0 := r.st.code + b2n r.published * 2 ^ 3 + b2n r.tail * 2 ^ 4 + r.fill * 2 ^ 5 + r.depth * 2 ^ 12 + r.refs * 2 ^ 27 +
      r.part * 2 ^ 48 + r.ver * 2 ^ 52
    let w1 := r.domain + r.model * 2 ^ 16 + r.parent * 2 ^ 24 + b2n r.root * 2 ^ 42 + b2n r.tailSet * 2 ^ 43 + r.tailIx * 2 ^ 44
    let w2 := r.tier + r.cluster * 2 ^ 2 + b2n r.hdrT * 2 ^ 7 + r.base % 2 ^ 28 * 2 ^ 8 + r.hdr % 2 ^ 28 * 2 ^ 36
    let low := w0 + w1 * 2 ^ 64 + w2 * 2 ^ 128 + r.lastUse * 2 ^ 192 + r.chain % 2 ^ 128 * 2 ^ 256
    low + crc32c (natLe 56 low) * 2 ^ 480

/-- SF_PROBE of a session (03_state_fabric R93). -/
def State.probeOf (s : State) (x : Sess) : Nat :=
  x.lastUse % 2 ^ 48 + classRank x.policy * 2 ^ 48 + (if x.st = .hot then 2 ^ 51 else 0) + b2n (s.eligible x) * 2 ^ 52

/-- A token-log entry's 32 bits (02_sessions R47): TOKEN, then SRC. -/
def LogTok.word (t : LogTok) : Nat := t.tok % 2 ^ 18 + t.src * 2 ^ 18

/-! ### The blocks' registers -/

/-- HIF_FN of a function (12_host_interface R318): in full span a PF0 reads its binding to partition 0 from reset on. -/
def State.hifFn (s : State) (fn : Nat) : Nat :=
  let b := if fnIsPf0 fn && !s.part.composable then some 0 else s.fnPart fn
  fnPort fn + (if fnIsPf0 fn then 0 else 2 + (fn % 17 - 1) * 4) + b.getD 0 * 2 ^ 8 + b2n b.isSome * 2 ^ 12 +
    b2n s.part.composable * 2 ^ 13

/-! ### Configuration space (12_host_interface R317, R337) -/

/-- The configuration header of a function (R317): vendor, device, class code. The vendor's number is not in the spec. -/
def cfgHeader (fn : Nat) : Nat × Nat × Nat := (Config.vendorId % 2 ^ 16, if fnIsPf0 fn then 0x9620 else 0x9621, 0x120000)

/-- The registers of the VSEC in PF0 of a port (R337), at offsets within the capability; at 0x04 the VSEC ID, revision and length. WORB fields
read the value last written (00_scope R7). DESIGN CHOICE: 97 (YK_MDR.IN_RESET reads 1 until the hawk is ready, also right after reset). -/
def State.readVsec (s : State) (port o : Nat) : Nat :=
  if o = 4 then 1 + 1 * 2 ^ 16 + 0x20 * 2 ^ 20
  else if o = 8 then s.host.hb.toNat
  else if o = 0xC then s.host.holder % 4 + s.host.leaseWorb % 2 ^ 5 / 4 * 4 + min s.host.age 2047 * 2 ^ 8
  else if o = 0x10 then s.host.mdrWorb % 2 + b2n s.host.inReset * 2 + bits s.host.mdrWorb 8 8 * 2 ^ 8
  else if o = 0x14 then (s.ctr .ykIgnored port).toNat % 2 ^ 32
  else 0

/-- The identity registers, HIF_FN and HIF_PF0_VIEW (01_architecture R26, 12 R318). -/
def State.readId (s : State) (fn o : Nat) : Nat :=
  if o = 0 then s.idPart
  else if o = 4 then idVersion
  else if o = 8 then s.idCap
  else if o = 0xC then Config.keyGroup.toNat
  else if o = 0x100 then s.hifFn fn
  else if o = 0x108 ∧ fnIsPf0 fn ∧ s.part.composable then s.reg .hifPf0View fn
  else 0

/-- A queue set's registers (R319). -/
def QueueSet.read (q : QueueSet) (o : Nat) : Nat :=
  if o = 0 then q.cmdBase * 2 ^ 12
  else if o = 8 then q.cplBase * 2 ^ 12
  else if o = 0x10 then q.emitBase * 2 ^ 12
  else if o = 0x18 then q.cmdLog2 + q.cplLog2 * 2 ^ 8 + q.emitLog2 * 2 ^ 16
  else if o = 0x20 then
    b2n q.en + b2n q.busy * 2 + q.cplVec * 2 ^ 8 + q.emitVec * 2 ^ 16 + q.coalCnt * 2 ^ 24 + q.coalT * 2 ^ 32
  else if o = 0x28 then q.cmdHead + q.cmdTail * 2 ^ 16 + q.cplTail * 2 ^ 32 + q.emitTail * 2 ^ 48
  else 0

/-- A mailbox page (R334). -/
def Mailbox.read (m : Mailbox) (o : Nat) : Nat :=
  if o < 0x40 then (m.data.getD (o / 4) 0).toNat
  else if o = 0x40 then m.len + b2n m.go * 2 ^ 8 + b2n m.err * 2 ^ 9 + m.rlen * 2 ^ 16
  else if o = 0x48 then m.drop.toNat
  else 0

/-- An MSI-X vector's table entry: address, data, mask (R332). -/
def MsixVec.read (v : MsixVec) (o : Nat) : Nat :=
  if o = 0 then v.addr % 2 ^ 32 else if o = 4 then v.addr / 2 ^ 32 else if o = 8 then v.data else if o = 12 then b2n v.masked else 0

/-- 64 pending bits of a function's PBA. -/
def State.pba (s : State) (fn k : Nat) : Nat :=
  bitsOf ((List.range 64).map (fun i => (tabGet {} s.host.msix (fn * 128 + 64 * k + i)).pba))

/-- The rings, mailboxes and vectors of a function (R319, R332 to R334, R340). -/
def State.readHif (s : State) (fn o : Nat) : Nat :=
  if o < 0x101000 then (s.qs (fn * 64 + (o - 0x100000) / 0x40)).read ((o - 0x100000) % 0x40)
  else if o < 0x200000 then s.readCtr [.fn] o fn
  else if o < 0x240000 then (s.mbxAt (fnPort fn) ((o - 0x200000) / 0x1000)).read ((o - 0x200000) % 0x1000)
  else if o = 0x240000 then (tabGet (0 : Word) s.host.mbxPend fn).toNat
  else if 0x280000 ≤ o ∧ o < 0x280000 + 16 * vecCount fn then (tabGet {} s.host.msix (fn * 128 + (o - 0x280000) / 16)).read (o % 16)
  else if o = 0x290000 ∨ o = 0x290008 then s.pba fn ((o - 0x290000) / 8)
  else 0

/-- The session aperture (02_sessions R51, R52): one word of an entry of the group a function shows. -/
def State.readAperture (s : State) (fn p o : Nat) : Nat :=
  let id := bits (s.reg .sessWin fn) 0 8 * 4096 + (o - 0x380000) / 128
  if inRange (s.getPart p) id then field ((s.getSess id).bytes) (o % 128) 8 else 0

/-- The session window's registers and aperture (R51, 16_checkpoint R430). -/
def State.readSess (s : State) (fn p o : Nat) : Nat :=
  let x := s.getPart p
  if 0x380000 ≤ o then s.readAperture fn p o
  else if o = 0x300000 then s.reg .sessWin fn
  else if o = 0x300008 then x.groupBase + x.groups * 2 ^ 8
  else if o = 0x300010 then (s.live p).length
  else if o = 0x300018 then s.readCtr [.fn] o fn
  else if o = 0x300020 then s.reg .sessTokSel fn
  else if o = 0x300028 then s.reg .sessTokInfo fn
  else if 0x300040 ≤ o ∧ o < 0x300080 then bits (s.reg .sessTok fn) (8 * (o - 0x300040)) 32
  else 0

/-- The selected tier-3 window (03_state_fabric R93). -/
def State.selWin (s : State) (p : Nat) : HostWin := tabGet {} s.fab.wins (s.reg .sfHwinSel p)

/-- Whether a tier-3 window holds blocks. -/
def State.winBusy (s : State) (w : Nat) : Bool := s.winUsed w != 0

/-- The state-fabric registers (R93). -/
def State.readSf (s : State) (p o : Nat) : Nat :=
  let cl := s.reg .sfFreeSel p
  let w := s.selWin p
  if o = 0x400000 then s.reg .sfWmark p
  else if o = 0x400008 then s.reg .sfStallLimit p
  else if o = 0x400010 then s.reg .sfPrimer p
  else if o = 0x400018 then cl
  else if o = 0x400020 then
    (if (s.clustersOf p).contains cl then s.t0Free cl / 2 ^ 20 + s.t1Free cl / 2 ^ 20 * 2 ^ 16 + s.t2Free p / 2 ^ 30 * 2 ^ 32 else 0)
  else if o = 0x400030 then s.reg .sfPlSel p
  else if 0x400040 ≤ o ∧ o < 0x400050 then bits (s.reg .sfPlDesc p) (8 * (o - 0x400040)) 32
  else if o = 0x400050 then s.reg .sfProbeSel p
  else if o = 0x400058 then s.reg .sfProbe p
  else if o = 0x400200 then s.reg .sfHwinSel p
  else if o = 0x400208 then w.addr
  else if o = 0x400210 then
    w.sizeMib + w.port * 2 ^ 16 + b2n w.en * 2 ^ 17 + b2n (s.winBusy (s.reg .sfHwinSel p)) * 2 ^ 18 + w.part * 2 ^ 20
  else s.readCtr [.part] o p

/-- The records of a partition that are not FREE, of one domain or of all. -/
def State.recsUsed (s : State) (p : Nat) (dom : Option Nat) : Nat :=
  (s.dir.recs.filter (fun r => r.2.st != .free && r.2.part == p && (dom == none || dom == some r.2.domain))).length

/-- The directory registers (04_undercoat_directory R123). -/
def State.readDir (s : State) (p o : Nat) : Nat :=
  let x := s.getPart p
  let d := s.reg .dirDomSel p
  if o = 0x500000 then x.rowBase + x.rows * 2 ^ 12
  else if o = 0x500008 then
    (s.dir.slots.filter (fun k => decide (x.rowBase ≤ k.1 / 64) && decide (k.1 / 64 < x.rowBase + x.rows))).length +
      s.recsUsed p none * 2 ^ 32
  else if o = 0x500010 then d
  else if o = 0x500018 then
    (if d ≠ 0 ∧ s.domBound p d then b2n (tabGet { part := p } s.part.doms d).learn + s.recsUsed p (some d) * 2 ^ 12 else 0)
  else if o = 0x500020 then s.reg .dirRecSel p
  else if 0x500040 ≤ o ∧ o < 0x500080 then bits (s.reg .dirRec p) (8 * (o - 0x500040)) 32
  else s.readCtr [.part] o p

/-- ATT_MODEL_GEOM of a model (05_attention R153). -/
def State.geomReg (s : State) (p m : Nat) : Nat :=
  let e := s.model p m
  e.geom36 + e.headroom * 2 ^ 36 + b2n e.valid * 2 ^ 39 + b2n (s.modelInUse p m) * 2 ^ 40

/-- A time of a confidential partition rounded up to a multiple of 2^TIME_SHIFT ticks (15_security R403). -/
def State.roundUp (s : State) (p t : Nat) : Nat :=
  if (s.getPart p).conf then min 0xFFFFFF (ceilDiv t (2 ^ s.timeShift) * 2 ^ s.timeShift) else t

/-- The attention registers (05_attention R153). -/
def State.readAtt (s : State) (p o : Nat) : Nat :=
  let m := s.reg .attModelSel p
  let t := s.reg .attTurn p
  if o = 0x600000 then m
  else if o = 0x600008 then s.geomReg p m
  else if o = 0x600010 then (s.model p m).smscale.toNat
  else if o = 0x600020 then s.roundUp p (bits t 0 24) + s.roundUp p (bits t 24 24) * 2 ^ 24
  else if o = 0x600028 then s.reg .attTurnClr p
  else if o = 0x600030 then s.reg .attKvLast p
  else s.readCtr [.part] o p

/-- EMIT_SET_INFO of a set (07_sampling R199). -/
def State.setInfo (s : State) (p n : Nat) : Nat :=
  match s.set? p n with
  | some x => 1 + ((s.live p).filter (fun y => y.2.stencilSet == n)).length * 2 + (stencilHdr x.img).dead * 2 ^ 22
  | none => 0

/-- EMIT_PROF_INFO of a profile. -/
def State.profInfo (s : State) (p n : Nat) : Nat :=
  match s.prof? p n with
  | some x => 1 + x.k * 2 + b2n x.clamped * 2 ^ 10 + b2n x.retTopk * 2 ^ 11 + b2n x.hostTopk * 2 ^ 12 + b2n x.seedMode * 2 ^ 13 +
      x.temp.toNat * 2 ^ 32
  | none => 0

/-- The emit-path registers (07_sampling R199). -/
def State.readEmit (s : State) (p o : Nat) : Nat :=
  let m := s.reg .emitModelSel p
  if o = 0x700000 then m
  else if o = 0x700008 then (s.model p m).vocab + b2n (s.modelInUse p m) * 2 ^ 19
  else if o = 0x700010 then 4 * s.emitStore p + 4 * (s.emitStore p - s.emitPages p) * 2 ^ 32
  else if o = 0x700018 then s.reg .emitSetSel p
  else if o = 0x700020 then s.setInfo p (s.reg .emitSetSel p)
  else if o = 0x700028 then s.reg .emitProfSel p
  else if o = 0x700030 then s.profInfo p (s.reg .emitProfSel p)
  else if o = 0x700038 then s.reg .emitLogitsLast p
  else s.readCtr [.part] o p

/-- TEXT_TOK_INFO of a model (08_text_unit R222). -/
def State.tokInfo (s : State) (p m : Nat) : Nat :=
  match s.tok? p m with
  | some t => 1 + b2n t.h.hold * 2 + b2n (s.modelInUse p m) * 4 + t.h.vocab * 2 ^ 3 + t.h.merges * 2 ^ 22 +
      4 * ceilDiv t.b.length 4096 * 2 ^ 42
  | none => 0

/-- TEXT_STOP_INFO of a stop set. -/
def State.stopInfo (s : State) (p n : Nat) : Nat :=
  let l := s.stopsOf p n
  if l.isEmpty then 0
  else 1 + l.length * 2 + (l.foldl (fun k b => max k b.length) 0) * 2 ^ 5 + ((s.live p).filter (fun y => y.2.stopSet == n)).length * 2 ^ 12

/-- The text-unit registers (08_text_unit R222). -/
def State.readText (s : State) (p o : Nat) : Nat :=
  if o = 0x700200 then 4 * s.textStore p + 4 * (s.textStore p - s.textPages p) * 2 ^ 32
  else if o = 0x700208 then s.reg .textTokSel p
  else if o = 0x700210 then s.tokInfo p (s.reg .textTokSel p)
  else if o = 0x700218 then s.reg .textStopSel p
  else if o = 0x700220 then s.stopInfo p (s.reg .textStopSel p)
  else if o = 0x700228 then s.reg .textUntokLast p
  else if o = 0x700230 then s.reg .textHeldSel p
  else if o = 0x700238 then s.reg .textHeldCnt p
  else if 0x700240 ≤ o ∧ o < 0x700284 then bits (s.reg .textHeld p) (8 * (o - 0x700240)) 32
  else s.readCtr [.part] o p

/-- The code of an index's state (11_flash_retrieval R314). -/
def IxState.code : IxState → Nat
  | .free => 0 | .ready => 1 | .compacting => 2 | .dropping => 3 | .faulted => 4

/-- The retrieval registers (R314, R315); they read 0 on ZV9620-N. -/
def State.readRet (s : State) (p o : Nat) : Nat :=
  let x := s.index p (s.reg .retIxSel p)
  let free := x.st == .free
  if s.isN then 0
  else if o = 0x800000 then s.reg .retLayout 0 + s.usableGib * 2 ^ 16
  else if o = 0x800008 then
    (s.getPart p).ixQuota + s.ixFree p / 2 ^ 30 * 2 ^ 16 + s.cmemAll p * 2 ^ 32 + s.cmemFree p * 2 ^ 48
  else if o = 0x800010 then s.reg .retIxSel p
  else if o = 0x800018 then (if free then 0 else x.st.code + x.metric * 2 ^ 3 + x.dim * 2 ^ 4 + x.cells * 2 ^ 17 + x.domain * 2 ^ 34)
  else if o = 0x800020 then (if free then 0 else x.recs.length + x.retire.length * 2 ^ 40)
  else if o = 0x800028 then (if free then 0 else x.commit % 2 ^ 48)
  else s.readCtr [.part, .device] o (if o = 0x800130 then 0 else p)

/-- The code of a port's state (13_cunis_link R364). -/
def PortSt.code : PortSt → Nat
  | .down => 0 | .hello => 1 | .up => 2 | .refused => 3

/-- A port's registers and counters (R364, R365). -/
def State.readPort (s : State) (n o : Nat) : Nat :=
  let p := s.port n
  if o = 0 then b2n p.en + b2n p.framing * 2 + b2n p.restartWorb * 4
  else if o = 8 then
    b2n p.phyUp + b2n p.cdrLock * 2 + p.st.code * 4 + (if p.st = .up then p.ver else 0) * 2 ^ 8 + p.refusal % 2 ^ 8 * 2 ^ 16 +
      p.peerRole % 8 * 2 ^ 24 + p.peerPort % 16 * 2 ^ 28
  else if o = 0x10 then (if p.st = .up then p.feat else 0)
  else if o = 0x18 then p.peerKey + p.peerInst * 2 ^ 32
  else if o = 0x20 then portMac n
  else if o = 0x28 then s.reg .linkShape n
  else if o = 0x30 then
    min 0xFFFF p.vc0.credit + min 0xFFFF p.vc1.credit * 2 ^ 16 + min 0xFFFF p.vc2.credit * 2 ^ 32 + min 0xFFFF p.vc3.credit * 2 ^ 48
  else s.readCtr [.port] o n

/-- The beat registers (06_beat R172), BEAT_TICK rounded down for the functions of a confidential partition (15_security R403). -/
def State.readBeat (s : State) (fn o : Nat) : Nat :=
  let b := s.beat
  let conf := match s.fnPart fn with
    | some p => (s.getPart p).conf
    | none => false
  if o = 0xA00000 then b.nowReg
  else if o = 0xA00008 then (if conf then b.latched / 2 ^ s.timeShift * 2 ^ s.timeShift else b.latched)
  else if o = 0xA00010 then b.period + b.phase0 * 2 ^ 24
  else if o = 0xA00018 then b.port + b2n b.resyncWorb * 2 ^ 8 + b2n b.resyncPend * 2 ^ 9
  else s.readCtr [.device] o 0

/-- The scheduler registers (06_beat R172). -/
def State.readSched (s : State) (p o : Nat) : Nat :=
  let idle := s.beat.hold || s.beat.none_
  if o = 0xA00100 then s.reg .schedWin p
  else if o = 0xA00108 then s.reg .schedCfg p
  else if o = 0xA00110 then (if idle then 0 else (s.pwin p).d + (s.pwin p).f * 2 ^ 24)
  else s.readCtr [.part] o p

/-- PART_MODE (14_partitions R384); PARTS reads 0 to functions other than PF0. -/
def State.partMode (s : State) (fn : Nat) : Nat := b2n s.part.composable + (if fnIsPf0 fn then s.partList.length * 2 else 0)

/-- The open composition of a partition. -/
def State.openComp (s : State) (p : Nat) : CompRec := ((s.getPart p).comp? 0).getD { num := 0, startMs := 0 }

/-- STATE of PART_INFO: 0 active, 1 quiesced, 2 being destroyed. -/
def State.partCode (s : State) (p : Nat) : Nat :=
  if (s.getPart p).st = .destroying then 2 else if s.quiesced p then 1 else 0

/-- The meter ADM_DOM_ shows: the selected domain's, while it is bound to the partition. -/
def State.selDom (s : State) (p : Nat) : Option Domain :=
  let d := s.reg .admDomSel p
  if s.domBound p d then tabGet? s.part.doms d else none

/-- The partition, admission and metering registers (14_partitions R384, R385). -/
def State.readPart (s : State) (p o : Nat) : Nat :=
  let x := s.getPart p
  let c := s.openComp p
  if o = 0xB00008 then
    sumOf (fun k => 2 ^ k) x.clusters + x.groupBase * 2 ^ 32 + x.groups * 2 ^ 40 + x.pool * 2 ^ 49 + b2n x.conf * 2 ^ 50 + s.partCode p * 2 ^ 51
  else if o = 0xB00010 then x.t2Quota + x.ixQuota * 2 ^ 16 + x.domBase * 2 ^ 32 + x.domCount * 2 ^ 48
  else if o = 0xB00018 then s.reg .admOverhead p
  else if o = 0xB00020 then x.meter.cir + x.meter.pir * 2 ^ 32
  else if o = 0xB00028 then x.meter.cbs + x.meter.pbs * 2 ^ 32
  else if o = 0xB00030 then s.reg .admDomSel p
  else if 0xB00038 ≤ o ∧ o < 0xB00050 then
    match s.selDom p with
    | none => 0
    | some d =>
      if o = 0xB00038 then b2n d.aware + 2
      else if o = 0xB00040 then d.meter.cir + d.meter.pir * 2 ^ 32
      else if o = 0xB00048 then d.meter.cbs + d.meter.pbs * 2 ^ 32
      else 0
  else if o = 0xB00120 then c.num % 2 ^ 32 + c.startMs % 2 ^ 32 * 2 ^ 32
  else if o = 0xB00128 then c.m.clusterMs % 2 ^ 64
  else if o = 0xB00130 then c.m.t0 % 2 ^ 64
  else if o = 0xB00138 then c.m.t1 % 2 ^ 64
  else if o = 0xB00140 then c.m.t2 % 2 ^ 64
  else if o = 0xB00148 then c.m.t3 % 2 ^ 64
  else s.readCtr [.part] o p

/-- The security registers and counters (15_security R412, R413). -/
def State.readSec (s : State) (fn scope o : Nat) : Nat :=
  if o = 0xC00000 then s.secState
  else if o = 0xC00008 then s.reg .secDust 0
  else if 0xC00010 ≤ o ∧ o < 0xC00030 then (Config.idPub ((o - 0xC00010) / 4)).toNat
  else if 0xC00030 ≤ o ∧ o < 0xC00050 then (if (s.getPart scope).conf then field (s.getPart scope).owner (o - 0xC00030) 4 else 0)
  else if 0xC00050 ≤ o ∧ o < 0xC00070 then field s.fwSlot.digest (o - 0xC00050) 4
  else if o = 0xC00100 then s.readCtr [.fn] o fn
  else s.readCtr [.part, .device] o scope

/-- The slot the checkpoint registers show (16_checkpoint R438). -/
def State.selSlot (s : State) : Nat := s.reg .ckptSlotSel 0

/-- Whether a checkpoint or restore uses a slot. -/
def State.slotBusy (s : State) (n : Nat) : Bool :=
  (match s.ckpt.take with | some t => t.slot == n | none => false) || (match s.ckpt.restore with | some r => r.slot == n | none => false)

/-- The checkpoint registers and counters (R438, R439). -/
def State.readCkpt (s : State) (o : Nat) : Nat :=
  let k := s.ckpt
  let x := s.ckSlot s.selSlot
  let known := k.known.getD (0, 0)
  if o = 0xD00000 then s.reg .ckptCfg 0
  else if o = 0xD00008 then s.selSlot
  else if o = 0xD00010 then x.addr
  else if o = 0xD00018 then x.sizeMib + x.port * 2 ^ 20 + b2n x.en * 2 ^ 21 + b2n (s.slotBusy s.selSlot) * 2 ^ 22
  else if o = 0xD00020 then
    (if k.take.isSome then 1 else if k.restore.isSome then 2 else 0) + k.wslot * 4 + b2n (s.ckSlot 0).valid * 8 + b2n (s.ckSlot 1).valid * 16 +
      known.1 * 32 + k.lastStatus * 2 ^ 8 + known.2 * 2 ^ 16
  else if o = 0xD00028 then k.lastBeat
  else if o = 0xD00030 then k.lastTick
  else if o = 0xD00038 then k.lastMs
  else s.readCtr [.device] o 0

/-- The health registers and counters (17_management R456, R457). -/
def State.readHlth (s : State) (o : Nat) : Nat :=
  if o = 0xE00000 then s.hlthState
  else if o = 0xE00008 then s.hlthStack
  else if o = 0xE00010 then s.mgmt.hb.toNat
  else if o = 0xE00018 then s.hlthPwr
  else if 0xE00100 ≤ o ∧ o < 0xE00200 then s.hlthSens ((o - 0xE00100) / 8)
  else if 0xE00200 ≤ o ∧ o < 0xE003D8 then s.hlthWear ((o - 0xE00200) / 8)
  else s.readCtr [.device] o 0

/-- LINK_CLKSEL (13_cunis_link R364). -/
def State.clkSel (s : State) : Nat := s.pwr.clkPort + b2n s.pwr.recovered * 16

/-- The clock, power and reset registers and counters (18_power R476, R477). -/
def State.readClk (s : State) (o : Nat) : Nat :=
  let p := s.pwr
  if o = 0xF00000 then b2n p.autoReturn + b2n p.forceFb * 2 + b2n p.returnWorb * 4
  else if o = 0xF00008 then b2n p.fbOk + b2n p.recLock * 2 + b2n p.recovered * 4 + b2n p.slewing * 8
  else if o = 0xF00010 then p.strapXo + b2n p.strapA * 8 + b2n p.strapB * 16
  else if o = 0xF00018 then p.cause
  else s.readCtr [.device] o 0

/-! ### Core windows (09_scaesh_model R246, R247) -/

/-- STATE of a context: 0 idle, 1 running, 2 waiting or suspended, 3 halted. -/
def Core.ctxCode (c : Core) (k : Nat) : Nat :=
  if bitAt c.halt k then 3
  else match (c.ctx k).st with
    | .idle => 0
    | .running => 1
    | _ => 2

/-- A core's control and status registers at an offset of their part. -/
def State.readCoreCtl (s : State) (n o : Nat) : Nat :=
  let c := s.core n
  let p := (s.clusterPart (clusterOf n)).getD 0
  if o = 0 then n + n / 8 * 2 ^ 8 + n / 64 * 2 ^ 16 + p * 2 ^ 20
  else if o = 8 then 0x7F
  else if o = 0x10 then c.ldmPage
  else if o = 0x18 then
    sumOf (fun k => c.ctxCode k * 4 ^ k) [0, 1, 2, 3] + sumOf (fun k => min 63 (c.ctx k).queue.length * 2 ^ (8 + 6 * k)) [0, 1, 2, 3]
  else if o = 0x20 then
    c.faultCause + c.faultCtx * 2 ^ 8 + c.faultProg * 2 ^ 16 + c.faultPc * 2 ^ 24 + b2n c.faultValid * 2 ^ 63
  else if o = 0x28 then (if (s.getPart p).conf then 0 else c.halt + c.stepBits * 2 ^ 4)
  else s.readCtr [.core] (0x10000 + o) n

/-- The instruction memory of a core: the customer images of its partition at their places; the standard programs read 0. -/
def State.imemByte (s : State) (n a : Nat) : Byte :=
  match s.clusterPart (clusterOf n) with
  | none => 0
  | some p =>
    match s.cores.progs.find? (fun g => g.part == p && decide (g.imemBase ≤ a) && decide (a < g.imemBase + g.codeBytes)) with
    | some g => g.img.getD (192 + (a - g.imemBase)) 0
    | none => 0

/-- A core window (R24, R246): instruction memory and data aperture read 0 in a confidential partition. -/
def State.readCore (s : State) (n o w : Nat) : Nat :=
  let conf := match s.clusterPart (clusterOf n) with
    | some p => (s.getPart p).conf
    | none => true
  if o < 0x10000 then (if conf then 0 else leNat ((List.range w).map (fun i => s.imemByte n (o + i))))
  else if o < 0x20000 then s.readCoreCtl n (o - 0x10000)
  else if conf then 0
  else leNat (memRead (s.core n).ldm ((s.core n).ldmPage * 0x10000 + (o - 0x20000)) w)

/-! ### The whole of BAR0 -/

/-- The 64-bit registers: every other register is 32 bits wide. -/
def wideReg (o : Nat) : Bool :=
  let a := o / 8 * 8
  let qsWide := decide (0x100000 ≤ a) && decide (a < 0x101000) && [0, 8, 0x10, 0x20, 0x28].contains (a % 0x40)
  let portWide := decide (0x900000 ≤ a) && decide (a < 0x910000) &&
    (([8, 0x10, 0x18, 0x20, 0x28, 0x30].contains (a % 0x1000)) || (decide (0x100 ≤ a % 0x1000) && decide (a % 0x1000 < 0x178)))
  let coreWide := decide (coreBase ≤ a) &&
    (let k := (a - coreBase) % coreWindow
     decide (k < 0x10000) || decide (0x20000 ≤ k) || [0x10008, 0x10020, 0x10100, 0x10108, 0x10110, 0x10118].contains k)
  let listed := [0x240000, 0x290000, 0x290008, 0x300020, 0x400020, 0x400030, 0x400058, 0x400208, 0x500008, 0x600008, 0x600020, 0x600030,
    0x700010, 0x700020, 0x700030, 0x700038, 0x700200, 0x700210, 0x700220, 0x700228].contains a ||
    [0x800008, 0x800018, 0x800020, 0x800028, 0xA00000, 0xA00010, 0xA00100, 0xA00110, 0xB00008, 0xB00010, 0xB00020, 0xB00028, 0xB00040,
      0xB00048, 0xB00120, 0xB00128, 0xB00130, 0xB00138, 0xB00140, 0xB00148].contains a ||
    [0xD00000, 0xD00010, 0xD00020, 0xD00028, 0xD00038, 0xE00008, 0xE00018].contains a
  let counters := counterTable.any (fun e => e.2.1 == a && e.2.2.2 == 64 && e.2.1 ≥ 0x20000)
  qsWide || portWide || coreWide || listed || counters || (decide (0x380000 ≤ a) && decide (a < 0x400000)) ||
    (decide (0xE00100 ≤ a) && decide (a < 0xE003D8))

/-- The register that holds an offset. -/
def regOf (o : Nat) : Nat := if wideReg o then o / 8 * 8 else o / 4 * 4

/-- What a register reads in the instance a function reaches. -/
def State.readAt (s : State) (fn scope o : Nat) : Nat :=
  if o < 0x100000 then s.readId fn o
  else if o < 0x300000 then s.readHif fn o
  else if o < 0x400000 then s.readSess fn scope o
  else if o < 0x500000 then s.readSf scope o
  else if o < 0x600000 then s.readDir scope o
  else if o < 0x700000 then s.readAtt scope o
  else if o < 0x700200 then s.readEmit scope o
  else if o < 0x800000 then s.readText scope o
  else if o < 0x900000 then s.readRet scope o
  else if o < 0x910000 then s.readPort scope (o % 0x1000)
  else if o < 0xA00000 then (if o = 0x910000 then s.clkSel else 0)
  else if o < 0xA00100 ∨ (0xA00200 ≤ o ∧ o < 0xA00300) then s.readBeat fn o
  else if o < 0xB00000 then s.readSched scope o
  else if o = 0xB00000 then s.partMode fn
  else if o < 0xC00000 then s.readPart scope o
  else if o < 0xD00000 then s.readSec fn scope o
  else if o < 0xE00000 then s.readCkpt o
  else if o < 0xF00000 then s.readHlth o
  else if o < coreBase then s.readClk o
  else s.readCore scope ((o - coreBase) % coreWindow) 8

/-- What a function reads of the register at an offset; 0 outside its reach (R22, R23). -/
def State.readReg (s : State) (fn o : Nat) : Nat :=
  match s.reach fn o with
  | .yes scope => s.readAt fn scope o
  | _ => 0

/-- A read of BAR0 by its width: the session aperture answers aligned 64-bit reads only (02_sessions R52); elsewhere 4 and 8 bytes, aligned, take
the register, its half or two registers. DESIGN CHOICE: 27. -/
def State.busRead (s : State) (fn o width : Nat) : Nat :=
  if width = 8 ∧ o % 8 = 0 then
    (if wideReg o then s.readReg fn o else s.readReg fn o % 2 ^ 32 + s.readReg fn (o + 4) % 2 ^ 32 * 2 ^ 32)
  else if width = 4 ∧ o % 4 = 0 then
    (if 0x380000 ≤ o ∧ o < 0x400000 then 0
     else if wideReg o then bits (s.readReg fn (o / 8 * 8)) (8 * (o % 8)) 32 else s.readReg fn o % 2 ^ 32)
  else 0

end Sys2Proof.Machine
end

