-- ==== Sys2Proof/Machine/Registers.lean ====
section
/-! DEFINITION. Register writes (00_scope R7, R8, and the register tables of every chapter): the range checks, the registers a write cannot
change, the copies a selection takes; core windows (09_scaesh_model R246), the owner bytes (02_sessions R52), and the dust sheet's latch
(15_security R403). -/

namespace Sys2Proof.Machine

/-- Whether a number lies in a range, both ends in it. -/
def within (lo hi n : Nat) : Bool := decide (lo ≤ n) && decide (n ≤ hi)

/-! ### Selections that take a copy -/

/-- SF_PL_SEL (03_state_fabric R93): the selected descriptor is copied; zeros where the handle fails R28. -/
def State.selectDesc (s : State) (p v : Nat) : State :=
  let d := match s.handle? p (v % 2 ^ 32) with
    | some id => ((s.getSess id).desc (bits v 32 15)).stored
    | none => 0
  (s.setReg .sfPlSel p (v % 2 ^ 47)).setReg .sfPlDesc p d

/-- SF_PROBE_SEL (R93): the session's victim key is copied. -/
def State.selectProbe (s : State) (p v : Nat) : State :=
  let d := match s.handle? p v with
    | some id => s.probeOf (s.getSess id)
    | none => 0
  (s.setReg .sfProbeSel p v).setReg .sfProbe p d

/-- DIR_REC_SEL (04_undercoat_directory R123): the record is copied, where it is one of the partition's. -/
def State.selectRec (s : State) (p v : Nat) : State :=
  let ix := v % 2 ^ 18
  (s.setReg .dirRecSel p ix).setReg .dirRec p (if inRecs (s.getPart p) ix then (s.dirRec ix).stored else 0)

/-- TEXT_HELD_SEL (08_text_unit R222): the session's seam record is copied. -/
def State.selectHeld (s : State) (p v : Nat) : State :=
  let s1 := s.setReg .textHeldSel p v
  match s.handle? p v with
  | some id =>
    let x := s.getSess id
    (s1.setReg .textHeldCnt p (x.seamNow.length + x.utf8Now.length * 2 ^ 8)).setReg .textHeld p
      (leNat (x.seamNow ++ x.utf8Now))
  | none => (s1.setReg .textHeldCnt p 0).setReg .textHeld p 0

/-- SESS_TOK_SEL (16_checkpoint R430): 16 entries of the session's token log are copied from the intact copy. -/
def State.selectTok (s : State) (fn p v : Nat) : State :=
  let s1 := s.setReg .sessTokSel fn (v % 2 ^ 54)
  match s.handle? p (v % 2 ^ 32) with
  | some id =>
    let x := s.getSess id
    let l := (x.log.drop (bits v 32 22)).take 16
    (s1.setReg .sessTokInfo fn (x.total + b2n (!x.logLost) * 2 ^ 23)).setReg .sessTok fn
      (if x.logLost then 0 else leNat (l.flatMap (fun t => natLe 4 t.word)))
  | none => (s1.setReg .sessTokInfo fn 0).setReg .sessTok fn 0

/-- ATT_TURN_CLR (05_attention R153). -/
def State.clearTurn (s : State) (p v : Nat) : State :=
  let s1 := s.setReg .attTurnClr p (v % 2)
  if bitAt v 0 then s1.setReg .attTurn p (bits (s.reg .attTurn p) 0 24) else s1

/-! ### Host interface (12_host_interface R318, R319, R332, R334) -/

/-- A write to a queue set's register. -/
def State.writeQs (s : State) (fn q o v : Nat) : State :=
  let qk := fn * 64 + q
  let x := s.qs qk
  let bad := s.bump .hifBadcfg fn
  let size := fun (n : Nat) => within 6 16 n
  if o = 0x20 then s.writeCtrl fn q v
  else if o ≤ 0x18 ∧ (x.en ∨ x.busy) then (if o % 8 = 0 then bad else s)
  else if o = 0 then s.modQs qk (fun x => { x with cmdBase := v / 2 ^ 12 })
  else if o = 8 then s.modQs qk (fun x => { x with cplBase := v / 2 ^ 12 })
  else if o = 0x10 then s.modQs qk (fun x => { x with emitBase := v / 2 ^ 12 })
  else if o = 0x18 then
    (if size (bits v 0 5) && size (bits v 8 5) && (bits v 16 5 == 0 || size (bits v 16 5)) then
      s.modQs qk (fun x => { x with cmdLog2 := bits v 0 5, cplLog2 := bits v 8 5, emitLog2 := bits v 16 5 })
    else bad)
  else s

/-- A write to a mailbox page (R334, R335). -/
def State.writeMbx (s : State) (port n o v : Nat) : State :=
  let m := s.mbxAt port n
  if o < 0x40 then
    (if m.go then s.setMbx port n { m with drop := m.drop + 1 }
    else s.setMbx port n { m with data := m.data.set (o / 4) (BitVec.ofNat 32 v) })
  else if o = 0x40 ∧ !m.go then
    (if bitAt v 8 then s.mbxSend port n (v % 32) else s.setMbx port n { m with len := v % 32 })
  else s

/-- A write to a vector's table entry; clearing the mask sends a message that was pending (R332). -/
def State.writeMsix (s : State) (fn vec o v : Nat) : State :=
  let x := tabGet {} s.host.msix (fn * 128 + vec)
  let put : MsixVec → State := fun y => s.modHost (fun h => { h with msix := tabPut {} h.msix (fn * 128 + vec) y })
  if o = 0 then put { x with addr := x.addr / 2 ^ 32 * 2 ^ 32 + v }
  else if o = 4 then put { x with addr := x.addr % 2 ^ 32 + v * 2 ^ 32 }
  else if o = 8 then put { x with data := v }
  else if o = 12 then
    (if !bitAt v 0 && x.pba then (put { x with masked := false, pba := false }).emitOut (.msix fn vec)
    else put { x with masked := bitAt v 0 })
  else s

/-- A write to the rings, mailboxes and vectors of a function. -/
def State.writeHif (s : State) (fn o v : Nat) : State :=
  if o < 0x101000 then s.writeQs fn ((o - 0x100000) / 0x40) ((o - 0x100000) % 0x40) v
  else if o < 0x200000 then s
  else if o < 0x240000 then s.writeMbx (fnPort fn) ((o - 0x200000) / 0x1000) ((o - 0x200000) % 0x1000) v
  else if o = 0x240000 then
    s.modHost (fun h => { h with mbxPend := tabPut 0 h.mbxPend fn (tabGet 0 h.mbxPend fn &&& ~~~ BitVec.ofNat 64 v) })
  else if 0x280000 ≤ o ∧ o < 0x280000 + 16 * vecCount fn then s.writeMsix fn ((o - 0x280000) / 16) (o % 16) v
  else s

/-- A write to the registers below 0x0010_0000: HIF_PF0_VIEW alone, by PF0 in composable mode, naming a partition bound to the port. -/
def State.writeId (s : State) (fn o v : Nat) : State :=
  if o = 0x108 ∧ fnIsPf0 fn ∧ s.part.composable ∧ s.partExists (v % 16) ∧ s.partOnPort (v % 16) (fnPort fn) then
    s.setReg .hifPf0View fn (v % 16)
  else s

/-! ### State fabric and directory (03_state_fabric R62, R93; 04_undercoat_directory R123) -/

/-- A write of SF_HWIN_CFG: PORT from any PF0, the other fields from PF0 of the PORT so named; an enable opens a new epoch of the window. -/
def State.writeWin (s : State) (p fn v : Nat) : State :=
  let n := s.reg .sfHwinSel p
  let w := s.selWin p
  let port := bits v 16 1
  let set : HostWin → State := fun y => s.modFab (fun f => { f with wins := tabPut {} f.wins n y })
  if !fnIsPf0 fn || s.winBusy n || !within 1 4096 (bits v 0 13) then s.bump .sfEvtBadcfg p
  else if fnPort fn ≠ port then set { w with port := port }
  else
    let s1 := set { w with sizeMib := bits v 0 13, port := port, en := bitAt v 17, part := bits v 20 4 }
    if bitAt v 17 ∧ !w.en then s1.modSec (fun c => { c with winEpoch := tabMod 0 c.winEpoch n (· + 1) }) else s1

/-- A write to a state-fabric register. -/
def State.writeSf (s : State) (p fn o v : Nat) : State :=
  let bad := s.bump .sfEvtBadcfg p
  if o = 0x400000 then
    (if decide (bits v 0 7 < bits v 8 7) && decide (bits v 8 7 ≤ 50) && decide (bits v 16 7 < bits v 24 7) && decide (bits v 24 7 ≤ 50) then
      s.setReg .sfWmark p (bits v 0 7 + bits v 8 7 * 2 ^ 8 + bits v 16 7 * 2 ^ 16 + bits v 24 7 * 2 ^ 24)
    else bad)
  else if o = 0x400008 then (if within 1 254 (bits v 0 8) then s.setReg .sfStallLimit p (bits v 0 8) else bad)
  else if o = 0x400010 then
    (if within 1 4094 (bits v 0 12) && within 0 254 (bits v 12 8) then s.setReg .sfPrimer p (v % 2 ^ 20) else bad)
  else if o = 0x400018 then s.setReg .sfFreeSel p (v % 2 ^ 5)
  else if o = 0x400030 then s.selectDesc p v
  else if o = 0x400050 then s.selectProbe p v
  else if o = 0x400200 then (if fnIsPf0 fn then s.setReg .sfHwinSel p (v % 2 ^ 8) else bad)
  else if o = 0x400208 then
    (let n := s.reg .sfHwinSel p
     let w := s.selWin p
     if !fnIsPf0 fn || fnPort fn != w.port || s.winBusy n then bad
     else s.modFab (fun f => { f with wins := tabPut {} f.wins n { w with addr := v / 2 ^ 12 * 2 ^ 12 } }))
  else if o = 0x400210 then s.writeWin p fn v
  else s

/-- A write to a directory register. -/
def State.writeDir (s : State) (p o v : Nat) : State :=
  let d := s.reg .dirDomSel p
  if o = 0x500010 then s.setReg .dirDomSel p (v % 2 ^ 16)
  else if o = 0x500018 then
    (if d ≠ 0 ∧ s.domBound p d then
      s.modPartU (fun u => { u with doms := tabMod { part := p } u.doms d (fun x => { x with learn := bitAt v 0 }) })
    else s)
  else if o = 0x500020 then s.selectRec p v
  else s

/-! ### Attention, emit path, text unit (05_attention R125, R126, R153; 07_sampling R199; 08_text_unit R222) -/

/-- Change a model entry. -/
def State.modModel (s : State) (p m : Nat) (f : ModelEnt → ModelEnt) : State :=
  s.modAtt (fun a => { a with models := tabPut {} a.models (p * 256 + m) (f (tabGet {} a.models (p * 256 + m))) })

/-- The geometry a write of ATT_MODEL_GEOM gives. -/
def ModelEnt.setGeom (e : ModelEnt) (v : Nat) : ModelEnt :=
  { e with
    layers := bits v 0 9
    qheads := bits v 9 8
    kvheads := bits v 17 7
    headDim := bits v 24 9
    kvFmt := bits v 33 3
    headroom := bits v 36 3
    valid := bitAt v 39 }

/-- Whether a geometry lies within the limits of R125. -/
def ModelEnt.geomOk (e : ModelEnt) : Bool :=
  within 1 256 e.layers && within 1 64 e.kvheads && within 1 128 e.qheads && e.qheads % e.kvheads == 0 && within 32 256 e.headDim &&
    e.headDim % 32 == 0 && decide (e.kvFmt ≤ 5) && decide (e.headroom ≤ 6)

/-- Whether a softmax scale takes effect: ±0 or a finite value above 0 (R153). -/
def smscaleOk (v : Nat) : Bool := v == 0 || v == 0x80000000 || decide (v < 0x7F800000)

/-- A write to an attention register. -/
def State.writeAtt (s : State) (p o v : Nat) : State :=
  let m := s.reg .attModelSel p
  let bad := s.bump .attEvtBadcfg p
  if o = 0x600000 then (if v % 256 = 255 then bad else s.setReg .attModelSel p (v % 256))
  else if o = 0x600008 then
    (let e := (s.model p m).setGeom v
     if s.modelInUse p m || (e.valid && !e.geomOk) then bad else s.modModel p m (fun _ => e))
  else if o = 0x600010 then
    (if s.modelInUse p m || !smscaleOk v then bad else s.modModel p m (fun e => { e with smscale := BitVec.ofNat 32 v }))
  else if o = 0x600028 then s.clearTurn p v
  else s

/-- A write to an emit-path register. -/
def State.writeEmit (s : State) (p o v : Nat) : State :=
  let m := s.reg .emitModelSel p
  let bad := s.bump .emitBadcfg p
  let n := v % 2 ^ 19
  if o = 0x700000 then (if v % 256 = 255 then bad else s.setReg .emitModelSel p (v % 256))
  else if o = 0x700008 then
    (if s.modelInUse p m || decide (262144 < n) || ((s.tok? p m).isSome && n != (s.model p m).vocab) then bad
    else s.modModel p m (fun e => { e with vocab := n }))
  else if o = 0x700018 then s.setReg .emitSetSel p (v % 2 ^ 16)
  else if o = 0x700028 then s.setReg .emitProfSel p (v % 2 ^ 16)
  else s

/-- A write to a text-unit register. -/
def State.writeText (s : State) (p o v : Nat) : State :=
  if o = 0x700208 then (if v % 256 = 255 then s.bump .textBadcfg p else s.setReg .textTokSel p (v % 256))
  else if o = 0x700218 then s.setReg .textStopSel p (v % 2 ^ 16)
  else if o = 0x700230 then s.selectHeld p v
  else s

/-! ### Flash retrieval (11_flash_retrieval R293, R314) -/

/-- The bytes the stored indexes hold. -/
def State.ixStored (s : State) : Nat := sumOf (fun x => x.2.bytes) s.ret.ixs

/-- A write to a retrieval register; on ZV9620-N the block's range ignores writes. -/
def State.writeRet (s : State) (p fn o v : Nat) : State :=
  let n := v % 2 ^ 16
  if s.isN then s
  else if o = 0x800000 then
    (if fn = pf0A ∧ s.part.compNum = 1 ∧ s.part.creating.isNone ∧ n ≤ s.usableGib ∧ s.ixStored ≤ n * 2 ^ 30 then s.setReg .retLayout 0 n
    else s.bump .retBadcfg 0)
  else if o = 0x800010 then s.setReg .retIxSel p (v % 2 ^ 8)
  else s

/-! ### Link, beat, clocks (13_cunis_link R363, R364; 06_beat R158, R172; 18_power R476) -/

/-- A write of LINK_SHAPE: the bucket is filled at the old rate up to now, and never holds more than its new burst. -/
def State.writeShape (s : State) (port v : Nat) : State :=
  let r := bits v 0 16
  let b := bits v 16 16
  if 1000 < r ∨ !within 16 65534 b then s
  else
    let old := 10240 * bits (s.reg .linkShape port) 16 16
    let held := old - (if bits (s.reg .linkShape port) 0 16 = 0 then 0 else s.bucketLack port)
    let lack := if bits (s.reg .linkShape port) 0 16 = 0 then 0 else 10240 * b - held
    (s.setReg .linkShape port (v % 2 ^ 40)).modPort port (fun p => { p with deficit := lack, bucketTick := s.tick })

/-- A write to a port's registers. -/
def State.writePort (s : State) (n fn o v : Nat) : State :=
  if o = 0 then (if fn = pf0A then ((s.linkFraming n v).linkEn n v).linkRestart n v else s)
  else if o = 0x28 then s.writeShape n v
  else s

/-- A write of BEAT_CFG by PF0 of port A. -/
def State.writeBeat (s : State) (fn o v : Nat) : State :=
  if o = 0xA00018 ∧ fn = pf0A then
    s.modBeat (fun b => { b with port := v % 16, resyncWorb := bitAt v 8, resyncPend := b.resyncPend || bitAt v 8 })
  else s

/-- A write to a scheduler register. -/
def State.writeSched (s : State) (p o v : Nat) : State :=
  let bad := s.bump .schedBadcfg p
  if o = 0xA00100 then
    (if within 1000 16777214 (bits v 0 24) && decide (bits v 24 24 ≤ 16777214) && within 1000 65534 (bits v 48 16) then s.setReg .schedWin p v
    else bad)
  else if o = 0xA00108 then
    (if decide (bits v 0 13 ≤ 4096) && within 1 254 (bits v 16 8) && within 1 254 (bits v 24 8) then
      s.setReg .schedCfg p (bits v 0 13 + bits v 16 16 * 2 ^ 16)
    else bad)
  else s

/-- A write of CLK_CFG by PF0 of port A: AUTO_RETURN, then FORCE_FB, then RETURN. -/
def State.writeClk (s : State) (fn o v : Nat) : State :=
  if o = 0xF00000 ∧ fn = pf0A then
    let s1 := s.modPwr (fun p => { p with autoReturn := bitAt v 0, returnWorb := bitAt v 2 })
    let s2 := if bitAt v 1 then s1.clkForce else s1.modPwr (fun p => { p with forceFb := false })
    if bitAt v 2 then s2.clkReturn else s2
  else s

/-! ### Partitions and security (14_partitions R381, R384; 15_security R412) -/

/-- Two values in range: the first at most the second, as CIR ≤ PIR. -/
def pairOk (v : Nat) : Bool := decide (bits v 0 32 ≤ bits v 32 32)

/-- Bursts in range: CBS ≤ PBS, and no all-ones count (00_scope R6; DESIGN CHOICE: 81). -/
def burstOk (v : Nat) : Bool := pairOk v && !allOnes (bits v 32 32) 32

/-- A meter with new rates: both buckets stand at their burst sizes. -/
def Meter.setRate (m : Meter) (now v : Nat) : Meter := ({ m with cir := bits v 0 32, pir := bits v 32 32 } : Meter).fresh now

/-- A meter with new bursts. -/
def Meter.setBurst (m : Meter) (now v : Nat) : Meter := ({ m with cbs := bits v 0 32, pbs := bits v 32 32 } : Meter).fresh now

/-- A write to the selected domain's ADM_DOM_ registers. -/
def State.writeDom (s : State) (p o v : Nat) : State :=
  let d := s.reg .admDomSel p
  let put : (Domain → Domain) → State := fun f => s.modPartU (fun u => { u with doms := tabMod { part := p } u.doms d f })
  if (s.selDom p).isNone then s.bump .admBadcfg p
  else if o = 0xB00038 then put (fun x => { x with aware := bitAt v 0 })
  else if o = 0xB00040 then
    (if pairOk v then put (fun x => { x with meter := x.meter.setRate s.tick v }) else s.bump .admBadcfg p)
  else if !burstOk v then s.bump .admBadcfg p
  else put (fun x => { x with meter := x.meter.setBurst s.tick v })

/-- A write to a partition or admission register; the ADM_PART_ registers take writes of PF0 alone. -/
def State.writePart (s : State) (p fn o v : Nat) : State :=
  let bad := s.bump .admBadcfg p
  if o = 0xB00018 then (if v % 2 ^ 16 = 0xFFFF then bad else s.setReg .admOverhead p (v % 2 ^ 16))
  else if o = 0xB00020 then
    (if fnIsPf0 fn && pairOk v then s.modPart p (fun x => { x with meter := x.meter.setRate s.tick v }) else bad)
  else if o = 0xB00028 then
    (if fnIsPf0 fn && burstOk v then s.modPart p (fun x => { x with meter := x.meter.setBurst s.tick v }) else bad)
  else if o = 0xB00030 then s.setReg .admDomSel p (v % 2 ^ 16)
  else if o = 0xB00038 ∨ o = 0xB00040 ∨ o = 0xB00048 then s.writeDom p o v
  else s

/-- A write of SEC_DUST: PF0 of port A, while no confidential partition exists, every field in its range; any other is ignored and counted. -/
def State.writeSec (s : State) (fn o v : Nat) : State :=
  if o ≠ 0xC00008 then s
  else if fn = pf0A ∧ !s.anyConf ∧ bits v 0 5 ≤ 20 ∧ within 6 20 (bits v 8 5) ∧ bits v 16 4 ≤ 12 then
    s.setReg .secDust 0 (bits v 0 5 + bits v 8 5 * 2 ^ 8 + bits v 16 4 * 2 ^ 16)
  else s.denied fn

/-! ### Checkpoint (16_checkpoint R438) -/

/-- A write of CKPT_SLOT_CFG: EN is not changed while BUSY, the other fields not while EN or BUSY; PORT from any PF0, the rest from PF0 of
the PORT so named. -/
def State.writeSlot (s : State) (fn v : Nat) : State :=
  let n := s.selSlot
  let x := s.ckSlot n
  let port := bits v 20 1
  if s.slotBusy n then s
  else if x.en then (if fnPort fn = x.port then s.modSlot n (fun x => { x with en := bitAt v 21 }) else s)
  else if fnPort fn ≠ port then s.modSlot n (fun x => { x with port := port })
  else if within 64 1048575 (bits v 0 20) then
    s.modSlot n (fun x => { x with sizeMib := bits v 0 20, port := port, en := bitAt v 21 })
  else s

/-- A write to a checkpoint register. -/
def State.writeCkpt (s : State) (fn o v : Nat) : State :=
  if o = 0xD00000 then
    (if bits v 0 16 ≠ 0xFFFF ∧ bits v 16 16 ≠ 0xFFFF ∧ contentOk (bits v 32 4) then s.setReg .ckptCfg 0 (v % 2 ^ 36) else s)
  else if o = 0xD00008 then s.setReg .ckptSlotSel 0 (v % 2)
  else if o = 0xD00010 then
    (let x := s.ckSlot s.selSlot
     if x.en || s.slotBusy s.selSlot || fnPort fn != x.port then s
     else s.modSlot s.selSlot (fun x => { x with addr := v / 2 ^ 12 * 2 ^ 12 }))
  else if o = 0xD00018 then s.writeSlot fn v
  else s

/-! ### Core windows (09_scaesh_model R246) -/

/-- CORE_DBG.HALT as a write gives it: a context that no longer halts has no step to make. -/
def Core.setHalt (c : Core) (v : Nat) : Core :=
  let h := v % 16
  { c with halt := h, stepBits := sumOf (fun k => if bitAt c.stepBits k && bitAt h k then 2 ^ k else 0) [0, 1, 2, 3] }

/-- CORE_DBG.STEP as a write gives it: one instruction for each halted context whose bit is 1. -/
def Core.setStep (c : Core) (v : Nat) : Core :=
  { c with stepBits := sumOf (fun k => if bitAt c.stepBits k || (bitAt v (4 + k) && bitAt c.halt k) then 2 ^ k else 0) [0, 1, 2, 3] }

/-- Whether a core belongs to a confidential partition, or to none. -/
def State.coreConf (s : State) (n : Nat) : Bool :=
  match s.clusterPart (clusterOf n) with
  | some p => (s.getPart p).conf
  | none => true

/-- Change a core a function reaches; in a confidential partition the write is ignored and counted (R246, R247). -/
def State.coreDbg (s : State) (fn n : Nat) (f : Core → Core) : State :=
  match s.coreReach fn n with
  | .yes _ => if s.coreConf n then s.bump .coreBadwr n else s.setCore n (f (s.core n))
  | _ => s.denied fn

/-- A write to a core's control registers: CORE_LDM_PAGE, CORE_FAULT.VALID, CORE_DBG; every other is ignored and counted. `v` has 0 in the
bytes a narrower write does not give. -/
def State.writeCoreCtl (s : State) (n o v : Nat) : State :=
  let c := s.core n
  if o = 0x10010 then s.setCore n { c with ldmPage := v % 4 }
  else if o = 0x10020 then (if bitAt v 63 then s.setCore n { c with faultValid := false } else s)
  else if o = 0x10028 then (if s.coreConf n then s.bump .coreBadwr n else s.setCore n ((c.setHalt v).setStep v))
  else s.bump .coreBadwr n

/-- The first byte of the customer region of local data memory (R233). -/
def ldmCustomer : Nat := 0x28000

/-- A write into a core's window. -/
def State.writeCore (s : State) (fn n o width v : Nat) : State :=
  match s.coreReach fn n with
  | .yes _ =>
    let aligned := (width == 4 || width == 8) && o % width == 0
    let a := (s.core n).ldmPage * 0x10000 + (o - 0x20000)
    if 0x10000 ≤ o ∧ o < 0x20000 ∧ aligned then
      (if width = 8 then s.writeCoreCtl n o v
       else if o % 8 = 0 ∨ o = 0x10024 then s.writeCoreCtl n (o / 8 * 8) (v % 2 ^ 32 * 2 ^ (8 * (o % 8)))
       else s.bump .coreBadwr n)
    else if s.coreConf n then s.bump .coreBadwr n
    else if 0x20000 ≤ o ∧ o < coreWindow ∧ width = 8 ∧ aligned ∧ ldmCustomer ≤ a then
      s.setCore n { s.core n with ldm := memWrite (s.core n).ldm a (natLe 8 v) }
    else s.bump .coreBadwr n
  | _ => s.denied fn

/-! ### Owner bytes (02_sessions R52) -/

/-- A write into the session aperture: owner bytes of a non-FREE entry in range take it; every other is ignored and counted. -/
def State.writeOwner (s : State) (fn p off width v : Nat) : State :=
  let id := bits (s.reg .sessWin fn) 0 8 * 4096 + off / 128
  let x := s.getSess id
  let k := off % 128
  if (width == 4 || width == 8) && off % width == 0 && decide (64 ≤ k) && decide (off < 0x80000) && inRange (s.getPart p) id && x.st != .free then
    s.modSess id (fun x => { x with owner := putSlice (fit 0 64 x.owner) (k - 64) (natLe width v) })
  else s.bump .sessBadwr fn

/-! ### The whole of BAR0 (00_scope R7, 01_architecture R22, R23) -/

/-- A write to a register in the instance a function reaches. -/
def State.writeAt (s : State) (fn scope o v : Nat) : State :=
  if o < 0x100000 then s.writeId fn o v
  else if o < 0x300000 then s.writeHif fn o v
  else if o < 0x400000 then
    (if o = 0x300000 then s.setReg .sessWin fn (v % 2 ^ 8) else if o = 0x300020 then s.selectTok fn scope v else s)
  else if o < 0x500000 then s.writeSf scope fn o v
  else if o < 0x600000 then s.writeDir scope o v
  else if o < 0x700000 then s.writeAtt scope o v
  else if o < 0x700200 then s.writeEmit scope o v
  else if o < 0x800000 then s.writeText scope o v
  else if o < 0x900000 then s.writeRet scope fn o v
  else if o < 0x910000 then s.writePort scope fn (o % 0x1000) v
  else if o < 0xA00000 then (if o = 0x910000 ∧ fn = pf0A then s.selClk (v % 16) else s)
  else if o < 0xA00100 then s.writeBeat fn o v
  else if o < 0xB00000 then s.writeSched scope o v
  else if o < 0xC00000 then s.writePart scope fn o v
  else if o < 0xD00000 then s.writeSec fn o v
  else if o < 0xE00000 then s.writeCkpt fn o v
  else if o < 0xF00000 then s
  else s.writeClk fn o v

/-- Whether a register's bits are cleared by ones: bytes a write does not give then stand as zeros. -/
def clearsByOne (o : Nat) : Bool := o == 0x240000

/-- A 32-bit or 64-bit aligned write to BAR0. Half of a 64-bit register written keeps the other half; a 64-bit write over two 32-bit registers
writes both; a write of another width or place is ignored (DESIGN CHOICE: 27). -/
def State.busWrite (s : State) (fn o width v : Nat) : State :=
  if coreBase ≤ o ∧ o < 0x4000000 ∧ fn < fnCount then
    (if s.bound fn then s.writeCore fn ((o - coreBase) / coreWindow) ((o - coreBase) % coreWindow) width v else s.denied fn)
  else
    match s.reach fn o with
    | .nothing => s
    | .denied => s.denied fn
    | .yes scope =>
      if 0x380000 ≤ o ∧ o < 0x400000 then s.writeOwner fn scope (o - 0x380000) width v
      else if width = 8 ∧ o % 8 = 0 then
        (if wideReg o then s.writeAt fn scope o (v % 2 ^ 64)
        else (s.writeAt fn scope o (v % 2 ^ 32)).writeAt fn scope (o + 4) (v / 2 ^ 32 % 2 ^ 32))
      else if width = 4 ∧ o % 4 = 0 then
        (if wideReg o then
          let old := if clearsByOne (o / 8 * 8) then 0 else s.readAt fn scope (o / 8 * 8)
          s.writeAt fn scope (o / 8 * 8) (setBits old (8 * (o % 8)) 32 v)
        else s.writeAt fn scope o (v % 2 ^ 32))
      else s

/-! ### The commands -/

/-- REG_WRITE: a write to BAR0, applied by the register's access codes and range checks. -/
def execRegWrite (fn addr width value : Nat) (s : State) : Out3 := whenUp s (fun s => s.busWrite fn addr width value)

/-- A write of a per-partition register by a function, at the register's offset. -/
def partWrite (s : State) (fn o : Nat) (f : State → Nat → State) : Out3 :=
  whenUp s (fun s => match s.reach fn o with
    | .yes p => f s p
    | .denied => s.denied fn
    | .nothing => s)

/-- SF_PL_SEL_WRITE. -/
def execSfPlSelWrite (fn value : Nat) (s : State) : Out3 := partWrite s fn 0x400030 (fun s p => s.selectDesc p value)

/-- SF_PROBE_SEL_WRITE. -/
def execSfProbeSelWrite (fn value : Nat) (s : State) : Out3 := partWrite s fn 0x400050 (fun s p => s.selectProbe p (value % 2 ^ 32))

/-- DIR_REC_SEL_WRITE. -/
def execDirRecSelWrite (fn value : Nat) (s : State) : Out3 := partWrite s fn 0x500020 (fun s p => s.selectRec p value)

/-- TEXT_HELD_SEL_WRITE. -/
def execTextHeldSelWrite (fn value : Nat) (s : State) : Out3 := partWrite s fn 0x700230 (fun s p => s.selectHeld p (value % 2 ^ 32))

/-- SESS_TOK_SEL_WRITE. -/
def execSessTokSelWrite (fn value : Nat) (s : State) : Out3 := partWrite s fn 0x300020 (fun s p => s.selectTok fn p value)

/-- ATT_TURN_CLR. -/
def execAttTurnClr (fn value : Nat) (s : State) : Out3 := partWrite s fn 0x600028 (fun s p => s.clearTurn p value)

/-- OWNER_BYTE_WRITE: a write at an offset of the session aperture. -/
def execOwnerByteWrite (fn offset width value : Nat) (s : State) : Out3 :=
  partWrite s fn 0x380000 (fun s p => s.writeOwner fn p offset width value)

/-- CORE_WINDOW_WRITE: a write at an offset of a core's window. -/
def execCoreWindowWrite (fn core offset width value : Nat) (s : State) : Out3 :=
  withBound s fn (fun s => s.writeCore fn core offset width value)

/-- CORE_DBG_HALT: the HALT field of a CORE_DBG write. -/
def execCoreDbgHalt (fn core value : Nat) (s : State) : Out3 := withBound s fn (fun s => s.coreDbg fn core (fun c => c.setHalt value))

/-- CORE_DBG_STEP: the STEP field of a CORE_DBG write. -/
def execCoreDbgStep (fn core value : Nat) (s : State) : Out3 := withBound s fn (fun s => s.coreDbg fn core (fun c => c.setStep value))

/-- CORE_FAULT_CLEAR: CORE_FAULT.VALID written 1. -/
def execCoreFaultClear (fn core value : Nat) (s : State) : Out3 :=
  withBound s fn (fun s => match s.coreReach fn core with
    | .yes _ => s.writeCoreCtl core 0x10020 value
    | _ => s.denied fn)

/-! ### The dust sheet's latch (15_security R403) -/

/-- A count rounded down to a multiple of 2^CNT_SHIFT. -/
def coarse (shift n : Nat) : Nat := n / 2 ^ shift * 2 ^ shift

/-- Latch one counter under the dust sheet. -/
def State.latchCtr (s : State) (c : Counter) (scope : Nat) : State :=
  s.modSec (fun x => { x with latch := tabPut 0 x.latch (ctrKey c scope) (word (coarse s.cntShift (s.ctr c scope).toNat)) })

/-- DUST_LATCH: at tick 0 of a beat whose number is a multiple of 2^EPOCH_LOG2, outside a beat hold, the event counters of every
confidential partition and of the ports bound to it are latched. -/
def execDustLatch (s : State) : Out3 :=
  whenUp s (fun s =>
    if s.beat.tick = 0 ∧ !s.beat.hold ∧ !s.beat.none_ ∧ s.beat.num % 2 ^ s.epochLog2 = 0 then
      let parts := s.part.parts.filter (fun x => x.2.conf && x.2.st != .none_)
      let insts : List (Nat × Scope) := parts.flatMap (fun x => (x.1, Scope.part) ::
        (s.part.ports.filter (fun y => y.2 == x.1)).map (fun y => (y.1, Scope.port)))
      insts.foldl (fun s e => counterTable.foldl (fun s c =>
        if c.2.2.1 = e.2 ∧ s.dusted c.1 e.2 e.1 then s.latchCtr c.1 e.1 else s) s) s
    else s)

end Sys2Proof.Machine
end

