-- ==== Sys2Proof/Machine/ScaeshVec.lean ====
section
/-! DEFINITION. Scaesh vector and predicate instructions (10_scaesh_instructions R258 to R260). -/

namespace Sys2Proof.Machine

/-- The element format of a type code (R258): FP32, BF16, FP8 E4M3, FP8 E5M2. -/
def elemFmt : Nat → FFmt
  | 0 => fp32
  | 1 => bf16
  | 2 => e4m3
  | _ => e5m2

/-- The bytes of an element. -/
def elemBytes : Nat → Nat
  | 0 => 4
  | 1 => 2
  | _ => 1

/-- The elements of a vector register, `w` bytes each, lowest lane first. -/
def vElems (w : Nat) (v : Vec) : List Nat := (List.range (256 / w)).map (fun i => bits v.toNat (8 * w * i) (8 * w))

/-- The vector register of a list of elements. -/
def vOf (w : Nat) (l : List Nat) : Vec := BitVec.ofNat 2048 (l.foldr (fun x n => x % 2 ^ (8 * w) + n * 2 ^ (8 * w)) 0)

/-- Replace the active elements of a vector register: element i is active where the guard bit of its lowest byte is on, and
inactive elements keep their old value (R250). -/
def vUpd (c : Ctx) (w : GWord) (sz : Nat) (old : Vec) (f : Nat → Nat) : Vec :=
  vOf sz ((List.range (256 / sz)).map (fun i =>
    if laneOn c w (sz * i) then f i else bits old.toNat (8 * sz * i) (8 * sz)))

/-- Element i of a vector register. -/
def vEl (sz : Nat) (v : Vec) (i : Nat) : Nat := bits v.toNat (8 * sz * i) (8 * sz)

/-- An element as an FP32 value (every element type is a subset of FP32). -/
def elemF32 (ty n : Nat) : W32 := toF32 (fDecode (elemFmt ty) n)

/-- An FP32 value rounded to an element type. -/
def toElem (ty : Nat) (x : W32) : Nat := fEncode (elemFmt ty) (f32 x)

/-- The shape of a vector arithmetic word: F[3:0] is an assigned type. -/
def vecShape (w : GWord) (a b c : Use) : Shape :=
  { d := .v, a := a, b := b, c := c, f := 0xF, vec := true, ok := decide (w.f % 16 < 4) }

/-- Vector arithmetic on the elements of v[A], v[B] and v[C]. -/
def vArith (s : State) (t : Site) (w : GWord) (op : Nat) (b c : Use) (f : W32 → W32 → W32 → W32) : Out3 :=
  whenUp s (fun s => issue s t op w (vecShape w .v b c) (fun x _ =>
    let ty := w.f % 16
    let sz := elemBytes ty
    let e : Nat → Nat → W32 := fun r i => elemF32 ty (vEl sz (x.rv r) i)
    .next (x.wv w.d (vUpd x w sz (x.rv w.d) (fun i => toElem ty (f (e w.a i) (e w.b i) (e w.c i))))) s))

/-- VADD (R258). -/
def execVadd (t : Site) (w : GWord) (s : State) : Out3 := vArith s t w 0x40 .v .none (fun a b _ => f32Add a b)
/-- VSUB (R258). -/
def execVsub (t : Site) (w : GWord) (s : State) : Out3 :=
  vArith s t w 0x41 .v .none (fun a b _ => toF32 (fAdd (f32 a) (fNeg (f32 b))))
/-- VMUL (R258). -/
def execVmul (t : Site) (w : GWord) (s : State) : Out3 := vArith s t w 0x42 .v .none (fun a b _ => f32Mul a b)
/-- VFMA (R258): one rounding. -/
def execVfma (t : Site) (w : GWord) (s : State) : Out3 := vArith s t w 0x43 .v .v (fun a b c => f32Fma a b c)
/-- VMAX (R258): a NaN operand gives NaN. -/
def execVmax (t : Site) (w : GWord) (s : State) : Out3 := vArith s t w 0x44 .v .none (fun a b _ => f32Max a b)
/-- VMIN (R258): a NaN operand gives NaN. -/
def execVmin (t : Site) (w : GWord) (s : State) : Out3 := vArith s t w 0x45 .v .none (fun a b _ => f32Min a b)

/-- An approximate function of each element: which value of the band comes out is free, element by element. -/
def vApprox (s : State) (t : Site) (w : GWord) (op : Nat) (f : W32 → Nat → W32) : Out3 :=
  whenUp s (fun s => issue s t op w (vecShape w .v .none .none) (fun x _ =>
    let ty := w.f % 16
    let sz := elemBytes ty
    let n := s.drawn
    .next (x.wv w.d (vUpd x w sz (x.rv w.d) (fun i => toElem ty (f (elemF32 ty (vEl sz (x.rv w.a) i)) (Config.approx n i)))))
      s.draw))

/-- VEXP (R258): e^v[A], relative error at most 2^-21. -/
def execVexp (t : Site) (w : GWord) (s : State) : Out3 := vApprox s t w 0x46 f32Exp
/-- VLOG (R258): ln v[A]. -/
def execVlog (t : Site) (w : GWord) (s : State) : Out3 := vApprox s t w 0x47 f32Log
/-- VRCP (R258): 1 / v[A]. -/
def execVrcp (t : Site) (w : GWord) (s : State) : Out3 := vApprox s t w 0x48 f32Rcp

/-- VCVT (R258): element i of v[A] in type F[3:0] to element i of v[D] in type F[7:4]; where a narrower destination has no
source element, its active elements hold free values. -/
def execVcvt (t : Site) (w : GWord) (s : State) : Out3 :=
  whenUp s (fun s => issue s t 0x49 w
    { d := .v, a := .v, f := 0xFF, vec := true, ok := decide (w.f % 16 < 4) && decide (w.f / 16 < 4) } (fun x _ =>
      let src := w.f % 16
      let dst := w.f / 16
      let ssz := elemBytes src
      let dsz := elemBytes dst
      let gone := Config.vReg s.drawn 0
      .next (x.wv w.d (vUpd x w dsz (x.rv w.d) (fun i =>
        if i < 256 / ssz then toElem dst (elemF32 src (vEl ssz (x.rv w.a) i)) else vEl dsz gone i))) s.draw))

/-- The active elements of v[A] as FP32 values, in ascending order. -/
def activeElems (x : Ctx) (w : GWord) (ty sz : Nat) : List W32 :=
  ((List.range (256 / sz)).filter (fun i => laneOn x w (sz * i))).map (fun i => elemF32 ty (vEl sz (x.rv w.a) i))

/-- A reduction of the active elements of v[A] into element 0 of v[D]. -/
def vReduce (s : State) (t : Site) (w : GWord) (op : Nat) (f : W32 → W32 → W32) : Out3 :=
  whenUp s (fun s => issue s t op w (vecShape w .v .none .none) (fun x _ =>
    let ty := w.f % 16
    let sz := elemBytes ty
    match activeElems x w ty sz with
    | [] => .next x s
    | e :: l =>
      let r := toElem ty (l.foldl f e)
      let es := vElems sz (x.rv w.d)
      .next (x.wv w.d (vOf sz (r :: es.drop 1))) s))

/-- VRMAX (R258): element 0 = the maximum over the active elements. -/
def execVrmax (t : Site) (w : GWord) (s : State) : Out3 := vReduce s t w 0x4A f32Max
/-- VRSUM (R258): element 0 = the sum over the active elements, in ascending element order. -/
def execVrsum (t : Site) (w : GWord) (s : State) : Out3 := vReduce s t w 0x4B f32Add

/-- A scale exponent as far as it can matter: beyond ±1,000 every finite FP32 value has overflowed or vanished. -/
def scaleExp (b : Word) : Int := max (-1000) (min 1000 (sgn b))

/-- VSCL (R258): v[A] × 2^x[B], x[B] signed. -/
def execVscl (t : Site) (w : GWord) (s : State) : Out3 :=
  whenUp s (fun s => issue s t 0x4C w (vecShape w .v .x .none) (fun x _ =>
    let ty := w.f % 16
    let sz := elemBytes ty
    let k := scaleExp (x.rx w.b)
    .next (x.wv w.d (vUpd x w sz (x.rv w.d) (fun i =>
      toElem ty (toF32 (fScale (f32 (elemF32 ty (vEl sz (x.rv w.a) i))) k))))) s))

/-- VSEL (R258): v[A] where the element's bit lane of p[C] is 1, else v[B]. -/
def execVsel (t : Site) (w : GWord) (s : State) : Out3 :=
  whenUp s (fun s => issue s t 0x4D w (vecShape w .v .v .p) (fun x _ =>
    let sz := elemBytes (w.f % 16)
    let m := x.rp w.c
    .next (x.wv w.d (vUpd x w sz (x.rv w.d) (fun i =>
      if m.getLsbD (sz * i) then vEl sz (x.rv w.a) i else vEl sz (x.rv w.b) i))) s))

/-! ### Vector memory and moves (R259) -/

/-- 256 bytes as a vector register. -/
def vecOf (b : Bytes) : Vec := BitVec.ofNat 2048 (leNat b)

/-- The bytes of a vector register. -/
def vecBytes (v : Vec) : Bytes := natLe 256 v.toNat

/-- A vector load under its guard: only the byte lanes whose guard bit is 1 change. -/
def vLoad (x : Ctx) (w : GWord) (b : Bytes) : Ctx :=
  x.wv w.d (vUpd x w 1 (x.rv w.d) (fun i => byteAt b i))

/-- The bytes a guarded vector store leaves: v[D] where the guard bit is 1, the old bytes elsewhere. -/
def vStore (x : Ctx) (w : GWord) (old : Bytes) : Bytes := vecBytes (vUpd x w 1 (vecOf old) (fun i => vEl 1 (x.rv w.d) i))

/-- VLD (R259). -/
def execVld (t : Site) (w : GWord) (s : State) : Out3 :=
  whenUp s (fun s => issue s t 0x50 w { d := .v, a := .x, i := imm24, vec := true } (fun c v =>
    withLoc (s.ldmLoc v (addrOf c w) 256 256) (fun l => .next (vLoad c w (s.locRead t.core l 256)) s)))

/-- VST (R259): only the bytes whose guard bit is 1 are written. -/
def execVst (t : Site) (w : GWord) (s : State) : Out3 :=
  whenUp s (fun s => issue s t 0x51 w { d := .v, a := .x, i := imm24, vec := true } (fun c v =>
    withLoc (s.ldmLoc v (addrOf c w) 256 256) (fun l =>
      .next c (s.locWrite t.core l (vStore c w (s.locRead t.core l 256))))))

/-- VCLD (R259): a merge-area reference is accepted. -/
def execVcld (t : Site) (w : GWord) (s : State) : Out3 :=
  whenUp s (fun s => issue s t 0x52 w { d := .v, a := .x, i := imm24, vec := true } (fun c v =>
    withLoc (s.cwsLoc v (addrOf c w) 256 256 true) (fun l => .next (vLoad c w (s.locRead t.core l 256)) s)))

/-- VCST (R259): a store through a reference raises CWS_RANGE. -/
def execVcst (t : Site) (w : GWord) (s : State) : Out3 :=
  whenUp s (fun s => issue s t 0x53 w { d := .v, a := .x, i := imm24, vec := true } (fun c v =>
    withLoc (s.cwsLoc v (addrOf c w) 256 256 false) (fun l =>
      .next c (s.locWrite t.core l (vStore c w (s.locRead t.core l 256))))))

/-- VGET (R259): the 32-bit lane I[5:0] of v[A], zero-extended, where that lane is active. -/
def execVget (t : Site) (w : GWord) (s : State) : Out3 :=
  whenUp s (fun s => issue s t 0x54 w { d := .x, a := .v, i := 63, vec := true } (fun c _ =>
    .next (if laneOn c w (4 * w.i) then c.wx w.d (word (vEl 4 (c.rv w.a) w.i)) else c) s))

/-- VPUT (R259): the 32-bit lane I[5:0] of v[D] = x[A][31:0], where that lane is active. -/
def execVput (t : Site) (w : GWord) (s : State) : Out3 :=
  whenUp s (fun s => issue s t 0x55 w { d := .v, a := .x, i := 63, vec := true } (fun c _ =>
    let old := c.rv w.d
    .next (c.wv w.d (vUpd c w 4 old (fun i => if i = w.i then (c.rx w.a).toNat % 2 ^ 32 else vEl 4 old i))) s))

/-- VSPL (R259): every active 32-bit lane of v[D] = x[A][31:0]. -/
def execVspl (t : Site) (w : GWord) (s : State) : Out3 :=
  whenUp s (fun s => issue s t 0x56 w { d := .v, a := .x, vec := true } (fun c _ =>
    .next (c.wv w.d (vUpd c w 4 (c.rv w.d) (fun _ => (c.rx w.a).toNat % 2 ^ 32))) s))

/-- VBIT (R259): bitwise AND, OR, XOR or AND-NOT by F[1:0]. -/
def execVbit (t : Site) (w : GWord) (s : State) : Out3 :=
  whenUp s (fun s => issue s t 0x57 w { d := .v, a := .v, b := .v, f := 3, vec := true } (fun c _ =>
    let a := c.rv w.a
    let b := c.rv w.b
    let r : Vec := match w.f % 4 with
      | 0 => a &&& b
      | 1 => a ||| b
      | 2 => a ^^^ b
      | _ => a &&& ~~~b
    .next (c.wv w.d (vUpd c w 1 (c.rv w.d) (fun i => vEl 1 r i))) s))

/-! ### Predicates (R260) -/

/-- A predicate from two predicates. -/
def predRR (s : State) (t : Site) (w : GWord) (op : Nat) (b : Use) (f : Pred → Pred → Pred) : Out3 :=
  whenUp s (fun s => issue s t op w { d := .p, a := .p, b := b } (fun c _ => .next (c.wp w.d (f (c.rp w.a) (c.rp w.b))) s))

/-- PAND (R260). -/
def execPand (t : Site) (w : GWord) (s : State) : Out3 := predRR s t w 0x60 .p (fun a b => a &&& b)
/-- POR (R260). -/
def execPor (t : Site) (w : GWord) (s : State) : Out3 := predRR s t w 0x61 .p (fun a b => a ||| b)
/-- PXOR (R260). -/
def execPxor (t : Site) (w : GWord) (s : State) : Out3 := predRR s t w 0x62 .p (fun a b => a ^^^ b)
/-- PNOT (R260). -/
def execPnot (t : Site) (w : GWord) (s : State) : Out3 := predRR s t w 0x63 .none (fun a _ => ~~~a)

/-- A comparison of PCMP: 0 =, 1 ≠, 2 <, 3 ≤, 4 >, 5 ≥; a NaN operand gives 0 except under ≠. -/
def fCond (cond : Nat) (a b : FVal) : Bool :=
  match cond with
  | 0 => fEq a b
  | 1 => !fEq a b
  | 2 => fLt a b
  | 3 => fLt a b || fEq a b
  | 4 => fLt b a
  | _ => fLt b a || fEq a b

/-- The predicate with the byte lanes that a test picks. -/
def predOf (f : Nat → Bool) : Pred := BitVec.ofNat 256 ((List.range 256).foldr (fun i n => b2n (f i) + 2 * n) 0)

/-- PCMP (R260): all byte lanes of each element set where the comparison holds. -/
def execPcmp (t : Site) (w : GWord) (s : State) : Out3 :=
  whenUp s (fun s => issue s t 0x64 w
    { d := .p, a := .v, b := .v, f := 0x7F, ok := decide (w.f % 16 < 4) && decide (w.f / 16 < 6) } (fun c _ =>
      let ty := w.f % 16
      let sz := elemBytes ty
      let e : Nat → Nat → FVal := fun r i => fDecode (elemFmt ty) (vEl sz (c.rv r) i)
      .next (c.wp w.d (predOf (fun l => fCond (w.f / 16) (e w.a (l / sz)) (e w.b (l / sz))))) s))

/-- PFX (R260): the first I[8:0] byte lanes, 0 to 256. -/
def execPfx (t : Site) (w : GWord) (s : State) : Out3 :=
  whenUp s (fun s => issue s t 0x65 w { d := .p, i := 0x1FF, ok := decide (w.i ≤ 256) } (fun c _ =>
    .next (c.wp w.d (BitVec.ofNat 256 (2 ^ w.i - 1))) s))

/-- PCNT (R260): x[D] = set bits of p[A]. -/
def execPcnt (t : Site) (w : GWord) (s : State) : Out3 :=
  whenUp s (fun s => issue s t 0x66 w { d := .x, a := .p } (fun c _ =>
    .next (c.wx w.d (word (popcount (c.rp w.a).toNat 256))) s))

end Sys2Proof.Machine
end

