-- ==== Sys2Proof/Machine/Dispatch.lean ====
section
/-! DEFINITION. The one dispatch: every command of the table to its meaning. -/

namespace Sys2Proof.Machine

/-- The effect of a command on everything but the queue. -/
def exec (i : Instr) (s : State) : Host.Outcome State Fault Refusal :=
  match i with
  | .sessOpen qk => Sys2Proof.Machine.execSessOpen qk s
  | .sessAppend qk data => Sys2Proof.Machine.execSessAppend qk data s
  | .sessGenerate qk => Sys2Proof.Machine.execSessGenerate qk s
  | .sessPark qk => Sys2Proof.Machine.execSessPark qk s
  | .sessStrip qk => Sys2Proof.Machine.execSessStrip qk s
  | .sessResume qk => Sys2Proof.Machine.execSessResume qk s
  | .sessHint qk => Sys2Proof.Machine.execSessHint qk s
  | .sessCancel qk => Sys2Proof.Machine.execSessCancel qk s
  | .sessClose qk => Sys2Proof.Machine.execSessClose qk s
  | .sessExport qk => Sys2Proof.Machine.execSessExport qk s
  | .dirPublish qk => Sys2Proof.Machine.execDirPublish qk s
  | .dirRetire qk => Sys2Proof.Machine.execDirRetire qk s
  | .dirRetireDomain qk => Sys2Proof.Machine.execDirRetireDomain qk s
  | .stencilLoad qk data => Sys2Proof.Machine.execStencilLoad qk data s
  | .stencilUnload qk => Sys2Proof.Machine.execStencilUnload qk s
  | .sampLoad qk data => Sys2Proof.Machine.execSampLoad qk data s
  | .sampUnload qk => Sys2Proof.Machine.execSampUnload qk s
  | .stopLoad qk data => Sys2Proof.Machine.execStopLoad qk data s
  | .stopUnload qk => Sys2Proof.Machine.execStopUnload qk s
  | .tokLoad qk data => Sys2Proof.Machine.execTokLoad qk data s
  | .tokUnload qk => Sys2Proof.Machine.execTokUnload qk s
  | .tokEncode qk data => Sys2Proof.Machine.execTokEncode qk data s
  | .progLoad qk data => Sys2Proof.Machine.execProgLoad qk data s
  | .progUnload qk => Sys2Proof.Machine.execProgUnload qk s
  | .progCall qk => Sys2Proof.Machine.execProgCall qk s
  | .progCancel qk => Sys2Proof.Machine.execProgCancel qk s
  | .indexCreate qk data => Sys2Proof.Machine.execIndexCreate qk data s
  | .indexWrite qk data => Sys2Proof.Machine.execIndexWrite qk data s
  | .search qk data => Sys2Proof.Machine.execSearch qk data s
  | .indexCompact qk => Sys2Proof.Machine.execIndexCompact qk s
  | .indexDrop qk => Sys2Proof.Machine.execIndexDrop qk s
  | .partCreate qk data => Sys2Proof.Machine.execPartCreate qk data s
  | .partDestroy qk => Sys2Proof.Machine.execPartDestroy qk s
  | .partRecompose qk data => Sys2Proof.Machine.execPartRecompose qk data s
  | .partBind qk => Sys2Proof.Machine.execPartBind qk s
  | .domBind qk => Sys2Proof.Machine.execDomBind qk s
  | .domUnbind qk => Sys2Proof.Machine.execDomUnbind qk s
  | .meterReport qk => Sys2Proof.Machine.execMeterReport qk s
  | .ckptTake qk => Sys2Proof.Machine.execCkptTake qk s
  | .ckptRestore qk a b => Sys2Proof.Machine.execCkptRestore qk a b s
  | .cmdDoorbell fn page width value => Sys2Proof.Machine.execCmdDoorbell fn page width value s
  | .cplDoorbell fn page width value => Sys2Proof.Machine.execCplDoorbell fn page width value s
  | .emitDoorbell fn page width value => Sys2Proof.Machine.execEmitDoorbell fn page width value s
  | .cmdFetch qk raw loads => Sys2Proof.Machine.execCmdFetch qk raw loads s
  | .qsEnable fn q value => Sys2Proof.Machine.execQsEnable fn q value s
  | .qsDisable fn q value => Sys2Proof.Machine.execQsDisable fn q value s
  | .qsWorkDrained qk => Sys2Proof.Machine.execQsWorkDrained qk s
  | .msixCoalesceTimer qk emit => Sys2Proof.Machine.execMsixCoalesceTimer qk emit s
  | .flr fn => Sys2Proof.Machine.execFlr fn s
  | .pcieLinkDown port => Sys2Proof.Machine.execPcieLinkDown port s
  | .perstAssert port => Sys2Proof.Machine.execPerstAssert port s
  | .perstDeassert port => Sys2Proof.Machine.execPerstDeassert port s
  | .mbxGo fn n len => Sys2Proof.Machine.execMbxGo fn n len s
  | .pupoacDatagram data => Sys2Proof.Machine.execPupoacDatagram data s
  | .info => Sys2Proof.Machine.execInfo s
  | .healthState => Sys2Proof.Machine.execHealthState s
  | .healthSensors => Sys2Proof.Machine.execHealthSensors s
  | .healthPower => Sys2Proof.Machine.execHealthPower s
  | .wear => Sys2Proof.Machine.execWear s
  | .attestStart => Sys2Proof.Machine.execAttestStart s
  | .attestRead => Sys2Proof.Machine.execAttestRead s
  | .attestSigned => Sys2Proof.Machine.execAttestSigned s
  | .meter => Sys2Proof.Machine.execMeter s
  | .bootcfgGet => Sys2Proof.Machine.execBootcfgGet s
  | .bootcfgSet => Sys2Proof.Machine.execBootcfgSet s
  | .firmwareBegin => Sys2Proof.Machine.execFirmwareBegin s
  | .firmwareWrite => Sys2Proof.Machine.execFirmwareWrite s
  | .firmwareCommit => Sys2Proof.Machine.execFirmwareCommit s
  | .firmwareStatus => Sys2Proof.Machine.execFirmwareStatus s
  | .pupoacResetMgmt => Sys2Proof.Machine.execPupoacResetMgmt s
  | .pupoacResetModule => Sys2Proof.Machine.execPupoacResetModule s
  | .claim port => Sys2Proof.Machine.execClaim port s
  | .renew port => Sys2Proof.Machine.execRenew port s
  | .release port => Sys2Proof.Machine.execRelease port s
  | .mgmtDomainReset port value => Sys2Proof.Machine.execMgmtDomainReset port value s
  | .hawkReady => Sys2Proof.Machine.execHawkReady s
  | .heartbeat => Sys2Proof.Machine.execHeartbeat s
  | .mgmtTick => Sys2Proof.Machine.execMgmtTick s
  | .wearSample raws => Sys2Proof.Machine.execWearSample raws s
  | .rstReq value => Sys2Proof.Machine.execRstReq value s
  | .dynamicAddressAssign addr => Sys2Proof.Machine.execDynamicAddressAssign addr s
  | .thermalSample temps avg input vin => Sys2Proof.Machine.execThermalSample temps avg input vin s
  | .inputUp straps => Sys2Proof.Machine.execInputUp straps s
  | .inputLockout high => Sys2Proof.Machine.execInputLockout high s
  | .bulkCharged => Sys2Proof.Machine.execBulkCharged s
  | .railRegulation => Sys2Proof.Machine.execRailRegulation s
  | .railTimeout => Sys2Proof.Machine.execRailTimeout s
  | .railRetry => Sys2Proof.Machine.execRailRetry s
  | .xoDlyExpiry => Sys2Proof.Machine.execXoDlyExpiry s
  | .fbClkCheck pass => Sys2Proof.Machine.execFbClkCheck pass s
  | .clockLock => Sys2Proof.Machine.execClockLock s
  | .modResetNRelease => Sys2Proof.Machine.execModResetNRelease s
  | .modResetN ns straps => Sys2Proof.Machine.execModResetN ns straps s
  | .moduleReset straps => Sys2Proof.Machine.execModuleReset straps s
  | .fbClkLost => Sys2Proof.Machine.execFbClkLost s
  | .cdrLockLost port => Sys2Proof.Machine.execCdrLockLost port s
  | .autoReturn => Sys2Proof.Machine.execAutoReturn s
  | .returnClk fn => Sys2Proof.Machine.execReturn fn s
  | .forceFb fn => Sys2Proof.Machine.execForceFb fn s
  | .linkClkselWrite fn value => Sys2Proof.Machine.execLinkClkselWrite fn value s
  | .slewDone => Sys2Proof.Machine.execSlewDone s
  | .clockLossRecovery straps => Sys2Proof.Machine.execClockLossRecovery straps s
  | .phyUp port => Sys2Proof.Machine.execPhyUp port s
  | .phyDown port => Sys2Proof.Machine.execPhyDown port s
  | .hello port => Sys2Proof.Machine.execHello port s
  | .helloResend port => Sys2Proof.Machine.execHelloResend port s
  | .linkRestart fn port value => Sys2Proof.Machine.execLinkRestart fn port value s
  | .linkEn fn port value => Sys2Proof.Machine.execLinkEn fn port value s
  | .linkFraming fn port value => Sys2Proof.Machine.execLinkFraming fn port value s
  | .rxFrame port corr fecBad frame => Sys2Proof.Machine.execRxFrame port corr fecBad frame s
  | .credit port => Sys2Proof.Machine.execCredit port s
  | .creditSend port vc => Sys2Proof.Machine.execCreditSend port vc s
  | .egressFrame port => Sys2Proof.Machine.execEgressFrame port s
  | .beat port => Sys2Proof.Machine.execBeat port s
  | .beatTick0 loads => Sys2Proof.Machine.execBeatTick0 loads s
  | .roster part => Sys2Proof.Machine.execRoster part s
  | .prefillWindowOpen part => Sys2Proof.Machine.execPrefillWindowOpen part s
  | .bulkWindowOpen part => Sys2Proof.Machine.execBulkWindowOpen part s
  | .syntheticBeat => Sys2Proof.Machine.execSyntheticBeat s
  | .beatHold => Sys2Proof.Machine.execBeatHold s
  | .resync fn => Sys2Proof.Machine.execResync fn s
  | .beatNowRead fn => Sys2Proof.Machine.execBeatNowRead fn s
  | .stallTimeout sess => Sys2Proof.Machine.execStallTimeout sess s
  | .carryLimit sess => Sys2Proof.Machine.execCarryLimit sess s
  | .dustLatch => Sys2Proof.Machine.execDustLatch s
  | .qSubmit port vc => Sys2Proof.Machine.execQSubmit port vc s
  | .kvAppend port => Sys2Proof.Machine.execKvAppend port s
  | .learn sess => Sys2Proof.Machine.execLearn sess s
  | .logits port => Sys2Proof.Machine.execLogits port s
  | .stencilFetch sess => Sys2Proof.Machine.execStencilFetch sess s
  | .kvRead port => Sys2Proof.Machine.execKvRead port s
  | .kvDataSend sess => Sys2Proof.Machine.execKvDataSend sess s
  | .moveOffer port => Sys2Proof.Machine.execMoveOffer port s
  | .moveAccept port => Sys2Proof.Machine.execMoveAccept port s
  | .moveRefuse port => Sys2Proof.Machine.execMoveRefuse port s
  | .moveLog port => Sys2Proof.Machine.execMoveLog port s
  | .moveLogged port => Sys2Proof.Machine.execMoveLogged port s
  | .moveKv port => Sys2Proof.Machine.execMoveKv port s
  | .moveDone port => Sys2Proof.Machine.execMoveDone port s
  | .moveAck port => Sys2Proof.Machine.execMoveAck port s
  | .moveAbandon port => Sys2Proof.Machine.execMoveAbandon port s
  | .deal cluster => Sys2Proof.Machine.execDeal cluster s
  | .decodeItem core check late => Sys2Proof.Machine.execDecodeItem core check late s
  | .prefillUnit core late check => Sys2Proof.Machine.execPrefillUnit core late check s
  | .mergeContinuation core => Sys2Proof.Machine.execMergeContinuation core s
  | .rankedResult sess => Sys2Proof.Machine.execRankedResult sess s
  | .callInvocation core ctx => Sys2Proof.Machine.execCallInvocation core ctx s
  | .watchdog core ctx => Sys2Proof.Machine.execWatchdog core ctx s
  | .progSwitch => Sys2Proof.Machine.execProgSwitch s
  | .tagComplete core ctx tag => Sys2Proof.Machine.execTagComplete core ctx tag s
  | .add site w => Sys2Proof.Machine.execAdd site w s
  | .sub site w => Sys2Proof.Machine.execSub site w s
  | .mul site w => Sys2Proof.Machine.execMul site w s
  | .mulhu site w => Sys2Proof.Machine.execMulhu site w s
  | .and site w => Sys2Proof.Machine.execAnd site w s
  | .or site w => Sys2Proof.Machine.execOr site w s
  | .xor site w => Sys2Proof.Machine.execXor site w s
  | .shl site w => Sys2Proof.Machine.execShl site w s
  | .shr site w => Sys2Proof.Machine.execShr site w s
  | .sra site w => Sys2Proof.Machine.execSra site w s
  | .min site w => Sys2Proof.Machine.execMin site w s
  | .max site w => Sys2Proof.Machine.execMax site w s
  | .minu site w => Sys2Proof.Machine.execMinu site w s
  | .maxu site w => Sys2Proof.Machine.execMaxu site w s
  | .slt site w => Sys2Proof.Machine.execSlt site w s
  | .sltu site w => Sys2Proof.Machine.execSltu site w s
  | .addi site w => Sys2Proof.Machine.execAddi site w s
  | .andi site w => Sys2Proof.Machine.execAndi site w s
  | .ori site w => Sys2Proof.Machine.execOri site w s
  | .xori site w => Sys2Proof.Machine.execXori site w s
  | .shli site w => Sys2Proof.Machine.execShli site w s
  | .shri site w => Sys2Proof.Machine.execShri site w s
  | .srai site w => Sys2Proof.Machine.execSrai site w s
  | .slti site w => Sys2Proof.Machine.execSlti site w s
  | .li site w => Sys2Proof.Machine.execLi site w s
  | .divu site w => Sys2Proof.Machine.execDivu site w s
  | .remu site w => Sys2Proof.Machine.execRemu site w s
  | .clz site w => Sys2Proof.Machine.execClz site w s
  | .popc site w => Sys2Proof.Machine.execPopc site w s
  | .crc site w => Sys2Proof.Machine.execCrc site w s
  | .insh site w => Sys2Proof.Machine.execInsh site w s
  | .beq site w => Sys2Proof.Machine.execBeq site w s
  | .bne site w => Sys2Proof.Machine.execBne site w s
  | .blt site w => Sys2Proof.Machine.execBlt site w s
  | .bge site w => Sys2Proof.Machine.execBge site w s
  | .bltu site w => Sys2Proof.Machine.execBltu site w s
  | .bgeu site w => Sys2Proof.Machine.execBgeu site w s
  | .jal site w => Sys2Proof.Machine.execJal site w s
  | .jr site w => Sys2Proof.Machine.execJr site w s
  | .endInv site w => Sys2Proof.Machine.execEnd site w s
  | .nop site w => Sys2Proof.Machine.execNop site w s
  | .ld site w => Sys2Proof.Machine.execLd site w s
  | .st site w => Sys2Proof.Machine.execSt site w s
  | .cld site w => Sys2Proof.Machine.execCld site w s
  | .cst site w => Sys2Proof.Machine.execCst site w s
  | .cadd site w => Sys2Proof.Machine.execCadd site w s
  | .ccas site w => Sys2Proof.Machine.execCcas site w s
  | .rds site w => Sys2Proof.Machine.execRds site w s
  | .vadd site w => Sys2Proof.Machine.execVadd site w s
  | .vsub site w => Sys2Proof.Machine.execVsub site w s
  | .vmul site w => Sys2Proof.Machine.execVmul site w s
  | .vfma site w => Sys2Proof.Machine.execVfma site w s
  | .vmax site w => Sys2Proof.Machine.execVmax site w s
  | .vmin site w => Sys2Proof.Machine.execVmin site w s
  | .vexp site w => Sys2Proof.Machine.execVexp site w s
  | .vlog site w => Sys2Proof.Machine.execVlog site w s
  | .vrcp site w => Sys2Proof.Machine.execVrcp site w s
  | .vcvt site w => Sys2Proof.Machine.execVcvt site w s
  | .vrmax site w => Sys2Proof.Machine.execVrmax site w s
  | .vrsum site w => Sys2Proof.Machine.execVrsum site w s
  | .vscl site w => Sys2Proof.Machine.execVscl site w s
  | .vsel site w => Sys2Proof.Machine.execVsel site w s
  | .vld site w => Sys2Proof.Machine.execVld site w s
  | .vst site w => Sys2Proof.Machine.execVst site w s
  | .vcld site w => Sys2Proof.Machine.execVcld site w s
  | .vcst site w => Sys2Proof.Machine.execVcst site w s
  | .vget site w => Sys2Proof.Machine.execVget site w s
  | .vput site w => Sys2Proof.Machine.execVput site w s
  | .vspl site w => Sys2Proof.Machine.execVspl site w s
  | .vbit site w => Sys2Proof.Machine.execVbit site w s
  | .pand site w => Sys2Proof.Machine.execPand site w s
  | .por site w => Sys2Proof.Machine.execPor site w s
  | .pxor site w => Sys2Proof.Machine.execPxor site w s
  | .pnot site w => Sys2Proof.Machine.execPnot site w s
  | .pcmp site w => Sys2Proof.Machine.execPcmp site w s
  | .pfx site w => Sys2Proof.Machine.execPfx site w s
  | .pcnt site w => Sys2Proof.Machine.execPcnt site w s
  | .bind site w => Sys2Proof.Machine.execBind site w s
  | .unbind site w => Sys2Proof.Machine.execUnbind site w s
  | .bdesc site w check => Sys2Proof.Machine.execBdesc site w check s
  | .bsess site w => Sys2Proof.Machine.execBsess site w s
  | .bld site w check => Sys2Proof.Machine.execBld site w check s
  | .bst site w check => Sys2Proof.Machine.execBst site w check s
  | .aqk site w check => Sys2Proof.Machine.execAqk site w check s
  | .asmx site w => Sys2Proof.Machine.execAsmx site w s
  | .apv site w check => Sys2Proof.Machine.execApv site w check s
  | .amrg site w => Sys2Proof.Machine.execAmrg site w s
  | .afin site w => Sys2Proof.Machine.execAfin site w s
  | .apost site w => Sys2Proof.Machine.execApost site w s
  | .aout site w => Sys2Proof.Machine.execAout site w s
  | .atz site w => Sys2Proof.Machine.execAtz site w s
  | .atld site w => Sys2Proof.Machine.execAtld site w s
  | .atst site w => Sys2Proof.Machine.execAtst site w s
  | .skey site w => Sys2Proof.Machine.execSkey site w s
  | .ssort site w => Sys2Proof.Machine.execSsort site w s
  | .smerge site w => Sys2Proof.Machine.execSmerge site w s
  | .sstage site w => Sys2Proof.Machine.execSstage site w s
  | .scnt site w => Sys2Proof.Machine.execScnt site w s
  | .estn site w => Sys2Proof.Machine.execEstn site w s
  | .ephx site w => Sys2Proof.Machine.execEphx site w s
  | .ecmt site w => Sys2Proof.Machine.execEcmt site w s
  | .edtk site w => Sys2Proof.Machine.execEdtk site w s
  | .eseam site w => Sys2Proof.Machine.execEseam site w s
  | .enext site w => Sys2Proof.Machine.execEnext site w s
  | .dsrch site w => Sys2Proof.Machine.execDsrch site w s
  | .hrd site w data => Sys2Proof.Machine.execHrd site w data s
  | .hwr site w => Sys2Proof.Machine.execHwr site w s
  | .msend site w => Sys2Proof.Machine.execMsend site w s
  | .mrecv site w => Sys2Proof.Machine.execMrecv site w s
  | .mpoll site w => Sys2Proof.Machine.execMpoll site w s
  | .lsend site w => Sys2Proof.Machine.execLsend site w s
  | .dbell site w => Sys2Proof.Machine.execDbell site w s
  | .twait site w => Sys2Proof.Machine.execTwait site w s
  | .tpoll site w => Sys2Proof.Machine.execTpoll site w s
  | .fencec site w => Sys2Proof.Machine.execFencec site w s
  | .fenced site w => Sys2Proof.Machine.execFenced site w s
  | .barc site w => Sys2Proof.Machine.execBarc site w s
  | .barp site w => Sys2Proof.Machine.execBarp site w s
  | .wbeat site w => Sys2Proof.Machine.execWbeat site w s
  | .wwin site w => Sys2Proof.Machine.execWwin site w s
  | .wleft site w => Sys2Proof.Machine.execWleft site w s
  | .gdecl site w => Sys2Proof.Machine.execGdecl site w s
  | .coreDbgHalt fn core value => Sys2Proof.Machine.execCoreDbgHalt fn core value s
  | .coreDbgStep fn core value => Sys2Proof.Machine.execCoreDbgStep fn core value s
  | .coreFaultClear fn core value => Sys2Proof.Machine.execCoreFaultClear fn core value s
  | .coreWindowWrite fn core offset width value => Sys2Proof.Machine.execCoreWindowWrite fn core offset width value s
  | .ownerByteWrite fn offset width value => Sys2Proof.Machine.execOwnerByteWrite fn offset width value s
  | .sfPlSelWrite fn value => Sys2Proof.Machine.execSfPlSelWrite fn value s
  | .sfProbeSelWrite fn value => Sys2Proof.Machine.execSfProbeSelWrite fn value s
  | .dirRecSelWrite fn value => Sys2Proof.Machine.execDirRecSelWrite fn value s
  | .textHeldSelWrite fn value => Sys2Proof.Machine.execTextHeldSelWrite fn value s
  | .sessTokSelWrite fn value => Sys2Proof.Machine.execSessTokSelWrite fn value s
  | .attTurnClr fn value => Sys2Proof.Machine.execAttTurnClr fn value s
  | .regWrite fn addr width value => Sys2Proof.Machine.execRegWrite fn addr width value s
  | .laneTokenise cluster => Sys2Proof.Machine.execLaneTokenise cluster s
  | .chainStep cluster => Sys2Proof.Machine.execChainStep cluster s
  | .dirSearchSlot part bad => Sys2Proof.Machine.execDirSearchSlot part bad s
  | .lookupTailSlot part bad => Sys2Proof.Machine.execLookupTailSlot part bad s
  | .publishSlot part => Sys2Proof.Machine.execPublishSlot part s
  | .retireSlot part => Sys2Proof.Machine.execRetireSlot part s
  | .dirRebuildSlot part => Sys2Proof.Machine.execDirRebuildSlot part s
  | .faultScanEntry part => Sys2Proof.Machine.execFaultScanEntry part s
  | .scraperReclaimT0 part => Sys2Proof.Machine.execScraperReclaimT0 part s
  | .scraperReclaimT1 part => Sys2Proof.Machine.execScraperReclaimT1 part s
  | .scraperCommit part => Sys2Proof.Machine.execScraperCommit part s
  | .primerQueueRevive part => Sys2Proof.Machine.execPrimerQueueRevive part s
  | .floatUnit part check => Sys2Proof.Machine.execFloatUnit part check s
  | .floatSwitch part => Sys2Proof.Machine.execFloatSwitch part s
  | .mirrorFlush sess copy seg read => Sys2Proof.Machine.execMirrorFlush sess copy seg read s
  | .toklogRemirror sess => Sys2Proof.Machine.execToklogRemirror sess s
  | .searchChannelScan serial channel lost cat => Sys2Proof.Machine.execSearchChannelScan serial channel lost cat s
  | .retMerge serial => Sys2Proof.Machine.execRetMerge serial s
  | .indexCommit part ix check => Sys2Proof.Machine.execIndexCommit part ix check s
  | .compactCellSwitch part ix bad => Sys2Proof.Machine.execCompactCellSwitch part ix bad s
  | .partCreateCommit => Sys2Proof.Machine.execPartCreateCommit s
  | .partDestroyDone => Sys2Proof.Machine.execPartDestroyDone s
  | .recomposeQuiesce => Sys2Proof.Machine.execRecomposeQuiesce s
  | .recomposeEvacuate => Sys2Proof.Machine.execRecomposeEvacuate s
  | .recomposeSwitch => Sys2Proof.Machine.execRecomposeSwitch s
  | .recomposeCommit => Sys2Proof.Machine.execRecomposeCommit s
  | .ckptTimerHalf => Sys2Proof.Machine.execCkptTimerHalf s
  | .ckptBeatHalf => Sys2Proof.Machine.execCkptBeatHalf s
  | .ckptDeferredStart => Sys2Proof.Machine.execCkptDeferredStart s
  | .ckptCut bad => Sys2Proof.Machine.execCkptCut bad s
  | .ckptDone fails => Sys2Proof.Machine.execCkptDone fails s
  | .restoreCommit => Sys2Proof.Machine.execRestoreCommit s
  | .cdrLockGained port => Sys2Proof.Machine.execCdrLockGained port s
  | .jtagAttach => Sys2Proof.Machine.execJtagAttach s
  | .jtagDetach => Sys2Proof.Machine.execJtagDetach s
  | .computeDieLost die => Sys2Proof.Machine.execComputeDieLost die s
  | .hawkFailure => Sys2Proof.Machine.execHawkFailure s
  | .flashChannelLost channel => Sys2Proof.Machine.execFlashChannelLost channel s
  | .inputOvRelease => Sys2Proof.Machine.execInputOvRelease s

end Sys2Proof.Machine
end

