-- ==== Sys2Proof/WellFormed.lean ====
section
/-! DEFINITION. Which commands are well formed: every operand within what the spec numbers. The machine gives every command a meaning
all the same; a number that names nothing has no effect or fails the row's own check. -/

namespace Sys2Proof

/-- A function: PF0 and VF0 to VF15 of two ports (12_host_interface R318). -/
abbrev fnOk (fn : Nat) : Bool := decide (fn < 34)

/-- A queue set of a function, function × 64 + number (R319). -/
abbrev qkOk (qk : Nat) : Bool := decide (qk < 34 * 64)

/-- A queue-set number (R319). -/
abbrev queueOk (q : Nat) : Bool := decide (q < 64)

/-- A doorbell page: four to a queue set (R320). -/
abbrev pageOk (p : Nat) : Bool := decide (p < 256)

/-- A mailbox of a port (R333). -/
abbrev mbxOk (n : Nat) : Bool := decide (n < 64)

/-- A PCIe port (R316). -/
abbrev hostPortOk (p : Nat) : Bool := decide (p < 2)

/-- A Cunis port (13_cunis_link R341). -/
abbrev portOk (p : Nat) : Bool := decide (p < 16)

/-- A virtual channel (R344). -/
abbrev vcOk (v : Nat) : Bool := decide (v < 4)

/-- A partition (14_partitions R366). -/
abbrev partOk (p : Nat) : Bool := decide (p < 16)

/-- A session entry (02_sessions R26). -/
abbrev sessOk (e : Nat) : Bool := decide (e < 2 ^ 20)

/-- A compute die (01_architecture R17). -/
abbrev dieOk (d : Nat) : Bool := decide (d < 4)

/-- A cluster (R17). -/
abbrev clusterOk (c : Nat) : Bool := decide (c < 32)

/-- A core (R17). -/
abbrev coreOk (c : Nat) : Bool := decide (c < 256)

/-- A context of a core (09_scaesh_model R227). -/
abbrev ctxOk (k : Nat) : Bool := decide (k < 4)

/-- A tag of a context (R251). -/
abbrev tagOk (t : Nat) : Bool := decide (t < 16)

/-- A flash channel (11_flash_retrieval R292). -/
abbrev channelOk (c : Nat) : Bool := decide (c < 32)

/-- An index number (R295). -/
abbrev ixOk (i : Nat) : Bool := decide (i < 256)

/-- A command slot's bytes (12_host_interface R321). -/
abbrev rawOk (b : Bytes) : Bool := b.length == 64

/-- The entries a step loads: sessions with eight 64-bit words each (02_sessions R31). -/
def loadsOk (l : List (Nat × List Nat)) : Bool := l.all (fun e => sessOk e.1 && e.2.length == 8 && e.2.all (fun w => decide (w < 2 ^ 64)))

/-- The copies of token logs a checkpoint reads: 1 the primary, 2 the mirror (R50). -/
def copiesOk (l : List (Nat × Nat)) : Bool := l.all (fun e => sessOk e.1 && (e.2 == 1 || e.2 == 2))

/-- A context of a core. -/
def siteOk (t : Site) : Bool := coreOk t.core && ctxOk t.ctx

/-- The fields of a format G word fit their bits (10_scaesh R248). -/
def GWord.ok (w : GWord) : Bool :=
  decide (w.pg < 8) && decide (w.d < 32) && decide (w.a < 32) && decide (w.b < 32) && decide (w.c < 32) && decide (w.f < 256) &&
    decide (w.i < 2 ^ 24)

/-- An XO_DLY code fits its pins (18_power R464). -/
def Straps.ok (s : Straps) : Bool := decide (s.xo < 8)

/-- Whether a command is well formed. -/
def Instr.wf (i : Instr) : Bool :=
  match i with
  | .sessOpen qk => qkOk qk
  | .sessAppend qk _ => qkOk qk
  | .sessGenerate qk => qkOk qk
  | .sessPark qk => qkOk qk
  | .sessStrip qk => qkOk qk
  | .sessResume qk => qkOk qk
  | .sessHint qk => qkOk qk
  | .sessCancel qk => qkOk qk
  | .sessClose qk => qkOk qk
  | .sessExport qk => qkOk qk
  | .dirPublish qk => qkOk qk
  | .dirRetire qk => qkOk qk
  | .dirRetireDomain qk => qkOk qk
  | .stencilLoad qk _ => qkOk qk
  | .stencilUnload qk => qkOk qk
  | .sampLoad qk _ => qkOk qk
  | .sampUnload qk => qkOk qk
  | .stopLoad qk _ => qkOk qk
  | .stopUnload qk => qkOk qk
  | .tokLoad qk _ => qkOk qk
  | .tokUnload qk => qkOk qk
  | .tokEncode qk _ => qkOk qk
  | .progLoad qk _ => qkOk qk
  | .progUnload qk => qkOk qk
  | .progCall qk => qkOk qk
  | .progCancel qk => qkOk qk
  | .indexCreate qk _ => qkOk qk
  | .indexWrite qk _ => qkOk qk
  | .search qk _ => qkOk qk
  | .indexCompact qk => qkOk qk
  | .indexDrop qk => qkOk qk
  | .partCreate qk _ => qkOk qk
  | .partDestroy qk => qkOk qk
  | .partRecompose qk _ => qkOk qk
  | .partBind qk => qkOk qk
  | .domBind qk => qkOk qk
  | .domUnbind qk => qkOk qk
  | .meterReport qk => qkOk qk
  | .ckptTake qk => qkOk qk
  | .ckptRestore qk _ _ => qkOk qk
  | .cmdDoorbell fn page _ _ => fnOk fn && pageOk page
  | .cplDoorbell fn page _ _ => fnOk fn && pageOk page
  | .emitDoorbell fn page _ _ => fnOk fn && pageOk page
  | .cmdFetch qk raw loads => qkOk qk && rawOk raw && loadsOk loads
  | .qsEnable fn q _ => fnOk fn && queueOk q
  | .qsDisable fn q _ => fnOk fn && queueOk q
  | .qsWorkDrained qk => qkOk qk
  | .msixCoalesceTimer qk _ => qkOk qk
  | .flr fn => fnOk fn
  | .pcieLinkDown port => hostPortOk port
  | .perstAssert port => hostPortOk port
  | .perstDeassert port => hostPortOk port
  | .mbxGo fn n _ => fnOk fn && mbxOk n
  | .pupoacDatagram _ => true
  | .info => true
  | .healthState => true
  | .healthSensors => true
  | .healthPower => true
  | .wear => true
  | .attestStart => true
  | .attestRead => true
  | .attestSigned => true
  | .meter => true
  | .bootcfgGet => true
  | .bootcfgSet => true
  | .firmwareBegin => true
  | .firmwareWrite => true
  | .firmwareCommit => true
  | .firmwareStatus => true
  | .pupoacResetMgmt => true
  | .pupoacResetModule => true
  | .claim port => hostPortOk port
  | .renew port => hostPortOk port
  | .release port => hostPortOk port
  | .mgmtDomainReset port _ => hostPortOk port
  | .hawkReady => true
  | .heartbeat => true
  | .mgmtTick => true
  | .wearSample _ => true
  | .rstReq _ => true
  | .dynamicAddressAssign _ => true
  | .thermalSample _ _ _ _ => true
  | .inputUp straps => straps.ok
  | .inputLockout _ => true
  | .bulkCharged => true
  | .railRegulation => true
  | .railTimeout => true
  | .railRetry => true
  | .xoDlyExpiry => true
  | .fbClkCheck _ => true
  | .clockLock => true
  | .modResetNRelease => true
  | .modResetN _ straps => straps.ok
  | .moduleReset straps => straps.ok
  | .fbClkLost => true
  | .cdrLockLost port => portOk port
  | .autoReturn => true
  | .returnClk fn => fnOk fn
  | .forceFb fn => fnOk fn
  | .linkClkselWrite fn _ => fnOk fn
  | .slewDone => true
  | .clockLossRecovery straps => straps.ok
  | .phyUp port => portOk port
  | .phyDown port => portOk port
  | .hello port => portOk port
  | .helloResend port => portOk port
  | .linkRestart fn port _ => fnOk fn && portOk port
  | .linkEn fn port _ => fnOk fn && portOk port
  | .linkFraming fn port _ => fnOk fn && portOk port
  | .rxFrame port _ _ _ => portOk port
  | .credit port => portOk port
  | .creditSend port vc => portOk port && vcOk vc
  | .egressFrame port => portOk port
  | .beat port => portOk port
  | .beatTick0 loads => loadsOk loads
  | .roster part => partOk part
  | .prefillWindowOpen part => partOk part
  | .bulkWindowOpen part => partOk part
  | .syntheticBeat => true
  | .beatHold => true
  | .resync fn => fnOk fn
  | .beatNowRead fn => fnOk fn
  | .stallTimeout sess => sessOk sess
  | .carryLimit sess => sessOk sess
  | .dustLatch => true
  | .qSubmit port vc => portOk port && vcOk vc
  | .kvAppend port => portOk port
  | .learn sess => sessOk sess
  | .logits port => portOk port
  | .stencilFetch sess => sessOk sess
  | .kvRead port => portOk port
  | .kvDataSend sess => sessOk sess
  | .moveOffer port => portOk port
  | .moveAccept port => portOk port
  | .moveRefuse port => portOk port
  | .moveLog port => portOk port
  | .moveLogged port => portOk port
  | .moveKv port => portOk port
  | .moveDone port => portOk port
  | .moveAck port => portOk port
  | .moveAbandon port => portOk port
  | .deal cluster => clusterOk cluster
  | .decodeItem core _ _ => coreOk core
  | .prefillUnit core _ _ => coreOk core
  | .mergeContinuation core => coreOk core
  | .rankedResult sess => sessOk sess
  | .callInvocation core ctx => coreOk core && ctxOk ctx
  | .watchdog core ctx => coreOk core && ctxOk ctx
  | .progSwitch => true
  | .tagComplete core ctx tag => coreOk core && ctxOk ctx && tagOk tag
  | .add site w => siteOk site && w.ok
  | .sub site w => siteOk site && w.ok
  | .mul site w => siteOk site && w.ok
  | .mulhu site w => siteOk site && w.ok
  | .and site w => siteOk site && w.ok
  | .or site w => siteOk site && w.ok
  | .xor site w => siteOk site && w.ok
  | .shl site w => siteOk site && w.ok
  | .shr site w => siteOk site && w.ok
  | .sra site w => siteOk site && w.ok
  | .min site w => siteOk site && w.ok
  | .max site w => siteOk site && w.ok
  | .minu site w => siteOk site && w.ok
  | .maxu site w => siteOk site && w.ok
  | .slt site w => siteOk site && w.ok
  | .sltu site w => siteOk site && w.ok
  | .addi site w => siteOk site && w.ok
  | .andi site w => siteOk site && w.ok
  | .ori site w => siteOk site && w.ok
  | .xori site w => siteOk site && w.ok
  | .shli site w => siteOk site && w.ok
  | .shri site w => siteOk site && w.ok
  | .srai site w => siteOk site && w.ok
  | .slti site w => siteOk site && w.ok
  | .li site w => siteOk site && w.ok
  | .divu site w => siteOk site && w.ok
  | .remu site w => siteOk site && w.ok
  | .clz site w => siteOk site && w.ok
  | .popc site w => siteOk site && w.ok
  | .crc site w => siteOk site && w.ok
  | .insh site w => siteOk site && w.ok
  | .beq site w => siteOk site && w.ok
  | .bne site w => siteOk site && w.ok
  | .blt site w => siteOk site && w.ok
  | .bge site w => siteOk site && w.ok
  | .bltu site w => siteOk site && w.ok
  | .bgeu site w => siteOk site && w.ok
  | .jal site w => siteOk site && w.ok
  | .jr site w => siteOk site && w.ok
  | .endInv site w => siteOk site && w.ok
  | .nop site w => siteOk site && w.ok
  | .ld site w => siteOk site && w.ok
  | .st site w => siteOk site && w.ok
  | .cld site w => siteOk site && w.ok
  | .cst site w => siteOk site && w.ok
  | .cadd site w => siteOk site && w.ok
  | .ccas site w => siteOk site && w.ok
  | .rds site w => siteOk site && w.ok
  | .vadd site w => siteOk site && w.ok
  | .vsub site w => siteOk site && w.ok
  | .vmul site w => siteOk site && w.ok
  | .vfma site w => siteOk site && w.ok
  | .vmax site w => siteOk site && w.ok
  | .vmin site w => siteOk site && w.ok
  | .vexp site w => siteOk site && w.ok
  | .vlog site w => siteOk site && w.ok
  | .vrcp site w => siteOk site && w.ok
  | .vcvt site w => siteOk site && w.ok
  | .vrmax site w => siteOk site && w.ok
  | .vrsum site w => siteOk site && w.ok
  | .vscl site w => siteOk site && w.ok
  | .vsel site w => siteOk site && w.ok
  | .vld site w => siteOk site && w.ok
  | .vst site w => siteOk site && w.ok
  | .vcld site w => siteOk site && w.ok
  | .vcst site w => siteOk site && w.ok
  | .vget site w => siteOk site && w.ok
  | .vput site w => siteOk site && w.ok
  | .vspl site w => siteOk site && w.ok
  | .vbit site w => siteOk site && w.ok
  | .pand site w => siteOk site && w.ok
  | .por site w => siteOk site && w.ok
  | .pxor site w => siteOk site && w.ok
  | .pnot site w => siteOk site && w.ok
  | .pcmp site w => siteOk site && w.ok
  | .pfx site w => siteOk site && w.ok
  | .pcnt site w => siteOk site && w.ok
  | .bind site w => siteOk site && w.ok
  | .unbind site w => siteOk site && w.ok
  | .bdesc site w _ => siteOk site && w.ok
  | .bsess site w => siteOk site && w.ok
  | .bld site w _ => siteOk site && w.ok
  | .bst site w _ => siteOk site && w.ok
  | .aqk site w _ => siteOk site && w.ok
  | .asmx site w => siteOk site && w.ok
  | .apv site w _ => siteOk site && w.ok
  | .amrg site w => siteOk site && w.ok
  | .afin site w => siteOk site && w.ok
  | .apost site w => siteOk site && w.ok
  | .aout site w => siteOk site && w.ok
  | .atz site w => siteOk site && w.ok
  | .atld site w => siteOk site && w.ok
  | .atst site w => siteOk site && w.ok
  | .skey site w => siteOk site && w.ok
  | .ssort site w => siteOk site && w.ok
  | .smerge site w => siteOk site && w.ok
  | .sstage site w => siteOk site && w.ok
  | .scnt site w => siteOk site && w.ok
  | .estn site w => siteOk site && w.ok
  | .ephx site w => siteOk site && w.ok
  | .ecmt site w => siteOk site && w.ok
  | .edtk site w => siteOk site && w.ok
  | .eseam site w => siteOk site && w.ok
  | .enext site w => siteOk site && w.ok
  | .dsrch site w => siteOk site && w.ok
  | .hrd site w _ => siteOk site && w.ok
  | .hwr site w => siteOk site && w.ok
  | .msend site w => siteOk site && w.ok
  | .mrecv site w => siteOk site && w.ok
  | .mpoll site w => siteOk site && w.ok
  | .lsend site w => siteOk site && w.ok
  | .dbell site w => siteOk site && w.ok
  | .twait site w => siteOk site && w.ok
  | .tpoll site w => siteOk site && w.ok
  | .fencec site w => siteOk site && w.ok
  | .fenced site w => siteOk site && w.ok
  | .barc site w => siteOk site && w.ok
  | .barp site w => siteOk site && w.ok
  | .wbeat site w => siteOk site && w.ok
  | .wwin site w => siteOk site && w.ok
  | .wleft site w => siteOk site && w.ok
  | .gdecl site w => siteOk site && w.ok
  | .coreDbgHalt fn core _ => fnOk fn && coreOk core
  | .coreDbgStep fn core _ => fnOk fn && coreOk core
  | .coreFaultClear fn core _ => fnOk fn && coreOk core
  | .coreWindowWrite fn core _ _ _ => fnOk fn && coreOk core
  | .ownerByteWrite fn _ _ _ => fnOk fn
  | .sfPlSelWrite fn _ => fnOk fn
  | .sfProbeSelWrite fn _ => fnOk fn
  | .dirRecSelWrite fn _ => fnOk fn
  | .textHeldSelWrite fn _ => fnOk fn
  | .sessTokSelWrite fn _ => fnOk fn
  | .attTurnClr fn _ => fnOk fn
  | .regWrite fn _ _ _ => fnOk fn
  | .laneTokenise cluster => clusterOk cluster
  | .chainStep cluster => clusterOk cluster
  | .dirSearchSlot part _ => partOk part
  | .lookupTailSlot part _ => partOk part
  | .publishSlot part => partOk part
  | .retireSlot part => partOk part
  | .dirRebuildSlot part => partOk part
  | .faultScanEntry part => partOk part
  | .scraperReclaimT0 part => partOk part
  | .scraperReclaimT1 part => partOk part
  | .scraperCommit part => partOk part
  | .primerQueueRevive part => partOk part
  | .floatUnit part check => partOk part && decide (check ≤ 4)
  | .floatSwitch part => partOk part
  | .mirrorFlush sess copy _ read => sessOk sess && (read.isEmpty || copy == 1 || copy == 2)
  | .toklogRemirror sess => sessOk sess
  | .searchChannelScan _ channel _ _ => channelOk channel
  | .retMerge _ => true
  | .indexCommit part ix check => partOk part && ixOk ix && decide (check ≤ 2)
  | .compactCellSwitch part ix _ => partOk part && ixOk ix
  | .partCreateCommit => true
  | .partDestroyDone => true
  | .recomposeQuiesce => true
  | .recomposeEvacuate => true
  | .recomposeSwitch => true
  | .recomposeCommit => true
  | .ckptTimerHalf => true
  | .ckptBeatHalf => true
  | .ckptDeferredStart => true
  | .ckptCut bad => copiesOk bad
  | .ckptDone _ => true
  | .restoreCommit => true
  | .cdrLockGained port => portOk port
  | .jtagAttach => true
  | .jtagDetach => true
  | .computeDieLost die => dieOk die
  | .hawkFailure => true
  | .flashChannelLost channel => channelOk channel
  | .inputOvRelease => true

end Sys2Proof
end

