-- ==== Sys2Proof/Safety.lean ====
section
/-! DEFINITION. The words claims are stated in: a step that goes on, what stays unchanged, when a Scaesh instruction is the one a context
runs next, when a host command is the next of its queue set. -/

namespace Sys2Proof.Machine

/-! ### Steps -/

/-- The machine goes on: the outcome is a next state. -/
def GoesOn (o : Out3) : Prop := ∃ t, o = .next t

/-- A run of some steps goes on to the end. -/
def RunsTo (s : State) : Nat → State → Prop
  | 0, t => t = s
  | n + 1, t => ∃ u, step s = .next u ∧ RunsTo u n t

/-- The only pulse of MOD_RESET_N the spec gives no outcome for: 1 µs to 10 µs (18_power R472). -/
def undefinedPulse (i : Instr) : Bool :=
  match i with
  | .modResetN ns _ => decide (1000 ≤ ns) && decide (ns < 10000)
  | _ => false

/-- One-way fuses never go back (15_security R405): the fused version does not fall, and no revoked vendor key is valid again. -/
def FusesKept (a b : Security) : Prop := a.fuseSvn ≤ b.fuseSvn ∧ ∀ k, bitAt a.revoked k = true → bitAt b.revoked k = true

/-- The versions of the fuses and of the firmware slots are in range: at most 64 (15_security R405, R407). -/
def Security.versionsFit (c : Security) : Prop := c.fuseSvn ≤ 64 ∧ ∀ w ∈ c.slots, w.svn ≤ 64

/-- What a module reset leaves of state s (18_power R471): fuses, boot store, kept index content (11_flash R294) and checkpoints; every
session, memory, counter and load is gone, and nothing it sent out is taken back. -/
structure WasReset (s u : State) : Prop where
  fuses : u.sec.fuseSvn = s.sec.fuseSvn ∧ u.sec.revoked = s.sec.revoked
  boot : u.sec.slots = s.sec.slots ∧ u.sec.seqHw = s.sec.seqHw ∧ u.mgmt.cfgA = s.mgmt.cfgA ∧ u.mgmt.cfgB = s.mgmt.cfgB ∧
    u.mgmt.cfg = s.mgmt.bootCfg
  content : u.ret.ixs = s.keptIndexes ∧ u.ckpt.store = s.ckpt.store
  gone : u.sess = [] ∧ u.fab = {} ∧ u.dir = {} ∧ u.att = {} ∧ u.emit = {} ∧ u.text = {} ∧ u.cores = {} ∧ u.ctrs = [] ∧ u.link = {} ∧
    u.beat = {}
  unbound : u.part.parts = [] ∧ u.part.fns = [] ∧ u.part.ports = [] ∧ u.host.cmds = [] ∧ u.host.inReset = true
  stays : u.unit = s.unit ∧ u.pending = s.pending ∧ u.out = .modOk false :: s.out

/-! ### Scaesh: the instruction a context runs next -/

/-- The context at a site runs the word `w` with opcode `op` next (10_scaesh R248 to R250, 09_scaesh R230): the module runs; the
context holds invocation `v`, is running and not halted; its PC lies inside the image and the image's word there is this one; the
word is legal for the shape `sh` of the instruction. -/
structure Runs (s : State) (t : Site) (op : Nat) (w : GWord) (sh : Shape) (v : Inv) : Prop where
  up : s.up = true
  holds : (s.ctxAt t).inv = some v
  ready : s.ready t = true
  inside : (s.ctxAt t).pc < s.codeLen v
  word : s.wordIs v (s.ctxAt t).pc (encodeG op w) = true
  legal : wordOk t.ctx sh w = true

/-- The instruction a context runs next issues now (R250, R251): its guard is on where it is no vector instruction, and its tag is free
where it has one. -/
structure Issues (s : State) (t : Site) (op : Nat) (w : GWord) (sh : Shape) (v : Inv) : Prop extends Runs s t op w sh v where
  guard : sh.vec = true ∨ guardOn (s.ctxAt t) w = true
  free : sh.tag = true → (s.ctxAt t).tagBusy (w.f % 16) = false

/-- The state in which the instruction at a site has retired, leaving a context and a PC: CORE_RETIRED counts it, a set STEP bit
clears (R246, R247). -/
def State.retired (s : State) (t : Site) (c : Ctx) (pc : Nat) : State := (s.setCtxAt t { c with pc := pc }).retire t

/-- … with x[D] written. -/
def State.setsX (s : State) (t : Site) (d : Nat) (x : Word) : State := s.retired t ((s.ctxAt t).wx d x) ((s.ctxAt t).pc + 1)

/-- … with v[D] written. -/
def State.setsV (s : State) (t : Site) (d : Nat) (x : Vec) : State := s.retired t ((s.ctxAt t).wv d x) ((s.ctxAt t).pc + 1)

/-- … with p[D] written. -/
def State.setsP (s : State) (t : Site) (d : Nat) (x : Pred) : State := s.retired t ((s.ctxAt t).wp d x) ((s.ctxAt t).pc + 1)

/-- … with nothing written. -/
def State.passes (s : State) (t : Site) : State := s.retired t (s.ctxAt t) ((s.ctxAt t).pc + 1)

/-- Element i of a vector register at the element type of a word, as FP32 (R258). -/
def Ctx.elem (c : Ctx) (w : GWord) (r i : Nat) : W32 := elemF32 (w.f % 16) (vEl (elemBytes (w.f % 16)) (c.rv r) i)

/-- Only the cores and the counters may differ. -/
def OnlyCores (s u : State) : Prop := u = { s with cores := u.cores, ctrs := u.ctrs }

/-- The word at an offset of a cluster's working space, little-endian. -/
def cwsWord (s : State) (cl a : Nat) : Word := BitVec.ofNat 64 (leNat (memRead (s.cwsOf cl) a 8))

/-- A word has been stored to a cluster's working space, and to no other byte of any memory. -/
def CwsStored (s u : State) (cl a : Nat) (x : Word) : Prop :=
  memRead (u.cwsOf cl) a 8 = natLe 8 x.toNat ∧ (∀ b, b < a ∨ a + 8 ≤ b → tabGet 0 (u.cwsOf cl) b = tabGet 0 (s.cwsOf cl) b) ∧
    (∀ n, n ≠ cl → u.cwsOf n = s.cwsOf n) ∧ u.cores.merge = s.cores.merge ∧ (∀ n, (u.core n).ldm = (s.core n).ldm) ∧ OnlyCores s u

/-! ### Host commands -/

/-- Only the host interface, its outputs and the counters may differ. -/
def OnlyHost (s u : State) : Prop := u = { s with host := u.host, out := u.out, ctrs := u.ctrs }

/-- The first command of a queue set that may start now (12_host_interface R323): the module runs, the command's opcode is this one, and
its serial number is its own. -/
structure Next (s : State) (qk op : Nat) (c : Cmd) : Prop where
  up : s.up = true
  first : s.firstCmd qk = some c
  code : byteAt c.raw 0 = op
  own : s.cmd? c.serial = some c

/-- A command of state s has received its FINAL with these results and is no longer in flight (R325): the entry stands at the tail of its
completion ring unless the queue set is stopped (R331). -/
def Finished (s u : State) (c : Cmd) (st : Status) (handle res0 res1 res2 : Nat) : Prop :=
  u.cmd? c.serial = none ∧ ((s.qs c.qk).en = true → Out.cpl c.qk (s.qs c.qk).cplTail
    { kind := 0, status := st, cmdHead := (s.qs c.qk).cmdHead, cid := c.cid, handle := handle, res0 := res0, res1 := res1, res2 := res2,
      phase := (s.qs c.qk).cplPhase } ∈ u.out)

/-- The owning chapter's checks turn a command of state s away (R323, R340): it has received its FINAL with these results, HIF_REJECTED of its
function counts it, and nothing else has changed. -/
def TurnedAway (s u : State) (c : Cmd) (st : Status) (handle res0 res1 res2 : Nat) : Prop :=
  OnlyHost s u ∧ Finished s u c st handle res0 res1 res2 ∧ u.ctrs = (s.bump .hifRejected (c.qk / 64)).ctrs

/-- The first command of a queue set that may start now names a session that passes the check of R28. -/
structure NextSess (s : State) (qk op : Nat) (c : Cmd) (id : Nat) : Prop extends Next s qk op c where
  names : s.handle? c.part (field c.raw 8 4) = some id

/-- A command of state s has received its FINAL with these results, at some position of its completion ring, and is no longer in flight. -/
def Answered (s u : State) (c : Cmd) (st : Status) (handle res0 res1 res2 : Nat) : Prop :=
  u.cmd? c.serial = none ∧ ((s.qs c.qk).en = true → ∃ pos cmdHead phase, Out.cpl c.qk pos
    { kind := 0, status := st, cmdHead := cmdHead, cid := c.cid, handle := handle, res0 := res0, res1 := res1, res2 := res2,
      phase := phase } ∈ u.out)

/-- A command that failed a common check (R323): nothing more is in flight, HIF_REJECTED counts it, its FINAL carries the status. -/
def Rejected (s u : State) (qk : Nat) (r : Bytes) (st : Status) : Prop :=
  u.host.cmds = s.host.cmds ∧ u.ctr .hifRejected (qk / 64) = s.ctr .hifRejected (qk / 64) + 1 ∧
    Out.cpl qk (s.qs qk).cplTail { kind := 0, status := st, cmdHead := (u.qs qk).cmdHead, cid := field r 4 4,
                                   phase := (s.qs qk).cplPhase } ∈ u.out

/-- The hawk is up, and the request it serves next (17_management R442) is this one: it names this service, on a path that may ask for it
(R445). -/
structure Asks (s : State) (svc op : Nat) (r : MReq) : Prop where
  up : s.up = true
  hawk : s.hawkUp = true
  next : s.nextReq = some r
  names : r.svc = svc ∧ r.op = op
  allowed : svcAllowed svc op r.path = true

end Sys2Proof.Machine
end

