-- ==== Sys2Proof/Certificates/Slice0/Obligations.lean ====
section
/-! DEFINITION. The statements for the provers: what the rules of the spec say the commands and the machine do. -/

open Sys2Proof Sys2Proof.Machine

/-- Every scalar ALU instruction writes its result to x[D] and retires (10_scaesh_instructions.md: Scalar, control and memory). Clauses that the spec does not state rest on the model's choice in log entries 7, 12. -/
def Obligations.ScalarAluWritesItsResult : Prop :=
  (∀ r ∈ ([(0x00, .add, fun a b => a + b), (0x01, .sub, fun a b => a - b), (0x02, .mul, fun a b => a * b),
      (0x03, .mulhu, fun a b => BitVec.ofNat 64 (a.toNat * b.toNat / 2 ^ 64)), (0x04, .and, fun a b => a &&& b),
      (0x05, .or, fun a b => a ||| b), (0x06, .xor, fun a b => a ^^^ b), (0x07, .shl, fun a b => a <<< (b &&& 63)),
      (0x08, .shr, fun a b => a >>> (b &&& 63)), (0x09, .sra, fun a b => a.sshiftRight (b &&& 63).toNat)] :
      List (Nat × (Site → GWord → Instr) × (Word → Word → Word))), ∀ s t w v,
    Issues s t r.1 w { d := .x, a := .x, b := .x } v →
      exec (r.2.1 t w) s = .next (s.setsX t w.d (r.2.2 ((s.ctxAt t).rx w.a) ((s.ctxAt t).rx w.b)))) ∧
  (∀ r ∈ ([(0x0A, .min, fun a b => if a.toInt ≤ b.toInt then a else b), (0x0B, .max, fun a b => if a.toInt ≤ b.toInt then b else a),
      (0x0C, .minu, fun a b => if a.toNat ≤ b.toNat then a else b), (0x0D, .maxu, fun a b => if a.toNat ≤ b.toNat then b else a),
      (0x0E, .slt, fun a b => if a.toInt < b.toInt then 1 else 0), (0x0F, .sltu, fun a b => if a.toNat < b.toNat then 1 else 0),
      (0x19, .divu, fun a b => if b.toNat = 0 then 0xFFFFFFFFFFFFFFFF else BitVec.ofNat 64 (a.toNat / b.toNat)),
      (0x1A, .remu, fun a b => if b.toNat = 0 then a else BitVec.ofNat 64 (a.toNat % b.toNat)),
      (0x1D, .crc, fun a b => BitVec.ofNat 64 (crcContinue a.toNat b.toNat))] :
      List (Nat × (Site → GWord → Instr) × (Word → Word → Word))), ∀ s t w v,
    Issues s t r.1 w { d := .x, a := .x, b := .x } v →
      exec (r.2.1 t w) s = .next (s.setsX t w.d (r.2.2 ((s.ctxAt t).rx w.a) ((s.ctxAt t).rx w.b)))) ∧
  (∀ r ∈ ([(0x10, .addi, fun a i => a + (BitVec.ofNat 24 i).signExtend 64), (0x11, .andi, fun a i => a &&& BitVec.ofNat 64 i),
      (0x12, .ori, fun a i => a ||| BitVec.ofNat 64 i), (0x13, .xori, fun a i => a ^^^ BitVec.ofNat 64 i),
      (0x17, .slti, fun a i => if a.toInt < ((BitVec.ofNat 24 i).signExtend 64).toInt then 1 else 0),
      (0x1E, .insh, fun a i => (a &&& BitVec.ofNat 64 (2 ^ 40 - 1)) ||| (BitVec.ofNat 64 i <<< 40))] :
      List (Nat × (Site → GWord → Instr) × (Word → Nat → Word))), ∀ s t w v,
    Issues s t r.1 w { d := .x, a := .x, i := 0xFFFFFF } v →
      exec (r.2.1 t w) s = .next (s.setsX t w.d (r.2.2 ((s.ctxAt t).rx w.a) w.i))) ∧
  (∀ r ∈ ([(0x14, .shli, fun a i => a <<< i), (0x15, .shri, fun a i => a >>> i), (0x16, .srai, fun a i => a.sshiftRight i)] :
      List (Nat × (Site → GWord → Instr) × (Word → Nat → Word))), ∀ s t w v,
    Issues s t r.1 w { d := .x, a := .x, i := 63 } v →
      exec (r.2.1 t w) s = .next (s.setsX t w.d (r.2.2 ((s.ctxAt t).rx w.a) w.i))) ∧
  (∀ s t w v, Issues s t 0x18 w { d := .x, a := .x, b := .x, c := .x, f := 0xFF, i := 0xFFFFFF } v →
    exec (.li t w) s = .next (s.setsX t w.d
      ((BitVec.ofNat 47 (w.a <<< 42 + w.b <<< 37 + w.c <<< 32 + w.f <<< 24 + w.i)).signExtend 64))) ∧
  (∀ s t w v, Issues s t 0x1B w { d := .x, a := .x } v →
    ∃ n, n ≤ 64 ∧ ((s.ctxAt t).rx w.a).toNat < 2 ^ (64 - n) ∧ (n < 64 → 2 ^ (63 - n) ≤ ((s.ctxAt t).rx w.a).toNat) ∧
      exec (.clz t w) s = .next (s.setsX t w.d (BitVec.ofNat 64 n))) ∧
  (∀ s t w v, Issues s t 0x1C w { d := .x, a := .x } v →
    exec (.popc t w) s = .next (s.setsX t w.d
      (BitVec.ofNat 64 ((List.range 64).filter (fun i => ((s.ctxAt t).rx w.a).getLsbD i)).length)))

/-- A taken branch goes to its target, a branch not taken to the next instruction, a target outside the image faults (10_scaesh_instructions.md: Scalar, control and memory). -/
def Obligations.BranchesSetThePc : Prop :=
  (∀ r ∈ ([(0x20, .beq, fun a b => a = b), (0x21, .bne, fun a b => a ≠ b), (0x22, .blt, fun a b => a.toInt < b.toInt),
      (0x23, .bge, fun a b => b.toInt ≤ a.toInt), (0x24, .bltu, fun a b => a.toNat < b.toNat),
      (0x25, .bgeu, fun a b => b.toNat ≤ a.toNat)] : List (Nat × (Site → GWord → Instr) × (Word → Word → Prop))), ∀ s t w v,
    Issues s t r.1 w { a := .x, b := .x, i := 0x1FFF } v →
      (¬ r.2.2 ((s.ctxAt t).rx w.a) ((s.ctxAt t).rx w.b) → exec (r.2.1 t w) s = .next (s.passes t)) ∧
      (r.2.2 ((s.ctxAt t).rx w.a) ((s.ctxAt t).rx w.b) →
        (w.i < s.codeLen v → exec (r.2.1 t w) s = .next (s.retired t (s.ctxAt t) w.i)) ∧
        (s.codeLen v ≤ w.i → exec (r.2.1 t w) s = .next (s.raise t 2)))) ∧
  (∀ s t w v, Issues s t 0x26 w { d := .x, i := 0x1FFF } v →
      (w.i < s.codeLen v →
        exec (.jal t w) s = .next (s.retired t ((s.ctxAt t).wx w.d (BitVec.ofNat 64 ((s.ctxAt t).pc + 1))) w.i)) ∧
      (s.codeLen v ≤ w.i → exec (.jal t w) s = .next (s.raise t 2))) ∧
  (∀ s t w v, Issues s t 0x27 w { a := .x } v →
      (((s.ctxAt t).rx w.a).toNat < s.codeLen v →
        exec (.jr t w) s = .next (s.retired t (s.ctxAt t) ((s.ctxAt t).rx w.a).toNat)) ∧
      (s.codeLen v ≤ ((s.ctxAt t).rx w.a).toNat → exec (.jr t w) s = .next (s.raise t 2))) ∧
  (∀ s t w v, Issues s t 0x29 w {} v → exec (.nop t w) s = .next (s.passes t))

/-- END ends the invocation with the status in x1[7:0] and frees the context (10_scaesh_instructions.md: Scalar, control and memory; 09_scaesh_model.md: Calls and the calling convention). -/
def Obligations.EndEndsTheInvocation : Prop :=
  ∀ s t w v, Issues s t 0x28 w {} v → v.event = 0 →
    ∃ u, exec (.endInv t w) s = .next u ∧ u.ctxAt t = { queue := (s.ctxAt t).queue } ∧
      (∀ t2 : Site, t2.ctx < 4 → t2 ≠ t → u.ctxAt t2 = s.ctxAt t2) ∧
      (∀ c ∈ s.cores.calls, c.id = v.call → c.cancelled = false → c.ends.length + 1 < c.cores.length →
        (∀ d ∈ s.cores.calls, d.id = v.call → d = c) →
        { c with ends := c.ends ++ [{ member := v.member, core := t.core, status := ((s.ctxAt t).rx 1).toNat % 256, cause := 0,
                                      x2 := (s.ctxAt t).rx 2, x3 := (s.ctxAt t).rx 3 }] } ∈ u.cores.calls)

/-- LD, CLD, RDS, ST, CST, CADD and CCAS: which operands are in range, what is read, the eight bytes stored and no other, the fault elsewhere (10_scaesh_instructions.md: Scalar, control and memory; 09_scaesh_model.md: Memory spaces). Clauses that the spec does not state rest on the model's choice in log entry 11. -/
def Obligations.ScalarMemoryInstructions : Prop :=
  ((∀ s t w v a, Issues s t 0x30 w { d := .x, a := .x, i := 0xFFFFFF } v →
      s.ldmLoc v ((s.ctxAt t).rx w.a + (BitVec.ofNat 24 w.i).signExtend 64) 8 8 = .ok (.ldm a) →
      exec (.ld t w) s = .next (s.setsX t w.d (BitVec.ofNat 64 (leNat (memRead (s.core t.core).ldm a 8))))) ∧
  (∀ s t w v a, Issues s t 0x32 w { d := .x, a := .x, i := 0xFFFFFF } v →
      (s.cwsLoc v ((s.ctxAt t).rx w.a + (BitVec.ofNat 24 w.i).signExtend 64) 8 8 true = .ok (.cws a) →
        exec (.cld t w) s = .next (s.setsX t w.d (BitVec.ofNat 64 (leNat (memRead (s.cwsOf (t.core / 8)) a 8))))) ∧
      (s.cwsLoc v ((s.ctxAt t).rx w.a + (BitVec.ofNat 24 w.i).signExtend 64) 8 8 true = .ok (.ref a) →
        exec (.cld t w) s = .next (s.setsX t w.d (BitVec.ofNat 64 (leNat (memRead (s.mergeOf (t.core / 8)) a 8)))))) ∧
  (∀ s t w v, Issues s t 0x36 w { d := .x, i := 0xFF, ok := decide (w.i < 12) } v →
      exec (.rds t w) s = .next (s.setsX t w.d (BitVec.ofNat 64
        (([t.core, t.core / 8, v.part, t.ctx, v.id, v.member, v.members, s.beat.num, s.coarseTick v.part s.beat.tick,
           s.winCode v.part, 0x0100, 0x7F] : List Nat).getD w.i 0))))) ∧
  ((∀ (s : State) v (a : Word) len align, 0 < align →
    s.ldmLoc v a len align =
      if align ∣ a.toNat ∧ (s.ldmRegion v).1 ≤ a.toNat ∧ a.toNat + len ≤ (s.ldmRegion v).1 + (s.ldmRegion v).2
      then .ok (.ldm a.toNat) else .error 3) ∧
  (∀ (s : State) v (a : Word) len align refs, align = 1 ∨ align = 8 ∨ align = 256 →
    s.cwsLoc v a len align refs =
      if a.toNat < 2 ^ 63 then
        (if align ∣ a.toNat ∧ a.toNat + len ≤ (s.cwsRegion v).2 then .ok (.cws ((s.cwsRegion v).1 + a.toNat)) else .error 4)
      else if refs = true ∧ a.toNat - 2 ^ 63 < 2 ^ 24 ∧ a.toNat - 2 ^ 63 + len ≤ mergeBytes ∧ align ∣ a.toNat - 2 ^ 63
      then .ok (.ref (a.toNat - 2 ^ 63)) else .error 4) ∧
  (∀ s t w v, Issues s t 0x30 w { d := .x, a := .x, i := 0xFFFFFF } v → s.ldmLoc v (addrOf (s.ctxAt t) w) 8 8 = .error 3 →
      exec (.ld t w) s = .next (s.raise t 3)) ∧
  (∀ s t w v, Issues s t 0x31 w { a := .x, b := .x, i := 0xFFFFFF } v → s.ldmLoc v (addrOf (s.ctxAt t) w) 8 8 = .error 3 →
      exec (.st t w) s = .next (s.raise t 3)) ∧
  (∀ s t w v, Issues s t 0x32 w { d := .x, a := .x, i := 0xFFFFFF } v → s.cwsLoc v (addrOf (s.ctxAt t) w) 8 8 true = .error 4 →
      exec (.cld t w) s = .next (s.raise t 4)) ∧
  (∀ s t w v, Issues s t 0x33 w { a := .x, b := .x, i := 0xFFFFFF } v → s.cwsLoc v (addrOf (s.ctxAt t) w) 8 8 false = .error 4 →
      exec (.cst t w) s = .next (s.raise t 4)) ∧
  (∀ s t w v, Issues s t 0x34 w { d := .x, a := .x, b := .x, i := 0xFFFFFF } v →
      s.cwsLoc v (addrOf (s.ctxAt t) w) 8 8 false = .error 4 → exec (.cadd t w) s = .next (s.raise t 4)) ∧
  (∀ s t w v, Issues s t 0x35 w { d := .x, a := .x, b := .x, c := .x, i := 0xFFFFFF } v →
      s.cwsLoc v (addrOf (s.ctxAt t) w) 8 8 false = .error 4 → exec (.ccas t w) s = .next (s.raise t 4))) ∧
  ((∀ s t w v a, t.ctx < 4 → Issues s t 0x31 w { a := .x, b := .x, i := 0xFFFFFF } v →
      s.ldmLoc v (addrOf (s.ctxAt t) w) 8 8 = .ok (.ldm a) →
      ∃ u, exec (.st t w) s = .next u ∧ memRead (u.core t.core).ldm a 8 = natLe 8 ((s.ctxAt t).rx w.b).toNat ∧
        (∀ b, b < a ∨ a + 8 ≤ b → tabGet 0 (u.core t.core).ldm b = tabGet 0 (s.core t.core).ldm b) ∧
        (∀ n, n ≠ t.core → u.core n = s.core n) ∧ u.cores.cws = s.cores.cws ∧ u.cores.merge = s.cores.merge ∧
        u.ctxAt t = { s.ctxAt t with pc := (s.ctxAt t).pc + 1 } ∧ OnlyCores s u) ∧
  (∀ s t w v a, t.ctx < 4 → Issues s t 0x33 w { a := .x, b := .x, i := 0xFFFFFF } v →
      s.cwsLoc v (addrOf (s.ctxAt t) w) 8 8 false = .ok (.cws a) →
      ∃ u, exec (.cst t w) s = .next u ∧ CwsStored s u (t.core / 8) a ((s.ctxAt t).rx w.b) ∧
        u.ctxAt t = { s.ctxAt t with pc := (s.ctxAt t).pc + 1 }) ∧
  (∀ s t w v a, t.ctx < 4 → Issues s t 0x34 w { d := .x, a := .x, b := .x, i := 0xFFFFFF } v →
      s.cwsLoc v (addrOf (s.ctxAt t) w) 8 8 false = .ok (.cws a) →
      ∃ u, exec (.cadd t w) s = .next u ∧ CwsStored s u (t.core / 8) a (cwsWord s (t.core / 8) a + (s.ctxAt t).rx w.b) ∧
        u.ctxAt t = { (s.ctxAt t).wx w.d (cwsWord s (t.core / 8) a) with pc := (s.ctxAt t).pc + 1 }) ∧
  (∀ s t w v a, t.ctx < 4 → Issues s t 0x35 w { d := .x, a := .x, b := .x, c := .x, i := 0xFFFFFF } v →
      s.cwsLoc v (addrOf (s.ctxAt t) w) 8 8 false = .ok (.cws a) →
      ∃ u, exec (.ccas t w) s = .next u ∧
        u.ctxAt t = { (s.ctxAt t).wx w.d (cwsWord s (t.core / 8) a) with pc := (s.ctxAt t).pc + 1 } ∧
        (cwsWord s (t.core / 8) a = (s.ctxAt t).rx w.c → CwsStored s u (t.core / 8) a ((s.ctxAt t).rx w.b)) ∧
        (cwsWord s (t.core / 8) a ≠ (s.ctxAt t).rx w.c → u = s.setsX t w.d (cwsWord s (t.core / 8) a))))

/-- Vector arithmetic: every active element takes the rounded result, every other element stays (10_scaesh_instructions.md: Vector and predicate instructions). Clauses that the spec does not state rest on the model's choice in log entries 15, 16, 17, 18. -/
def Obligations.VectorArithmeticOnLanes : Prop :=
  (∀ r ∈ ([(0x40, .vadd, .none, fun a b _ => f32Add a b), (0x41, .vsub, .none, fun a b _ => toF32 (fAdd (f32 a) (fNeg (f32 b)))),
      (0x42, .vmul, .none, fun a b _ => f32Mul a b), (0x43, .vfma, .v, fun a b c => f32Fma a b c),
      (0x44, .vmax, .none, fun a b _ => f32Max a b), (0x45, .vmin, .none, fun a b _ => f32Min a b)] :
      List (Nat × (Site → GWord → Instr) × Use × (W32 → W32 → W32 → W32))), ∀ s t w v,
    Runs s t r.1 w (vecShape w .v .v r.2.2.1) v →
      exec (r.2.1 t w) s = .next (s.setsV t w.d (vUpd (s.ctxAt t) w (elemBytes (w.f % 16)) ((s.ctxAt t).rv w.d) (fun i =>
        toElem (w.f % 16) (r.2.2.2 ((s.ctxAt t).elem w w.a i) ((s.ctxAt t).elem w w.b i) ((s.ctxAt t).elem w w.c i)))))) ∧
  (∀ r ∈ ([(0x46, .vexp, f32Exp), (0x47, .vlog, f32Log), (0x48, .vrcp, f32Rcp)] :
      List (Nat × (Site → GWord → Instr) × (W32 → Nat → W32))), ∀ s t w v, Runs s t r.1 w (vecShape w .v .none .none) v →
    exec (r.2.1 t w) s = .next (s.draw.setsV t w.d (vUpd (s.ctxAt t) w (elemBytes (w.f % 16)) ((s.ctxAt t).rv w.d) (fun i =>
      toElem (w.f % 16) (r.2.2 ((s.ctxAt t).elem w w.a i) (Config.approx s.drawn i)))))) ∧
  (∀ s t w v, Runs s t 0x49 w { d := .v, a := .v, f := 0xFF, vec := true, ok := decide (w.f % 16 < 4) && decide (w.f / 16 < 4) } v →
    ∃ gone : Nat → Nat, exec (.vcvt t w) s = .next (s.draw.setsV t w.d (vUpd (s.ctxAt t) w (elemBytes (w.f / 16)) ((s.ctxAt t).rv w.d) (fun i =>
      if i < 256 / elemBytes (w.f % 16) then toElem (w.f / 16) ((s.ctxAt t).elem w w.a i) else gone i)))) ∧
  (∀ r ∈ ([(0x4A, .vrmax, f32Max), (0x4B, .vrsum, f32Add)] : List (Nat × (Site → GWord → Instr) × (W32 → W32 → W32))), ∀ s t w v,
    Runs s t r.1 w (vecShape w .v .none .none) v →
      (activeElems (s.ctxAt t) w (w.f % 16) (elemBytes (w.f % 16)) = [] → exec (r.2.1 t w) s = .next (s.passes t)) ∧
      (∀ e l, activeElems (s.ctxAt t) w (w.f % 16) (elemBytes (w.f % 16)) = e :: l → exec (r.2.1 t w) s = .next (s.setsV t w.d
        (vOf (elemBytes (w.f % 16)) (toElem (w.f % 16) (l.foldl r.2.2 e) ::
          (vElems (elemBytes (w.f % 16)) ((s.ctxAt t).rv w.d)).tail))))) ∧
  (∀ s t w v, Runs s t 0x4C w (vecShape w .v .x .none) v →
    exec (.vscl t w) s = .next (s.setsV t w.d (vUpd (s.ctxAt t) w (elemBytes (w.f % 16)) ((s.ctxAt t).rv w.d) (fun i =>
      toElem (w.f % 16) (toF32 (fScale (f32 ((s.ctxAt t).elem w w.a i)) (scaleExp ((s.ctxAt t).rx w.b)))))))) ∧
  (∀ s t w v, Runs s t 0x4D w (vecShape w .v .v .p) v →
    exec (.vsel t w) s = .next (s.setsV t w.d (vUpd (s.ctxAt t) w (elemBytes (w.f % 16)) ((s.ctxAt t).rv w.d) (fun i =>
      if ((s.ctxAt t).rp w.c).getLsbD (elemBytes (w.f % 16) * i) then vEl (elemBytes (w.f % 16)) ((s.ctxAt t).rv w.a) i
      else vEl (elemBytes (w.f % 16)) ((s.ctxAt t).rv w.b) i))))

/-- A vector result changes exactly the elements whose guard bit is on (10_scaesh_instructions.md: The instruction word). Clauses that the spec does not state rest on the model's choice in log entries 9, 16. -/
def Obligations.GuardMasksLanes : Prop :=
  ∀ (c : Ctx) (w : GWord) sz (old : Vec) (f : Nat → Nat) i, sz = 1 ∨ sz = 2 ∨ sz = 4 → i < 256 / sz →
    vEl sz (vUpd c w sz old f) i =
      if xor ((c.rp w.pg).getLsbD (sz * i)) w.pgn then f i % 2 ^ (8 * sz) else vEl sz old i

/-- Vector loads, stores and moves complete: they transfer the lanes under their guard and change no other byte (10_scaesh_instructions.md: Vector and predicate instructions). Clauses that the spec does not state rest on the model's choice in log entry 9. -/
def Obligations.VectorMovesAndMemory : Prop :=
  (∀ s t w v a, Runs s t 0x50 w { d := .v, a := .x, i := 0xFFFFFF, vec := true } v →
    s.ldmLoc v (addrOf (s.ctxAt t) w) 256 256 = .ok (.ldm a) →
    ∃ x : Vec, exec (.vld t w) s = .next (s.setsV t w.d x) ∧ ∀ l, l < 256 → vEl 1 x l =
      if laneOn (s.ctxAt t) w l then (tabGet 0 (s.core t.core).ldm (a + l)).toNat else vEl 1 ((s.ctxAt t).rv w.d) l) ∧
  (∀ s t w v a, Runs s t 0x51 w { d := .v, a := .x, i := 0xFFFFFF, vec := true } v →
    s.ldmLoc v (addrOf (s.ctxAt t) w) 256 256 = .ok (.ldm a) →
    ∃ u, exec (.vst t w) s = .next u ∧
      (∀ l, l < 256 → tabGet 0 (u.core t.core).ldm (a + l) =
        if laneOn (s.ctxAt t) w l then BitVec.ofNat 8 (vEl 1 ((s.ctxAt t).rv w.d) l) else tabGet 0 (s.core t.core).ldm (a + l)) ∧
      (∀ b, b < a ∨ a + 256 ≤ b → tabGet 0 (u.core t.core).ldm b = tabGet 0 (s.core t.core).ldm b) ∧
      (∀ n, n ≠ t.core → u.core n = s.core n) ∧ u.cores.cws = s.cores.cws ∧ u.cores.merge = s.cores.merge ∧
      u.ctxAt t = { s.ctxAt t with pc := (s.ctxAt t).pc + 1 } ∧ OnlyCores s u) ∧
  (∀ s t w v a, Runs s t 0x52 w { d := .v, a := .x, i := 0xFFFFFF, vec := true } v →
    (s.cwsLoc v (addrOf (s.ctxAt t) w) 256 256 true = .ok (.cws a) →
      ∃ x : Vec, exec (.vcld t w) s = .next (s.setsV t w.d x) ∧ ∀ l, l < 256 → vEl 1 x l =
        if laneOn (s.ctxAt t) w l then (tabGet 0 (s.cwsOf (t.core / 8)) (a + l)).toNat else vEl 1 ((s.ctxAt t).rv w.d) l) ∧
    (s.cwsLoc v (addrOf (s.ctxAt t) w) 256 256 true = .ok (.ref a) →
      ∃ x : Vec, exec (.vcld t w) s = .next (s.setsV t w.d x) ∧ ∀ l, l < 256 → vEl 1 x l =
        if laneOn (s.ctxAt t) w l then (tabGet 0 (s.mergeOf (t.core / 8)) (a + l)).toNat else vEl 1 ((s.ctxAt t).rv w.d) l)) ∧
  (∀ s t w v a, Runs s t 0x53 w { d := .v, a := .x, i := 0xFFFFFF, vec := true } v →
    s.cwsLoc v (addrOf (s.ctxAt t) w) 256 256 false = .ok (.cws a) →
    ∃ u, exec (.vcst t w) s = .next u ∧
      (∀ l, l < 256 → tabGet 0 (u.cwsOf (t.core / 8)) (a + l) =
        if laneOn (s.ctxAt t) w l then BitVec.ofNat 8 (vEl 1 ((s.ctxAt t).rv w.d) l) else tabGet 0 (s.cwsOf (t.core / 8)) (a + l)) ∧
      (∀ b, b < a ∨ a + 256 ≤ b → tabGet 0 (u.cwsOf (t.core / 8)) b = tabGet 0 (s.cwsOf (t.core / 8)) b) ∧
      (∀ n, n ≠ t.core / 8 → u.cwsOf n = s.cwsOf n) ∧ u.cores.merge = s.cores.merge ∧ (∀ n, (u.core n).ldm = (s.core n).ldm) ∧
      u.ctxAt t = { s.ctxAt t with pc := (s.ctxAt t).pc + 1 } ∧ OnlyCores s u) ∧
  (∀ r ∈ ([(0x50, .vld), (0x51, .vst)] : List (Nat × (Site → GWord → Instr))), ∀ s t w v,
    Runs s t r.1 w { d := .v, a := .x, i := 0xFFFFFF, vec := true } v →
    s.ldmLoc v (addrOf (s.ctxAt t) w) 256 256 = .error 3 → exec (r.2 t w) s = .next (s.raise t 3)) ∧
  (∀ r ∈ ([(0x52, true, .vcld), (0x53, false, .vcst)] : List (Nat × Bool × (Site → GWord → Instr))), ∀ s t w v,
    Runs s t r.1 w { d := .v, a := .x, i := 0xFFFFFF, vec := true } v →
    s.cwsLoc v (addrOf (s.ctxAt t) w) 256 256 r.2.1 = .error 4 → exec (r.2.2 t w) s = .next (s.raise t 4)) ∧
  (∀ s t w v, Runs s t 0x54 w { d := .x, a := .v, i := 63, vec := true } v →
    exec (.vget t w) s = .next (if laneOn (s.ctxAt t) w (4 * w.i)
      then s.setsX t w.d (BitVec.ofNat 64 (vEl 4 ((s.ctxAt t).rv w.a) w.i)) else s.passes t)) ∧
  (∀ s t w v, Runs s t 0x55 w { d := .v, a := .x, i := 63, vec := true } v →
    ∃ x : Vec, exec (.vput t w) s = .next (s.setsV t w.d x) ∧ ∀ i, i < 64 → vEl 4 x i =
      if laneOn (s.ctxAt t) w (4 * i) ∧ i = w.i then ((s.ctxAt t).rx w.a).toNat % 2 ^ 32 else vEl 4 ((s.ctxAt t).rv w.d) i) ∧
  (∀ s t w v, Runs s t 0x56 w { d := .v, a := .x, vec := true } v →
    ∃ x : Vec, exec (.vspl t w) s = .next (s.setsV t w.d x) ∧ ∀ i, i < 64 → vEl 4 x i =
      if laneOn (s.ctxAt t) w (4 * i) then ((s.ctxAt t).rx w.a).toNat % 2 ^ 32 else vEl 4 ((s.ctxAt t).rv w.d) i) ∧
  (∀ s t w v, Runs s t 0x57 w { d := .v, a := .v, b := .v, f := 3, vec := true } v →
    ∃ x : Vec, exec (.vbit t w) s = .next (s.setsV t w.d x) ∧ ∀ l, l < 256 → vEl 1 x l =
      if laneOn (s.ctxAt t) w l then vEl 1
        (([((s.ctxAt t).rv w.a) &&& ((s.ctxAt t).rv w.b), ((s.ctxAt t).rv w.a) ||| ((s.ctxAt t).rv w.b),
           ((s.ctxAt t).rv w.a) ^^^ ((s.ctxAt t).rv w.b), ((s.ctxAt t).rv w.a) &&& ~~~((s.ctxAt t).rv w.b)] : List Vec).getD w.f 0) l
      else vEl 1 ((s.ctxAt t).rv w.d) l)

/-- Every predicate instruction writes its result, PCNT the number of set bits (10_scaesh_instructions.md: Vector and predicate instructions). -/
def Obligations.PredicatesTakeTheirResult : Prop :=
  (∀ r ∈ ([(0x60, .pand, .p, fun a b => a &&& b), (0x61, .por, .p, fun a b => a ||| b), (0x62, .pxor, .p, fun a b => a ^^^ b),
      (0x63, .pnot, .none, fun a _ => ~~~a)] : List (Nat × (Site → GWord → Instr) × Use × (Pred → Pred → Pred))), ∀ s t w v,
    Issues s t r.1 w { d := .p, a := .p, b := r.2.2.1 } v →
      exec (r.2.1 t w) s = .next (s.setsP t w.d (r.2.2.2 ((s.ctxAt t).rp w.a) ((s.ctxAt t).rp w.b)))) ∧
  (∀ s t w v, Issues s t 0x64 w
      { d := .p, a := .v, b := .v, f := 0x7F, ok := decide (w.f % 16 < 4) && decide (w.f / 16 < 6) } v →
    ∃ r : Pred, exec (.pcmp t w) s = .next (s.setsP t w.d r) ∧ ∀ l, l < 256 →
      r.getLsbD l = fCond (w.f / 16)
        (fDecode (elemFmt (w.f % 16)) (vEl (elemBytes (w.f % 16)) ((s.ctxAt t).rv w.a) (l / elemBytes (w.f % 16))))
        (fDecode (elemFmt (w.f % 16)) (vEl (elemBytes (w.f % 16)) ((s.ctxAt t).rv w.b) (l / elemBytes (w.f % 16))))) ∧
  (∀ s t w v, Issues s t 0x65 w { d := .p, i := 0x1FF, ok := decide (w.i ≤ 256) } v →
    ∃ r : Pred, exec (.pfx t w) s = .next (s.setsP t w.d r) ∧ ∀ l, l < 256 → r.getLsbD l = decide (l < w.i)) ∧
  (∀ s t w v, Issues s t 0x66 w { d := .x, a := .p } v →
    exec (.pcnt t w) s = .next (s.setsX t w.d
      (BitVec.ofNat 64 ((List.range 256).filter (fun i => ((s.ctxAt t).rp w.a).getLsbD i)).length)))

/-- x0 and p0 are constant, every other register keeps what is written; a retirement changes its own context, its STEP bit and CORE_RETIRED only (09_scaesh_model.md: Architectural state; 09_scaesh_model.md: Core control registers). -/
def Obligations.RegistersAndRetirement : Prop :=
  (∀ c : Ctx,
    c.rx 0 = 0 ∧ c.rp 0 = BitVec.allOnes 256 ∧ (∀ v, c.wx 0 v = c) ∧ (∀ v, c.wp 0 v = c) ∧
    (∀ r v q, r ≠ 0 → (c.wx r v).rx q = if q = r then v else c.rx q) ∧
    (∀ r v q, (c.wv r v).rv q = if q = r then v else c.rv q) ∧
    (∀ r v q, r ≠ 0 → (c.wp r v).rp q = if q = r then v else c.rp q)) ∧
  (∀ (s : State) (t : Site) (c : Ctx) pc, t.ctx < 4 →
    let u := s.retired t c pc
    u.ctxAt t = { c with pc := pc } ∧
    (∀ t2 : Site, t2.ctx < 4 → t2 ≠ t → u.ctxAt t2 = s.ctxAt t2) ∧
    (∀ n, (u.core n).ldm = (s.core n).ldm ∧ (u.core n).ldmPage = (s.core n).ldmPage ∧ (u.core n).halt = (s.core n).halt ∧
      (u.core n).faultValid = (s.core n).faultValid ∧ (u.core n).faultCause = (s.core n).faultCause ∧
      (u.core n).faultCtx = (s.core n).faultCtx ∧ (u.core n).faultProg = (s.core n).faultProg ∧
      (u.core n).faultPc = (s.core n).faultPc) ∧
    (∀ n, n ≠ t.core → u.core n = s.core n) ∧
    bitAt (u.core t.core).stepBits t.ctx = false ∧
    (∀ k, k ≠ t.ctx → bitAt (u.core t.core).stepBits k = bitAt (s.core t.core).stepBits k) ∧
    u.ctr .coreRetired t.core = s.ctr .coreRetired t.core + 1 ∧
    (∀ k sc, ctrKey k sc ≠ ctrKey .coreRetired t.core → u.ctr k sc = s.ctr k sc) ∧
    u.cores = { s.cores with core := u.cores.core } ∧ OnlyCores s u)

/-- A scalar, control or engine instruction whose guard is off retires with no other effect (10_scaesh_instructions.md: The instruction word). -/
def Obligations.GuardOffHasNoEffect : Prop :=
  ∀ r ∈ ([(0x31, .st, { a := .x, b := .x, i := 0xFFFFFF }), (0x30, .ld, { d := .x, a := .x, i := 0xFFFFFF }),
      (0x00, .add, { d := .x, a := .x, b := .x }), (0x20, .beq, { a := .x, b := .x, i := 0x1FFF }), (0x28, .endInv, {}),
      (0x60, .pand, { d := .p, a := .p, b := .p }), (0x70, .bind, { d := .h, a := .x }),
      (0x91, .ssort, { a := .x, f := 0x1F, tag := true }), (0xC4, .dbell, { a := .x, f := 0xF, tag := true }),
      (0xD6, .wbeat, {})] : List (Nat × (Site → GWord → Instr) × Shape)), ∀ s t w v,
    Runs s t r.1 w r.2.2 v → xor (((s.ctxAt t).rp w.pg).getLsbD 0) w.pgn = false →
      exec (r.2.1 t w) s = .next (s.passes t)

/-- A malformed word raises ILLEGAL and ends the invocation; a fault is counted and recorded once (10_scaesh_instructions.md: The instruction word; 09_scaesh_model.md: Faults). Clauses that the spec does not state rest on the model's choice in log entry 6. -/
def Obligations.IllegalWordFaults : Prop :=
  (∀ r ∈ ([(0x00, .add, fun _ => { d := .x, a := .x, b := .x }), (0x31, .st, fun _ => { a := .x, b := .x, i := 0xFFFFFF }),
      (0x40, .vadd, fun w => vecShape w .v .v .none), (0x65, .pfx, fun w => { d := .p, i := 0x1FF, ok := decide (w.i ≤ 256) })] :
      List (Nat × (Site → GWord → Instr) × (GWord → Shape))), ∀ s t w v, s.up = true → (s.ctxAt t).inv = some v → s.ready t = true →
    (s.ctxAt t).pc < s.codeLen v → s.wordIs v (s.ctxAt t).pc (encodeG r.1 w) = true → wordOk t.ctx (r.2.2 w) w = false →
      exec (r.2.1 t w) s = .next (s.raise t 1)) ∧
  (∀ (s : State) (t : Site) cause v, t.ctx < 4 → (s.ctxAt t).inv = some v → v.event = 0 →
    let u := s.raise t cause
    (u.ctxAt t).inv = none ∧ u.ctr .coreFaults t.core = s.ctr .coreFaults t.core + 1 ∧
    ((s.core t.core).faultValid = false → (u.core t.core).faultValid = true ∧ (u.core t.core).faultCause = cause ∧
      (u.core t.core).faultCtx = t.ctx ∧ (u.core t.core).faultProg = v.prog ∧ (u.core t.core).faultPc = (s.ctxAt t).pc) ∧
    ((s.core t.core).faultValid = true → (u.core t.core).faultCause = (s.core t.core).faultCause ∧
      (u.core t.core).faultPc = (s.core t.core).faultPc))

/-- BIND, UNBIND, BDESC and BSESS: slots, the block summary bit by bit, one word of the entry (10_scaesh_instructions.md: Block access). -/
def Obligations.SlotsAndBlockSummaries : Prop :=
  (∀ s t w v, Issues s t 0x70 w { d := .h, a := .x } v →
    (∀ id, s.handle? v.part ((s.ctxAt t).rx w.a).toNat = some id → ∃ c, exec (.bind t w) s = .next (s.retired t c ((s.ctxAt t).pc + 1)) ∧
      c.slot w.d = some ((s.ctxAt t).rx w.a).toNat ∧ (∀ n, n ≠ w.d → c.slot n = (s.ctxAt t).slot n) ∧
      c = { s.ctxAt t with h := c.h }) ∧
    (s.handle? v.part ((s.ctxAt t).rx w.a).toNat = none → exec (.bind t w) s = .next (s.raise t 5))) ∧
  (∀ s t w v, Issues s t 0x71 w { d := .h } v → ∃ c, exec (.unbind t w) s = .next (s.retired t c ((s.ctxAt t).pc + 1)) ∧
      c.slot w.d = none ∧ (∀ n, n ≠ w.d → c.slot n = (s.ctxAt t).slot n) ∧ c = { s.ctxAt t with h := c.h }) ∧
  (∀ s t w v bad, Issues s t 0x72 w { d := .x, a := .x, f := 0x30 } v → (s.ctxAt t).slot (w.f / 16) = none →
      exec (.bdesc t w bad) s = .next (s.raise t 5)) ∧
  (∀ s t w v h chk, Issues s t 0x72 w { d := .x, a := .x, f := 0x30 } v → (s.ctxAt t).slot (w.f / 16) = some h →
      s.walkFault (hId h) ((s.ctxAt t).rx w.a).toNat chk = none →
      let d := s.locate ((s.getSess (hId h)).desc ((s.ctxAt t).rx w.a).toNat)
      d.tier < 4 → d.cluster < 32 → d.fill < 128 →
      ∃ x : Nat, exec (.bdesc t w chk) s = .next (s.setsX t w.d (BitVec.ofNat 64 x)) ∧ x < 2 ^ 17 ∧
        (d.valid = false → x = 0) ∧
        (d.valid = true → bits x 0 2 = d.tier ∧ bits x 2 5 = d.cluster ∧ bitAt x 7 = d.shared ∧ bits x 8 7 = d.fill ∧
          bitAt x 15 = true ∧ bitAt x 16 = decide (d.cluster = t.core / 8))) ∧
  (∀ s t w v h chk, Issues s t 0x72 w { d := .x, a := .x, f := 0x30 } v → (s.ctxAt t).slot (w.f / 16) = some h →
      let d := (s.getSess (hId h)).desc ((s.ctxAt t).rx w.a).toNat
      d.valid = true → chk ≠ .ok → (chk = .record → d.shared = true) →
      exec (.bdesc t w chk) s = .next ((s.pageFault (hId h) ((s.ctxAt t).rx w.a).toNat chk).retired t ((s.ctxAt t).wx w.d 0)
        ((s.ctxAt t).pc + 1))) ∧
  (∀ s t w v, Issues s t 0x73 w { d := .x, f := 0x30, i := 7 } v →
    ((s.ctxAt t).slot (w.f / 16) = none → exec (.bsess t w) s = .next (s.raise t 5)) ∧
    (∀ h, (s.ctxAt t).slot (w.f / 16) = some h →
      exec (.bsess t w) s = .next (s.setsX t w.d (BitVec.ofNat 64 ((s.getSess (hId h)).words.getD w.i 0)))))

/-- BLD copies covered rows of an own block of a resident session or completes with REMOTE, NOT_RESIDENT or NOT_COVERED; BST writes as a KV_APPEND (10_scaesh_instructions.md: Block access). Clauses that the spec does not state rest on the model's choice in log entries 10, 93. -/
def Obligations.BlockCopiesCompleteTheirTag : Prop :=
  (∀ s t w v h l, let c := s.ctxAt t; let a := (c.rx w.b).toNat; let x := s.getSess (hId h); let m := s.model x.part x.model
    let b := (c.rx w.a).toNat; let d := s.locate (x.desc b); let n := bits a 20 7; let first := bits a 14 6
    Issues s t 0x74 w { d := .x, a := .x, b := .x, f := 0x7F, tag := true } v → c.slot (w.f / 16 % 4) = some h →
    a < 2 ^ 29 → bits a 27 2 < 2 → 1 ≤ n → first + n ≤ 64 →
    s.spaceLoc v (bitAt w.f 6) (c.rx w.d) (n * m.rowBytes) 1 false = .ok l →
    (∀ chk, v.cls = .control → exec (.bld t w chk) s = .next (s.raise t 9)) ∧
    (∀ chk s1, v.cls ≠ .control → s.gateOpen v [dieOf (t.core / 8)] (estTicks (n * m.rowBytes) (tierRate d.tier)) = true →
      s.checkFault (hId h) b chk = some s1 → exec (.bld t w chk) s = .next (s1.raise t 7)) ∧
    (∀ chk, v.cls ≠ .control → s.gateOpen v [dieOf (t.core / 8)] (estTicks (n * m.rowBytes) (tierRate d.tier)) = true →
      s.walkFault (hId h) b chk = none →
      ∃ o : TagOp, o.tag = w.f % 16 ∧
        exec (.bld t w chk) s = .next ((if o.value = 0 then s.locWrite t.core l ((List.range n).flatMap (fun j =>
          rowOut m.kvFmt ((s.blk d.blk).row (bits a 0 8) (bits a 27 2) (bits a 8 6) (first + j)))) else s).retired t (c.tagStart o)
          (c.pc + 1)) ∧
        (x.st.resides = false → o.value = 0xE1) ∧
        (x.st.resides = true → d.valid = false → o.value = 0xE2) ∧
        (x.st.resides = true → d.valid = true → d.cluster ≠ t.core / 8 → o.value = 0xE0) ∧
        (x.st.resides = true → d.valid = true → d.cluster = t.core / 8 → 2 ≤ d.tier → o.value = 0xE1) ∧
        (x.st.resides = true → d.valid = true → d.cluster = t.core / 8 → d.tier < 2 → x.loadable b (bits a 0 8) < 64 * b + first + n →
          o.value = 0xE2) ∧
        (x.st.resides = true → d.valid = true → d.cluster = t.core / 8 → d.tier < 2 → 64 * b + first + n ≤ x.loadable b (bits a 0 8) →
          bits a 0 8 < m.layers → bits a 8 6 < m.kvheads → o.value = 0))) ∧
  (∀ s t w v h l, let c := s.ctxAt t; let a := (c.rx w.b).toNat; let x := s.getSess (hId h); let m := s.model x.part x.model
    let k0 : KvMsg := { port := bstPort, vc := 0, handle := h, pos := (c.rx w.a).toNat, layer := bits a 0 8, bodyVer := 1,
                        count := bits a 8 7, kvIn := bits a 15 2, data := [] }
    let k := { k0 with data := s.locRead t.core l (k0.dataLen m) }
    Issues s t 0x75 w { a := .x, b := .x, c := .x, f := 0x7F, tag := true } v → c.slot (w.f / 16 % 4) = some h →
    a < 2 ^ 17 → bits a 15 2 < 2 → s.spaceLoc v (bitAt w.f 6) (c.rx w.c) (k0.dataLen m) 1 false = .ok l → v.cls ≠ .control →
    s.gateOpen v [dieOf (t.core / 8), dieOf (s.locate (x.desc (k.pos / 64))).cluster]
      (estTicks (k0.dataLen m) (tierRate (s.locate (x.desc (k.pos / 64))).tier)) = true →
    (∀ chk s1, s.checkFault (hId h) (k.pos / 64) chk = some s1 → exec (.bst t w chk) s = .next (s1.raise t 7)) ∧
    (∀ chk id, s.walkFault (hId h) (k.pos / 64) chk = none → s.kvCheck v.part false k = .ok id →
      ∃ o : TagOp, o.tag = w.f % 16 ∧ o.value = 0 ∧ o.mark = s.newMark.1 ∧
      exec (.bst t w chk) s = .next ((s.newMark.2.kvAccept id { k with mark := o.mark }).retired t (c.tagStart o) (c.pc + 1))) ∧
    (∀ chk e, s.walkFault (hId h) (k.pos / 64) chk = none → s.kvCheck v.part false k = .error e →
      exec (.bst t w chk) s = .next (s.raise t 6)))

/-- AQK, ASMX, APV, ATZ, ATLD and ATST: what each does to its tile, registers and memory (10_scaesh_instructions.md: Attention). Clauses that the spec does not state rest on the model's choice in log entries 10, 15, 49, 93. -/
def Obligations.AttentionTilesFollowTheirInstruction : Prop :=
  (∀ s t w v h l o chk, let c := s.ctxAt t; let x := s.getSess (hId h); let m := s.model x.part x.model
    let b := (c.rx w.b).toNat; let d := s.locate (x.desc b)
    Issues s t 0x80 w { d := .t, a := .x, b := .x, c := .x, f := 0x1F, tag := true } v → opWord (c.rx w.c).toNat = some o →
    c.slot o.slot = some h → c.tileBusy w.d = false → v.cls ≠ .control →
    s.gateOpen v [dieOf (t.core / 8)] (estTicks (64 * m.kvheads * m.rowBytes) (tierRate d.tier)) = true →
    s.walkFault (hId h) b chk = none → s.spaceLoc v (bitAt w.f 4) (c.rx w.a) (o.rows * m.headDim * (if o.qfmt = 0 then 2 else 1) + (if o.qfmt = 0 then 0 else 4 * o.rows))
      1 true = .ok l →
    ∃ u, exec (.aqk t w chk) s = .next u ∧ (u.ctxAt t).pc = c.pc + 1 ∧
      (∃ p ∈ (u.ctxAt t).ops, p.tag = w.f % 16 ∧ p.tile = some w.d ∧
        (x.st.resides = false → p.value = 0xE1) ∧
        (x.st.resides = true → d.valid = false → p.value = 0xE2) ∧
        (x.st.resides = true → d.valid = true → d.cluster ≠ t.core / 8 → p.value = 0xE0) ∧
        (x.st.resides = true → d.valid = true → d.cluster = t.core / 8 → 2 ≤ d.tier → p.value = 0xE1) ∧
        (x.st.resides = true → d.valid = true → d.cluster = t.core / 8 → d.tier < 2 →
          p.value = if o.layer < m.layers ∧ 64 * b < x.loadable b o.layer then 0 else 0xE2) ∧
        (∀ j q, j < 64 → q < 64 → (o.rows ≤ j ∨ p.value ≠ 0) → (u.ctxAt t).tileEl w.d j q = f32NegInf)) ∧
      (∀ n, (u.core n).ldm = (s.core n).ldm) ∧ u.cores.cws = s.cores.cws ∧ u.cores.merge = s.cores.merge ∧ u.sess = s.sess) ∧
  (∀ s t w v, let c := s.ctxAt t
    Issues s t 0x81 w { d := .t, a := .v, b := .v, c := .v } v → c.tileBusy w.d = false → w.a ≠ w.b → w.b ≠ w.c → w.a ≠ w.c →
    ∃ u, exec (.asmx t w) s = .next u ∧ (u.ctxAt t).pc = c.pc + 1 ∧ ∀ j, j < 64 →
      (softStep (s.free + 100 * j) (c.lane w.a j) (c.lane w.b j) (c.tileRow w.d j)).1 = (u.ctxAt t).lane w.a j ∧
      (softStep (s.free + 100 * j) (c.lane w.a j) (c.lane w.b j) (c.tileRow w.d j)).2.1 = (u.ctxAt t).lane w.b j ∧
      (softStep (s.free + 100 * j) (c.lane w.a j) (c.lane w.b j) (c.tileRow w.d j)).2.2.1 = (u.ctxAt t).lane w.c j ∧
      (softStep (s.free + 100 * j) (c.lane w.a j) (c.lane w.b j) (c.tileRow w.d j)).2.2.2 = (u.ctxAt t).tileRow w.d j) ∧
  (∀ s t w v h l o chk, let c := s.ctxAt t; let x := s.getSess (hId h); let m := s.model x.part x.model
    let b := (c.rx w.b).toNat; let d := s.locate (x.desc b)
    Issues s t 0x82 w { d := .t, a := .x, b := .x, c := .x, f := 0x1F, i := 0x1F, tag := true } v →
    opWord (c.rx w.c).toNat = some o → c.slot o.slot = some h → c.tileBusy w.d = false → v.cls ≠ .control →
    s.gateOpen v [dieOf (t.core / 8)] (estTicks (64 * m.kvheads * m.rowBytes) (tierRate d.tier)) = true →
    s.walkFault (hId h) b chk = none → s.storeLoc v (bitAt w.f 4) (c.rx w.a) (4 * o.rows * m.headDim) = .ok l →
    ∃ u, exec (.apv t w chk) s = .next u ∧ (u.ctxAt t).pc = c.pc + 1 ∧ u.sess = s.sess ∧
      (∃ p ∈ (u.ctxAt t).ops, p.tag = w.f % 16 ∧
        p.value = readValue x.st d (t.core / 8) (decide (o.layer < m.layers) && decide (64 * b < x.loadable b o.layer)) ∧
        (p.value ≠ 0 → (∀ n, (u.core n).ldm = (s.core n).ldm) ∧ u.cores.cws = s.cores.cws ∧ u.cores.merge = s.cores.merge) ∧
        (p.value = 0 → ∃ bytes : Bytes, (∀ n, (u.core n).ldm = ((s.locWrite t.core l bytes).core n).ldm) ∧
          u.cores.cws = (s.locWrite t.core l bytes).cores.cws ∧ u.cores.merge = (s.locWrite t.core l bytes).cores.merge))) ∧
  (∀ s t w v, Issues s t 0x87 w { d := .t } v → (s.ctxAt t).tileBusy w.d = false →
    ∃ u, exec (.atz t w) s = .next u ∧ (u.ctxAt t).pc = (s.ctxAt t).pc + 1 ∧ ∀ j p, (u.ctxAt t).tileEl w.d j p = 0) ∧
  (∀ s t w v a, Issues s t 0x88 w { d := .t, a := .x } v → (s.ctxAt t).tileBusy w.d = false →
    s.ldmLoc v ((s.ctxAt t).rx w.a) 16384 1 = .ok (.ldm a) →
    ∃ u, exec (.atld t w) s = .next u ∧ (u.ctxAt t).pc = (s.ctxAt t).pc + 1 ∧ ∀ j p, j < 64 → p < 64 →
      ((u.ctxAt t).tileEl w.d j p).toNat = leNat (memRead (s.core t.core).ldm (a + 4 * (64 * j + p)) 4)) ∧
  (∀ s t w v a, t.ctx < 4 → Issues s t 0x89 w { d := .t, a := .x } v → (s.ctxAt t).tileBusy w.d = false →
    s.ldmLoc v ((s.ctxAt t).rx w.a) 16384 1 = .ok (.ldm a) →
    ∃ u, exec (.atst t w) s = .next u ∧ u.ctxAt t = { s.ctxAt t with pc := (s.ctxAt t).pc + 1 } ∧
      (∀ j p, j < 64 → p < 64 →
        leNat (memRead (u.core t.core).ldm (a + 4 * (64 * j + p)) 4) = ((s.ctxAt t).tileEl w.d j p).toNat) ∧
      (∀ b, b < a ∨ a + 16384 ≤ b → tabGet 0 (u.core t.core).ldm b = tabGet 0 (s.core t.core).ldm b)) ∧
  (∀ r ∈ ([(0x81, .asmx, { d := .t, a := .v, b := .v, c := .v }), (0x87, .atz, { d := .t }), (0x88, .atld, { d := .t, a := .x }),
      (0x89, .atst, { d := .t, a := .x })] : List (Nat × (Site → GWord → Instr) × Shape)), ∀ s t w v,
    Issues s t r.1 w r.2.2 v → (s.ctxAt t).tileBusy w.d = true → exec (r.2.1 t w) s = .next s)

/-- AMRG merges two partials in place, AFIN finishes one, APOST posts it up the tree, AOUT answers the request (10_scaesh_instructions.md: Attention). Clauses that the spec does not state rest on the model's choice in log entry 50. -/
def Obligations.PartialsMergeAndReturn : Prop :=
  (∀ s t w v rows hd ac bc la lb, let c := s.ctxAt t
    Issues s t 0x83 w { a := .x, b := .x, c := .x } v → mergeWord (c.rx w.c).toNat = some (rows, hd, ac, bc) →
    s.spaceLoc v ac (c.rx w.a) (recLen rows hd) 1 true = .ok la → s.spaceLoc v bc (c.rx w.b) (recLen rows hd) 1 true = .ok lb →
    ∃ s1 : State, s1 = { s with free := s1.free } ∧
      exec (.amrg t w) s = .next ((s1.locWrite t.core la (recOut hd (((List.zip (recIn rows hd (s.locRead t.core la (recLen rows hd)))
        (recIn rows hd (s.locRead t.core lb (recLen rows hd)))).zipIdx).map (fun e => mergePart (s.free + 10 * e.2) e.1.1 e.1.2)))).retired
        t c (c.pc + 1))) ∧
  (∀ s t w v rows hd ac bc la lb, let c := s.ctxAt t; let n := 2 * rows * hd
    let gap := 256 * ((((c.rx w.b).toNat + n) + 255) / 256) - ((c.rx w.b).toNat + n)
    Issues s t 0x84 w { a := .x, b := .x, c := .x } v → mergeWord (c.rx w.c).toNat = some (rows, hd, ac, bc) →
    s.spaceLoc v ac (c.rx w.a) (recLen rows hd) 1 true = .ok la → s.storeLoc v bc (c.rx w.b) (n + gap + 4 * rows) = .ok lb →
    ∃ s1 : State, s1 = { s with free := s1.free } ∧
      exec (.afin t w) s = .next ((s1.locWrite t.core lb ((finOut s.free hd (recIn rows hd (s.locRead t.core la (recLen rows hd)))).1 ++
        (s.locRead t.core lb (n + gap)).drop n ++ (finOut s.free hd (recIn rows hd (s.locRead t.core la (recLen rows hd)))).2)).retired t c
        (c.pc + 1))) ∧
  (∀ s t w v rows hd ac bc l r, let c := s.ctxAt t
    Issues s t 0x85 w { d := .x, a := .x, b := .x, c := .x, f := 0xF, tag := true } v →
    mergeWord (c.rx w.c).toNat = some (rows, hd, ac, bc) → (v.event = 1 ∨ v.event = 2) → v.req = (c.rx w.b).toNat → v.cover ≠ 0 →
    (ac = true ∨ (c.rx w.a).toNat / 2 ^ 63 ≠ 0) → s.req? v.req = some r →
    s.cwsLoc v (c.rx w.a) (recLen rows hd) 1 true = .ok l →
    let o := s.post r v.row t.core v.level v.cover (s.locRead t.core l (recLen rows hd))
    ∃ c1 : Ctx, exec (.apost t w) s = .next (o.st.retired t c1 (c.pc + 1)) ∧ c1.rx w.d = (if w.d = 0 then 0 else BitVec.ofNat 64 o.res) ∧
      (∃ p ∈ c1.ops, p.tag = w.f % 16 ∧ p.value = 0)) ∧
  (∀ s t w v, Issues s t 0x85 w { d := .x, a := .x, b := .x, c := .x, f := 0xF, tag := true } v →
    (v.event ≠ 1 ∧ v.event ≠ 2 ∨ v.req ≠ ((s.ctxAt t).rx w.b).toNat) → exec (.apost t w) s = .next (s.raise t 1)) ∧
  (∀ s t w v r l, let c := s.ctxAt t; let m := s.model r.part (s.getSess (hId r.handle)).model
    let n := 2 * (groupRows r v.row * m.qheads) * m.headDim
    let gap := 256 * ((((c.rx w.a).toNat + n) + 255) / 256) - ((c.rx w.a).toNat + n)
    let lse := 4 * (groupRows r v.row * m.qheads)
    Issues s t 0x86 w { a := .x, b := .x, c := .x } v → s.req? v.req = some r → v.granted = true → v.answered = false →
    v.req = (c.rx w.b).toNat →
    ((c.rx w.c).toNat % 256 ≠ 0 → exec (.aout t w) s = .next ((s.attAnswer r.id v.row ((c.rx w.c).toNat % 256) [] []).retired t
      { c with inv := some { v with answered := true } } (c.pc + 1))) ∧
    ((c.rx w.c).toNat % 256 = 0 → s.cwsLoc v (c.rx w.a) (n + gap + lse) 1 true = .ok l →
      exec (.aout t w) s = .next ((s.attAnswer r.id v.row 0 ((s.locRead t.core l (n + gap + lse)).take n)
        ((s.locRead t.core l (n + gap + lse)).drop (n + gap))).retired t { c with inv := some { v with answered := true } } (c.pc + 1)))) ∧
  (∀ s t w v, Issues s t 0x86 w { a := .x, b := .x, c := .x } v → (v.granted = false ∨ v.answered = true) →
    exec (.aout t w) s = .next (s.raise t 1))

/-- SKEY, SSORT, SMERGE, SSTAGE and SCNT on arrays of 256 entries (10_scaesh_instructions.md: Sort). -/
def Obligations.SortInstructionsRankEntries : Prop :=
  (∀ s t w v l, let c := s.ctxAt t
    Issues s t 0x91 w { a := .x, f := 0x1F, tag := true } v → s.sortLoc v w (c.rx w.a) = .ok l →
    ∃ es : List Nat, es.Perm (sortIn (s.locRead t.core l 2048)) ∧ es.Pairwise (fun a b => b ≤ a) ∧
      exec (.ssort t w) s = .next ((s.locWrite t.core l (es.flatMap (natLe 8))).retired t (sortTag c w) (c.pc + 1))) ∧
  (∀ s t w v la lb, let c := s.ctxAt t
    Issues s t 0x92 w { a := .x, b := .x, f := 0x1F, tag := true } v → s.sortLoc v w (c.rx w.a) = .ok la →
    s.sortLoc v w (c.rx w.b) = .ok lb →
    ∃ es rest : List Nat, es.length = 256 ∧
      (es ++ rest).Perm (sortIn (s.locRead t.core la 2048) ++ sortIn (s.locRead t.core lb 2048)) ∧
      (es ++ rest).Pairwise (fun a b => b ≤ a) ∧
      exec (.smerge t w) s = .next ((s.locWrite t.core la (es.flatMap (natLe 8))).retired t (sortTag c w) (c.pc + 1))) ∧
  (∀ s t w v l, let c := s.ctxAt t; let j := bits w.i 0 3; let k := bits w.i 3 4
    let a := sortIn (s.locRead t.core l 2048)
    Issues s t 0x93 w { a := .x, f := 0x1F, i := 0xFF, tag := true, ok := decide (1 ≤ bits w.i 3 4) && decide (bits w.i 3 4 ≤ 8) } v →
    s.sortLoc v w (c.rx w.a) = .ok l →
    ∃ es : List Nat, es.length = 256 ∧
      exec (.sstage t w) s = .next ((s.locWrite t.core l (es.flatMap (natLe 8))).retired t (sortTag c w) (c.pc + 1)) ∧
      ∀ i, i < 256 → bitAt i j = false →
        (xor (bitAt i k) (bitAt w.i 7) = false → es.getD i 0 = max (a.getD i 0) (a.getD (i + 2 ^ j) 0) ∧
          es.getD (i + 2 ^ j) 0 = min (a.getD i 0) (a.getD (i + 2 ^ j) 0)) ∧
        (xor (bitAt i k) (bitAt w.i 7) = true → es.getD i 0 = min (a.getD i 0) (a.getD (i + 2 ^ j) 0) ∧
          es.getD (i + 2 ^ j) 0 = max (a.getD i 0) (a.getD (i + 2 ^ j) 0))) ∧
  (∀ s t w v ld la lb, let c := s.ctxAt t; let n := w.i; let base := (c.rx w.c).toNat
    Issues s t 0x90 w { d := .x, a := .x, b := .x, c := .x, f := 0x1F, i := 0x1FF, tag := true,
                        ok := decide (1 ≤ w.i) && decide (w.i ≤ 256) } v →
    base + n - 1 ≤ 0x3FFFF → s.sortLoc v w (c.rx w.d) = .ok ld → s.spaceLoc v (bitAt w.f 4) (c.rx w.a) (4 * n) 1 false = .ok la →
    s.spaceLoc v (bitAt w.f 4) (c.rx w.b) ((n + 7) / 8) 1 false = .ok lb →
    ∃ key : Nat → Nat,
      exec (.skey t w) s = .next ((s.locWrite t.core ld (((List.range 256).map key).flatMap (natLe 8))).retired t (sortTag c w)
        (c.pc + 1)) ∧
      (∀ e, n ≤ e → key e = 0) ∧
      ∀ e, e < n → let y : W32 := BitVec.ofNat 32 (field (s.locRead t.core la (4 * n)) (4 * e) 4)
        (bitAt (byteAt (s.locRead t.core lb ((n + 7) / 8)) (e / 8)) (e % 8) = false ∨ isNanW y = true ∨ y = f32NegInf → key e = 0) ∧
        (bitAt (byteAt (s.locRead t.core lb ((n + 7) / 8)) (e / 8)) (e % 8) = true → isNanW y = false → y ≠ f32NegInf →
          key e = composite (base + e) (adjusted y))) ∧
  (∀ s t w v l, Issues s t 0x94 w { d := .x, a := .x, f := 0x10 } v → s.sortLoc v w ((s.ctxAt t).rx w.a) = .ok l →
    exec (.scnt t w) s = .next (s.setsX t w.d (BitVec.ofNat 64
      ((sortIn (s.locRead t.core l 2048)).filter (fun e => e ≠ 0)).length)))

/-- ESTN, EPHX, ECMT, EDTK, ESEAM and ENEXT (10_scaesh_instructions.md: Emit and text). -/
def Obligations.EmitInstructionsReachTheEmitPath : Prop :=
  (∀ s t w v lp e, let c := s.ctxAt t; let cws := bitAt w.f 4
    Issues s t 0xA0 w { d := .x, a := .x, b := .x, c := .x, f := 0x1F, tag := true } v → s.spaceLoc v cws (c.rx w.c) 32 1 false = .ok lp →
    estnBlock (s.locRead t.core lp 32) = some e →
    (s.prof? v.part e.profile = none ∨ e.set ≠ 0 ∧ s.set? v.part e.set = none ∨ (s.model v.part e.model).vocab = 0 ∨ e.count = 0 ∨
        65536 < e.count ∨ 262144 < e.base + e.count →
      ∃ o : TagOp, o.tag = w.f % 16 ∧ o.value = 0x1A ∧ exec (.estn t w) s = .next (s.retired t (c.tagStart o) (c.pc + 1))) ∧
    (∀ pr ly ll lm, s.prof? v.part e.profile = some pr → (e.set = 0 ∨ (s.set? v.part e.set).isSome = true) →
      (s.model v.part e.model).vocab ≠ 0 → e.count ≠ 0 → e.count ≤ 65536 → e.base + e.count ≤ 262144 →
      s.spaceLoc v cws (c.rx w.d) (4 * e.count) 1 false = .ok ly →
      s.spaceLoc v cws (c.rx w.a) ((if e.fmt = 0 then 2 else 4) * e.count) 1 false = .ok ll →
      s.spaceLoc v cws (c.rx w.b) ((e.count + 7) / 8) 1 false = .ok lm →
      ∃ (o : TagOp) (ys mask : Bytes), o.tag = w.f % 16 ∧ o.value = 0 ∧ ys.length = 4 * e.count ∧ mask.length = (e.count + 7) / 8 ∧
        exec (.estn t w) s = .next (((s.locWrite t.core ly ys).locWrite t.core lm mask).retired t (c.tagStart o) (c.pc + 1)))) ∧
  (∀ s t w v, let c := s.ctxAt t
    Issues s t 0xA1 w { d := .x, a := .x, b := .x, c := .x, f := 1 } v →
    let k := if w.f = 1 then c.rx w.a ^^^ BitVec.ofNat 64 (s.getPart v.part).secret else c.rx w.a
    let r := philox ((c.rx w.b).toNat % 2 ^ 32) ((c.rx w.b).toNat / 2 ^ 32) ((c.rx w.c).toNat % 2 ^ 32) ((c.rx w.c).toNat / 2 ^ 32)
      (k.toNat % 2 ^ 32) (k.toNat / 2 ^ 32)
    exec (.ephx t w) s = .next (s.setsX t w.d (r.2.1 ++ r.1))) ∧
  (∀ s t w v, let c := s.ctxAt t; let tok := (c.rx w.a).toNat
    Issues s t 0xA2 w { a := .x } v →
    (v.event ≠ 4 ∨ v.ecmt = true → exec (.ecmt t w) s = .next (s.raise t 1)) ∧
    (v.event = 4 → v.ecmt = false → ∀ st, (s.getSess v.sess).step = some st →
      (st.emit.cands.any (fun e => e.1 == tok) = true → exec (.ecmt t w) s = .next
        (((s.modEmitStep v.sess (fun e => { e with drawn := some tok })).commit v.sess tok).retired t
          { c with inv := some { v with ecmt := true } } (c.pc + 1))) ∧
      (st.emit.cands.any (fun e => e.1 == tok) = false → exec (.ecmt t w) s = .next (s.raise t 11)))) ∧
  (∀ s t w v, let c := s.ctxAt t; let tok := (c.rx w.a).toNat; let model := (c.rx w.b).toNat
    Issues s t 0xA3 w { d := .x, a := .x, b := .x, c := .x, f := 0x10 } v →
    (255 ≤ model ∨ s.tok? v.part model = none → exec (.edtk t w) s = .next (s.setsX t w.d (BitVec.allOnes 64))) ∧
    (∀ g, model < 255 → s.tok? v.part model = some g →
      (g.h.vocab ≤ tok → exec (.edtk t w) s = .next (s.setsX t w.d (BitVec.allOnes 64))) ∧
      (tok < g.h.vocab → g.special tok = true → exec (.edtk t w) s = .next (s.setsX t w.d 0)) ∧
      (∀ l, tok < g.h.vocab → g.special tok = false → g.str tok ≠ [] →
        s.spaceLoc v (bitAt w.f 4) (c.rx w.c) (g.str tok).length 1 false = .ok l →
        exec (.edtk t w) s = .next ((s.locWrite t.core l (g.str tok)).retired t
          (c.wx w.d (BitVec.ofNat 64 (g.str tok).length)) (c.pc + 1))))) ∧
  (∀ s t w v lb ln, let c := s.ctxAt t; let set := (c.rx w.b).toNat % 2 ^ 16; let buf := s.locRead t.core lb 256
    Issues s t 0xA4 w { d := .x, a := .x, b := .x, c := .x, f := 0x10, i := 0xFF, ok := decide (w.i ≤ 128) } v →
    (c.rx w.b).toNat < 2 ^ 17 → s.spaceLoc v (bitAt w.f 4) (c.rx w.a) 256 256 false = .ok lb →
    s.spaceLoc v (bitAt w.f 4) (c.rx w.c) w.i 1 false = .ok ln →
    (set = 0 ∨ tabGet? s.text.stops (v.part * 65536 + set) = none ∨ 63 < byteAt buf 0 →
      exec (.eseam t w) s = .next (s.setsX t w.d (BitVec.allOnes 64))) ∧
    (∀ stops, set ≠ 0 → tabGet? s.text.stops (v.part * 65536 + set) = some stops → byteAt buf 0 ≤ 63 →
      let o := seamStep (slice buf 1 (byteAt buf 0)) (s.locRead t.core ln w.i) stops (bitAt (c.rx w.b).toNat 16)
      ∃ out : Bytes, exec (.eseam t w) s = .next ((s.locWrite t.core lb out).retired t (c.wx w.d (BitVec.ofNat 64
        (o.out.length % 256 + (if o.hit.isSome then 256 else 0) + o.hit.getD 0 % 8 * 512))) (c.pc + 1)))) ∧
  (∀ s t w v, let c := s.ctxAt t
    Issues s t 0xA5 w { d := .x, a := .x, b := .x, c := .x } v →
    (65536 ≤ (c.rx w.c).toNat ∨ s.set? v.part (c.rx w.c).toNat = none → exec (.enext t w) s = .next (s.setsX t w.d (BitVec.allOnes 64))) ∧
    (∀ g, (c.rx w.c).toNat < 65536 → s.set? v.part (c.rx w.c).toNat = some g →
      (∀ n, stencilNext g.img (c.rx w.a).toNat (c.rx w.b).toNat = some n →
        exec (.enext t w) s = .next (s.setsX t w.d (BitVec.ofNat 64 n))) ∧
      (stencilNext g.img (c.rx w.a).toNat (c.rx w.b).toNat = none →
        exec (.enext t w) s = .next (s.setsX t w.d (BitVec.allOnes 64)))))

/-- DSRCH searches the partition's rows, HRD and HWR move bytes within the buffer of the CALL (10_scaesh_instructions.md: Directory and host DMA). -/
def Obligations.SearchAndHostDma : Prop :=
  (∀ s t w v la lb k, let c := s.ctxAt t; let p := s.getPart v.part
    Issues s t 0xB0 w { a := .x, b := .x, f := 0xF, tag := true } v → s.ldmLoc v (c.rx w.a) 32 1 = .ok la →
    s.ldmLoc v (c.rx w.b) 16 1 = .ok lb → dirKey (s.locRead t.core la 32) = some k →
    (k.domain = 0 ∨ s.domBound v.part k.domain = false → ∃ o : TagOp, o.tag = w.f % 16 ∧ o.value = 0x16 ∧
      exec (.dsrch t w) s = .next (s.retired t (c.tagStart o) (c.pc + 1))) ∧
    (k.domain ≠ 0 → s.domBound v.part k.domain = true → bitAt k.select 3 = false → p.rows ≤ k.row → ∃ o : TagOp, o.tag = w.f % 16 ∧
      o.value = 0x1A ∧ exec (.dsrch t w) s = .next (s.retired t (c.tagStart o) (c.pc + 1))) ∧
    (k.domain ≠ 0 → s.domBound v.part k.domain = true → (bitAt k.select 3 = true ∨ k.row < p.rows) →
      ∃ (o : TagOp) (hs : List (Nat × Slot)), o.tag = w.f % 16 ∧ o.value = 0 ∧
        (∀ x, x ∈ hs ↔ x ∈ s.dir.slots ∧ k.hits x.2 = true ∧
          (if bitAt k.select 3 then p.rowBase ≤ x.1 / 64 ∧ x.1 / 64 < p.rowBase + p.rows else x.1 / 64 = p.rowBase + k.row)) ∧
        exec (.dsrch t w) s = .next ((s.locWrite t.core lb (natLe 4 hs.length ++
          natLe 4 (match hs.head? with | none => 0 | some x => x.2.ix + 2 ^ 31) ++ natLe 8 0)).retired t (c.tagStart o) (c.pc + 1)))) ∧
  (∀ s t w v l addr n qk data, let c := s.ctxAt t; let off := (c.rx w.b).toNat; let len := (c.rx w.c).toNat
    Issues s t 0xB1 w { a := .x, b := .x, c := .x, f := 0x1F, tag := true } v → v.cls ≠ .control →
    s.callBuf v = some (addr, n, qk) →
    (n < off + len → exec (.hrd t w data) s = .next (s.raise t 8)) ∧
    (off + len ≤ n → s.spaceLoc v (bitAt w.f 4) (c.rx w.a) len 1 false = .ok l → s.gateOpen v [dieOf (t.core / 8)] (estTicks len 6000) = true →
      data.length = len → ∃ o : TagOp, o.tag = w.f % 16 ∧ o.value = 0 ∧
        exec (.hrd t w data) s = .next ((s.locWrite t.core l data).retired t (c.tagStart o) (c.pc + 1)))) ∧
  (∀ s t w v l addr n qk, let c := s.ctxAt t; let off := (c.rx w.b).toNat; let len := (c.rx w.c).toNat
    Issues s t 0xB2 w { a := .x, b := .x, c := .x, f := 0x1F, tag := true } v → v.cls ≠ .control →
    s.callBuf v = some (addr, n, qk) →
    (n < off + len → exec (.hwr t w) s = .next (s.raise t 8)) ∧
    (off + len ≤ n → s.spaceLoc v (bitAt w.f 4) (c.rx w.a) len 1 false = .ok l → s.gateOpen v [dieOf (t.core / 8)] (estTicks len 6000) = true →
      ∃ o : TagOp, o.tag = w.f % 16 ∧ o.value = 0 ∧
        exec (.hwr t w) s = .next ((s.emitOut (.hostWrite (qk / 64 / 17) (addr + off) (s.locRead t.core l len))).retired t
          (c.tagStart o) (c.pc + 1)))) ∧
  (∀ s t w v data, Issues s t 0xB1 w { a := .x, b := .x, c := .x, f := 0x1F, tag := true } v →
    (v.cls = .control → exec (.hrd t w data) s = .next (s.raise t 9)) ∧
    (v.cls ≠ .control → v.event ≠ 0 → exec (.hrd t w data) s = .next (s.raise t 8))) ∧
  (∀ s t w v, Issues s t 0xB2 w { a := .x, b := .x, c := .x, f := 0x1F, tag := true } v →
    (v.cls = .control → exec (.hwr t w) s = .next (s.raise t 9)) ∧
    (v.cls ≠ .control → v.event ≠ 0 → exec (.hwr t w) s = .next (s.raise t 8)))

/-- MSEND, MRECV, MPOLL, LSEND and DBELL (10_scaesh_instructions.md: Messaging and doorbells). -/
def Obligations.MessagesAndDoorbells : Prop :=
  (∀ s t w v l, let c := s.ctxAt t; let core := (c.rx w.a).toNat; let k := core * 64 + t.ctx * 16 + w.i
    Issues s t 0xC0 w { a := .x, b := .x, f := 0xF, i := 0xF, tag := true } v → s.ldmLoc v (c.rx w.b) 64 1 = .ok l →
    ((s.coresOf v.part).contains core = false → ∃ o : TagOp, o.tag = w.f % 16 ∧ o.value = 0x1A ∧
      exec (.msend t w) s = .next (s.retired t (c.tagStart o) (c.pc + 1))) ∧
    ((s.coresOf v.part).contains core = true → (s.chan k).length < 8 → s.cores.sends.any (fun d => d.chan == k) = false →
      ∃ u, exec (.msend t w) s = .next u ∧ (u.ctxAt t).pc = c.pc + 1 ∧
        u.chan k = s.chan k ++ [{ core := t.core, inv := v.id, prog := v.prog, part := v.part, data := s.locRead t.core l 64 }] ∧
        ∀ q, q ≠ k → u.chan q = s.chan q)) ∧
  (∀ s t w v l, let c := s.ctxAt t; let k := t.core * 64 + t.ctx * 16 + w.i
    Issues s t 0xC1 w { d := .x, a := .x, i := 0xF } v → s.ldmLoc v (c.rx w.a) 64 1 = .ok l →
    (s.chan k = [] → exec (.mrecv t w) s = .next s) ∧
    (∀ m rest, s.chan k = m :: rest → s.cores.sends.any (fun d => d.chan == k) = false →
      ∃ u, exec (.mrecv t w) s = .next u ∧ u.chan k = rest ∧ (u.ctxAt t).pc = c.pc + 1 ∧
        (u.ctxAt t).rx w.d = if w.d = 0 then 0 else BitVec.ofNat 64 (m.core + m.inv * 2 ^ 32))) ∧
  (∀ s t w v l, let c := s.ctxAt t; let k := t.core * 64 + t.ctx * 16 + w.i
    Issues s t 0xC2 w { d := .x, a := .x, i := 0xF } v → s.ldmLoc v (c.rx w.a) 64 1 = .ok l →
    (s.chan k = [] → exec (.mpoll t w) s = .next (s.setsX t w.d (BitVec.allOnes 64))) ∧
    (∀ m rest, s.chan k = m :: rest → s.cores.sends.any (fun d => d.chan == k) = false →
      ∃ u, exec (.mpoll t w) s = .next u ∧ u.chan k = rest ∧ (u.ctxAt t).pc = c.pc + 1 ∧
        (u.ctxAt t).rx w.d = if w.d = 0 then 0 else BitVec.ofNat 64 (m.core + m.inv * 2 ^ 32))) ∧
  (∀ s t w v, let c := s.ctxAt t; let n := (c.rx w.b).toNat
    Issues s t 0xC3 w { a := .x, b := .x, c := .x, f := 0xF, tag := true } v →
    (v.cls = .control → exec (.lsend t w) s = .next (s.raise t 9)) ∧
    (v.cls ≠ .control → (n = 0 ∨ 4096 < n ∨ s.sendPort v (c.rx w.c) = none) → ∃ o : TagOp, o.tag = w.f % 16 ∧ o.value = 0x1A ∧
      exec (.lsend t w) s = .next (s.retired t (c.tagStart o) (c.pc + 1))) ∧
    (v.cls ≠ .control → 1 ≤ n → n ≤ 4096 → ∀ port l, s.sendPort v (c.rx w.c) = some port → s.ldmLoc v (c.rx w.a) n 1 = .ok l →
      s.gateOpen v [dieOf (t.core / 8)] (estTicks n 10000) = true → ∃ (o : TagOp) (m : Msg), o.tag = w.f % 16 ∧ o.value = 0 ∧ o.mark = m.mark ∧
        m.vc = v.vc ∧ m.type = 3 ∧ m.data = s.locRead t.core l n ∧
        exec (.lsend t w) s = .next ((s.newMark.2.send port m).retired t (c.tagStart o) (c.pc + 1)))) ∧
  (∀ s t w v, let c := s.ctxAt t
    Issues s t 0xC4 w { a := .x, f := 0xF, tag := true } v →
    (v.event ≠ 0 → ∃ o : TagOp, o.tag = w.f % 16 ∧ o.value = 0x11 ∧ exec (.dbell t w) s = .next (s.retired t (c.tagStart o) (c.pc + 1))) ∧
    (∀ addr n qk, s.callBuf v = some (addr, n, qk) → ∃ (o : TagOp) (b : PendBell), o.tag = w.f % 16 ∧ o.value = 0 ∧ o.mark = b.mark ∧
      b.qk = qk ∧ b.inv = v.id ∧ b.member = v.member ∧ b.value = (c.rx w.a).toNat ∧
      exec (.dbell t w) s = .next (((s.newMark.2.modCores (fun k => { k with bells := k.bells ++ [b] })).flushCpl qk 1000).retired t
        (c.tagStart o) (c.pc + 1))))

/-- TWAIT, TPOLL, TAG_COMPLETE, FENCEC, FENCED, BARC, BARP, WBEAT, WWIN, WLEFT and GDECL (10_scaesh_instructions.md: Synchronisation, beats and gates; 10_scaesh_instructions.md: Tags, completion and hazards). Clauses that the spec does not state rest on the model's choice in log entries 10, 11, 50. -/
def Obligations.TagsFencesBarriersAndWindows : Prop :=
  (∀ s t w v, let c := s.ctxAt t
    Issues s t 0xD0 w { d := .x, f := 0xF } v →
    (c.ops.any (fun o => o.tag == w.f) = true → exec (.twait t w) s = .next s) ∧
    (c.ops.any (fun o => o.tag == w.f) = false → exec (.twait t w) s = .next (s.setsX t w.d (BitVec.ofNat 64 (tabGet 0 c.tags w.f))))) ∧
  (∀ s t w v, let c := s.ctxAt t
    Issues s t 0xD1 w { d := .x, f := 0xF } v →
    (c.ops.any (fun o => o.tag == w.f) = true → exec (.tpoll t w) s = .next (s.setsX t w.d 0xFF)) ∧
    (c.ops.any (fun o => o.tag == w.f) = false → exec (.tpoll t w) s = .next (s.setsX t w.d (BitVec.ofNat 64 (tabGet 0 c.tags w.f))))) ∧
  (∀ s core ctx tag o rest, ctx < 4 → s.up = true → (s.ctxAt ⟨core, ctx⟩).ops = o :: rest → o.tag = tag → s.markOpen o.mark = false →
    ∃ u, exec (.tagComplete core ctx tag) s = .next u ∧ (u.ctxAt ⟨core, ctx⟩).ops = rest ∧ (u.ctxAt ⟨core, ctx⟩).tagVal tag = o.value) ∧
  (∀ s t w v, Issues s t 0xD2 w {} v → exec (.fencec t w) s = .next (s.passes t)) ∧
  (∀ s t w v, Issues s t 0xD3 w {} v →
    ((s.ctxAt t).ops.any (fun o => o.engine == 3) = true → exec (.fenced t w) s = .next s) ∧
    ((s.ctxAt t).ops.any (fun o => o.engine == 3) = false → exec (.fenced t w) s = .next (s.passes t))) ∧
  (∀ r ∈ ([(0xD4, .barc, false), (0xD5, .barp, true)] : List (Nat × (Site → GWord → Instr) × Bool)), ∀ s t w v call, t.ctx < 4 →
    tabWf s.cores.core = true → Issues s t r.1 w { i := 7 } v → v.event = 0 →
    s.cores.calls.find? (fun k => k.id == v.call) = some call → (s.ctxAt t).ops = [] →
    let need := (call.cores.filter (fun k => r.2.2 || k / 8 == t.core / 8)).length
    let there := (s.barPeers v).filter (fun p => p != t && (s.ctxAt p).st == .waitBar r.2.2 w.i && (r.2.2 || p.core / 8 == t.core / 8))
    (call.broken = true → exec (r.2.1 t w) s = .next (((s.barMember v).retire t).endInv t Status.cancelled.code 0)) ∧
    (call.broken = false → need ≤ there.length + 1 → ∃ u, exec (r.2.1 t w) s = .next u ∧
      u.ctxAt t = { s.ctxAt t with pc := (s.ctxAt t).pc + 1 } ∧
      ∀ p ∈ there, u.ctxAt p = if (s.ctxAt p).inv.any (·.susp) = true
        then { s.ctxAt p with st := .suspended, pc := (s.ctxAt p).pc + 1, inv := (s.ctxAt p).inv.map (fun v => { v with susp := false }) }
        else { s.ctxAt p with st := .running, pc := (s.ctxAt p).pc + 1 }) ∧
    (call.broken = false → there.length + 1 < need → ∃ u, exec (r.2.1 t w) s = .next u ∧ u.ctxAt t = { s.ctxAt t with st := .waitBar r.2.2 w.i } ∧
      u = { s with cores := u.cores })) ∧
  (∀ s t w v, t.ctx < 4 → Issues s t 0xD6 w {} v →
    ∃ u, exec (.wbeat t w) s = .next u ∧ u.ctxAt t = { s.ctxAt t with st := .waitBeat } ∧ u = { s with cores := u.cores }) ∧
  (∀ r ∈ ([(0, .decode), (1, .prefill), (2, .bulk)] : List (Nat × Window)), ∀ s t w v, t.ctx < 4 →
    Issues s t 0xD7 w { i := 3, ok := decide (w.i < 3) } v → w.i = r.1 →
    ((s.pwin v.part).win = r.2 → exec (.wwin t w) s = .next (s.passes t)) ∧
    ((s.pwin v.part).win ≠ r.2 →
      ∃ u, exec (.wwin t w) s = .next u ∧ u.ctxAt t = { s.ctxAt t with st := .waitWin r.2 } ∧ u = { s with cores := u.cores })) ∧
  (∀ r ∈ ([(0, .decode), (1, .prefill), (2, .bulk)] : List (Nat × Window)), ∀ s t w v,
    Issues s t 0xD8 w { d := .x, i := 3, ok := decide (w.i < 3) } v → w.i = r.1 → (s.getPart v.part).conf = false →
    let p := s.pwin v.part
    let stop := if w.i = 0 then p.d else if w.i = 1 then p.d + p.f else s.beat.period
    exec (.wleft t w) s = .next (s.setsX t w.d (if p.win = r.2 then BitVec.ofNat 64 (stop - s.beat.tick) else 0))) ∧
  (∀ s t w v, Issues s t 0xD9 w { i := 3, ok := w.i == 1 || w.i == 2 } v →
    (v.cls = .prefill ∨ v.cls = .bulk → exec (.gdecl t w) s = .next (s.retired t { s.ctxAt t with inv := some { v with
      gate := if w.i = 1 then .prefill else .bulk } } ((s.ctxAt t).pc + 1))) ∧
    (v.cls ≠ .prefill → v.cls ≠ .bulk → exec (.gdecl t w) s = .next (s.raise t 1)))

/-- A doorbell write sets its ring index; a bad one is ignored and counted; an unbound function is denied (12_host_interface.md: Doorbells; 12_host_interface.md: MSI-X; 12_host_interface.md: Functions and partitions). Clauses that the spec does not state rest on the model's choice in log entries 35, 55. -/
def Obligations.DoorbellsMoveRingIndexes : Prop :=
  (∀ s fn page v, let qk := fn * 64 + page / 4; let q := s.qs qk; let i := v % 65536
    s.up = true → s.bound fn = true → page / 4 < 64 → q.en = true →
    (page % 4 = 0 → q.cmdLog2 ≠ 0 → i < 2 ^ q.cmdLog2 → ∃ u, exec (.cmdDoorbell fn page 4 v) s = .next u ∧ OnlyHost s u ∧
      u.qs qk = { q with cmdTail := i } ∧ ∀ n, n ≠ qk → u.qs n = s.qs n) ∧
    (page % 4 = 1 → q.cplLog2 ≠ 0 → i < 2 ^ q.cplLog2 → (∀ c ∈ s.cores.calls, c.accepted = true) → s.cores.bells = [] →
      (∀ x ∈ s.sess, x.2.step = none) →
      ∃ u, exec (.cplDoorbell fn page 4 v) s = .next u ∧ OnlyHost s u ∧ (∀ n, n ≠ qk → u.qs n = s.qs n) ∧
        u.qs qk = { q with cplHead := i, cplUsed := (u.qs qk).cplUsed } ∧
        (q.cplTail < 2 ^ q.cplLog2 → (i + (u.qs qk).cplUsed) % 2 ^ q.cplLog2 = q.cplTail)) ∧
    (page % 4 = 2 → q.emitLog2 ≠ 0 → i < 2 ^ q.emitLog2 → s.text.waits = [] → (∀ x ∈ s.sess, x.2.step = none) →
      ∃ u, exec (.emitDoorbell fn page 4 v) s = .next u ∧ OnlyHost s u ∧ (∀ n, n ≠ qk → u.qs n = s.qs n) ∧
        u.qs qk = { q with emitHead := i, emitUsed := (u.qs qk).emitUsed } ∧
        (q.emitTail < 2 ^ q.emitLog2 → (i + (u.qs qk).emitUsed) % 2 ^ q.emitLog2 = q.emitTail))) ∧
  (∀ r ∈ ([(0, .cmdDoorbell), (1, .cplDoorbell), (2, .emitDoorbell)] : List (Nat × (Nat → Nat → Nat → Nat → Instr))),
    ∀ s fn page width v, s.up = true →
      (s.bound fn = true → page % 4 = r.1 ∨ page % 4 = 3 ∨ 64 ≤ page / 4 →
        width ≠ 4 ∨ page % 4 = 3 ∨ 64 ≤ page / 4 ∨ (s.qs (fn * 64 + page / 4)).en = false →
        exec (r.2 fn page width v) s = .next (s.bump .hifDbBad fn)) ∧
      (s.bound fn = false → exec (r.2 fn page width v) s = .next (s.bump .secDenied fn))) ∧
  (∀ s fn page v, s.up = true → s.bound fn = true → page / 4 < 64 →
    (page % 4 = 0 → 2 ^ (s.qs (fn * 64 + page / 4)).cmdLog2 ≤ v % 65536 →
      exec (.cmdDoorbell fn page 4 v) s = .next (s.bump .hifDbBad fn)) ∧
    (page % 4 = 1 → 2 ^ (s.qs (fn * 64 + page / 4)).cplLog2 ≤ v % 65536 →
      exec (.cplDoorbell fn page 4 v) s = .next (s.bump .hifDbBad fn)) ∧
    (page % 4 = 2 → 2 ^ (s.qs (fn * 64 + page / 4)).emitLog2 ≤ v % 65536 →
      exec (.emitDoorbell fn page 4 v) s = .next (s.bump .hifDbBad fn))) ∧
  (∀ s qk, let q := s.qs qk
    s.up = true → q.coalT ≠ 0 →
    (q.cplUnsig ≠ 0 → (tabGet {} s.host.msix (qk / 64 * 128 + q.cplVec)).masked = false →
      ∃ u, exec (.msixCoalesceTimer qk false) s = .next u ∧ OnlyHost s u ∧ u.qs qk = { q with cplUnsig := 0 } ∧
        u.out = .msix (qk / 64) q.cplVec :: s.out) ∧
    (q.emitUnsig ≠ 0 → (tabGet {} s.host.msix (qk / 64 * 128 + q.emitVec)).masked = true →
      ∃ u, exec (.msixCoalesceTimer qk true) s = .next u ∧ OnlyHost s u ∧ u.qs qk = { q with emitUnsig := 0 } ∧ u.out = s.out ∧
        (tabGet {} u.host.msix (qk / 64 * 128 + q.emitVec)).pba = true))

/-- CMD_FETCH advances the command head and either completes the command with the first failing check or puts it in flight (12_host_interface.md: Commands; 12_host_interface.md: Completions; 14_partitions_and_admission.md: Admission). Clauses that the spec does not state rest on the model's choice in log entries 33, 36, 37, 57. -/
def Obligations.FetchChecksInOrder : Prop :=
  (∀ s qk raw, let q := s.qs qk; let r := fit 0 64 raw; let op := byteAt r 0; let fn := qk / 64; let h := field r 8 4
    s.up = true → q.en = true → q.cmdHead ≠ q.cmdTail → s.inFlight qk < cplFree q →
    ∃ u, exec (.cmdFetch qk raw []) s = .next u ∧ (u.qs qk).cmdHead = (q.cmdHead + 1) % 2 ^ q.cmdLog2 ∧
      (byteAt r 1 % 16 ≠ 1 → Rejected s u qk r .versionUnsupported) ∧
      (byteAt r 1 % 16 = 1 → op ∉ [1, 2, 3, 4, 5, 6, 7, 8, 9, 10, 0x10, 0x11, 0x12, 0x20, 0x21, 0x22, 0x23, 0x24, 0x25, 0x26, 0x27,
          0x28] → op ∉ [0x30, 0x31, 0x32, 0x33, 0x40, 0x41, 0x42, 0x43, 0x44, 0x50, 0x51, 0x52, 0x53, 0x54, 0x55, 0x56, 0x60, 0x61] →
        Rejected s u qk r .formatInvalid) ∧
      (byteAt r 1 % 16 = 1 → op ∈ [0x50, 0x51, 0x52, 0x53, 0x60, 0x61] → fn % 17 ≠ 0 → Rejected s u qk r .secureOnly) ∧
      (byteAt r 1 % 16 = 1 → op ∈ [0x50, 0x51, 0x52, 0x53, 0x60, 0x61] → fn % 17 = 0 → s.host.inReset = true →
        Rejected s u qk r .locked) ∧
      (byteAt r 1 % 16 = 1 → op ∈ [1, 2, 3, 4, 5, 6, 7, 8, 9, 10, 0x10, 0x11, 0x12, 0x28, 0x30, 0x31, 0x32, 0x33, 0x42] →
        s.fnPart fn = none → Rejected s u qk r .secureOnly) ∧
      (∀ p, byteAt r 1 % 16 = 1 → op ∈ [2, 3, 4, 5, 6, 7, 8, 9, 10, 0x10] → s.fnPart fn = some p → (s.getPart p).st ≠ .destroying →
        h < 2 ^ 28 → s.handle? p h = none → Rejected s u qk r .badSession) ∧
      (∀ p id, byteAt r 1 % 16 = 1 → op = 8 ∨ op = 9 → s.fnPart fn = some p → (s.getPart p).st ≠ .destroying →
        s.handle? p h = some id → s.ckpt.restore = none → OnlyHost s u ∧ u.out = s.out ∧
        u.host.cmds = s.host.cmds ++ [{ serial := s.host.serial + 1, qk := qk, part := p, raw := r }])) ∧
  (∀ s qk raw loads, s.up = true → (s.qs qk).en = false ∨ (s.qs qk).cmdHead = (s.qs qk).cmdTail ∨ cplFree (s.qs qk) ≤ s.inFlight qk →
    exec (.cmdFetch qk raw loads) s = .next s) ∧
  (∀ s qk raw id w, let q := s.qs qk; let x := s.getSess id
    s.up = true → q.en = true → q.cmdHead ≠ q.cmdTail → s.inFlight qk < cplFree q → x.st ∈ ([.hot, .idle, .parked, .stripped, .opened] : List SState) →
    (w.getD 7 0 / 2 ^ 32 % 2 ^ 32 ≠ crc32c ((w.take 7).flatMap (natLe 8)) ∨ 10 < w.getD 0 0 / 2 ^ 4 % 2 ^ 4 →
      ∃ u, exec (.cmdFetch qk raw [(id, w)]) s = .next u ∧ (u.getSess id).st = .faulted ∧ (u.getSess id).lastStatus = Status.tierFault.code) ∧
    (w.getD 7 0 / 2 ^ 32 % 2 ^ 32 = crc32c ((w.take 7).flatMap (natLe 8)) → w.getD 0 0 / 2 ^ 4 % 2 ^ 4 ≤ 10 → w.getD 0 0 % 2 ^ 4 ≠ 1 →
      ∃ u, exec (.cmdFetch qk raw [(id, w)]) s = .next u ∧ (u.getSess id).st = .faulted ∧
        (u.getSess id).lastStatus = Status.versionUnsupported.code)) ∧
  (∀ (m : Meter) now b pre, m.pir ≠ 0 →
    let tc := Nat.min (m.cbs * 10 ^ 9) (m.tc + m.cir * (now - m.at_)); let tp := Nat.min (m.pbs * 10 ^ 9) (m.tp + m.pir * (now - m.at_))
    let n := b * 10 ^ 9; let r := m.colour now b pre
    (pre = .red ∨ tp < n → r.1 = .red ∧ r.2.tc = tc ∧ r.2.tp = tp) ∧
    (pre ≠ .red → n ≤ tp → pre = .yellow ∨ tc < n → r.1 = .yellow ∧ r.2.tc = tc ∧ r.2.tp + n = tp) ∧
    (pre = .green → n ≤ tp → n ≤ tc → r.1 = .green ∧ r.2.tc + n = tc ∧ r.2.tp + n = tp))

/-- QS_ENABLE starts rings at 0 with phase 1; QS_DISABLE, FLR, link loss and PERST stop queue sets; BUSY until their work ends (12_host_interface.md: Queue sets and their registers; 12_host_interface.md: Stopping a queue set, FLR and link loss; 12_host_interface.md: PCIe). Clauses that the spec does not state rest on the model's choice in log entries 26, 55. -/
def Obligations.QueueSetsStartAndStop : Prop :=
  (∀ s fn q v, let x := s.qs (fn * 64 + q); let vecs := if fn % 17 = 0 then 128 else 120
    s.up = true → s.bound fn = true → q < 64 →
    (bits v 8 7 < vecs → bits v 16 7 < vecs → bits v 24 8 ≠ 255 → x.en = false → x.busy = false → x.cmdLog2 ≠ 0 → x.cplLog2 ≠ 0 →
      ∃ u, exec (.qsEnable fn q v) s = .next u ∧ OnlyHost s u ∧ u.out = s.out ∧ (∀ n, n ≠ fn * 64 + q → u.qs n = s.qs n) ∧
        let y := u.qs (fn * 64 + q)
        y.en = true ∧ y.busy = false ∧ y.cmdHead = 0 ∧ y.cmdTail = 0 ∧ y.cplTail = 0 ∧ y.cplHead = 0 ∧ y.emitTail = 0 ∧ y.emitHead = 0 ∧
        y.cplUsed = 0 ∧ y.emitUsed = 0 ∧ y.cplPhase = true ∧ y.emitPhase = true ∧ y.cplVec = bits v 8 7 ∧ y.emitVec = bits v 16 7 ∧
        y.coalCnt = bits v 24 8 ∧ y.coalT = bits v 32 16 ∧ y.cmdBase = x.cmdBase ∧ y.cmdLog2 = x.cmdLog2 ∧ y.cplLog2 = x.cplLog2) ∧
    (vecs ≤ bits v 8 7 ∨ vecs ≤ bits v 16 7 ∨ bits v 24 8 = 255 ∨ (x.en = false ∧ (x.busy = true ∨ x.cmdLog2 = 0 ∨ x.cplLog2 = 0)) →
      exec (.qsEnable fn q v) s = .next (s.bump .hifBadcfg fn)) ∧
    (bits v 8 7 < vecs → bits v 16 7 < vecs → bits v 24 8 ≠ 255 → x.en = true → s.cores.calls = [] → s.text.waits = [] →
      (∀ y ∈ s.sess, y.2.open? = none ∧ y.2.held = none) →
      ∃ u, exec (.qsDisable fn q v) s = .next u ∧ u.out = s.out ∧ u.host.cmds = s.host.cmds ∧ (u.qs (fn * 64 + q)).en = false ∧
        ((u.qs (fn * 64 + q)).busy = true ↔ ∃ c ∈ s.host.cmds, c.qk = fn * 64 + q) ∧ ∀ n, n ≠ fn * 64 + q → u.qs n = s.qs n)) ∧
  (∀ s qk, s.up = true → (s.qs qk).busy = true → (∀ c ∈ s.host.cmds, c.qk ≠ qk) → ∃ u, exec (.qsWorkDrained qk) s = .next u ∧
    OnlyHost s u ∧ u.out = s.out ∧ u.qs qk = { s.qs qk with busy := false } ∧ ∀ n, n ≠ qk → u.qs n = s.qs n) ∧
  (∀ s fn, s.up = true → fn < 34 → ∃ u, exec (.flr fn) s = .next u ∧ (∀ q, q < 64 → (u.qs (fn * 64 + q)).en = false) ∧
    ∀ n, n / 64 ≠ fn → (u.qs n).en = (s.qs n).en) ∧
  (∀ s port, s.up = true → port < 2 → ∃ u, exec (.pcieLinkDown port) s = .next u ∧
    (∀ n, n / 64 / 17 = port → (u.qs n).en = false) ∧ (∀ n, n / 64 / 17 ≠ port → (u.qs n).en = (s.qs n).en) ∧
    (u.host.pcie port).training = !(s.host.pcie port).perst) ∧
  (∀ s port, port < 2 → ∃ u, exec (.perstAssert port) s = .next u ∧ u.host.pcie port = { perst := true, training := false } ∧
    (s.up = true → ∀ n, n / 64 / 17 = port → (u.qs n).en = false)) ∧
  (∀ s port, port < 2 → ∃ u, exec (.perstDeassert port) s = .next u ∧ OnlyHost s u ∧
    u.host.pcie port = { perst := false, training := s.up } ∧ u.host.qs = s.host.qs)

/-- The recovery lease and MBX_GO: who takes, keeps and gives up the lease, what is counted, when a mailbox empties at once (12_host_interface.md: Recovery lease and management-domain reset; 12_host_interface.md: Mailboxes). Clauses that the spec does not state rest on the model's choice in log entry 56. -/
def Obligations.LeaseAndMailboxes : Prop :=
  (∀ s port, s.up = true → port < 2 → let me := port + 1
    (s.host.holder = me → ∃ u, exec (.claim port) s = .next u ∧ OnlyHost s u ∧ u.host.holder = me ∧ u.host.age = 0 ∧ u.ctrs = s.ctrs) ∧
    (s.host.holder ≠ me → s.host.holder = 0 ∨ 1000 ≤ s.host.age → ∃ u, exec (.claim port) s = .next u ∧ OnlyHost s u ∧
      u.host.holder = me ∧ u.host.age = 0 ∧ u.ctrs = s.ctrs) ∧
    (s.host.holder ≠ me → s.host.holder ≠ 0 → s.host.age < 1000 → (port = 1 ∨ s.host.claimedByB = false) →
      ∃ u, exec (.claim port) s = .next u ∧ OnlyHost s u ∧ u.host.holder = s.host.holder ∧ u.host.age = s.host.age ∧
        u.ctr .ykIgnored port = s.ctr .ykIgnored port + 1) ∧
    (s.host.holder = me → ∃ u, exec (.renew port) s = .next u ∧ OnlyHost s u ∧ u.host.holder = me ∧ u.host.age = 0 ∧ u.ctrs = s.ctrs) ∧
    (s.host.holder = me → ∃ u, exec (.release port) s = .next u ∧ OnlyHost s u ∧ u.host.holder = 0 ∧ u.host.age = s.host.age) ∧
    (∀ c ∈ ([.renew port, .release port] : List Instr), s.host.holder ≠ me → ∃ u, exec c s = .next u ∧ OnlyHost s u ∧
      u.host.holder = s.host.holder ∧ u.host.age = s.host.age ∧ u.ctr .ykIgnored port = s.ctr .ykIgnored port + 1)) ∧
  (∀ s, s.up = true → s.host.holder = 2 → s.host.age < 1000 → s.host.claimedByB = true → ∃ u, exec (.claim 0) s = .next u ∧ OnlyHost s u ∧
    u.host.holder = 1 ∧ u.host.age = 0 ∧ u.ctr .ykIgnored 1 = s.ctr .ykIgnored 1 + 1) ∧
  (∀ s fn n len, let port := fn / 17; let m := s.mbxAt port n
    let owner := port * 17 + (if n < 32 then 0 else 1 + (n - 32) / 2)
    s.up = true → n < 64 → fn < 34 →
    (s.bound fn = true → owner = fn → m.go = false →
      (s.mgmt.ready = false ∨ s.mgmt.failed = true ∨ s.host.inReset = true →
        ∃ u, exec (.mbxGo fn n len) s = .next u ∧ OnlyHost s u ∧ u.out = s.out ∧ u.mbxAt port n = { m with go := true, len := len % 32 }) ∧
      (s.mgmt.ready = true → s.mgmt.failed = false → s.host.inReset = false → len % 32 < 8 ∨ 16 < len % 32 →
        ∃ u, exec (.mbxGo fn n len) s = .next u ∧ OnlyHost s u ∧ .mailbox port n [] ∈ u.out ∧
          u.mbxAt port n = { m with go := false, len := len % 32, err := true, rlen := 0, drop := m.drop + 1 } ∧
          bitAt (tabGet 0 u.host.mbxPend fn).toNat n = true)) ∧
    (owner ≠ fn ∨ s.bound fn = false → exec (.mbxGo fn n len) s = .next (s.bump .secDenied fn)))

/-- SESS_OPEN takes the lowest-numbered FREE entry of the partition range, NO_SPACE where there is none (R30). -/
def Obligations.OpenTakesTheLowestFreeEntry : Prop :=
  (∀ s qk c, let p := s.getPart c.part; let lo := p.groupBase * 4096; let hi := (p.groupBase + p.groups) * 4096
    let dom := field c.raw 32 2; let m := byteAt c.raw 34; let pol := byteAt c.raw 35 % 8; let set := field c.raw 38 2
    let stop := field c.raw 46 2
    let valid := pol ≤ 4 ∧ dom ≠ 0xFFFF ∧ m ≠ 255 ∧ (s.model c.part m).valid = true ∧
      (set = 0 ∨ (tabGet? s.emit.sets (c.part * 65536 + set)).isSome = true) ∧
      (stop = 0 ∨ (tabGet? s.text.stops (c.part * 65536 + stop)).isSome = true)
    Next s qk 0x01 c →
    (∀ id, valid → (dom = 0 ∨ s.domBound c.part dom = true) → lo ≤ id → id < hi → (s.getSess id).st = .free →
      (∀ n, lo ≤ n → n < id → (s.getSess n).st ≠ .free) → logPrimary 0 ≤ s.t1Free (s.pickHome p.clusters) →
      ∃ u, exec (.sessOpen qk) s = .next u ∧ u = { s with host := u.host, sess := u.sess, free := u.free, out := u.out } ∧
        (∀ n, n ≠ id → u.getSess n = s.getSess n) ∧
        let y := u.getSess id
        Finished s u c .ok (id + (((s.getSess id).gen + 1) % 256) * 2 ^ 20) 0 0 0 ∧ y.gen = ((s.getSess id).gen + 1) % 256 ∧ y.st = .opened ∧
          y.part = c.part ∧ y.length = 0 ∧ y.pend = 0 ∧ y.log = [] ∧ y.pages = [] ∧ y.coatPos = 0 ∧ y.domain = dom ∧ y.model = m ∧
          y.prio = byteAt c.raw 35 / 16 ∧ y.stencilSet = set ∧ y.stencilState = field c.raw 40 4 ∧ y.profile = field c.raw 44 2 ∧
          y.stopSet = stop ∧ y.stoptext = bitAt (byteAt c.raw 36) 0 ∧ y.noLearn = bitAt (byteAt c.raw 36) 1 ∧
          y.home = s.pickHome p.clusters) ∧
    (valid → (dom = 0 ∨ s.domBound c.part dom = true) → (∀ n, lo ≤ n → n < hi → (s.getSess n).st ≠ .free) →
      ∃ u, exec (.sessOpen qk) s = .next u ∧ TurnedAway s u c .noSpace 0 0 0 0) ∧
    (¬ valid → ∃ u, exec (.sessOpen qk) s = .next u ∧ TurnedAway s u c .formatInvalid 0 0 0 0) ∧
    (valid → dom ≠ 0 → s.domBound c.part dom = false →
      ∃ u, exec (.sessOpen qk) s = .next u ∧ TurnedAway s u c .domainDenied 0 0 0 0))

/-- SESS_CANCEL: a RUNNING session, a held command, and every other case (R46). -/
def Obligations.CancelEndsWhatASessionHolds : Prop :=
  (∀ s qk c id, let x := s.getSess id; let holds := x.heldCmd = true ∧ (x.st = .reviving ∨ (x.st = .moving ∧ x.exporting = false))
    NextSess s qk 0x08 c id →
    (∀ h e, holds → x.held = some h → s.cmd? h.serial = some e → h.serial ≠ c.serial →
      ∃ u, exec (.sessCancel qk) s = .next u ∧ u = { s with host := u.host, sess := u.sess, out := u.out } ∧
        u.getSess id = { x with held := none, heldCmd := false, lastStatus := 0, seq := ((x.seq + 2) % 65536 + 2) % 65536 } ∧
        (∀ n, n ≠ id → u.getSess n = s.getSess n) ∧
        Answered s u e .cancelled (if h.isGen then handleOf id x else 0) 0 0 0 ∧ Answered s u c .ok 0 0 0 0 ∧
        (∀ o ∈ s.out, o ∈ u.out)) ∧
    (x.st = .running → x.step.isSome = true → ∃ u, exec (.sessCancel qk) s = .next u ∧
        u = { s with host := u.host, sess := u.sess, out := u.out } ∧ (∀ n, n ≠ id → u.getSess n = s.getSess n) ∧
        u.getSess id = { x with cancelReq := true, lastStatus := 0, seq := (x.seq + 2) % 65536 } ∧ Finished s u c .ok 0 0 0 0) ∧
    (∀ g e, x.st = .running → x.step = none → x.open? = some g → s.cmd? g.serial = some e → g.serial ≠ c.serial → x.closeSerial = 0 →
      x.policy ≠ .cold → ∃ u, exec (.sessCancel qk) s = .next u ∧ (u.getSess id).st = .idle ∧ (u.getSess id).lastStatus = 5 ∧
        (u.getSess id).open? = none ∧ (u.getSess id).length = x.length ∧ (u.getSess id).pend = x.pend ∧ (u.getSess id).log = x.log ∧
        handleOf id x ∈ (u.roster x.part).ctrlEnd ∧ (∀ n, n ≠ id → u.getSess n = s.getSess n) ∧
        Answered s u e .cancelled (handleOf id x) g.logged 0 0 ∧ Answered s u c .ok 0 0 0 0) ∧
    (¬ holds → x.st ≠ .running → ∃ u, exec (.sessCancel qk) s = .next u ∧ TurnedAway s u c .badState 0 0 0 0))

/-- SESS_HINT arms or clears the wake hint; SESS_CLOSE takes a session to ENDED and queues its release (02_sessions.md: Commands; 02_sessions.md: States and transitions). -/
def Obligations.HintsAndClosing : Prop :=
  (∀ s qk c id, let x := s.getSess id; let n := field c.raw 32 4
    NextSess s qk 0x07 c id →
    (x.st ∈ ([.hot, .running, .idle, .parked, .reviving] : List SState) ∨ (x.st = .moving ∧ x.exporting = false) →
      ∃ u, exec (.sessHint qk) s = .next u ∧ u = { s with host := u.host, sess := u.sess, out := u.out } ∧
        (∀ k, k ≠ id → u.getSess k = s.getSess k) ∧
        (n = 0 → u.getSess id = { x with wakeSet := false, wake := 0, lastStatus := 0, seq := (x.seq + 2) % 65536 } ∧
          Finished s u c .ok 0 0 0 0) ∧
        (n ≠ 0 → u.getSess id = { x with wakeSet := true, wake := (s.beat.num + n) % 2 ^ 48, lastStatus := 0, seq := (x.seq + 2) % 65536 } ∧
          Finished s u c .ok 0 0 ((s.beat.num + n) % 2 ^ 48) 0)) ∧
    (x.st ∈ ([.opened, .stripped, .ended, .faulted] : List SState) ∨ (x.st = .moving ∧ x.exporting = true) →
      ∃ u, exec (.sessHint qk) s = .next u ∧ TurnedAway s u c .badState 0 0 0 0)) ∧
  (∀ s qk c id, let x := s.getSess id
    NextSess s qk 0x09 c id →
    (x.st ∈ ([.hot, .idle, .parked, .stripped, .opened, .faulted] : List SState) → (∀ q ∈ s.dir.pubs, q.sess ≠ id) →
      (∀ m ∈ s.link.ins, m.sess ≠ id) → x.closeSerial = 0 → ∃ u, exec (.sessClose qk) s = .next u ∧
        (u.getSess id).st = .ended ∧ (u.getSess id).wakeSet = false ∧ (u.getSess id).held = none ∧
        (u.getSess id).gen = x.gen ∧ (u.getSess id).lastStatus = 0 ∧ (∀ k, k ≠ id → u.getSess k = s.getSess k) ∧
        (∃ f ∈ u.fab.float, f.kind = .release ∧ f.onRec = false ∧ f.sess = id) ∧ Finished s u c .ok 0 0 0 0) ∧
    (x.st = .running → x.step.isSome = true → ∃ u, exec (.sessClose qk) s = .next u ∧
      u = { s with host := u.host, sess := u.sess } ∧ (∀ k, k ≠ id → u.getSess k = s.getSess k) ∧
      u.getSess id = { x with cancelReq := true, wakeSet := false, wake := 0, closeSerial := c.serial, seq := (x.seq + 2) % 65536 } ∧
      (u.cmd? c.serial).isSome = true) ∧
    (x.st = .ended → ∃ u, exec (.sessClose qk) s = .next u ∧ TurnedAway s u c .badState 0 0 0 0))

/-- SESS_APPEND logs its tokens and SESS_GENERATE starts the generate of a resident session; a parked one holds the command (02_sessions.md: States and transitions; 02_sessions.md: Lengths and their limits; 02_sessions.md: Commands). Clauses that the spec does not state rest on the model's choice in log entries 38, 61. -/
def Obligations.AppendsAndGenerates : Prop :=
  (∀ s qk c id data, let x := s.getSess id; let n := field c.raw 32 4
    NextSess s qk 0x02 c id → bitAt (byteAt c.raw 36) 0 = false →
    (x.st = .hot ∨ x.st = .idle → n ≠ 0 → n < 2 ^ 32 - 1 → 4 * n ≤ field c.raw 24 4 → x.total + n ≤ 2097152 → (x.total ≠ 0 ∨ x.domain = 0) →
      s.logRoom id n = none → ∃ u, exec (.sessAppend qk data) s = .next u ∧
        u = { s with host := u.host, sess := u.sess, free := u.free, out := u.out } ∧
        (∀ k, k ≠ id → u.getSess k = s.getSess k) ∧
        (∃ l, (u.getSess id).log = x.log ++ l ∧ l.length = n ∧ (∀ t ∈ l, t.src = 0 ∧ t.tok < 2 ^ 18) ∧
          ∀ k, k < n → (l.map (·.tok)).getD k 0 = field data (4 * k) 4 % 2 ^ 18) ∧
        (u.getSess id).st = .hot ∧ (u.getSess id).pend = x.pend + n ∧ (u.getSess id).length = x.length ∧ (u.getSess id).wakeSet = false ∧
        (u.getSess id).lastUse = s.beat.num ∧ Finished s u c .ok 0 0 (x.length + (x.pend + n) * 2 ^ 22) x.coatPos) ∧
    (x.st = .opened → 65 ≤ n → n < 2 ^ 32 - 1 → 4 * n ≤ field c.raw 24 4 → x.total = 0 → n ≤ 2097152 → x.domain ≠ 0 →
      ∃ u, exec (.sessAppend qk data) s = .next u ∧ (u.cmd? c.serial).isSome = true ∧ (u.getSess id).busyCmd = true ∧
        (u.getSess id).st = .opened ∧ (u.getSess id).log = x.log ∧ (∃ w ∈ u.dir.walks, w.sess = id ∧ w.serial = c.serial ∧ w.n = n) ∧
        u.ctr .dirLookups x.part = s.ctr .dirLookups x.part + 1) ∧
    (x.st = .hot ∨ x.st = .idle ∨ x.st = .opened →
      (n = 2 ^ 32 - 1 ∨ field c.raw 24 4 < 4 * n → ∃ u, exec (.sessAppend qk data) s = .next u ∧
        TurnedAway s u c .formatInvalid 0 0 (x.length + x.pend * 2 ^ 22) x.coatPos) ∧
      (n < 2 ^ 32 - 1 → 4 * n ≤ field c.raw 24 4 → 2097152 < x.total + n → ∃ u, exec (.sessAppend qk data) s = .next u ∧
        TurnedAway s u c .lenOverLimit 0 0 (x.length + x.pend * 2 ^ 22) x.coatPos) ∧
      (n = 0 → x.total ≤ 2097152 → ∃ u, exec (.sessAppend qk data) s = .next u ∧ OnlyHost s u ∧
        Finished s u c .ok 0 0 (x.length + x.pend * 2 ^ 22) x.coatPos)) ∧
    (x.st = .running → ∃ u, exec (.sessAppend qk data) s = .next u ∧ TurnedAway s u c .badState 0 0 (x.length + x.pend * 2 ^ 22) x.coatPos) ∧
    (∀ b, x.st = .parked → n ≠ 0 → n < 2 ^ 32 - 1 → 4 * n ≤ field c.raw 24 4 → x.total + n ≤ 2097152 →
      b < x.pages.length → (x.desc b).valid = true → (x.desc b).shared = false → 2 ≤ (x.desc b).tier →
      ∃ u, exec (.sessAppend qk data) s = .next u ∧ (u.getSess id).st = .reviving ∧ (u.getSess id).heldCmd = true ∧
        (u.cmd? c.serial).isSome = true ∧ ∃ f ∈ u.fab.float, f.kind = .revive ∧ f.onRec = false ∧ f.sess = id ∧ f.block = b)) ∧
  (∀ s qk c id, let x := s.getSess id; let m := field c.raw 32 4 % 2 ^ 20
    NextSess s qk 0x03 c id → x.kvsvc = false → (s.qs c.qk).emitLog2 ≠ 0 →
    (x.st = .hot ∨ x.st = .idle → m ≠ 0 → m ≠ 0xFFFFF → x.total ≠ 0 → x.total ≠ 2097152 →
      ∃ u, exec (.sessGenerate qk) s = .next u ∧ u = { s with host := u.host, sess := u.sess } ∧
        (∀ k, k ≠ id → u.getSess k = s.getSess k) ∧ (u.cmd? c.serial).isSome = true ∧ (u.getSess id).st = .running ∧
        (u.getSess id).maxnew = m ∧ (u.getSess id).deadline = field c.raw 40 6 ∧ (u.getSess id).prio = byteAt c.raw 46 % 16 ∧
        (u.getSess id).wakeSet = false ∧ (u.getSess id).length = x.length ∧ (u.getSess id).pend = x.pend ∧ (u.getSess id).seam = [] ∧
        (u.getSess id).utf8 = [] ∧ (u.getSess id).open? = some { serial := c.serial, qk := c.qk, wakeAfter := field c.raw 48 4 }) ∧
    (x.st = .hot ∨ x.st = .idle ∨ x.st = .parked → m = 0 ∨ m = 0xFFFFF → ∃ u, exec (.sessGenerate qk) s = .next u ∧
      TurnedAway s u c .formatInvalid (handleOf id x) 0 0 0) ∧
    (x.st = .hot ∨ x.st = .idle → m ≠ 0 → m ≠ 0xFFFFF → x.total = 0 → ∃ u, exec (.sessGenerate qk) s = .next u ∧
      TurnedAway s u c .badState (handleOf id x) 0 0 0) ∧
    (∀ b, x.st = .parked → m ≠ 0 → m ≠ 0xFFFFF → x.total ≠ 0 → x.total ≠ 2097152 → b < x.pages.length → (x.desc b).valid = true →
      (x.desc b).shared = false → 2 ≤ (x.desc b).tier →
      ∃ u, exec (.sessGenerate qk) s = .next u ∧ (u.getSess id).st = .reviving ∧ (u.getSess id).heldCmd = true ∧
        (u.cmd? c.serial).isSome = true ∧ ∃ f ∈ u.fab.float, f.kind = .revive ∧ f.onRec = false ∧ f.sess = id ∧ f.block = b))

/-- SESS_PARK, SESS_STRIP and SESS_RESUME: the next state, what moves, what is released, what the command returns (02_sessions.md: States and transitions; 03_state_fabric.md: Costs of park, revive and strip). -/
def Obligations.ParksStripsAndResumes : Prop :=
  (∀ s qk c id, let x := s.getSess id; let own := fun b => b < x.pages.length ∧ (x.desc b).valid = true ∧ (x.desc b).shared = false
    (NextSess s qk 0x04 c id →
      (x.st = .hot ∨ x.st = .idle → s.parkTier x.part = true → s.parkBytes x ≤ s.parkFree x.part → (∀ q ∈ s.dir.pubs, q.sess ≠ id) →
        ∃ u, exec (.sessPark qk) s = .next u ∧ (u.getSess id).length = x.length ∧ (u.getSess id).pend = x.pend ∧
          (u.getSess id).log = x.log ∧ (u.getSess id).marks = [] ∧ (∀ k, k ≠ id → u.getSess k = s.getSess k) ∧
          (∀ b, own b → (x.desc b).tier < 2 → (u.getSess id).st = .moving ∧ Finished s u c .ok 0 8 0 0 ∧
            ∃ f ∈ u.fab.float, f.kind = .park ∧ f.onRec = false ∧ f.sess = id ∧ f.block = b) ∧
          ((∀ b, own b → 2 ≤ (x.desc b).tier) → (∀ f ∈ s.fab.float, f.onRec = false → f.sess = id → f.kind ≠ .copyExtend) →
            (u.getSess id).st = .parked ∧ Finished s u c .ok 0 5 0 0)) ∧
      (x.st = .hot ∨ x.st = .idle → s.parkTier x.part = false → ∃ u, exec (.sessPark qk) s = .next u ∧ TurnedAway s u c .noSpace 0 0 0 0) ∧
      (x.st ≠ .hot → x.st ≠ .idle → ∃ u, exec (.sessPark qk) s = .next u ∧ TurnedAway s u c .badState 0 0 0 0)) ∧
    (NextSess s qk 0x05 c id →
      (x.st ∈ ([.opened, .hot, .idle, .parked] : List SState) → (∀ q ∈ s.dir.pubs, q.sess ≠ id) →
        ∃ u, exec (.sessStrip qk) s = .next u ∧ (u.getSess id).st = .stripped ∧ (u.getSess id).pages = [] ∧ (u.getSess id).pageRoot = 0 ∧
          (u.getSess id).coatPos = 0 ∧ (u.getSess id).length = 0 ∧ (u.getSess id).pend = x.length + x.pend ∧ (u.getSess id).log = x.log ∧
          (u.getSess id).wakeSet = false ∧ (∀ k, k ≠ id → u.getSess k = s.getSess k) ∧ Finished s u c .ok 0 6 0 0) ∧
      (x.st ∉ ([.opened, .hot, .idle, .parked] : List SState) →
        ∃ u, exec (.sessStrip qk) s = .next u ∧ TurnedAway s u c .badState 0 0 0 0)) ∧
    (NextSess s qk 0x06 c id →
      (∀ b, x.st = .parked → own b → 2 ≤ (x.desc b).tier →
        ∃ u, exec (.sessResume qk) s = .next u ∧ (u.getSess id).st = .reviving ∧ (u.getSess id).wakeSet = false ∧
          (∃ f ∈ u.fab.float, f.kind = .revive ∧ f.onRec = false ∧ f.sess = id ∧ f.block = b) ∧
          (∀ k, k ≠ id → u.getSess k = s.getSess k) ∧ Finished s u c .ok 0 0 (x.length + x.pend * 2 ^ 22) x.coatPos) ∧
      (∀ b, x.st = .moving → x.exporting = false → own b → 2 ≤ (x.desc b).tier →
        ∃ u, exec (.sessResume qk) s = .next u ∧ (u.getSess id).st = .reviving ∧ (u.getSess id).heldCmd = true ∧
          (∃ f ∈ u.fab.float, f.kind = .revive ∧ f.onRec = false ∧ f.sess = id ∧ f.block = b) ∧
          Finished s u c .ok 0 0 (x.length + x.pend * 2 ^ 22) x.coatPos) ∧
      (x.st = .stripped → x.domain = 0 ∨ x.log = [] →
        ∃ u, exec (.sessResume qk) s = .next u ∧ u = { s with host := u.host, sess := u.sess, out := u.out } ∧
          (∀ k, k ≠ id → u.getSess k = s.getSess k) ∧ (u.getSess id).st = .hot ∧ (u.getSess id).rebuild = true ∧
          (u.getSess id).length = x.length ∧ (u.getSess id).pend = x.pend ∧
          Finished s u c .ok 0 0 (x.length + x.pend * 2 ^ 22) x.coatPos) ∧
      (x.st = .stripped → x.domain ≠ 0 → 65 ≤ x.log.length →
        ∃ u, exec (.sessResume qk) s = .next u ∧ (u.cmd? c.serial).isSome = true ∧ (u.getSess id).st = .stripped ∧
          (u.getSess id).busyCmd = true ∧ ∃ w ∈ u.dir.walks, w.sess = id ∧ w.serial = c.serial ∧ w.resume = true ∧ w.n = x.log.length) ∧
      (x.st ∉ ([.parked, .stripped, .moving] : List SState) →
        ∃ u, exec (.sessResume qk) s = .next u ∧ TurnedAway s u c .badState 0 0 (x.length + x.pend * 2 ^ 22) x.coatPos)))

/-- The eight load and unload commands of stencil sets, sampler profiles, stop sets and tokeniser images (07_sampling_and_stencils.md: The emit store; 07_sampling_and_stencils.md: Stencil sets; 07_sampling_and_stencils.md: Sampler profiles; 08_text_unit.md: The text store). Clauses that the spec does not state rest on the model's choice in log entry 81. -/
def Obligations.LoadsFillAndEmptyTheStores : Prop :=
  (∀ s qk c data, let n := field c.raw 36 2; let len := field c.raw 32 4; let b := fit 0 len data; let key := c.part * 65536 + n
    let m := byteAt c.raw 36; let mk := c.part * 256 + m
    let fits := len < 2 ^ 32 - 1 ∧ len ≤ field c.raw 24 4; let num := n ≠ 0 ∧ n ≠ 0xFFFF
    (Next s qk 0x20 c → num → fits → stencilOk b = true →
      (tabGet? s.emit.sets key = none → s.emitPages c.part + ceilDiv len 4096 ≤ s.emitStore c.part →
        ∃ u, exec (.stencilLoad qk data) s = .next u ∧ u = { s with host := u.host, out := u.out, emit := u.emit } ∧
          tabGet? u.emit.sets key = some { img := b, pages := ceilDiv len 4096 } ∧
          u.emit = { s.emit with sets := u.emit.sets } ∧ (∀ k, k ≠ key → tabGet? u.emit.sets k = tabGet? s.emit.sets k) ∧
          Finished s u c .ok 0 0 0 0) ∧
      ((tabGet? s.emit.sets key).isSome = true → ∃ u, exec (.stencilLoad qk data) s = .next u ∧ TurnedAway s u c .badState 0 0 0 0) ∧
      (tabGet? s.emit.sets key = none → s.emitStore c.part < s.emitPages c.part + ceilDiv len 4096 →
        ∃ u, exec (.stencilLoad qk data) s = .next u ∧ TurnedAway s u c .noSpace 0 0 0 0)) ∧
    (∀ f, Next s qk 0x22 c → num → fits → profileOk b = some f → s.emitPages c.part + f.pages ≤ s.emitStore c.part →
      ∃ u, exec (.sampLoad qk data) s = .next u ∧ u = { s with host := u.host, out := u.out, emit := u.emit } ∧
        tabGet? u.emit.profs key = some { f with ver := s.emit.nextVer } ∧
        (∀ k, k ≠ key → tabGet? u.emit.profs k = tabGet? s.emit.profs k) ∧ u.emit.sets = s.emit.sets ∧ Finished s u c .ok 0 0 0 0) ∧
    (∀ l, Next s qk 0x26 c → num → fits → stopOk b = some l →
      (tabGet? s.text.stops key = none → s.textPages c.part + 66 ≤ s.textStore c.part →
        ∃ u, exec (.stopLoad qk data) s = .next u ∧ u = { s with host := u.host, out := u.out, text := u.text } ∧
          u.text = { s.text with stops := u.text.stops } ∧ tabGet? u.text.stops key = some l ∧
          (∀ k, k ≠ key → tabGet? u.text.stops k = tabGet? s.text.stops k) ∧ Finished s u c .ok 0 0 0 0) ∧
      ((tabGet? s.text.stops key).isSome = true → ∃ u, exec (.stopLoad qk data) s = .next u ∧ TurnedAway s u c .badState 0 0 0 0)) ∧
    (Next s qk 0x24 c → m ≠ 255 → fits → tokOk b (s.model c.part m).vocab = true → s.modelInUse c.part m = false →
      tabGet? s.text.toks mk = none → s.textPages c.part + ceilDiv len 4096 ≤ s.textStore c.part →
      ∃ u, exec (.tokLoad qk data) s = .next u ∧ u = { s with host := u.host, out := u.out, text := u.text } ∧
        u.text = { s.text with toks := u.text.toks } ∧ tabGet? u.text.toks mk = some b ∧
        (∀ k, k ≠ mk → tabGet? u.text.toks k = tabGet? s.text.toks k) ∧ Finished s u c .ok 0 0 0 0) ∧
    (∀ r ∈ ([(0x20, .stencilLoad qk data, num ∧ stencilOk b = true), (0x22, .sampLoad qk data, num ∧ (profileOk b).isSome = true),
        (0x26, .stopLoad qk data, num ∧ (stopOk b).isSome = true),
        (0x24, .tokLoad qk data, m ≠ 255 ∧ tokOk b (s.model c.part m).vocab = true)] : List (Nat × Instr × Prop)),
      Next s qk r.1 c → ¬ (fits ∧ r.2.2) → ∃ u, exec r.2.1 s = .next u ∧ TurnedAway s u c .formatInvalid 0 0 0 0)) ∧
  (∀ s qk c, let n := field c.raw 36 2; let key := c.part * 65536 + n; let m := byteAt c.raw 36; let mk := c.part * 256 + m
    let num := n ≠ 0 ∧ n ≠ 0xFFFF
    (Next s qk 0x21 c → num → (tabGet? s.emit.sets key).isSome = true → (∀ x ∈ s.live c.part, x.2.stencilSet ≠ n) →
      ∃ u, exec (.stencilUnload qk) s = .next u ∧ u = { s with host := u.host, out := u.out, emit := u.emit } ∧
        tabGet? u.emit.sets key = none ∧ (∀ k, k ≠ key → tabGet? u.emit.sets k = tabGet? s.emit.sets k) ∧
        (∀ l ∈ u.emit.cache, ∀ x ∈ l.2, x.set ≠ key) ∧ Finished s u c .ok 0 0 0 0) ∧
    (Next s qk 0x23 c → num → (tabGet? s.emit.profs key).isSome = true →
      ∃ u, exec (.sampUnload qk) s = .next u ∧ u = { s with host := u.host, out := u.out, emit := u.emit } ∧
        tabGet? u.emit.profs key = none ∧ (∀ k, k ≠ key → tabGet? u.emit.profs k = tabGet? s.emit.profs k) ∧ Finished s u c .ok 0 0 0 0) ∧
    (Next s qk 0x27 c → num → (tabGet? s.text.stops key).isSome = true → (∀ x ∈ s.live c.part, x.2.stopSet ≠ n) →
      ∃ u, exec (.stopUnload qk) s = .next u ∧ u = { s with host := u.host, out := u.out, text := u.text } ∧
        tabGet? u.text.stops key = none ∧ (∀ k, k ≠ key → tabGet? u.text.stops k = tabGet? s.text.stops k) ∧ Finished s u c .ok 0 0 0 0) ∧
    (Next s qk 0x25 c → m ≠ 255 → (tabGet? s.text.toks mk).isSome = true → s.modelInUse c.part m = false →
      ∃ u, exec (.tokUnload qk) s = .next u ∧ u = { s with host := u.host, out := u.out, text := u.text } ∧
        tabGet? u.text.toks mk = none ∧ (∀ k, k ≠ mk → tabGet? u.text.toks k = tabGet? s.text.toks k) ∧ Finished s u c .ok 0 0 0 0) ∧
    (∀ r ∈ ([(0x21, .stencilUnload qk, num ∧ (tabGet? s.emit.sets key = none ∨ ∃ x ∈ s.live c.part, x.2.stencilSet = n)),
        (0x23, .sampUnload qk, num ∧ tabGet? s.emit.profs key = none),
        (0x27, .stopUnload qk, num ∧ (tabGet? s.text.stops key = none ∨ ∃ x ∈ s.live c.part, x.2.stopSet = n)),
        (0x25, .tokUnload qk, m ≠ 255 ∧ (tabGet? s.text.toks mk = none ∨ s.modelInUse c.part m = true))] : List (Nat × Instr × Prop)),
      Next s qk r.1 c → r.2.2 → ∃ u, exec r.2.1 s = .next u ∧ TurnedAway s u c .badState 0 0 0 0))

/-- TOK_ENCODE queues its text in a lane; LANE_TOKENISE writes the tokens out or gives them to the append (08_text_unit.md: Tokenising). Clauses that the spec does not state rest on the model's choice in log entries 24, 60. -/
def Obligations.LanesTokeniseTheirText : Prop :=
  (∀ s qk c data, let m := byteAt c.raw 36; let n := field c.raw 32 4; let cs := s.clustersOf c.part; let k := tabGet 0 s.text.turn c.part
    let cl := cs.getD (k % Nat.max 1 cs.length) 0
    Next s qk 0x28 c →
    ((tabGet? s.text.toks (c.part * 256 + m)).isSome = true → n ≤ field c.raw 24 4 → n ≤ 67108864 →
      ∃ u, exec (.tokEncode qk data) s = .next u ∧ u = { s with host := u.host, text := u.text } ∧ (u.cmd? c.serial).isSome = true ∧
        tabGet 0 u.text.turn c.part = k + 1 ∧ (∀ x, x ≠ cl → tabGet [] u.text.lanes x = tabGet [] s.text.lanes x) ∧
        tabGet [] u.text.lanes cl = tabGet [] s.text.lanes cl ++
          [{ serial := c.serial, encode := true, part := c.part, model := m, handle := 0, text := fit 0 n data,
             room := field c.raw 56 4 / 4 }]) ∧
    (tabGet? s.text.toks (c.part * 256 + m) = none ∨ field c.raw 24 4 < n ∨ 67108864 < n →
      ∃ u, exec (.tokEncode qk data) s = .next u ∧ TurnedAway s u c .formatInvalid 0 0 0 0)) ∧
  (∀ s cl j l img c, s.up = true → tabGet [] s.text.lanes cl = j :: l → tabGet? s.text.toks (j.part * 256 + j.model) = some img →
    s.cmd? j.serial = some c → let r := tokenise (openTok img) j.text; let fits := fitPieces j.room r.1
    ∃ u, exec (.laneTokenise cl) s = .next u ∧ (∀ x, x ≠ cl → tabGet [] u.text.lanes x = tabGet [] s.text.lanes x) ∧
      tabGet [] u.text.lanes cl = l ∧
      (j.encode = true → (r.2 = none ∨ fits.length < r.1.length) →
        .hostWrite (c.qk / 64 / 17) (field c.raw 48 8) ((fits.flatMap (·.toks)).flatMap (natLe 4)) ∈ u.out ∧
        Finished s u c (if fits.length < r.1.length then .short else .ok) 0 (fits.flatMap (·.toks)).length (sumOf (·.len) fits) 0) ∧
      (∀ off, j.encode = true → r.2 = some off → r.1.length ≤ fits.length → Finished s u c .untokenisable 0 0 0 off) ∧
      (let id := hId j.handle; let x := s.getSess id
       j.encode = false → r.2 = none → handleOf id x = j.handle → x.st = .hot ∨ x.st = .idle → x.exporting = false → x.total ≠ 0 ∨ x.domain = 0 →
        let n := (r.1.flatMap (·.toks)).length; n ≠ 0 → x.total + n ≤ 2097152 → s.logRoom id n = none →
        (u.getSess id).st = .hot ∧ (u.getSess id).pend = x.pend + n ∧ (u.getSess id).length = x.length ∧ (u.getSess id).busyCmd = false ∧
        (u.getSess id).log = x.log ++ (r.1.flatMap (·.toks)).map (fun k => ⟨k, 0⟩) ∧
        Finished s u c .ok 0 0 (x.length + (x.pend + n) * 2 ^ 22) x.coatPos)) ∧
  (∀ s cl, s.up = true → tabGet [] s.text.lanes cl = [] → exec (.laneTokenise cl) s = .next s)

/-- PROG_LOAD writes an image that goes live at a beat; PROG_UNLOAD ends it at one; PROG_SWITCH makes the switch at tick 0 (09_scaesh_model.md: Program images). Clauses that the spec does not state rest on the model's choice in log entry 52. -/
def Obligations.ProgramsSwitchAtBeats : Prop :=
  (∀ s qk c data, let n := field c.raw 32 4; let b := fit 0 n data; let id := byteAt b 4
    Next s qk 0x30 c → n < 2 ^ 32 - 1 → n ≤ field c.raw 24 4 →
    (∀ im ld cw, progFormOk b = true → progNumOk id = true → progEntriesOk b = true → byteAt b 1 = 1 → byteAt b 2 = 0 →
      field b 24 8 < 2 ^ 7 → (s.getPart c.part).conf = false →
      (∀ g ∈ s.cores.progs, g.part = c.part → g.id = id → id < 32 ∨ g.gone = true) → s.progPlace c.part b = some (im, ld, cw) →
      ∃ u g, exec (.progLoad qk data) s = .next u ∧ u = { s with host := u.host, cores := u.cores } ∧ (u.cmd? c.serial).isSome = true ∧
        u.cores.progs = s.cores.progs ++ [g] ∧ g.part = c.part ∧ g.id = id ∧ g.ver = s.cores.nextVer ∧ g.img = b ∧ g.live = false ∧
        g.gone = false ∧ g.imemBase = im ∧ g.ldmBase = ld ∧ g.cwsBase = cw ∧
        u.cores.switches = s.cores.switches ++ [{ serial := c.serial, part := c.part, prog := id, ver := s.cores.nextVer,
                                                  unload := false }]) ∧
    (progFormOk b = false → ∃ u, exec (.progLoad qk data) s = .next u ∧ TurnedAway s u c .formatInvalid 0 0 0 0) ∧
    (progFormOk b = true → 2 ≤ id → id ≠ 4 → id < 32 → ∃ u, exec (.progLoad qk data) s = .next u ∧ TurnedAway s u c .badState 0 0 0 0) ∧
    (progFormOk b = true → progNumOk id = true → progEntriesOk b = true → byteAt b 1 = 1 → byteAt b 2 = 0 → field b 24 8 < 2 ^ 7 →
      (s.getPart c.part).conf = true →
      sigBlockOk 1 (s.getPart c.part).owner "YK-PROG-1" (b.take (progBody b)) (b.drop (progBody b)) = false →
      ∃ u, exec (.progLoad qk data) s = .next u ∧ OnlyHost s u ∧ u.ctr .secSigFail c.part = s.ctr .secSigFail c.part + 1 ∧
        Finished s u c .secureOnly 0 0 0 0)) ∧
  (∀ s qk c, let id := byteAt c.raw 36
    Next s qk 0x31 c →
    ((s.livePr c.part id).isSome = true → ∃ u, exec (.progUnload qk) s = .next u ∧ u = { s with host := u.host, cores := u.cores } ∧
      u.cores = { s.cores with switches := s.cores.switches ++ [{ serial := c.serial, part := c.part, prog := id, ver := 0,
                                                                  unload := true }] } ∧ (u.cmd? c.serial).isSome = true) ∧
    (s.livePr c.part id = none → ∃ u, exec (.progUnload qk) s = .next u ∧ TurnedAway s u c .badState 0 0 0 0)) ∧
  (∀ s w c, s.up = true → s.beat.tick = 0 → s.beat.hold = false → s.cores.switches = [w] → w.armed = true → s.cmd? w.serial = some c →
    (w.unload = false → (∃ g ∈ s.cores.progs, g.part = w.part ∧ g.id = w.prog ∧ g.ver = w.ver ∧ g.gone = false) →
      ∃ u g, exec .progSwitch s = .next u ∧ u.livePr w.part w.prog = some g ∧ g.ver = w.ver ∧ u.cores.switches = [] ∧
        (∀ p n, p ≠ w.part ∨ n ≠ w.prog → u.livePr p n = s.livePr p n) ∧ Finished s u c .ok 0 0 0 0) ∧
    (w.unload = true → (s.livePr w.part w.prog).isSome = true → (∀ g ∈ s.cores.progs, g.ver ≠ w.ver) →
      ∃ u, exec .progSwitch s = .next u ∧ u.livePr w.part w.prog = none ∧ u.cores.switches = [] ∧
        (∀ p n, p ≠ w.part ∨ n ≠ w.prog → u.livePr p n = s.livePr p n) ∧ Finished s u c .ok 0 0 0 0)) ∧
  (∀ s, s.up = true → s.beat.tick ≠ 0 ∨ s.beat.hold = true → exec .progSwitch s = .next s)

/-- PROG_CALL queues its invocations, CALL_INVOCATION starts one, WATCHDOG faults one, PROG_CANCEL ends a CALL (09_scaesh_model.md: Calls and the calling convention; 09_scaesh_model.md: Faults). Clauses that the spec does not state rest on the model's choice in log entries 52, 54, 95. -/
def Obligations.CallsStartRunAndCancel : Prop :=
  (∀ s qk c g, let id := byteAt c.raw 12; let k := byteAt c.raw 13 % 16; let e := progEntry g.img k; let num := byteAt c.raw 15
    let ctx := if e.cls = 0 then 0 else if e.cls = 1 then 1 else if e.cls = 2 then 2 else 3
    Next s qk 0x32 c → s.livePr c.part id = some g → k < byteAt g.img 5 % 32 → e.kind = 1 → field c.raw 8 4 = 0 →
    (∀ x ∈ s.cores.calls, x.serial ≠ c.serial ∧ x.id ≠ s.cores.nextInv) →
    (byteAt c.raw 14 = 0 → num / 8 ∈ s.clustersOf c.part → (s.ctxAt ⟨num, ctx⟩).queue.length < 64 →
      ∃ u v, exec (.progCall qk) s = .next u ∧ (u.cmd? c.serial).isSome = true ∧
        (u.ctxAt ⟨num, ctx⟩).queue = (s.ctxAt ⟨num, ctx⟩).queue ++ [v] ∧ v.id = s.cores.nextInv % 2 ^ 32 ∧ v.prog = id ∧ v.ver = g.ver ∧
        v.pc0 = e.offset ∧ v.maxBeats = e.maxBeats ∧ v.member = 0 ∧ v.members = 1 ∧
        v.args = [32, 40, 48, 56].map (fun o => BitVec.ofNat 64 (field c.raw o 8)) ∧ v.entry = k ∧
        (∀ n, n ≠ num → u.core n = s.core n) ∧
        ((s.qs c.qk).en = true → s.inFlight c.qk < cplFree (s.qs c.qk) → (∀ x ∈ s.cores.calls, x.qk ≠ c.qk ∨ x.accepted = true) →
          .cpl c.qk (s.qs c.qk).cplTail
            { kind := 1, status := .ok, cmdHead := (s.qs c.qk).cmdHead, cid := c.cid, handle := s.cores.nextInv % 2 ^ 32,
              phase := (s.qs c.qk).cplPhase } ∈ u.out)) ∧
    (byteAt c.raw 14 = 1 → num ∈ s.clustersOf c.part → (∀ j, j < 8 → (s.ctxAt ⟨8 * num + j, ctx⟩).queue.length < 64) →
      ∃ u, exec (.progCall qk) s = .next u ∧ (u.cmd? c.serial).isSome = true ∧ ∀ j, j < 8 →
        ∃ v, (u.ctxAt ⟨8 * num + j, ctx⟩).queue = (s.ctxAt ⟨8 * num + j, ctx⟩).queue ++ [v] ∧ v.member = j ∧ v.members = 8 ∧
          v.id = (s.cores.nextInv + j) % 2 ^ 32 ∧ v.prog = id ∧ v.pc0 = e.offset)) ∧
  (∀ s qk c, let id := byteAt c.raw 12
    Next s qk 0x32 c → s.livePr c.part id = none → byteAt c.raw 14 = 0 → byteAt c.raw 15 / 8 ∈ s.clustersOf c.part →
    ∃ u, exec (.progCall qk) s = .next u ∧ TurnedAway s u c (if c.part * 256 + id ∈ s.cores.unloaded then .badState else .formatInvalid) 0 0 0 0) ∧
  (∀ s core ctx v l call, let x := s.ctxAt ⟨core, ctx⟩
    s.up = true → x.inv = none → x.queue = v :: l → s.cores.calls.find? (fun k => k.id == v.call) = some call → v.args.length = 4 →
    (∀ g, s.livePr v.part v.prog = some g → let e := progEntry g.img v.entry
      (s.onLive v).isSome = true → (s.onLive v).map (fun w => (w.ver, w.pc0, w.maxBeats)) = some (g.ver, e.offset, e.maxBeats)) ∧
    (∀ w, s.onLive v = some w → ∃ u, exec (.callInvocation core ctx) s = .next u ∧ u = { s with cores := u.cores, free := u.free } ∧
      (∀ n, n ≠ core → u.core n = s.core n) ∧ let y := u.ctxAt ⟨core, ctx⟩
      y.inv = some { w with startBeat := s.beat.num } ∧ y.st = .running ∧ y.pc = w.pc0 ∧ y.queue = l ∧ y.ops = [] ∧ y.tags = [] ∧
        y.tiles = [] ∧ (∀ i, i < 4 → y.rx (i + 1) = v.args.getD i 0) ∧ y.rx 5 = BitVec.ofNat 64 call.bufLen ∧
        y.rx 6 = BitVec.ofNat 64 call.handle ∧ y.rx 7 = BitVec.ofNat 64 v.id ∧ y.rx 29 = 0 ∧
        y.slot 0 = (if call.handle = 0 then none else some call.handle)) ∧
    (s.onLive v = none → v.event = 0 →
      ∃ u, exec (.callInvocation core ctx) s = .next u ∧ (u.ctxAt ⟨core, ctx⟩).inv = none ∧ (u.ctxAt ⟨core, ctx⟩).queue = l)) ∧
  (∀ s core ctx v, s.up = true → (s.ctxAt ⟨core, ctx⟩).inv = some v →
    let ran := (s.beat.num + 2 ^ 48 - v.startBeat) % 2 ^ 48
    (v.maxBeats ≠ 0 → v.maxBeats ≤ ran → exec (.watchdog core ctx) s = .next (s.raise ⟨core, ctx⟩ 10)) ∧
    (v.maxBeats = 0 ∨ ran < v.maxBeats → exec (.watchdog core ctx) s = .next s)) ∧
  (∀ s qk c, Next s qk 0x33 c →
    (∀ k e, s.cores.calls = [k] → k.part = c.part → k.cancelled = false → k.accepted = true → k.cores ≠ [] → k.id < 2 ^ 32 →
      field c.raw 32 4 = k.id → s.cmd? k.serial = some e → k.serial ≠ c.serial →
      ∃ u, exec (.progCancel qk) s = .next u ∧ u = { s with host := u.host, cores := u.cores, out := u.out } ∧ u.cores.calls = [] ∧
        (∀ core ∈ k.cores, ∀ i ∈ [2, 3], (∀ v ∈ (u.ctxAt ⟨core, i⟩).queue, v.call ≠ k.id ∨ v.event ≠ 0) ∧
          ∀ v, (u.ctxAt ⟨core, i⟩).inv = some v → v.call ≠ k.id ∨ v.event ≠ 0) ∧
        Answered s u e .cancelled 0 0 0 0 ∧ Answered s u c .ok 0 0 0 0) ∧
    (s.cores.calls = [] → ∃ u, exec (.progCancel qk) s = .next u ∧ TurnedAway s u c .badState 0 0 0 0))

/-- CHAIN_STEP computes a key; DIR_SEARCH_SLOT moves the walk or ends it; LOOKUP_TAIL_SLOT takes a tail that matches (04_undercoat_directory.md: Keys; 04_undercoat_directory.md: Lookup). Clauses that the spec does not state rest on the model's choice in log entries 39, 43. -/
def Obligations.LookupsWalkTheDirectory : Prop :=
  (∀ s cl q l w, s.up = true → tabGet [] s.dir.lanes cl = q :: l → q.kind = .chain → s.dir.walks.find? (fun v => v.sess == q.sess) = some w →
    w.keys.length < 8 → ∃ u k, exec (.chainStep cl) s = .next u ∧ u = { s with dir := u.dir } ∧
      k = leNat ((sha256 (natLe 16 w.laneChain ++ keyToks ((w.toks.drop (64 * w.laneNext)).take 64))).take 16) ∧
      u.dir.walks.find? (fun v => v.sess == q.sess) =
        some { w with keys := w.keys ++ [k], laneChain := k, laneNext := w.laneNext + 1, arr := if w.keys = [] then s.dir.clock else w.arr } ∧
      tabGet [] u.dir.lanes cl =
        (if 64 * (w.laneNext + 2) < w.n ∧ w.keys.length + 1 < 8 then l ++ [q] else l) ∧
      (∀ n, n ≠ cl → tabGet [] u.dir.lanes n = tabGet [] s.dir.lanes n)) ∧
  (∀ s part w k ks, let x := s.getSess w.sess
    s.up = true → leastBy (·.arr) (s.dir.walks.filter (fun v => v.phase == .walk && !v.keys.isEmpty && (s.getSess v.sess).part == part)) = some w →
    w.keys = k :: ks →
    (s.turn part w.arr = false → ∀ bad, exec (.dirSearchSlot part bad) s = .next s) ∧ (s.turn part w.arr = true →
    (∀ e, s.search0 part x.domain x.model k = some e → w.held = none → 64 * (w.b + 2) ≤ w.n - 1 →
      ∃ u, exec (.dirSearchSlot part false) s = .next u ∧ (u.dirRec e).refs = (s.dirRec e).refs + 1 ∧
        (∀ n, n ≠ e → u.dirRec n = s.dirRec n) ∧ u.sess = s.sess ∧
        ∃ v ∈ u.dir.walks, v.sess = w.sess ∧ v.b = w.b + 1 ∧ v.chain = k ∧ v.keys = ks ∧ v.held = some e ∧ v.hits = w.hits ++ [e]) ∧
    (∀ c, s.search0 part x.domain x.model k = none → w.held = none → w.hits = [] → w.b = 0 → w.resume = false → s.cmd? w.serial = some c →
      s.link.ins = [] → s.logRoom w.sess w.toks.length = none → ∀ bad,
      ∃ u, exec (.dirSearchSlot part bad) s = .next u ∧ (∀ v ∈ u.dir.walks, v.sess ≠ w.sess) ∧ let y := u.getSess w.sess
        y.st = .hot ∧ y.length = 0 ∧ y.coatPos = 0 ∧ y.pend = w.n ∧ y.log = x.log ++ w.toks ∧ y.busyCmd = false ∧ y.pages = [] ∧
        Finished s u c .ok 0 0 (w.n * 2 ^ 22) 0))) ∧
  (∀ s part w c, let x := s.getSess w.sess; let r := s.dirRec (w.held.getD 0); let t := s.dirRec r.tailIx
    let hit := r.tailSet = true ∧ t.st = .valid ∧ t.chain = w.tailKey ∧ 64 * w.b + t.fill ≤ w.n - 1
    s.up = true → leastBy (·.arr) (s.dir.walks.filter (fun v => v.phase == .tailSlot && (s.getSess v.sess).part == part)) = some w → s.turn part w.arr = true →
    s.cmd? w.serial = some c → s.link.ins = [] →
    ∃ u, exec (.lookupTailSlot part false) s = .next u ∧ (∀ v ∈ u.dir.walks, v.sess ≠ w.sess) ∧ let y := u.getSess w.sess
      y.busyCmd = false ∧ ((y.st = x.st ∧ y.log = x.log ∧ y.coatPos = x.coatPos ∧ Finished s u c .noSpace 0 0 (x.length + x.pend * 2 ^ 22) x.coatPos) ∨
        (y.st = .hot ∧ y.length = y.coatPos ∧ y.pend = w.n - y.coatPos ∧ (hit → y.coatPos = 64 * w.b + t.fill) ∧
          (¬ hit → y.coatPos = 64 * w.b) ∧ Finished s u c .ok 0 0 (y.coatPos + (w.n - y.coatPos) * 2 ^ 22) y.coatPos))) ∧
  (∀ s n bad, s.up = true →
    (tabGet [] s.dir.lanes n = [] → exec (.chainStep n) s = .next s) ∧
    (s.dir.walks = [] → exec (.dirSearchSlot n bad) s = .next s ∧ exec (.lookupTailSlot n bad) s = .next s))

/-- DIR_PUBLISH checks and begins a publish; PUBLISH_SLOT reserves, switches the session, validates and completes it (04_undercoat_directory.md: Publishing). Clauses that the spec does not state rest on the model's choice in log entry 79. -/
def Obligations.PublishesTakeTheirSlots : Prop :=
  (∀ s qk c id, let x := s.getSess id; let n := field c.raw 32 4 % 2 ^ 22; let d := n / 64
    let ks := chains (chainRoot x.domain x.model) x.log 0 d
    let fresh := ks.filter (fun k => (s.search0 x.part x.domain x.model k).isNone)
    NextSess s qk 0x10 c id →
    (x.st ≠ .hot → x.st ≠ .idle → ∃ u, exec (.dirPublish qk) s = .next u ∧ TurnedAway s u c .badState 0 0 0 0) ∧
    (x.st = .hot ∨ x.st = .idle →
      (x.domain = 0 → ∃ u, exec (.dirPublish qk) s = .next u ∧ TurnedAway s u c .domainDenied 0 0 0 0) ∧
      (x.domain ≠ 0 → n < 64 ∨ x.length < n ∨ n = 0x3FFFFF →
        ∃ u, exec (.dirPublish qk) s = .next u ∧ TurnedAway s u c .formatInvalid 0 0 0 0) ∧
      (x.domain ≠ 0 → 64 ≤ n → n ≤ x.length → n ≠ 0x3FFFFF →
        ((∃ e ∈ x.pages.take d, e.shared = true ∧ (s.dirRec e.ix).st ≠ .valid) →
          ∃ u, exec (.dirPublish qk) s = .next u ∧ TurnedAway s u c .badState 0 0 0 0) ∧
        ((∀ e ∈ x.pages.take d, e.shared = true → (s.dirRec e.ix).st = .valid) → s.rowsFree x.part fresh = true →
          fresh.length + (if n % 64 = 0 then 0 else 1) ≤ s.recsFree x.part →
          ∃ u q, exec (.dirPublish qk) s = .next u ∧ u = { s with host := u.host, dir := u.dir } ∧ (u.cmd? c.serial).isSome = true ∧
            u.dir = { s.dir with pubs := s.dir.pubs ++ [q], clock := s.dir.clock + 1 } ∧ q.arr = s.dir.clock ∧ q.sess = id ∧ q.serial = c.serial ∧ q.d = d ∧ q.chains = ks ∧
            q.tailFill = n % 64 ∧ q.pointPassed = false)))) ∧
  (∀ s part q, s.up = true → leastBy (·.arr) (s.dir.pubs.filter (fun p => p.part == part && s.pubReady p)) = some q → s.turn part q.arr = false →
    exec (.publishSlot part) s = .next s) ∧
  (∀ s part q c, s.up = true → leastBy (·.arr) (s.dir.pubs.filter (fun p => p.part == part && s.pubReady p)) = some q →
    s.turn part q.arr = true → s.cmd? q.serial = some c →
    (∀ b, let k := q.chains.getD b 0
      q.step = .reserve b → s.search0 q.part q.domain q.model k = none →
      (∀ ix sl, b + 1 < q.d ∨ q.tailFill = 0 → s.freeRec q.part = some ix → s.lowSlot (rowOf (s.getPart q.part) k) = some sl →
        ∃ u, exec (.publishSlot part) s = .next u ∧ u = { s with dir := u.dir } ∧ (u.dirRec ix).st = .writing ∧
          (∀ n, n ≠ ix → u.dirRec n = s.dirRec n) ∧ (∀ n, n ≠ sl → tabGet? u.dir.slots n = tabGet? s.dir.slots n) ∧
          tabGet? u.dir.slots sl = some { domain := q.domain, model := q.model, parent := if b = 0 then 0 else q.ixs.getD (b - 1) 0,
                                          chain := k, ix := ix, valid := false }) ∧
      (s.freeRec q.part = none ∨ s.lowSlot (rowOf (s.getPart q.part) k) = none →
        ∃ u, exec (.publishSlot part) s = .next u ∧ (∀ p ∈ u.dir.pubs, p.serial ≠ q.serial) ∧ Finished s u c .noSpace 0 0 0 0 ∧
          u.ctr .dirPubNospace q.part = s.ctr .dirPubNospace q.part + 1)) ∧
    (let x := s.getSess q.sess
     q.step = .switch → ∃ u, exec (.publishSlot part) s = .next u ∧ (∀ k, k ≠ q.sess → u.getSess k = s.getSess k) ∧
      let y := u.getSess q.sess
      y.pages = q.ixs.map (fun ix => { valid := true, shared := true, ix := ix, fill := 64 }) ++ x.pages.drop q.d ∧ y.length = x.length ∧
        y.seq = (x.seq + 2) % 65536 ∧ y.coatPos = (if x.coatPos ≤ 64 * q.d then 64 * q.d else x.coatPos) ∧
        y.undercoatIx = (if x.coatPos ≤ 64 * q.d then q.ixs.getD (q.d - 1) 0 else x.undercoatIx)) ∧
    (∀ b, let ix := q.ixs.getD b 0
      q.step = .validate b → q.firstNew = 0 ∨ q.pointPassed = true → (s.dirRec ix).st = .writing →
      ∃ u, exec (.publishSlot part) s = .next u ∧ u = { s with dir := u.dir } ∧ u.dirRec ix = { s.dirRec ix with st := .valid } ∧
        (∀ n, n ≠ ix → u.dirRec n = s.dirRec n) ∧ (∀ e ∈ u.dir.slots, e.2.ix = ix → e.2.valid = true) ∧
        (∀ p ∈ u.dir.pubs, p.serial = q.serial → p.pointPassed = true)) ∧
    (q.step = .done → ∃ u, exec (.publishSlot part) s = .next u ∧ (∀ p ∈ u.dir.pubs, p.serial ≠ q.serial) ∧
      (∀ k, k ≠ q.sess → u.getSess k = s.getSess k) ∧ ((s.getSess q.sess).st ≠ .free → u.getSess q.sess = { s.getSess q.sess with lastStatus := 0 }) ∧
      u.dir.recs = s.dir.recs ∧ Finished s u c .ok 0 (q.d - q.firstNew + (if q.tailFill = 0 then 0 else 1))
        (q.ixs.headD 0 + q.ixs.getD (q.d - 1) 0 * 2 ^ 32) (q.tailIx.getD 0x3FFFF)))

/-- DIR_RETIRE, DIR_RETIRE_DOMAIN, RETIRE_SLOT, LEARN, DIR_REBUILD_SLOT and FAULT_SCAN_ENTRY (04_undercoat_directory.md: References and retirement; 04_undercoat_directory.md: Learning). Clauses that the spec does not state rest on the model's choice in log entries 39, 80, 92. -/
def Obligations.RetirementsLearningAndScans : Prop :=
  (∀ s qk c, let p := s.getPart c.part; let ix := field c.raw 32 4 % 2 ^ 18; let dom := field c.raw 32 2
    let mine := p.rowBase * 64 ≤ ix ∧ ix < (p.rowBase + p.rows) * 64 ∧ (s.dirRec ix).st = .valid
    (Next s qk 0x11 c →
      (mine → ∃ u r, exec (.dirRetire qk) s = .next u ∧ u = { s with host := u.host, dir := u.dir } ∧ (u.cmd? c.serial).isSome = true ∧
        u.dir = { s.dir with retires := s.dir.retires ++ [r], clock := s.dir.clock + 1 } ∧ r.arr = s.dir.clock ∧ r.below = none ∧
        r.serial = c.serial ∧ r.part = c.part ∧ r.todo = [ix] ∧ r.count = 0) ∧
      (¬ mine → ∃ u, exec (.dirRetire qk) s = .next u ∧ TurnedAway s u c .badState 0 0 0 0)) ∧
    (Next s qk 0x12 c →
      (dom ≠ 0 → s.domBound c.part dom = true → ∃ u r, exec (.dirRetireDomain qk) s = .next u ∧
        u = { s with host := u.host, dir := u.dir } ∧ (u.cmd? c.serial).isSome = true ∧
        u.dir = { s.dir with retires := s.dir.retires ++ [r], clock := s.dir.clock + 1 } ∧ r.serial = c.serial ∧ r.domain = dom ∧ r.model = byteAt c.raw 34 ∧
        r.sweepRow = some p.rowBase ∧ r.todo = []) ∧
      (dom = 0 ∨ s.domBound c.part dom = false → ∃ u, exec (.dirRetireDomain qk) s = .next u ∧ TurnedAway s u c .domainDenied 0 0 0 0))) ∧
  (∀ s part r, let p := s.getPart r.part
    s.up = true → leastBy (·.arr) (s.dir.retires.filter (fun q => q.part == part)) = some r →
    (s.turn part r.arr = false → exec (.retireSlot part) s = .next s) ∧
    (s.turn part r.arr = true →
      (∀ ix row, r.below = some (ix, row) → ∃ u, exec (.retireSlot part) s = .next u ∧ u = { s with dir := u.dir } ∧
        u.dir.recs = s.dir.recs ∧ u.dir.slots = s.dir.slots ∧ ∃ q ∈ u.dir.retires, q.serial = r.serial ∧ q.count = r.count ∧
          (if p.rowBase + p.rows ≤ row + 1 then q.below = none ∧ q.todo = r.todo ++ s.childrenIn row ix ++ s.tailOf ix
           else q.below = some (ix, row + 1) ∧ q.todo = r.todo ++ s.childrenIn row ix)) ∧
      (∀ ix l, r.below = none → r.todo = ix :: l → (s.dirRec ix).st = .valid ∨ (s.dirRec ix).st = .writing →
        ∃ u, exec (.retireSlot part) s = .next u ∧ u = { s with dir := u.dir, ctrs := u.ctrs, fab := u.fab } ∧ (u.dirRec ix).st = .retired ∧
          (∀ n, (u.dirRec n).st = (s.dirRec n).st ∨ n = ix) ∧ (∀ e ∈ u.dir.slots, e.2.ix ≠ ix) ∧
          u.ctr .dirRetired (s.dirRec ix).part = s.ctr .dirRetired (s.dirRec ix).part + 1 ∧
          ∃ q ∈ u.dir.retires, q.serial = r.serial ∧ q.todo = l ∧ q.below = some (ix, p.rowBase) ∧ q.count = r.count + 1) ∧
      (∀ row, r.below = none → r.todo = [] → r.sweepRow = some row → ∃ u, exec (.retireSlot part) s = .next u ∧
        (∀ ix ∈ s.domainRow row r.domain r.model, (s.dirRec ix).st = .valid → (u.dirRec ix).st = .retired) ∧
        ∃ q ∈ u.dir.retires, q.serial = r.serial ∧ q.sweepRow = (if p.rowBase + p.rows ≤ row + 1 then none else some (row + 1))) ∧
      (∀ c, r.below = none → r.todo = [] → r.sweepRow = none → s.cmd? r.serial = some c → byteAt c.raw 0 ≠ 0x55 →
        ∃ u, exec (.retireSlot part) s = .next u ∧ r ∉ u.dir.retires ∧ u.dir.recs = s.dir.recs ∧ Finished s u c .ok 0 r.count 0 0))) ∧
  (∀ s id n k, let x := s.getSess id; let sl := s.highSlot (rowOf (s.getPart x.part) k)
    s.up = true → s.dir.learns.find? (fun m => m.sess == id) = some n → n.key = some k → x.st ∈ ([.hot, .running, .idle] : List SState) →
    s.learnable x n.block = true → n.block < x.pages.length → s.turn x.part n.arr = true →
    (∀ ix, s.search0 x.part x.domain x.model k = some ix → ∃ u, exec (.learn id) s = .next u ∧ (u.getSess id).undercoatIx = ix ∧
      (u.getSess id).coatPos = 64 * (n.block + 1) ∧ ((u.getSess id).desc n.block).ix = ix ∧ ((u.getSess id).desc n.block).shared = true ∧
      (u.getSess id).length = x.length ∧ (∀ j, j ≠ id → u.getSess j = s.getSess j)) ∧
    (∀ ix h, s.search0 x.part x.domain x.model k = none → sl = some h → s.freeRec x.part = some ix →
      ∃ u, exec (.learn id) s = .next u ∧ (u.dirRec ix).st = .valid ∧ (u.dirRec ix).published = false ∧ (u.dirRec ix).chain = k ∧
        (u.dirRec ix).depth = n.block ∧ (u.dirRec ix).domain = x.domain ∧ (∃ e, tabGet? u.dir.slots h = some e ∧ e.ix = ix ∧ e.chain = k ∧
          e.valid = true) ∧ (u.getSess id).undercoatIx = ix ∧ (u.getSess id).coatPos = 64 * (n.block + 1) ∧
        u.ctr .dirLearned x.part = s.ctr .dirLearned x.part + 1) ∧
    (s.search0 x.part x.domain x.model k = none → sl = none →
      (∀ e ∈ s.rowSlots (rowOf (s.getPart x.part) k), e.2.domain ≠ x.domain ∨ e.2.valid = false ∨
        (s.dirRec e.2.ix).published = true ∨ (s.dirRec e.2.ix).refs ≠ 0) →
      x.step.bind (·.stall) ≠ some 6 → ∃ u, exec (.learn id) s = .next u ∧ (u.getSess id) = { x with learnEnded := true } ∧ u.dir.recs = s.dir.recs ∧
        u.dir.slots = s.dir.slots ∧ u.ctr .dirLearnDrop x.part = s.ctr .dirLearnDrop x.part + 1)) ∧
  (∀ s part e, let r := s.dirRec e.2; let row := rowOf (s.getPart part) r.chain
    s.up = true → s.dir.rebuild.find? (fun f => f.1 == part) = some e → s.turn part (tabGet 0 s.dir.rebuildArr part) = true →
    (∀ k, r.st = .valid → (if r.published then s.lowSlot row else s.highSlot row) = some k →
      ∃ u, exec (.dirRebuildSlot part) s = .next u ∧ u = { s with dir := u.dir } ∧ u.dir.recs = s.dir.recs ∧
        tabGet? u.dir.slots k = some { domain := r.domain, model := r.model, parent := r.parent, chain := r.chain, ix := e.2 } ∧
        ∀ n, n ≠ k → tabGet? u.dir.slots n = tabGet? s.dir.slots n) ∧
    (r.st = .valid → (if r.published then s.lowSlot row else s.highSlot row) = none →
      ∃ u, exec (.dirRebuildSlot part) s = .next u ∧ (u.dirRec e.2).st = .retired) ∧
    (r.st ≠ .valid → r.st ≠ .writing → ∃ u, exec (.dirRebuildSlot part) s = .next u ∧ u.dir.recs = s.dir.recs ∧ u.dir.slots = s.dir.slots)) ∧
  (∀ s part q, let x := s.getSess q.next
    s.up = true → s.dir.scans.find? (fun d => d.part == part) = some q →
    (s.bulkOpen part = false → exec (.faultScanEntry part) s = .next s) ∧ (s.bulkOpen part = true →
    (x.part ≠ part ∨ s.holds x q.ix = false → ∃ u, exec (.faultScanEntry part) s = .next u ∧
      u = { s with dir := u.dir } ∧ u.dir = { s.dir with scans := u.dir.scans } ∧
      (q.next + 1 < ((s.getPart part).groupBase + (s.getPart part).groups) * 4096 → { q with next := q.next + 1 } ∈ u.dir.scans)) ∧
    (x.st = .hot → x.part = part → s.holds x q.ix = true → x.lostCopy ≠ 3 → x.open? = none → x.held = none → x.closeSerial = 0 →
      (∀ p ∈ s.dir.pubs, p.sess ≠ q.next) → (∀ m ∈ s.link.ins, m.sess ≠ q.next) →
      ∃ u, exec (.faultScanEntry part) s = .next u ∧ (u.getSess q.next).st = .stripped ∧ (u.getSess q.next).lastStatus = 0x18 ∧
        (u.getSess q.next).pages = [] ∧ (u.getSess q.next).length = 0 ∧ (u.getSess q.next).pend = x.length + x.pend ∧
        (u.getSess q.next).log = x.log)))

/-- KV_APPEND writes its rows, moves the layer mark and at the last layer LENGTH; KV_READ and KV_DATA_SEND answer reads (05_attention.md: Writing K and V; 14_partitions_and_admission.md: Pools). Clauses that the spec does not state rest on the model's choice in log entries 31, 48. -/
def Obligations.KvWritesMoveTheMark : Prop :=
  (∀ s port part m, let k := kvMsgOf port 1 m
    s.up = true → s.att.held = [] → s.headMsg port 1 5 = some m → s.portPart port = some part →
    (∀ e, s.kvCheck part (s.isV10 port) k = .error e → ∃ u, exec (.kvAppend port) s = .next u ∧ u.sess = s.sess ∧ u.fab = s.fab ∧
      u.att = s.att ∧ u.ctr .attKvReject part = s.ctr .attKvReject part + 1 ∧
      u.reg .attKvLast part = k.handle + e.code * 2 ^ 32 + k.layer * 2 ^ 40) ∧
    (∀ id, k.bodyVer = 1 → s.handle? part k.handle = some id → (s.getSess id).st = .hot → k.count ≠ 0 → k.pos % 64 + k.count ≤ 64 →
      k.kvIn = 0 → k.layer < (s.model (s.getSess id).part (s.getSess id).model).layers →
      k.data.length = 4 * (s.model (s.getSess id).part (s.getSess id).model).kvheads * k.count *
        (s.model (s.getSess id).part (s.getSess id).model).headDim →
      k.pos < (s.getSess id).length → s.kvCheck part (s.isV10 port) k = .error .badState) ∧
    (∀ id, let x := s.getSess id; let md := s.model x.part x.model; let b := k.pos / 64; let d := x.desc b
      s.kvCheck part (s.isV10 port) k = .ok id → d.valid = true → d.shared = false → x.mark k.layer ≤ k.pos → b < x.pages.length →
      s.promoting id b k.layer (k.pos % 64 == 0) = false → s.link.ins = [] → md.kvheads ≤ 256 →
      ∃ u, exec (.kvAppend port) s = .next u ∧ (∀ n, n ≠ id → u.getSess n = s.getSess n) ∧ let y := u.getSess id
        y.mark k.layer = k.pos + k.count ∧ y.length + y.pend = x.length + x.pend ∧ y.st = x.st ∧ y.log = x.log ∧
        (k.layer + 1 = md.layers → y.length = k.pos + k.count) ∧ (k.layer + 1 ≠ md.layers → y.length = x.length) ∧
        (∀ n, n ≠ d.blk → u.blk n = s.blk n) ∧
        (∀ l kv h p, l ≠ k.layer → kv < 2 → h < 256 → p < 64 → (u.blk d.blk).row l kv h p = (s.blk d.blk).row l kv h p) ∧
        (md.kvFmt = 0 → k.kvIn = 1 → ∀ kv h j, kv < 2 → h < md.kvheads → j < k.count →
          (u.blk d.blk).row k.layer kv h (k.pos % 64 + j) = (List.range md.headDim).map (fun i =>
            field k.data (2 * (((kv * md.kvheads + h) * k.count + j) * md.headDim + i)) 2)) ∧
        (k.layer = 0 → (y.desc b).fill = Nat.max d.fill (Nat.min 64 (k.pos + k.count - 64 * b))))) ∧
  (∀ s port m, let r := kvReadOf port m
    s.up = true → s.headMsg port 2 3 = some m →
    (s.kvReadStatus r = .ok → (s.takeMsg port 2 m).walkFault r.sess (r.pos / 64) .ok = none →
      ∃ u, exec (.kvRead port) s = .next u ∧ u.sess = s.sess ∧ u.att = { s.att with reads := s.att.reads ++ [{ r with data := s.kvReadData r }] }) ∧
    (∀ t, s.kvReadStatus r = .ok → (s.takeMsg port 2 m).walkFault r.sess (r.pos / 64) .ok = some t →
      exec (.kvRead port) s = .next (t.send port (kvDataMsg r (t.kvReadStatus r) []))) ∧
    (s.kvReadStatus r ≠ .ok → exec (.kvRead port) s =
      .next ((s.takeMsg port 2 m).send port (kvDataMsg r (s.kvReadStatus r) [])))) ∧
  (∀ s id r, s.up = true → s.att.reads.find? (fun q => q.sess == id) = some r →
    (s.port r.port).st = .up → (s.portPart r.port).isSome = true → let vc := if r.replyVc = 3 then 3 else 2
    ∃ u m, exec (.kvDataSend id) s = .next u ∧ u.sess = s.sess ∧ u.att.reads = listDropFirst (fun q => q == r) s.att.reads ∧
      ((u.port r.port).vc vc).egress = ((s.port r.port).vc vc).egress ++ [m] ∧ m.type = 3 ∧ byteAt m.body 0 = 4 ∧ byteAt m.body 2 = 0 ∧
      field m.body 4 4 = r.handle % 2 ^ 32 ∧ m.data = r.data)

/-- Q_SUBMIT is checked and queued, DEAL gives its pages to cores, the pages and merges run, the O_RETURN follows (05_attention.md: Queries and results; 05_attention.md: Where the work runs; 05_attention.md: Partials and the merge; 05_attention.md: Prefill-chunk attention). Clauses that the spec does not state rest on the model's choice in log entries 46, 47, 50, 51, 88. -/
def Obligations.AttentionIsDealtAndAnswered : Prop :=
  (∀ s port part m, let r := qMsgOf port 1 m
    s.up = true → s.headMsg port 1 4 = some m → s.portPart port = some part → (s.roster part).fixed = true →
    (∀ e, s.qCheck part (byteAt m.body 9 % 16) r = .error e → ∃ u, exec (.qSubmit port 1) s = .next u ∧ u.sess = s.sess ∧ u.att = s.att ∧
      u.ctr .attQReject part = s.ctr .attQReject part + 1 ∧
      ((s.port port).st = .up → ∃ a ∈ ((u.port port).vc 1).egress, a.type = 6 ∧ byteAt a.body 12 = e.code ∧ a.data = [])) ∧
    (∀ id, s.qCheck part (byteAt m.body 9 % 16) r = .ok id → ∃ u q, exec (.qSubmit port 1) s = .next u ∧ u.sess = s.sess ∧
      u.att.reqs = s.att.reqs ++ [q] ∧ q.handle = r.handle ∧ q.pos = r.pos ∧ q.layer = r.layer ∧ q.arrived = m.since.getD s.tick ∧
      q.groups = [(0, 1)] ∧ q.todo.map (·.block) = List.range ((r.pos + r.chunk + 63) / 64) ∧
      ∀ w ∈ q.todo, w.cluster = (s.locate ((s.getSess id).desc w.block)).cluster)) ∧
  (∀ s cl, s.up = true → s.tick % 16 ≠ 0 → exec (.deal cl) s = .next s) ∧
  (∀ s cl, let onPkg : QReq → AttUnit → Prop := fun r w => (s.locate ((s.getSess (hId r.handle)).desc w.block)).tier < 2
    s.up = true → s.tick % 16 = 0 → ∃ u, exec (.deal cl) s = .next u ∧ u.sess = s.sess ∧ u.fab = s.fab ∧
    (∀ r ∈ u.att.reqs, ∀ w ∈ r.todo, w.cluster = cl → ¬ onPkg r w) ∧
    (∀ n, (n < 8 * cl ∨ 8 * cl + 8 ≤ n) → tabGet [] u.att.decodeQ n = tabGet [] s.att.decodeQ n ∧
      tabGet [] u.att.prefillQ n = tabGet [] s.att.prefillQ n) ∧
    (∀ r ∈ s.att.reqs, ∀ w ∈ r.todo, w.cluster = cl → onPkg r w → ∃ k it, k < 8 ∧ it.req = r.id ∧ it.block = w.block ∧ it.row = w.row ∧
      it ∈ (if r.vc = 1 then tabGet [] u.att.decodeQ (8 * cl + k) else tabGet [] u.att.prefillQ (8 * cl + k)))) ∧
  (∀ s core it l r, let x := s.getSess (hId r.handle); let md := s.model x.part x.model
    s.up = true → tabGet [] s.att.decodeQ core = it :: l → s.att.reqs.find? (fun q => q.id == it.req) = some r →
    s.eventProg r.part 1 = none → s.stdReady ⟨core, InvClass.decode.ctx⟩ = true → (s.port r.port).st = .up → (s.portPart r.port).isSome = true → r.vc = 1 →
    (it.cont = false → it.row = 0 → it.rows = 1 → r.groups = [(0, 1)] → r.outs = [] → r.todo = [] → r.dealt = [(0, core)] → r.parts = [] →
      s.finishCluster r (core / 8) = core / 8 → r.wantLse = false → s.learning r = false →
      r.kept ≠ [] ∨ (s.popDecode core).walkFault (hId r.handle) it.block .ok = none →
      ∃ u a, exec (.decodeItem core .ok false) s = .next u ∧ (∀ q ∈ u.att.reqs, q.id ≠ r.id) ∧
        ((u.port r.port).vc 1).egress = ((s.port r.port).vc 1).egress ++ [a] ∧ a.type = 6 ∧ field a.body 0 4 = r.handle % 2 ^ 32 ∧
        byteAt a.body 12 = 0 ∧ a.data.length = 2 * md.qheads * md.headDim) ∧
    (∀ check, it.cont = false → (∀ q ∈ s.att.reqs, q.id = r.id → q = r) → r.kept = [] → check = .leaf ∨ check = .desc ∨ check = .page →
      (x.desc it.block).valid = true → ∃ u, exec (.decodeItem core check false) s = .next u ∧ (∀ q ∈ u.att.reqs, q.id ≠ r.id) ∧
      ∃ a ∈ ((u.port r.port).vc 1).egress, a.type = 6 ∧ field a.body 0 4 = r.handle % 2 ^ 32 ∧ byteAt a.body 12 = 0x18) ∧
    (it.cont = true → it.level = 8 → it.ref2 = 0 → it.row = 0 → r.groups = [(0, 1)] → r.outs = [] →
      it.cover = s.nodeTotal r 0 8 (s.nodeOf r.part 8 core) → s.finishCluster r (core / 8) = core / 8 → s.learning r = false →
      ∃ u a, exec (.mergeContinuation core) s = .next u ∧ (∀ q ∈ u.att.reqs, q.id ≠ r.id) ∧
        ((u.port r.port).vc 1).egress = ((s.port r.port).vc 1).egress ++ [a] ∧ a.type = 6 ∧ byteAt a.body 12 = 0)) ∧
  (∀ s core it l r check, let w := s.pwin r.part
    s.up = true → tabGet [] s.att.prefillQ core = it :: l → s.att.reqs.find? (fun q => q.id == it.req) = some r →
    (s.coreDecodes core = true ∨ s.beat.hold = true ∨ w.win ≠ .prefill ∨ w.d + w.f < s.beat.tick + s.prefillEst r it →
      ∀ late, exec (.prefillUnit core late check) s = .next s) ∧
    (s.coreDecodes core = false → s.beat.hold = false → s.beat.none_ = false → w.win = .prefill → r.vc ≠ 1 → r.late = false →
      s.beat.tick + s.prefillEst r it ≤ w.d + w.f → s.dieLost r.part = false → s.eventProg r.part 2 = none →
      s.stdReady ⟨core, InvClass.prefill.ctx⟩ = true →
      exec (.prefillUnit core true .ok) s = .next (s.bump .attPfAbort r.part) ∧
      (r.kept ≠ [] ∨ (s.popPrefill core).walkFault (hId r.handle) it.block .ok = none →
        ∃ u, exec (.prefillUnit core false .ok) s = .next u ∧ u.sess = s.sess ∧ ∀ i ∈ tabGet [] u.att.prefillQ core, i ∈ l)))

/-- LOGITS pieces make candidates, STENCIL_FETCH applies a mask, RANKED_RESULT draws and commits the token (07_sampling_and_stencils.md: LOGITS; 07_sampling_and_stencils.md: Ranking; 07_sampling_and_stencils.md: Sums and the draw; 07_sampling_and_stencils.md: Outcome of a step). Clauses that the spec does not state rest on the model's choice in log entries 42, 46, 84. -/
def Obligations.StepsAreSampledAndCommitted : Prop :=
  (∀ s port part m, let p := pieceOf m
    s.up = true → s.headMsg port 1 7 = some m → s.portPart port = some part → (s.roster part).fixed = true →
    (∀ e, s.logitsCheck part port p = .error e → ∃ u, exec (.logits port) s = .next u ∧
      (∀ n, (u.getSess n).toEntry = (s.getSess n).toEntry ∧ (u.getSess n).log = (s.getSess n).log) ∧
      u.ctr .emitLogitsReject part = s.ctr .emitLogitsReject part + 1 ∧ u.reg .emitLogitsLast part = p.handle + e.code * 2 ^ 32) ∧
    (∀ id st, s.logitsCheck part port p = .ok id → (s.getSess id).step = some st → s.maskAway (s.getSess id) = false →
      ∃ u, exec (.logits port) s = .next u ∧ (∀ n, n ≠ id → u.getSess n = s.getSess n) ∧ (u.getSess id).toEntry = (s.getSess id).toEntry ∧
        ∃ e, (u.getSess id).step = some { st with emit := e } ∧ e.got = st.emit.got + 1 ∧ e.total = st.emit.total + p.count ∧ e.port = port ∧
          e.complete = decide (p.ix + 1 = p.pieces) ∧ (∀ c ∈ st.emit.cands, c ∈ e.cands) ∧
          (∀ c ∈ e.cands, c ∈ st.emit.cands ∨ (p.base ≤ c.1 ∧ c.1 < p.base + p.count ∧
            s.allows (s.getSess id).part (s.getSess id).stencilSet (s.getSess id).stencilState c.1 = true))) ∧
    (∀ id st, s.logitsCheck part port p = .ok id → (s.getSess id).step = some st → s.maskAway (s.getSess id) = true →
      ∃ u e, exec (.logits port) s = .next u ∧ (u.getSess id).step = some { st with emit := e } ∧ e.got = st.emit.got + 1 ∧
        e.waitStencil = true ∧ id ∈ u.emit.fetch ∧
        (st.emit.waitStencil = false → u.ctr .emitStencilWait part = s.ctr .emitStencilWait part + 1))) ∧
  (∀ s id st, let x := s.getSess id
    s.up = true → id ∈ s.emit.fetch → x.step = some st → ∃ u e, exec (.stencilFetch id) s = .next u ∧ id ∉ u.emit.fetch ∧
      (∀ n, n ≠ id → u.getSess n = s.getSess n) ∧ u.getSess id = { x with step := some { st with emit := e } } ∧
      e = { st.emit with cands := st.emit.cands.filter (fun c => s.allows x.part x.stencilSet x.stencilState c.1) } ∧
      (∀ mk, s.maskOf x = some mk → sumOf (·.bytes) (tabGet [] s.emit.cache x.home) + mk.bytes ≤ 2097152 →
        mk ∈ tabGet [] u.emit.cache x.home)) ∧
  (∀ s id st g, let x := s.getSess id
    s.up = true → x.step = some st → x.open? = some g → st.emit.complete = true → st.committed = false → id ∉ s.emit.fetch →
    st.emit.ranked = none → st.emit.drawn = none → x.closeSerial = 0 → x.policy ≠ .cold →
    ((∃ k, k < 8 ∧ s.stdReady ⟨8 * x.home + k, InvClass.emit.ctx⟩ = false) → s.eventProg x.part 3 = none → exec (.rankedResult id) s = .next s) ∧
    ((∀ k, k < 8 → s.stdReady ⟨8 * x.home + k, InvClass.emit.ctx⟩ = true) →
    (x.cancelReq = true → (s.qs g.qk).en = false ∨ cplFree (s.qs g.qk) ≠ 0 → ∃ u, exec (.rankedResult id) s = .next u ∧ (u.getSess id).st = .idle ∧ (u.getSess id).lastStatus = 5 ∧
      (u.getSess id).log = x.log ∧ (u.getSess id).pend = x.pend ∧ (u.getSess id).maxnew = x.maxnew ∧
      ∀ c, s.cmd? g.serial = some c → Answered s u c .cancelled (handleOf id x) g.logged 0 0) ∧
    (x.cancelReq = false → st.profile.temp = 0 → st.profile.k ≠ 0 → st.profile.ends = [] → st.emit.accEnd = false → x.stopSet = 0 →
      2 ≤ x.maxnew → x.total + 1 ≠ 2097152 → x.st = .running → s.eventProg x.part 4 = none → s.logRoom id 1 = none → x.stageFull = false → st.emit.cands ≠ [] →
      ∃ u, exec (.rankedResult id) s = .next u ∧ (u.getSess id).st = .running ∧
        ((∃ t y, (t, y) ∈ st.emit.cands ∧ (∀ c ∈ st.emit.cands, composite c.1 c.2 ≤ composite t y) ∧
          (u.getSess id).log = x.log ++ [⟨t, 1⟩] ∧ (u.getSess id).pend = x.pend + 1 ∧ (u.getSess id).maxnew + 1 = x.maxnew ∧
          u.ctr .emitTokens x.part = s.ctr .emitTokens x.part + 1) ∨
         ((u.getSess id).log = x.log ∧ ∃ st', (u.getSess id).step = some st' ∧ st'.stall = some 3))) ∧
    (x.cancelReq = false → st.emit.cands = [] → s.deadTok x = 0 → ∃ u, exec (.rankedResult id) s = .next u ∧ (u.getSess id).log = x.log ∧
      (u.getSess id).pend = x.pend ∧ (((u.getSess id).st = .idle ∧ (u.getSess id).lastStatus = 3) ∨
        ((u.getSess id).st = x.st ∧ ∃ st', (u.getSess id).step = some st' ∧ st'.stall = some 3))))) ∧
  (∀ s id st, s.up = true → (s.getSess id).step = some st → st.emit.complete = false ∨ st.committed = true ∨ id ∈ s.emit.fetch →
    exec (.rankedResult id) s = .next s)

/-- FLOAT_UNIT starts, ends, repeats or releases; FLOAT_SWITCH moves the descriptor; TOKLOG_REMIRROR completes a rewrite (03_state_fabric.md: The float; 03_state_fabric.md: Placement rules; 06_beat_and_windows.md: Time gates and generation priority; 02_sessions.md: Token logs). Clauses that the spec does not state rest on the model's choice in log entries 44, 82. -/
def Obligations.FloatCopiesSwitchesAndReleases : Prop :=
  (∀ s part check f d pl s1, s.up = true → s.fab.float = [f] → f.part = part → f.running = false → f.copied = false → f.dst = none →
    f.kind ∉ ([.release, .remirror, .send] : List FKind) → s.quiesced part = false → s.moveSrc f = some d → s.moveHeld f = false →
    (f.onRec = true ∨ ((s.getSess f.sess).desc f.block).shared = false) → s.fab.chanWait = [] → s.moveDst f d = some (pl, s1) →
    let m := s.moveModel f
    let est := s.unitEst part (if f.units = 0 then m.hdrBytes else Nat.min m.pageBytes 0x40000) d.tier pl.tier
    let starts := s.bulkOpen part = true ∧ (s.bulkEndless = true ∨ s.beat.tick + est ≤ s.beat.period) ∧
      s.decodeOn (dieOf d.cluster) = false ∧ s.decodeOn (dieOf pl.cluster) = false
    ∃ u, exec (.floatUnit part check) s = .next u ∧ u.sess = s.sess ∧ u.dir = s.dir ∧
      (starts → u.fab.float = [{ f with dst := some pl, need := unitsOf m, running := true, until_ := s.tick + est, head := false }]) ∧
      (¬ starts → u = s)) ∧
  (∀ s part f d pl, s.up = true → s.fab.float = [f] → f.part = part → f.running = true → f.dst = some pl →
    f.kind ∉ ([.release, .remirror, .send] : List FKind) → s.quiesced part = false → s.moveSrc f = some d → s.moveHeld f = false →
    (f.onRec = true ∨ ((s.getSess f.sess).desc f.block).shared = false) → s.fab.chanWait = [] →
    (f.units + 1 < f.need → s.bulkOpen part = false → ∃ u, exec (.floatUnit part 0) s = .next u ∧
      u = { s with fab := u.fab } ∧ u.fab.float = [{ f with running := false, units := f.units + 1, copied := false }]) ∧
    (f.retried = false → ∃ u, exec (.floatUnit part 2) s = .next u ∧ u = { s with fab := u.fab } ∧
      u.fab.float = [{ f with dst := none, units := 0, running := false, copied := false, retried := true }]) ∧
    (∀ ch, s.chanFor f d = some ch → ∃ u, exec (.floatUnit part 3) s = .next u ∧
      u = { s with fab := { s.fab with float := [{ f with running := false }], chanWait := [part * 32 + ch] } })) ∧
  (∀ s part check f, let x := s.getSess f.sess
    s.up = true → s.fab.float = [f] → f.part = part → f.running = false → f.kind = .release → f.onRec = false →
    (s.quiesced part = false ∨ f.queue = .b) → x.st = .ended → s.referred f.sess = false →
    ∃ u, exec (.floatUnit part check) s = .next u ∧ (u.getSess f.sess).st = .free ∧ (u.getSess f.sess).gen = x.gen ∧
      (u.getSess f.sess).pages = [] ∧ (∀ n, n ≠ f.sess → u.getSess n = s.getSess n) ∧ f ∉ u.fab.float) ∧
  (∀ s part f pl, s.up = true → s.fab.float = [f] → f.part = part → f.running = false → f.copied = true → f.dst = some pl →
    s.quiesced part = false → s.reqBusy f = false →
    (∀ r, f.onRec = true → f.kind ∉ ([.release, .remirror, .send] : List FKind) → s.dirRec f.sess = r → r.st ≠ .free →
      ∃ u, exec (.floatSwitch part) s = .next u ∧ u.sess = s.sess ∧ u.fab.float = [] ∧
        u.dirRec f.sess = { r with tier := pl.tier, cluster := pl.cluster, hdrT := pl.hdrT, base := pl.base, hdr := pl.hdr } ∧
        (∀ k, k ≠ f.sess → u.dirRec k = s.dirRec k)) ∧
    (∀ x d, f.onRec = false → s.getSess f.sess = x → f.block < x.pages.length → x.desc f.block = d →
      let e : Desc := { d with tier := pl.tier, cluster := pl.cluster, hdrT := pl.hdrT, base := pl.base, hdr := pl.hdr }
      let y : Sess := { x with pages := x.pages.set f.block e }
      (f.kind ∈ ([.demote, .promote, .give] : List FKind) → ∃ u, exec (.floatSwitch part) s = .next u ∧
        u = { s with fab := u.fab, sess := u.sess } ∧ u.getSess f.sess = y ∧ u.fab.float = [] ∧
        (∀ n, n ≠ f.sess → u.getSess n = s.getSess n)) ∧
      (f.kind = .park → x.st = .moving → x.exporting = false → ∃ u, exec (.floatSwitch part) s = .next u ∧
        u = { s with fab := u.fab, sess := u.sess } ∧ u.getSess f.sess = { y with st := .parked, seq := (x.seq + 2) % 65536 } ∧
        u.fab.float = [] ∧ (∀ n, n ≠ f.sess → u.getSess n = s.getSess n)) ∧
      (f.kind = .revive → x.st = .reviving → x.held = none → x.heldCmd = false → x.policy ≠ .cold → y.length ≤ y.covered → ∃ u, exec (.floatSwitch part) s = .next u ∧
        u = { s with fab := u.fab, sess := u.sess } ∧ u.getSess f.sess = { y with st := .idle, seq := (x.seq + 2) % 65536 } ∧
        u.fab.float = [] ∧ (∀ n, n ≠ f.sess → u.getSess n = s.getSess n)))) ∧
  (∀ s id f pl, let x := s.getSess id
    s.up = true → s.fab.float = [f] → f.kind = .remirror → f.sess = id → f.running = false → f.copied = true → f.dst = some pl →
    ∃ u, exec (.toklogRemirror id) s = .next u ∧ (u.getSess id).log = x.log ∧ (u.getSess id).st = x.st ∧ (u.getSess id).pages = x.pages ∧
      (u.getSess id).priCl = x.priCl ∧ (u.getSess id).mirCl = x.mirCl ∧ (∀ n, n ≠ id → u.getSess n = s.getSess n) ∧
      (x.lostCopy = 1 → (u.getSess id).tokPri = 1 ∧ (u.getSess id).tokPtr = pl.base * 4096) ∧
      (x.lostCopy = 2 → (u.getSess id).tokMir = pl.tier ∧ (u.getSess id).mirrored = x.log.length) ∧
      (x.otherBad = [] → u.fab.float = [] ∧ (u.getSess id).degraded = false ∧ (u.getSess id).lostCopy = 0) ∧
      (x.otherBad ≠ [] → (u.getSess id).degraded = true ∧ (u.getSess id).lostCopy = 3 - x.lostCopy ∧
        ∃ g ∈ u.fab.float, g.kind = .remirror ∧ g.sess = id)) ∧
  (∀ s id copy seg read, let x := s.getSess id
    s.up = true → x.st ≠ .free →
    (read = [] ∨ logReadOk read = true → s.flushDue x = true → s.hasCopy id x 2 = true →
      ∃ u, exec (.mirrorFlush id copy seg read) s = .next u ∧ u = { s with sess := u.sess } ∧
        u.getSess id = { x with mirrored := x.log.length, mirrorBeat := 0 } ∧ (∀ n, n ≠ id → u.getSess n = s.getSess n)) ∧
    (read = [] ∨ logReadOk read = true → s.flushDue x = false ∨ s.hasCopy id x 2 = false → exec (.mirrorFlush id copy seg read) s = .next s) ∧
    (read ≠ [] → logReadOk read = false → x.lostCopy = 0 → ∃ u, exec (.mirrorFlush id copy seg read) s = .next u ∧
      (u.getSess id).degraded = true ∧ (u.getSess id).lostCopy = copy ∧ (u.getSess id).log = x.log ∧ (u.getSess id).st = x.st ∧
      (∀ n, n ≠ id → u.getSess n = s.getSess n) ∧ ∃ g ∈ u.fab.float, g.kind = .remirror ∧ g.sess = id))

/-- What the scraper may demote, whom it chooses by the victim key, how a choice is committed or dropped, what the primer revives (03_state_fabric.md: The scraper; 03_state_fabric.md: The primer; 03_state_fabric.md: Policy classes). Clauses that the spec does not state rest on the model's choice in log entries 44, 82, 86, 87. -/
def Obligations.ScraperAndPrimerChooseInOrder : Prop :=
  (∀ s part, s.up = true → ∃ u, exec (.scraperReclaimT0 part) s = .next u ∧ u.sess = s.sess ∧
    (∀ f ∈ u.fab.float, f ∉ s.fab.float → f.kind = .demote → f.onRec = false →
      ∃ x : Sess, (f.sess, x) ∈ s.sess ∧ (x.st = .idle ∨ x.st = .hot) ∧ x.policy ≠ .pinHot) ∧
    ((∀ cl ∈ s.clustersOf part, cl ∉ s.fab.scrap0 ∧ bits (s.reg .sfWmark part) 0 7 * t0Size ≤ 100 * s.t0Free cl) → u = s)) ∧
  (∀ s part cl, s.up = true → s.clustersOf part = [cl] → s.idleLearned cl = none → tabGet? s.fab.choice part = none →
    100 * s.t1Free cl < bits (s.reg .sfWmark part) 16 7 * t1Size →
    100 * (s.t1Free cl + s.freeing cl 1) < bits (s.reg .sfWmark part) 24 7 * t1Size →
    (∃ n y, (n, y) ∈ s.live part ∧ y.home = cl ∧ s.eligible y = true) →
    ∃ u id, ∃ x : Sess, exec (.scraperReclaimT1 part) s = .next u ∧ u = { s with fab := u.fab } ∧ u.fab.float = s.fab.float ∧
      (id, x) ∈ s.live part ∧ x.home = cl ∧ s.eligible x = true ∧ (x.st = .idle ∨ x.st = .hot) ∧ x.policy ≠ .pinHot ∧
      tabGet? u.fab.choice part = some (id, x.st) ∧
      (∀ n y, (n, y) ∈ s.live part → y.home = cl → s.eligible y = true → lexLt (s.victimKey n y) (s.victimKey id x) = false)) ∧
  (∀ s part, s.up = true → (∀ cl ∈ s.clustersOf part, cl ∉ s.fab.scrap1 ∧ bits (s.reg .sfWmark part) 16 7 * t1Size ≤ 100 * s.t1Free cl) →
    exec (.scraperReclaimT1 part) s = .next s) ∧
  (∀ s part id st, let x := s.getSess id
    s.up = true → tabGet? s.fab.choice part = some (id, st) →
    (x.st ≠ st → ∃ u, exec (.scraperCommit part) s = .next u ∧ u = { s with fab := u.fab } ∧ tabGet? u.fab.choice part = none ∧
      u.fab.float = s.fab.float) ∧
    (x.st = st → x.part = part → x.busyCmd = false → (∀ q ∈ s.dir.pubs, q.sess ≠ id) → ∃ u, exec (.scraperCommit part) s = .next u ∧
      tabGet? u.fab.choice part = none ∧ (∀ n, n ≠ id → u.getSess n = s.getSess n) ∧ (u.getSess id).log = x.log ∧
      (x.policy = .stripOk → (u.getSess id).st = .stripped ∧ (u.getSess id).pages = [] ∧ (u.getSess id).length = 0 ∧
        (u.getSess id).pend = x.length + x.pend) ∧
      (x.policy ≠ .stripOk → (u.getSess id).length = x.length ∧
        (∀ b, b < x.pages.length → (x.desc b).valid = true → (x.desc b).shared = false → (x.desc b).tier < 2 →
          (u.getSess id).st = .moving ∧ ∃ f ∈ u.fab.float, f.kind = .park ∧ f.queue = .b ∧ f.sess = id ∧ f.block = b) ∧
        ((∀ b, b < x.pages.length → (x.desc b).valid = true → (x.desc b).shared = false → 2 ≤ (x.desc b).tier) →
          (∀ f ∈ s.fab.float, f.sess = id → f.kind ≠ .copyExtend) → (u.getSess id).st = .parked)))) ∧
  (∀ s part, s.up = true → ((∀ x ∈ s.primerDue part, s.reviveFits x.1 = false) → exec (.primerQueueRevive part) s = .next s) ∧
    (∀ x b, (s.primerDue part).find? (fun y => s.reviveFits y.1) = some x → s.getSess x.1 = x.2 → (∀ f ∈ s.fab.float, f.sess ≠ x.1) →
      b < x.2.pages.length → (x.2.desc b).valid = true → (x.2.desc b).shared = false → 2 ≤ (x.2.desc b).tier →
      ∃ u, exec (.primerQueueRevive part) s = .next u ∧ u = { s with fab := u.fab, sess := u.sess } ∧
        u.getSess x.1 = { x.2 with st := .reviving, seq := (x.2.seq + 2) % 65536 } ∧ (∀ n, n ≠ x.1 → u.getSess n = s.getSess n) ∧
        ∃ f ∈ u.fab.float, f.kind = .revive ∧ f.queue = .c ∧ f.start = s.startBeat x.2 ∧ f.sess = x.1 ∧ f.block = b))

/-- INDEX_CREATE, INDEX_WRITE, INDEX_COMMIT, SEARCH, the channel scan, the merge, INDEX_COMPACT and INDEX_DROP (11_flash_retrieval.md: Indexes; 11_flash_retrieval.md: Writing; 11_flash_retrieval.md: Searching; 11_flash_retrieval.md: What a search sees; 11_flash_retrieval.md: Merge, duplicates and filters; 11_flash_retrieval.md: Compaction, drop and faults). Clauses that the spec does not state rest on the model's choice in log entries 58, 98. -/
def Obligations.IndexesAreWrittenSearchedAndDropped : Prop :=
  (∀ s qk c data, let n := field c.raw 32 4; let b := fit 0 n data; let ix := byteAt b 1; let dim := field b 4 2 % 2 ^ 13
    let cells := field b 8 4 % 2 ^ 17; let rm := field b 12 4 % 2 ^ 21; let dom := field b 6 2
    let sized := n ≠ 2 ^ 32 - 1 ∧ n ≤ c.len0 ∧ n = 64 + 8 * dim + 4 * cells * dim
    let good := byteAt b 0 % 16 = 1 ∧ field b 60 4 = crc32c (slice b 0 60) ∧ 1 ≤ ix ∧ ix ≤ 254 ∧ 64 ≤ dim ∧ dim ≤ 4096 ∧ dim % 64 = 0 ∧
      1 ≤ dom ∧ dom ≤ 65534 ∧ 1 ≤ cells ∧ cells ≤ 65536 ∧ rm ≤ 1048576 ∧ (∀ k, k < 2 * dim + cells * dim → isFinite (imgVal b k) = true) ∧
      (∀ k, k < dim → fLt (f32 0) (f32 (imgVal b (dim + k))) = true)
    Next s qk 0x40 c → s.isN = false →
    (sized → good → s.domBound c.part dom = true → (s.index c.part ix).st = .free → cmemPages cells dim rm ≤ s.cmemFree c.part →
      catalogBytes cells ≤ s.ixFree c.part → ∃ u, exec (.indexCreate qk data) s = .next u ∧
        u = { s with host := u.host, out := u.out, ret := u.ret } ∧ (∀ k, k ≠ c.part * 256 + ix → tabGet {} u.ret.ixs k = tabGet {} s.ret.ixs k) ∧
        u.index c.part ix = { st := .ready, metric := byteAt b 2 % 2, dim := dim, domain := dom, cells := cells, retireMax := rm, img := b } ∧
        Finished s u c .ok 0 0 0 0) ∧
    (¬ (sized ∧ good) → ∃ u, exec (.indexCreate qk data) s = .next u ∧ TurnedAway s u c .formatInvalid 0 0 0 0) ∧
    (sized → good → s.domBound c.part dom = true → (s.index c.part ix).st ≠ .free →
      ∃ u, exec (.indexCreate qk data) s = .next u ∧ TurnedAway s u c .badState 0 0 0 0)) ∧
  (∀ s qk c data, let x := s.index c.part (byteAt c.raw 36); let count := field c.raw 32 4; let len := count * (24 + 2 * x.dim)
    let ws := writeRecs x.dim count (fit 0 len data)
    Next s qk 0x41 c → s.isN = false → x.st = .ready ∨ x.st = .compacting → 1 ≤ count → count ≤ 65536 → c.len0 = len →
    (∀ w ∈ ws, w.op ≠ 3 ∧ (w.op ≠ 2 → w.vec.all isFinite = true)) →
    (x.accept s.free c.serial x.nextSeq count ws).bytes ≤ s.ixFree c.part + x.bytes →
    x.retire.length + (ws.filter (fun w => w.op != 0)).length ≤ x.retireMax →
    ∃ u l, exec (.indexWrite qk data) s = .next u ∧ u = { s with host := u.host, ret := u.ret, free := u.free } ∧
      (u.cmd? c.serial).isSome = true ∧ let y := u.index c.part (byteAt c.raw 36)
      y.pend = x.pend ++ l ∧ l.length = count ∧ (∀ (k : Nat) (p : IxPend), l[k]? = some p → p.seq = x.nextSeq + k ∧ p.serial = c.serial ∧
        (p.last = true ↔ k + 1 = count) ∧ (p.first = true ↔ k = 0)) ∧ y.nextSeq = x.nextSeq + count ∧ y.commit = x.commit ∧ y.recs = x.recs ∧
      y.retire = x.retire ∧ y.st = x.st ∧ (∀ k, k ≠ c.part * 256 + byteAt c.raw 36 → tabGet {} u.ret.ixs k = tabGet {} s.ret.ixs k)) ∧
  (∀ s part ix r rest, let x := s.index part ix; s.up = true → x.pend = r :: rest →
    (s.retireWaits part ix x r = true → exec (.indexCommit part ix 0) s = .next s) ∧
    (s.retireWaits part ix x r = false → ∃ u, exec (.indexCommit part ix 0) s = .next u ∧ u.index part ix =
        { x with pend := rest, commit := r.seq, before := if r.last then none else if r.first then some (x.commit, x.retire) else x.before,
                 recs := if r.op = 2 then x.recs else x.recs ++ [r.rec_],
                 retire := if r.op = 0 then x.retire else retireUpd x.retire r.rec_.id r.seq } ∧
      (∀ k, k ≠ part * 256 + ix → tabGet {} u.ret.ixs k = tabGet {} s.ret.ixs k) ∧ u.ret.searches = s.ret.searches ∧
      u = { s with ret := u.ret, ctrs := u.ctrs, host := u.host, out := u.out } ∧ (r.last = false → u.host = s.host ∧ u.out = s.out) ∧
      (∀ e, r.last = true → s.cmd? r.serial = some e → Finished s u e .ok 0 0 r.seq 0)) ∧
    (∀ e, s.cmd? r.serial = some e → ∃ u, exec (.indexCommit part ix 1) s = .next u ∧ Finished s u e .tierFault 0 0 0 0 ∧
      (u.index part ix).pend = x.pend.filter (fun p => p.serial != r.serial) ∧
      (x.before = none → (u.index part ix).recs = x.recs ∧ (u.index part ix).retire = x.retire) ∧
      (∀ b, x.before = some b → (u.index part ix).retire = b.2 ∧ ∀ o ∈ (u.index part ix).recs, o ∈ x.recs ∧ o.seq ≤ b.1))) ∧
  (∀ s qk c data, let r := c.raw; let x := s.index c.part (byteAt r 8); let fmt := byteAt r 9; let dom := field r 10 2; let k := field r 12 2
    let nprobe := field r 14 2; let rerank := field r 2 2; let qlen := x.dim * (if fmt = 0 then 2 else 4)
    let q := searchVals x.dim fmt (fit 0 qlen data)
    let good := 1 ≤ k ∧ k ≤ 1024 ∧ 1 ≤ nprobe ∧ nprobe ≤ Nat.min x.cells 1024 ∧ 1 ≤ rerank ∧ rerank ≤ 256 ∧ fmt < 2 ∧ c.len0 = qlen ∧
      q.all isFinite = true ∧ 32 + 32 * k ≤ field r 56 4
    Next s qk 0x42 c → s.isN = false →
    (x.st = .ready ∨ x.st = .compacting → s.domBound c.part dom = true → dom = x.domain →
      (good → ∃ u, exec (.search qk data) s = .next u ∧ u = { s with host := u.host, ret := u.ret, free := u.free } ∧
        (u.cmd? c.serial).isSome = true ∧ u.ret.ixs = s.ret.ixs ∧ ∃ w : Search, u.ret.searches = s.ret.searches ++ [w] ∧
        w.serial = c.serial ∧ w.part = c.part ∧ w.ix = byteAt r 8 ∧ w.snap = x.commit ∧ w.k = k ∧ w.rerank = rerank ∧ w.query = q ∧
        w.fmask = field r 32 8 ∧ w.fvalue = field r 40 8 ∧ w.channels = [] ∧ w.hits = [] ∧ w.lost = 0 ∧
        (∀ cell, cell ∈ w.cells ↔ cell ∈ (x.nearest s.free q).take nprobe)) ∧
      (¬ good → ∃ u, exec (.search qk data) s = .next u ∧ TurnedAway s u c .formatInvalid 0 0 0 0)) ∧
    (x.st = .ready ∨ x.st = .compacting → s.domBound c.part dom = false ∨ dom ≠ x.domain →
      ∃ u, exec (.search qk data) s = .next u ∧ TurnedAway s u c .domainDenied 0 0 0 0) ∧
    (x.st ≠ .ready → x.st ≠ .compacting → ∃ u, exec (.search qk data) s = .next u ∧ TurnedAway s u c .badState 0 0 0 0)) ∧
  (∀ s n ch q, let x := s.index q.part q.ix; s.up = true → s.ret.searches.find? (fun w => w.serial == n) = some q → ch < 32 →
    ch ∉ q.channels → ∃ u l, ∃ sc lost : Nat, exec (.searchChannelScan n ch [] false) s = .next u ∧
      u = { s with ret := u.ret, free := u.free } ∧ u.ret.ixs = s.ret.ixs ∧ u.ret.searches.find? (fun w => w.serial == n) = some
        { q with channels := ch :: q.channels, hits := q.hits ++ l, scanned := q.scanned + sc, lost := q.lost + lost } ∧
      l.length ≤ Nat.min q.rerank q.k ∧ (s.ckpt.lostChannels = [] → lost = 0) ∧
      ∀ h ∈ l, h.seq ≤ q.snap ∧ ∃ r ∈ x.recs, r.cell ∈ q.cells ∧ r.channel = ch ∧ x.visible r q.snap = true ∧ h.id = r.id ∧ h.seq = r.seq ∧
        h.attr = r.attr) ∧
  (∀ l, ((dedupHits l).map (·.id)).Nodup ∧ (∀ g ∈ dedupHits l, g ∈ l) ∧ ∀ h ∈ l, ∃ g ∈ dedupHits l, g.id = h.id ∧ h.seq ≤ g.seq) ∧
  (∀ s n q e, s.up = true → s.ret.searches.find? (fun w => w.serial == n) = some q → s.cmd? n = some e → 32 ≤ q.channels.length →
    s.ctxFree ⟨s.mergeCore q, 2⟩ = true →
    let uniq := dedupHits q.hits; let dups := q.hits.length - uniq.length
    let found := (best (fun (a b : IxHit) => distLt (a.dist, a.id) (b.dist, b.id)) q.k uniq).filter
      (fun h => Nat.land h.attr q.fmask == q.fvalue)
    ∃ u, exec (.retMerge n) s = .next u ∧ u = { s with ret := u.ret, ctrs := u.ctrs, host := u.host, out := u.out } ∧
      (∀ w ∈ u.ret.searches, w ∈ s.ret.searches ∧ w.serial ≠ n) ∧
      Out.hostWrite (fnPort (q.qk / 64)) q.outAddr (resultBytes q.snap dups q.scanned q.lost found) ∈ u.out ∧
      Finished s u e (if 0 < q.lost then .tierFault else if found.length < q.k then .short else .ok) 0
        (found.length + dups % 2 ^ 16 * 2 ^ 16) 0 0) ∧
  (∀ s qk c, let ix := byteAt c.raw 36; let x := s.index c.part ix; s.isN = false →
    (Next s qk 0x43 c →
      (x.st = .ready → ∃ u, exec (.indexCompact qk) s = .next u ∧ u = { s with host := u.host, ret := u.ret } ∧
        (u.cmd? c.serial).isSome = true ∧ u.ret.searches = s.ret.searches ∧
        u.index c.part ix = { x with st := .compacting, compactCell := 0, compactSerial := c.serial }) ∧
      (x.st ≠ .ready → ∃ u, exec (.indexCompact qk) s = .next u ∧ TurnedAway s u c .badState 0 0 0 0)) ∧
    (Next s qk 0x44 c →
      (x.st ≠ .free → x.st ≠ .dropping → x.pend = [] → x.compactSerial = 0 → ∃ u, exec (.indexDrop qk) s = .next u ∧
        u = { s with host := u.host, out := u.out, ret := u.ret } ∧ Finished s u c .ok 0 0 0 0 ∧ u.ret.searches = s.ret.searches ∧
        (s.ixSearches c.part ix = [] → u.index c.part ix = {}) ∧
        (s.ixSearches c.part ix ≠ [] → (u.index c.part ix).st = .dropping ∧ (u.index c.part ix).recs = x.recs)) ∧
      (x.st = .free ∨ x.st = .dropping → ∃ u, exec (.indexDrop qk) s = .next u ∧ TurnedAway s u c .badState 0 0 0 0))) ∧
  (∀ s part ix, let x := s.index part ix; s.up = true → x.st = .compacting →
    ∃ u, exec (.compactCellSwitch part ix false) s = .next u ∧ u = { s with host := u.host, out := u.out, ret := u.ret } ∧
      u.ret.searches = s.ret.searches ∧ let y := u.index part ix
      (∀ r ∈ x.recs, (r.cell ≠ x.compactCell ∨ x.visible r x.commit = true ∨ ∃ q ∈ s.ixSearches part ix, x.visible r q.snap = true) →
        ∃ o ∈ y.recs, o.id = r.id ∧ o.seq = r.seq ∧ o.attr = r.attr ∧ o.cell = r.cell ∧ o.ord = r.ord ∧ o.code = r.code) ∧
      (∀ o ∈ y.recs, ∃ r ∈ x.recs, o.id = r.id ∧ o.seq = r.seq ∧ o.attr = r.attr ∧ o.code = r.code) ∧ y.commit = x.commit ∧ y.pend = x.pend ∧
      (x.compactCell + 1 < x.cells → y.st = .compacting ∧ y.compactCell = x.compactCell + 1 ∧ u.host = s.host) ∧
      (x.cells ≤ x.compactCell + 1 → y.st = .ready ∧ ∀ e, s.cmd? x.compactSerial = some e → Finished s u e .ok 0 0 0 0)) ∧
  (∀ s qk c data, s.isN = true →
    (Next s qk 0x40 c → ∃ u, exec (.indexCreate qk data) s = .next u ∧ TurnedAway s u c .versionUnsupported 0 0 0 0) ∧
    (Next s qk 0x42 c → ∃ u, exec (.search qk data) s = .next u ∧ TurnedAway s u c .versionUnsupported 0 0 0 0))

/-- PART_CREATE, PART_DESTROY, their completions, PART_BIND, DOM_BIND, DOM_UNBIND and METER_REPORT (14_partitions_and_admission.md: Creating and destroying partitions; 14_partitions_and_admission.md: Binding; 14_partitions_and_admission.md: Metering). Clauses that the spec does not state rest on the model's choice in log entries 41, 59, 62. -/
def Obligations.PartitionsAreCreatedBoundAndDestroyed : Prop :=
  (∀ s qk c data row, let n := createFields c.raw data; let p := byteAt c.raw 12 % 16
    Next s qk 0x50 c →
    (s.part.composable = false → ∃ u, exec (.partCreate qk data) s = .next u ∧ TurnedAway s u c .badState 0 0 0 0) ∧
    (s.part.composable = true → s.partBusy = true → ∃ u, exec (.partCreate qk data) s = .next u ∧ TurnedAway s u c .locked 0 0 0 0) ∧
    (s.part.composable = true → s.partBusy = false → createOk c.raw n = false → ∃ u, exec (.partCreate qk data) s = .next u ∧ TurnedAway s u c .formatInvalid 0 0 0 0) ∧
    (s.part.composable = true → s.partBusy = false → createOk c.raw n = true → s.partExists p = false →
      (∀ k ∈ n.clusters, s.ckpt.lostDies.contains (dieOf k) = false) →
      (s.createOverlaps n = true → ∃ u, exec (.partCreate qk data) s = .next u ∧ TurnedAway s u c .noSpace 0 0 0 0) ∧
      (s.createOverlaps n = false → s.quotasFit [(16, n.t2Quota, n.ixQuota)] = true → s.rowPlace [] (128 * n.clusters.length) = some row →
        s.beat.none_ = false → s.beat.hold = false → ∃ u, exec (.partCreate qk data) s = .next u ∧ u = { s with host := u.host, part := u.part } ∧
          (u.cmd? c.serial).isSome = true ∧ u.part.creating = some (p, c.serial) ∧ (u.getPart p).st = .creating ∧
          (u.getPart p).clusters = n.clusters ∧ (u.getPart p).conf = n.conf ∧ (u.getPart p).rowBase = row ∧
          (∀ k, k ≠ p → u.getPart k = s.getPart k)))) ∧
  (∀ s p serial e, let x := s.getPart p; s.up = true → s.part.creating = some (p, serial) → s.cmd? serial = some e →
    (s.atTick0 = false → exec .partCreateCommit s = .next s) ∧
    (s.atTick0 = true → ∃ u, exec .partCreateCommit s = .next u ∧ Finished s u e .ok 0 0 0 0 ∧ u.part.creating = none ∧
      u.part.compNum = s.part.compNum + 1 ∧ (u.getPart p).st = .active ∧ (u.getPart p).clusters = x.clusters ∧
      (u.getPart p).comps = [{ num := s.part.compNum, startMs := s.mgmt.ms, clusters := x.clusters.length, conf := x.conf, pool := x.pool }] ∧
      (∀ k, k ≠ p → u.getPart k = s.getPart k) ∧ (x.conf = true → u.sec.jtagLock = true ∧ u.sec.jtagAttached = false) ∧ u.sess = s.sess)) ∧
  (∀ s qk c, let p := byteAt c.raw 12 % 16
    Next s qk 0x51 c →
    (s.part.composable = false → ∃ u, exec (.partDestroy qk) s = .next u ∧ TurnedAway s u c .badState 0 0 0 0) ∧
    (s.part.composable = true → s.partBusy = false → byteAt c.raw 12 < 16 → s.partLive p = true → s.live p = [] →
      (∀ f ∈ s.part.fns, f.2 ≠ p) → (∀ r ∈ s.dir.recs, r.2.part ≠ p) → ∃ u, exec (.partDestroy qk) s = .next u ∧
        u = { s with host := u.host, part := u.part, emit := u.emit, text := u.text, cores := u.cores } ∧ (u.cmd? c.serial).isSome = true ∧
        u.part.destroying = some (p, c.serial) ∧ (u.getPart p).st = .destroying ∧ (∀ k, k ≠ p → u.getPart k = s.getPart k) ∧
        (∀ k, k < 65536 → tabGet? u.emit.sets (p * 65536 + k) = none ∧ tabGet? u.text.stops (p * 65536 + k) = none))) ∧
  (∀ s p serial e, let x := s.getPart p; s.up = true → s.part.destroying = some (p, serial) → s.cmd? serial = some e →
    s.partIdle p = true → (∀ f ∈ s.part.fns, f.2 ≠ p) → (∀ f ∈ s.part.ports, f.2 ≠ p) →
    ∃ u, exec .partDestroyDone s = .next u ∧ Finished s u e .ok 0 0 0 0 ∧ u.part.destroying = none ∧ (u.getPart p).st = .none_ ∧
      (∀ k, k ≠ p → u.getPart k = s.getPart k) ∧ (∀ d, u.domBound p d = false) ∧ u.sess = s.sess ∧
      (∀ cl ∈ x.clusters, u.cwsOf cl = [] ∧ u.mergeOf cl = [] ∧ ∀ k, k < 8 → (u.core (8 * cl + k)).ldm = [])) ∧
  (∀ s qk c, let p := byteAt c.raw 12 % 16; let port := byteAt c.raw 14; let fn := port * 17 + 1 + byteAt c.raw 15
    let unbind := bitAt (byteAt c.raw 32) 0
    Next s qk 0x53 c → s.part.composable = true → byteAt c.raw 12 < 16 → byteAt c.raw 15 < 16 → byteAt c.raw 32 < 2 → s.partLive p = true →
    (byteAt c.raw 13 = 0 → port < 2 →
      (unbind = false → s.fnPart fn = none → s.partOnPort p port = false → ∃ u, exec (.partBind qk) s = .next u ∧
        u = { s with host := u.host, out := u.out, part := u.part } ∧ u.fnPart fn = some p ∧ (∀ g, g ≠ fn → u.fnPart g = s.fnPart g) ∧
        Finished s u c .ok 0 0 0 0) ∧
      (unbind = false → (s.fnPart fn).isSome = true ∨ s.partOnPort p port = true → ∃ u, exec (.partBind qk) s = .next u ∧ TurnedAway s u c .badState 0 0 0 0) ∧
      (unbind = true → s.fnPart fn ≠ some p → ∃ u, exec (.partBind qk) s = .next u ∧ TurnedAway s u c .badState 0 0 0 0) ∧
      (unbind = true → s.fnPart fn = some p → (∀ q ∈ s.host.qs, q.1 / 64 ≠ fn) → ∃ u, exec (.partBind qk) s = .next u ∧
        u = { s with host := u.host, out := u.out, part := u.part } ∧ u.fnPart fn = none ∧ (∀ g, g ≠ fn → u.fnPart g = s.fnPart g) ∧
        Finished s u c .ok 0 0 0 0)) ∧
    (byteAt c.raw 13 = 1 → port < 16 →
      (unbind = false → s.portPart port = none → (∃ k ∈ s.clustersOf p, dieOf k = port / 4) → ∃ u, exec (.partBind qk) s = .next u ∧
        u.portPart port = some p ∧ (∀ g, g ≠ port → u.portPart g = s.portPart g) ∧ Finished s u c .ok 0 0 0 0) ∧
      (unbind = false → (s.portPart port).isSome = true ∨ (∀ k ∈ s.clustersOf p, dieOf k ≠ port / 4) → ∃ u, exec (.partBind qk) s = .next u ∧
        TurnedAway s u c .badState 0 0 0 0) ∧
      (unbind = true → s.portPart port = some p → ∃ u, exec (.partBind qk) s = .next u ∧ u.portPart port = none ∧
        (∀ v, v ∈ ([1, 2, 3] : List Nat) → ((u.port port).vc v).inbox = [] ∧ ((u.port port).vc v).egress = []) ∧
        ((u.port port).vc 0).inbox = ((s.port port).vc 0).inbox ∧ (u.port port).st = (s.port port).st ∧ Finished s u c .ok 0 0 0 0))) ∧
  (∀ s qk c, let d := field c.raw 32 2; let x := s.getPart c.part; let mine := x.domBase ≤ d ∧ d < x.domBase + x.domCount
    (Next s qk 0x54 c →
      (d = 0 ∨ d = 0xFFFF → ∃ u, exec (.domBind qk) s = .next u ∧ TurnedAway s u c .formatInvalid 0 0 0 0) ∧
      (d ≠ 0 → d ≠ 0xFFFF → ¬ mine → ∃ u, exec (.domBind qk) s = .next u ∧ TurnedAway s u c .domainDenied 0 0 0 0) ∧
      (d ≠ 0 → d ≠ 0xFFFF → mine → s.domBound c.part d = false →
        (s.part.doms.filter (fun e => e.2.part == c.part)).length < 4096 → ∃ u, exec (.domBind qk) s = .next u ∧
          u = { s with host := u.host, out := u.out, part := u.part } ∧
          tabGet? u.part.doms d = some { part := c.part, aware := bitAt (byteAt c.raw 34) 0 } ∧
          (∀ k, k ≠ d → tabGet? u.part.doms k = tabGet? s.part.doms k) ∧ u.part.parts = s.part.parts ∧ Finished s u c .ok 0 0 0 0) ∧
      (d ≠ 0 → d ≠ 0xFFFF → mine → s.domBound c.part d = true → ∃ u, exec (.domBind qk) s = .next u ∧ TurnedAway s u c .badState 0 0 0 0)) ∧
    (Next s qk 0x55 c → d ≠ 0 → d ≠ 0xFFFF → mine →
      (s.domBound c.part d = true → (∀ y ∈ s.live c.part, y.2.domain ≠ d) → (∀ i ∈ s.indexes c.part, i.2.domain ≠ d) →
        ∃ u, exec (.domUnbind qk) s = .next u ∧ u = { s with host := u.host, dir := u.dir } ∧ (u.cmd? c.serial).isSome = true ∧
          u.dir.recs = s.dir.recs ∧ u.dir.slots = s.dir.slots ∧
          u.dir.retires = s.dir.retires ++ [{ serial := c.serial, part := c.part, domain := d, model := 255, sweepRow := some x.rowBase,
                                              arr := s.dir.clock }]) ∧
      (s.domBound c.part d = false ∨ (∃ y ∈ s.live c.part, y.2.domain = d) → ∃ u, exec (.domUnbind qk) s = .next u ∧ TurnedAway s u c .badState 0 0 0 0))) ∧
  (∀ s qk c k, let p := if s.part.composable = true ∧ fnIsPf0 (qk / 64) = true then byteAt c.raw 12 % 16 else c.part
    Next s qk 0x56 c →
    (c.len0 < 80 → ∃ u, exec (.meterReport qk) s = .next u ∧ TurnedAway s u c .formatInvalid 0 0 0 0) ∧
    (80 ≤ c.len0 → (s.getPart p).comp? (byteAt c.raw 32 % 16) = none → ∃ u, exec (.meterReport qk) s = .next u ∧ TurnedAway s u c .badState 0 0 0 0) ∧
    (80 ≤ c.len0 → (s.getPart p).comp? (byteAt c.raw 32 % 16) = some k → ∃ u, exec (.meterReport qk) s = .next u ∧ OnlyHost s u ∧
      Finished s u c .ok 0 0 0 0 ∧ Out.hostWrite (fnPort (qk / 64)) (field c.raw 16 8) (meterBytes p k) ∈ u.out ∧
      (meterBytes p k).length = 80))

/-- PART_RECOMPOSE is accepted, then Quiesce, Evacuate, Switch and Commit, each when it may (14_partitions_and_admission.md: Recomposition). Clauses that the spec does not state rest on the model's choice in log entries 40, 59. -/
def Obligations.RecompositionRunsInFourStages : Prop :=
  (∀ s qk c data, let n := byteAt c.raw 12; let recs := recompRecs n data; let mine := recs.filter s.concerned
    Next s qk 0x52 c →
    (s.part.composable = false → ∃ u, exec (.partRecompose qk data) s = .next u ∧ TurnedAway s u c .badState 0 0 0 0) ∧
    (s.part.composable = true → s.partBusy = true → ∃ u, exec (.partRecompose qk data) s = .next u ∧ TurnedAway s u c .locked 0 0 0 0) ∧
    (s.part.composable = true → s.partBusy = false →
      (n = 0 ∨ 16 < n ∨ c.len0 ≠ 16 * n ∨ recompRsv n data = false ∨ ∃ r ∈ recs, r.clusters.length = 0 ∨ 16 < r.clusters.length) →
      ∃ u, exec (.partRecompose qk data) s = .next u ∧ TurnedAway s u c .formatInvalid 0 0 0 0) ∧
    (s.part.composable = true → s.partBusy = false → 1 ≤ n → n ≤ 16 → c.len0 = 16 * n → recompRsv n data = true →
      (recs.map (·.part)).Nodup → (∀ r ∈ recs, 1 ≤ r.clusters.length ∧ r.clusters.length ≤ 16) → s.recompStateBad recs = false →
      (s.recompNoRoom mine = true → ∃ u, exec (.partRecompose qk data) s = .next u ∧ TurnedAway s u c .noSpace 0 0 0 0) ∧
      (s.recompNoRoom mine = false → s.beat.none_ = false → s.beat.hold = false → ∃ u, exec (.partRecompose qk data) s = .next u ∧
        u = { s with host := u.host, part := { s.part with recomp := some { serial := c.serial, recs := mine }, armed := false } } ∧
        (u.cmd? c.serial).isSome = true))) ∧
  (∀ s r, s.up = true → s.part.recomp = some r → r.stage = .accepted →
    (s.atTick0 = false → exec .recomposeQuiesce s = .next s) ∧
    (s.atTick0 = true → ∃ u, exec .recomposeQuiesce s = .next u ∧ u.part.recomp = some { r with stage := .quiesced } ∧
      u.part.parts = s.part.parts ∧ (∀ q ∈ r.recs, u.pwin q.part = {}) ∧
      (∀ k, (∀ q ∈ r.recs, q.part ≠ k) → u.pwin k = s.pwin k) ∧ u.host = s.host)) ∧
  (∀ s r q, let stay := (s.clustersOf q.part).filter q.clusters.contains
    s.up = true → s.part.recomp = some r → r.stage = .quiesced → r.recs = [q] →
    ((∃ x ∈ s.live q.part, x.2.step.isSome = true) → exec .recomposeEvacuate s = .next s) ∧
    ((∀ x ∈ s.live q.part, x.2.step = none) → stay ≠ [] →
      (∀ k ∈ s.leavingCores q, ∀ j, j < 4 → ((s.core k).ctx j).inv = none ∧ ((s.core k).ctx j).queue = []) →
      ∃ u, exec .recomposeEvacuate s = .next u ∧ u = { s with part := u.part, sess := u.sess, fab := u.fab, free := u.free } ∧
        u.part = { s.part with recomp := some { r with stage := .evacuated } } ∧
        (∀ x ∈ s.live q.part, (u.getSess x.1).home ∉ s.leaving q ∧ (u.getSess x.1).log = (s.getSess x.1).log ∧
          (u.getSess x.1).st = (s.getSess x.1).st ∧ (u.getSess x.1).length = (s.getSess x.1).length ∧
          ((s.getSess x.1).home ∉ s.leaving q → (u.getSess x.1).home = (s.getSess x.1).home)) ∧
        (∀ id, (∀ x ∈ s.live q.part, x.1 ≠ id) → u.getSess id = s.getSess id))) ∧
  (∀ s r q, let old := s.clustersOf q.part; s.up = true → s.part.recomp = some r → r.stage = .evacuated → r.recs = [q] → s.evacuated r = true →
    ∃ u, exec .recomposeSwitch s = .next u ∧ u.part.recomp = some { r with stage := .switched } ∧ u.part.armed = false ∧
      u.getPart q.part = { s.getPart q.part with clusters := q.clusters } ∧ (∀ k, k ≠ q.part → u.getPart k = s.getPart k) ∧
      (∀ cl, (cl ∈ old ∧ cl ∉ q.clusters) ∨ (cl ∈ q.clusters ∧ cl ∉ old) → u.cwsOf cl = [] ∧ u.mergeOf cl = [])) ∧
  (∀ s r q e, let x := s.getPart q.part; s.up = true → s.part.recomp = some r → r.stage = .switched → r.recs = [q] →
    s.cmd? r.serial = some e →
    (s.atTick0 = false → exec .recomposeCommit s = .next s) ∧
    (s.atTick0 = true → ∃ u, exec .recomposeCommit s = .next u ∧ Finished s u e .ok 0 0 0 0 ∧ u.part.recomp = none ∧
      u.part.compNum = s.part.compNum + 1 ∧ (u.getPart q.part).t2Quota = q.t2Quota ∧ (u.getPart q.part).ixQuota = q.ixQuota ∧
      (u.getPart q.part).pool = q.pool ∧ (u.getPart q.part).clusters = x.clusters ∧ (u.getPart q.part).conf = x.conf ∧
      (u.getPart q.part).comps = (⟨s.part.compNum, s.mgmt.ms, q.clusters.length, x.conf, q.pool, none, {}⟩ : CompRec) ::
        (x.seal s.mgmt.ms).comps ∧
      (∀ k, k ≠ q.part → u.getPart k = s.getPart k) ∧ u.sess = s.sess))

/-- CKPT_TAKE, the two trigger halves, the deferred start, the cut and the end of a checkpoint (16_checkpoint_and_recovery.md: Slots; 16_checkpoint_and_recovery.md: Triggers; 16_checkpoint_and_recovery.md: The cut; 16_checkpoint_and_recovery.md: CKPT_TAKE). Clauses that the spec does not state rest on the model's choice in log entries 57, 65. -/
def Obligations.CheckpointsAreTakenAndWritten : Prop :=
  (∀ s qk c, let n := byteAt c.raw 12; let content := byteAt c.raw 13
    Next s qk 0x60 c →
    (s.ckBusy = true → ∃ u, exec (.ckptTake qk) s = .next u ∧ TurnedAway s u c .locked 0 0 0 0) ∧
    (s.ckBusy = false → 2 < n ∨ 16 ≤ content ∨ contentOk content = false → ∃ u, exec (.ckptTake qk) s = .next u ∧ TurnedAway s u c .formatInvalid 0 0 0 0) ∧
    (s.ckBusy = false → content < 16 → contentOk content = true →
      (∀ k, (n < 2 ∧ k = n) ∨ (n = 2 ∧ s.ckSelect = some k) → (s.ckSlot k).en = true → ∃ u, exec (.ckptTake qk) s = .next u ∧
        u = { s with host := u.host, ckpt := u.ckpt } ∧ (u.cmd? c.serial).isSome = true ∧ u.ckpt.store = s.ckpt.store ∧
        u.ckpt.take = some { slot := k, serial := s.ckSerial, content := content, cmd := c.serial } ∧ u.ckpt.wslot = k) ∧
      ((n < 2 ∧ (s.ckSlot n).en = false) ∨ (n = 2 ∧ s.ckSelect = none) → ∃ u, exec (.ckptTake qk) s = .next u ∧ TurnedAway s u c .badState 0 0 0 0))) ∧
  (∀ (s : State) k, s.ckSelect = some k → (s.ckSlot k).en = true ∧ k < 2 ∧ ∀ n, s.ckNewest ≠ some (k, n)) ∧
  (∀ s i due, (i = .ckptTimerHalf ∧ due = halfDue s.ckpt.msHalf (bits (s.reg .ckptCfg 0) 0 16)) ∨
      (i = .ckptBeatHalf ∧ due = halfDue s.ckpt.beatHalf (bits (s.reg .ckptCfg 0) 16 16)) → s.up = true →
    (due = false → exec i s = .next s) ∧
    (∀ k, due = true → s.partBusy = false → s.ckSelect = some k → ∃ u, exec i s = .next u ∧ u = { s with ckpt := u.ckpt } ∧
      u.ckpt.take = some { slot := k, serial := s.ckSerial, content := bits (s.reg .ckptCfg 0) 32 4, now := s.beat.hold || s.beat.none_ } ∧
      u.ckpt.msHalf = 0 ∧ u.ckpt.beatHalf = 0) ∧
    (due = true → s.partBusy = false → s.ckSelect = none → ∃ u, exec i s = .next u ∧ u = { s with ckpt := u.ckpt, ctrs := u.ctrs } ∧
      u.ckpt.take = s.ckpt.take ∧ u.ctr .ckptSkipped 0 = s.ctr .ckptSkipped 0 + 1) ∧
    (due = true → s.partBusy = true → s.ckpt.deferred = false → ∃ u, exec i s = .next u ∧ u = { s with ckpt := u.ckpt, ctrs := u.ctrs } ∧
      u.ckpt.take = s.ckpt.take ∧ u.ckpt.deferred = true ∧ u.ctr .ckptDeferred 0 = s.ctr .ckptDeferred 0 + 1)) ∧
  (∀ s, let go := s.ckpt.deferred = true ∧ s.ckpt.armed = true ∧ s.partBusy = false ∧ s.beat.tick = 0; s.up = true →
    (¬ go → exec .ckptDeferredStart s = .next s) ∧
    (∀ k, go → s.ckSelect = some k → ∃ u, exec .ckptDeferredStart s = .next u ∧ u = { s with ckpt := u.ckpt } ∧ u.ckpt.deferred = false ∧
      u.ckpt.take = some { slot := k, serial := s.ckSerial, content := bits (s.reg .ckptCfg 0) 32 4, armed := true })) ∧
  (∀ s t, s.up = true → s.ckpt.take = some t → t.image = none →
    (t.now = false → ¬ (t.armed = true ∧ s.beat.tick = 0) → exec (.ckptCut []) s = .next s) ∧
    (t.now = true ∨ (t.armed = true ∧ s.beat.tick = 0) → ∃ u im, exec (.ckptCut []) s = .next u ∧
      u = { s with ckpt := u.ckpt, dir := u.dir } ∧ u.dir.slots = s.dir.slots ∧ (bitAt t.content 2 = false → bitAt t.content 3 = false → u.dir = s.dir) ∧
      u.ckpt.take = some { t with image := some im, reads := s.cutReads im } ∧ im = s.ckImage t.serial t.content ∧ im.beat = s.beat.num ∧ im.tick = s.beat.tick ∧
      (u.ckSlot t.slot).valid = false ∧
      tabGet? u.ckpt.store (s.ckSlot t.slot).place = none ∧
      (∀ k, k ≠ (s.ckSlot t.slot).place → tabGet? u.ckpt.store k = tabGet? s.ckpt.store k) ∧
      (t.cmd ≠ 0 → u.ckpt.msHalf = 0 ∧ u.ckpt.beatHalf = 0))) ∧
  (∀ s t im e, let w := im.written (Config.pick s.free); let x := s.ckSlot t.slot
    s.up = true → s.ckpt.take = some t → t.image = some im →
    (t.lost = false → t.reads ≠ [] → exec (.ckptDone false) s = .next s) ∧
    (t.lost = false → t.reads = [] → 4 * 2 ^ 20 + w.2.1 ≤ x.sizeMib * 2 ^ 20 → ∃ u, exec (.ckptDone false) s = .next u ∧
      u = { s with ckpt := u.ckpt, ctrs := u.ctrs, host := u.host, out := u.out, free := u.free } ∧ u.ckpt.take = none ∧
      (∃ n, tabGet? u.ckpt.store x.place = some { im with nonce := n }) ∧ (u.ckSlot t.slot).valid = true ∧ u.ckpt.known = some (t.slot, t.serial) ∧
      u.ckpt.lastStatus = 0 ∧ u.ckpt.lastBeat = im.beat ∧ u.ckpt.lastTick = im.tick ∧ u.ctr .ckptTaken 0 = s.ctr .ckptTaken 0 + 1 ∧
      (s.cmd? t.cmd = some e → Finished s u e .ok 0 w.1 im.beat w.2.2)) ∧
    (∀ fails, fails = true ∨ t.lost = true → ∃ u, exec (.ckptDone fails) s = .next u ∧
      u = { s with ckpt := u.ckpt, ctrs := u.ctrs, host := u.host, out := u.out, free := u.free, dir := u.dir, fab := u.fab } ∧
      (t.reads = [] → u.dir = s.dir ∧ u.fab = s.fab) ∧
      u.ckpt.take = none ∧ u.ckpt.store = s.ckpt.store ∧ u.ckpt.lastStatus = Status.tierFault.code ∧
      u.ctr .ckptFailed 0 = s.ctr .ckptFailed 0 + 1 ∧ (s.cmd? t.cmd = some e → Finished s u e .tierFault 0 0 0 0)))

/-- CKPT_RESTORE and its commit, and what the loss of a die, of a flash channel or of the hawk does (16_checkpoint_and_recovery.md: Restore; 16_checkpoint_and_recovery.md: Rebuilding a stripped session; 16_checkpoint_and_recovery.md: Failures and their reach; 16_checkpoint_and_recovery.md: When the hawk has failed). Clauses that the spec does not state rest on the model's choice in log entries 65, 66. -/
def Obligations.RestoresAndLosses : Prop :=
  (∀ s qk a b c, let n := byteAt c.raw 12; let code := if n = 0 then a else b
    Next s qk 0x61 c →
    (s.ckBusy = true → ∃ u, exec (.ckptRestore qk a b) s = .next u ∧ TurnedAway s u c .locked 0 0 0 0) ∧
    (s.ckBusy = false → 2 < n → ∃ u, exec (.ckptRestore qk a b) s = .next u ∧ TurnedAway s u c .formatInvalid 0 0 0 0) ∧
    (s.ckBusy = false → n ≤ 2 → s.restorable = false ∨ (n < 2 ∧ (s.ckSlot n).en = false) → ∃ u, exec (.ckptRestore qk a b) s = .next u ∧
      TurnedAway s u c .badState 0 0 0 0) ∧
    (∀ im, s.ckBusy = false → n < 2 → s.restorable = true → (s.ckSlot n).en = true → s.restoreCheck n code = .ok im →
      ∃ u, exec (.ckptRestore qk a b) s = .next u ∧ u = { s with host := u.host, ckpt := u.ckpt } ∧ (u.cmd? c.serial).isSome = true ∧
        u.ckpt.restore = some { slot := n, cmd := c.serial, image := im } ∧ u.ckpt.store = s.ckpt.store) ∧
    (∀ st, s.ckBusy = false → n < 2 → s.restorable = true → (s.ckSlot n).en = true → s.restoreCheck n code = .error st →
      ∃ u, exec (.ckptRestore qk a b) s = .next u ∧ u = { s with host := u.host, out := u.out, ckpt := u.ckpt, ctrs := u.ctrs } ∧
        u.ckpt.restore = s.ckpt.restore ∧ u.ckpt.lastStatus = st.code ∧ Finished s u c st 0 0 0 0) ∧
    (∀ ia ib im, s.ckBusy = false → n = 2 → s.restorable = true → s.ckHeld 0 = some ia → s.ckHeld 1 = some ib → ib.serial < ia.serial → a ≠ 1 →
      s.restoreCheck 0 a = .ok im → ∃ u, exec (.ckptRestore qk a b) s = .next u ∧ u = { s with host := u.host, ckpt := u.ckpt } ∧
        u.ckpt.restore = some { slot := 0, cmd := c.serial, image := im })) ∧
  (∀ s t t1 e, s.up = true → s.ckpt.restore = some t →
    (¬ (t.armed = true ∧ s.beat.tick = 0) → exec .restoreCommit s = .next s) ∧
    (t.armed = true → s.beat.tick = 0 → ({ s with ckpt := { s.ckpt with restore := none } } : State).restored t.image = some t1 →
      t1.cmd? t.cmd = some e → ∃ u, exec .restoreCommit s = .next u ∧
        u = { t1 with ckpt := u.ckpt, ctrs := u.ctrs, host := u.host, out := u.out } ∧ Finished t1 u e .ok 0 0 0 0 ∧
        u.ckpt.lastStatus = 0 ∧ u.ckpt.lastBeat = t.image.beat ∧ u.ckpt.lastTick = t.image.tick ∧
        u.ctr .ckptRestores 0 = t1.ctr .ckptRestores 0 + 1)) ∧
  (∀ (s : State) (im : CkImage) id x (t1 : State), im.sess = [(id, x)] → s.restored im = some t1 →
    (∀ st, x.flaw = some st → x.st ≠ .free → x.st ≠ .ended → x.st ≠ .faulted → (t1.getSess id).st = .faulted ∧
      (t1.getSess id).lastStatus = st.code ∧ (t1.getSess id).log = x.log) ∧
    (x.flaw = none →
    (x.st = .parked ∨ x.st = .reviving ∨ x.st = .moving ∨ (x.st.resident = true ∧ bitAt im.content 3 = false) →
      (t1.getSess id).st = .stripped ∧ (t1.getSess id).length = 0 ∧ (t1.getSess id).pend = x.length + x.pend ∧
      (t1.getSess id).log = x.log ∧ (t1.getSess id).gen = x.gen ∧ (t1.getSess id).coatPos = 0 ∧ (t1.getSess id).pages = []) ∧
    (x.st = .opened ∨ x.st = .stripped ∨ x.st = .faulted → (t1.getSess id).st = x.st ∧ (t1.getSess id).log = x.log ∧
      (t1.getSess id).wakeSet = false ∧ (t1.getSess id).seq = 0) ∧
    (x.st = .free ∨ x.st = .ended → t1.getSess id = { gen := x.gen }))) ∧
  (∀ s die, s.up = true → die < 4 →
    (die ∈ s.ckpt.lostDies → exec (.computeDieLost die) s = .next s) ∧
    (die ∉ s.ckpt.lostDies → ∃ u, exec (.computeDieLost die) s = .next u ∧ u.ckpt.lostDies = die :: s.ckpt.lostDies ∧
      (∀ cl, dieOf cl = die → u.t0Free cl = 0 ∧ u.t1Free cl = 0) ∧
      (∀ id x, s.sess = [(id, x)] → x.st = .idle → (∃ c ∈ s.clustersOf x.part, dieOf c = die) → x.lostCopy = 0 → dieOf x.priCl ≠ die →
        dieOf x.mirCl ≠ die → x.open? = none → x.held = none → x.closeSerial = 0 → s.dir.pubs = [] → s.dir.recs = [] → s.att.reqs = [] →
        s.link.ins = [] → s.cores.core = [] → (u.getSess id).st = .stripped ∧ (u.getSess id).log = x.log ∧ (u.getSess id).pages = [] ∧
          (u.getSess id).pend = x.length + x.pend ∧ (u.getSess id).lastStatus = Status.tierFault.code))) ∧
  (∀ s ch, s.up = true → ch < 32 →
    (s.isN = true ∨ ch ∈ s.ckpt.lostChannels → exec (.flashChannelLost ch) s = .next s) ∧
    (s.isN = false → ch ∉ s.ckpt.lostChannels → ∃ u, exec (.flashChannelLost ch) s = .next u ∧ u.ckpt.lostChannels = ch :: s.ckpt.lostChannels ∧
      (∀ id x d, s.sess = [(id, x)] → x.st = .parked → d ∈ x.pages → d.valid = true → d.shared = false → d.tier = 2 → x.mirrored = 0 →
        x.lostCopy = 0 → x.open? = none → x.held = none → x.closeSerial = 0 → s.dir.pubs = [] → s.dir.recs = [] → s.att.reqs = [] →
        s.link.ins = [] → (u.getSess id).st = .stripped ∧ (u.getSess id).log = x.log ∧ (u.getSess id).pend = x.length + x.pend))) ∧
  (∀ s, s.up = true → exec .hawkFailure s = .next { s with mgmt := { s.mgmt with failed := true } })

/-- BEAT and its tick 0, the roster, its windows, synthetic beats and holds, resynchronisation, BEAT_NOW, and the limits of a step (06_beat_and_windows.md: The beat; 06_beat_and_windows.md: Windows; 06_beat_and_windows.md: The step scheduler; 06_beat_and_windows.md: When beats stop; 06_beat_and_windows.md: Registers; 03_state_fabric.md: Stalls). Clauses that the spec does not state rest on the model's choice in log entries 25, 54, 83, 89, 90, 91. -/
def Obligations.BeatsTakeJumpAndHold : Prop :=
  (∀ s p, s.up = true → s.headMsg p 0 2 = none → exec (.beat p) s = .next s) ∧
  (∀ s p m, let b := m.body; let good := byteAt b 0 % 16 = 1 ∧ 10000 ≤ field b 16 3 ∧ field b 16 3 ≤ 16777214
    s.up = true → s.headMsg p 0 2 = some m → ∃ u, exec (.beat p) s = .next u ∧
      u = { s with beat := u.beat, link := u.link, ctrs := u.ctrs } ∧ (u.port p).vc0.inbox = (s.port p).vc0.inbox.drop 1 ∧
      (p = s.beat.port → good → u.ctrs = s.ctrs ∧ ∃ w : PendBeat, u.beat = { s.beat with pend := s.beat.pend ++ [w] } ∧
        w.num = field b 8 6 ∧ w.period = field b 16 3 ∧ w.phase0 = field b 20 2 ∧ w.left = field b 20 2) ∧
      (p = s.beat.port → ¬ good → u.beat = s.beat ∧ u.ctr .beatBad 0 = s.ctr .beatBad 0 + 1) ∧
      (p ≠ s.beat.port → u.beat = s.beat ∧ u.ctr .beatOtherport 0 = s.ctr .beatOtherport 0 + 1)) ∧
  (∀ s p, let r := s.roster p; let ids := r.steps.filter (fun id => (s.getSess id).step.isSome); s.up = true →
    (r.fixed = true → exec (.roster p) s = .next s) ∧
    (r.fixed = false → (s.upPorts p).Nodup → ∃ u, ∃ m : Msg, exec (.roster p) s = .next u ∧
      u = { s with beat := u.beat, link := u.link, emit := u.emit } ∧ u.beat = { s.beat with rosters := u.beat.rosters } ∧
      u.roster p = { steps := r.steps, fixed := true, ctrlEnd := [] } ∧ (∀ k, k ≠ p → u.roster k = s.roster k) ∧
      m.vc = 1 ∧ m.type = 3 ∧ byteAt m.body 0 = 1 ∧ field m.body 8 6 = s.beat.num % 2 ^ 48 ∧ field m.body 16 2 = ids.length % 2 ^ 16 ∧
      m.data = ids.flatMap s.rosterEntry ∧
      (∀ q ∈ s.upPorts p, (u.port q).vc1.egress =
        (s.port q).vc1.egress ++ r.ctrlEnd.map (fun h => ctrlMsg 1 0 Status.cancelled.code h (natLe 6 s.beat.num) []) ++ [m]) ∧
      (∀ q, q ∉ s.upPorts p → u.port q = s.port q))) ∧
  (∀ s b, s.up = true → s.beat.pend = [b] →
    let stale := s.beat.none_ = false ∧ s.beat.resyncPend = false ∧ b.num ≤ s.beat.num
    (stale → ∃ u, exec (.beatTick0 []) s = .next u ∧
      u = { s with tick := s.tick + b.left, beat := { s.beat with tick := Nat.min tickMax (s.beat.tick + b.left), pend := [] }, ctrs := u.ctrs } ∧
      u.ctr .beatStale 0 = s.ctr .beatStale 0 + 1) ∧
    (¬ stale → ∃ u, exec (.beatTick0 []) s = .next u ∧ u.tick = s.tick + b.left ∧ u.beat.num = b.num ∧ u.beat.period = b.period ∧
      u.beat.phase0 = b.phase0 ∧ u.beat.tick = 0 ∧ u.beat.pend = [] ∧ u.beat.none_ = false ∧ u.beat.hold = false ∧ u.beat.synth = false ∧
      u.beat.lost = false ∧ u.beat.resyncPend = false ∧ u.pending = s.pending ∧
      (∀ p ∈ s.partList, (s.quiescing p = true → u.pwin p = {}) ∧ (s.quiescing p = false →
        (u.pwin p).win = .decode ∧ ((u.pwin p).d, (u.pwin p).f) = winLens (s.reg .schedWin p) b.period)))) ∧
  (∀ win period, let l := winLens win period; l.1 + l.2 + Nat.min (bits win 48 16) (period / 2) ≤ period ∧ l.1 ≤ bits win 0 24 ∧
    l.2 ≤ bits win 24 24) ∧
  (∀ s loads, s.up = true → (s.beat.pend = [] → exec (.beatTick0 loads) s = .next s) ∧
    ((∀ e ∈ loads, entryFlaw e.2 = none) → exec (.beatTick0 loads) s = exec (.beatTick0 []) s) ∧
    (∀ id w st b, loads = [(id, w)] → entryFlaw w = some st → s.beat.pend = [b] → s.beat.none_ = false → s.beat.resyncPend = false →
      b.num ≤ s.beat.num → (s.getSess id).st ≠ .free → (s.getSess id).st ≠ .ended → (s.getSess id).st ≠ .faulted →
      ∃ u, exec (.beatTick0 loads) s = .next u ∧ (u.getSess id).st = .faulted ∧ (u.getSess id).lastStatus = st.code ∧
        (u.getSess id).open? = none)) ∧
  (∀ s p, let w := s.pwin p; s.up = true →
    (w.win ≠ .decode ∨ w.f = 0 → exec (.prefillWindowOpen p) s = .next s) ∧
    (w.win = .decode → w.f ≠ 0 → s.beat.tick ≤ w.d → w.d ≤ tickMax → ∃ u, exec (.prefillWindowOpen p) s = .next u ∧
      u = { s with tick := u.tick, beat := u.beat, cores := u.cores, ctrs := u.ctrs } ∧ u.beat.tick = w.d ∧ u.beat.num = s.beat.num ∧
      (u.pwin p).win = .prefill ∧ (u.pwin p).d = w.d ∧ (u.pwin p).f = w.f ∧ (∀ k, k ≠ p → u.pwin k = s.pwin k)) ∧
    (w.win = .bulk ∨ (w.win = .decode ∧ w.f ≠ 0) → exec (.bulkWindowOpen p) s = .next s) ∧
    (w.win = .prefill ∨ (w.win = .decode ∧ w.f = 0) → s.beat.tick ≤ w.d + w.f → w.d + w.f ≤ tickMax →
      ∃ u, exec (.bulkWindowOpen p) s = .next u ∧ u = { s with tick := u.tick, beat := u.beat, cores := u.cores, ctrs := u.ctrs, fab := u.fab } ∧
      u.beat.tick = w.d + w.f ∧ u.beat.num = s.beat.num ∧ (u.pwin p).win = .bulk ∧ (u.pwin p).d = w.d ∧ (u.pwin p).f = w.f ∧
      (∀ k, k ≠ p → u.pwin k = s.pwin k))) ∧
  (∀ s, s.up = true → let idle := s.beat.none_ = true ∨ s.beat.hold = true ∨ s.beat.pend ≠ []
    (idle ∨ 8 ≤ s.beat.synthRun → exec .syntheticBeat s = .next s) ∧
    (¬ idle → s.beat.synthRun < 8 → ∃ u, exec .syntheticBeat s = .next u ∧ u.beat.num = (s.beat.num + 1) % 2 ^ 48 ∧ u.beat.synth = true ∧
      u.beat.lost = true ∧ u.beat.tick = 0 ∧ u.beat.period = s.beat.period ∧ u.beat.synthRun = s.beat.synthRun + 1) ∧
    (idle ∨ s.beat.synthRun < 8 → exec .beatHold s = .next s) ∧
    (¬ idle → 8 ≤ s.beat.synthRun → ∃ u, exec .beatHold s = .next u ∧ u.beat.hold = true ∧ u.beat.num = s.beat.num ∧
      (∀ p ∈ s.partList, u.pwin p = {}))) ∧
  (∀ s fn, s.up = true →
    exec (.resync fn) s = .next (if fn = 0 then { s with beat := { s.beat with resyncWorb := true, resyncPend := true } } else s) ∧
    (fnIsPf0 fn = true ∨ (s.fnPart fn).isSome = true → exec (.beatNowRead fn) s = .next { s with
      beat := { s.beat with latched := s.beat.tick },
      out := .regRead fn 0xA00000 (s.beat.num + b2n s.beat.synth * 2 ^ 48 + b2n s.beat.lost * 2 ^ 49 + b2n s.beat.hold * 2 ^ 50 +
        b2n s.beat.none_ * 2 ^ 51) :: s.out }) ∧
    (fnIsPf0 fn = false → s.fnPart fn = none → exec (.beatNowRead fn) s =
      .next { s.bump .secDenied fn with out := .regRead fn 0xA00000 0 :: s.out })) ∧
  (∀ s id, let x := s.getSess id; s.up = true →
    ((∀ st, x.step = some st → s.stallOver x st = false) → exec (.stallTimeout id) s = .next s) ∧
    ((∀ st, x.step = some st → s.carryOver id x st = false) → exec (.carryLimit id) s = .next s) ∧
    (∀ st i, x.step = some st → (i = .stallTimeout id ∧ s.stallOver x st = true) ∨ (i = .carryLimit id ∧ s.carryOver id x st = true) →
      x.cancelReq = false → x.closeSerial = 0 → x.policy ≠ .cold →
      ∃ u, exec i s = .next u ∧ (u.getSess id).st = .idle ∧ (u.getSess id).step = none ∧
        (u.getSess id).lastStatus = Status.stallTimeout.code ∧ (u.getSess id).open? = none ∧ (u.getSess id).length = x.length ∧
        (u.getSess id).pend = x.pend ∧ (u.getSess id).log = x.log ∧ (∀ k, k ≠ id → u.getSess k = s.getSess k)))

/-- PHY_UP, PHY_DOWN, the HELLO handshake, HELLO_RESEND and LINK_CFG: port states, what is dropped, what is sent (13_cunis_link.md: HELLO and port states; 13_cunis_link.md: Registers). Clauses that the spec does not state rest on the model's choice in log entries 70, 71. -/
def Obligations.PortsComeUpAndGoDown : Prop :=
  (∀ s p, let x := s.port p; s.up = true → p < 16 →
    (x.phyUp = true → exec (.phyUp p) s = .next s) ∧
    (x.phyUp = false → x.en = false → ∃ u, exec (.phyUp p) s = .next u ∧ u = { s with link := u.link } ∧ u.port p = { x with phyUp := true } ∧
      (∀ k, k ≠ p → u.port k = s.port k)) ∧
    (x.phyUp = false → x.en = true → ∃ u, ∃ m : Msg, exec (.phyUp p) s = .next u ∧ u = { s with link := u.link } ∧ (u.port p).st = .hello ∧
      (u.port p).phyUp = true ∧ (u.port p).vc0.egress = x.vc0.egress ++ [m] ∧ m.type = 0 ∧ bitAt (byteAt m.body 3) 0 = false ∧
      byteAt m.body 1 = 0x11 ∧ byteAt m.body 5 = p ∧ (∀ k, k ≠ p → u.port k = s.port k)) ∧
    (x.phyUp = true → ∃ u, exec (.phyDown p) s = .next u ∧ (u.port p).st = .down ∧ (u.port p).phyUp = false ∧ (u.port p).vc0.egress = [] ∧
      (u.port p).vc1.egress = [] ∧ (u.port p).vc2.egress = [] ∧ (u.port p).vc3.egress = [] ∧ (u.port p).vc1.inbox = x.vc1.inbox ∧
      u.ctr .txDrop p = s.ctr .txDrop p + BitVec.ofNat 64 (if x.st = .up then x.vc0.egress.length + x.vc1.egress.length +
        x.vc2.egress.length + x.vc3.egress.length else 0) ∧
      (∀ k, k ≠ p → u.port k = s.port k)) ∧
    (x.phyUp = false → exec (.phyDown p) s = .next s)) ∧
  (∀ s p m, let x := s.port p; let b := m.body; let ack := bitAt (byteAt b 3) 0; let agreed := Nat.min (byteAt b 1) 0x11
    s.up = true → p < 16 → s.headMsg p 0 0 = some m →
    (byteAt b 4 = 0 → x.st = .hello ∨ x.st = .refused → s.helloRefusal p agreed (bits (byteAt b 3) 1 3) (field b 16 4) = none →
      ∃ u, ∃ a : Msg, exec (.hello p) s = .next u ∧ a.type = 0 ∧ bitAt (byteAt a.body 3) 0 = true ∧ byteAt a.body 2 = agreed ∧
        byteAt a.body 4 = 0 ∧ (u.port p).ver = agreed ∧ (u.port p).ackSent = true ∧ (u.port p).peerInst = field b 20 4 ∧
        (u.port p).vc0.inbox = x.vc0.inbox.drop 1 ∧
        (ack = false → (u.port p).st = .hello ∧ (u.port p).vc0.egress = x.vc0.egress ++ [a]) ∧
        (ack = true → byteAt b 2 = agreed → (u.port p).st = .up ∧ (u.port p).feat = Nat.land x.ownFeat (field b 8 8) ∧
          a ∈ (u.port p).vc0.egress ∧ (∀ k, k < 4 → ((u.port p).vc k).credit = field b (24 + 2 * k) 2 ∧ ((u.port p).vc k).cumOut = 0))) ∧
    (∀ st, byteAt b 4 = 0 → x.st = .hello ∨ x.st = .refused → s.helloRefusal p agreed (bits (byteAt b 3) 1 3) (field b 16 4) = some st →
      ∃ u, ∃ a : Msg, exec (.hello p) s = .next u ∧ (u.port p).st = .refused ∧ (u.port p).refusal = st.code ∧
        (u.port p).vc0.egress = [a] ∧ a.type = 0 ∧ byteAt a.body 4 = st.code ∧ u.ctr .helloRefused p = s.ctr .helloRefused p + 1) ∧
    (x.st = .down → ∃ u, exec (.hello p) s = .next u ∧ u = { s with link := u.link } ∧ (u.port p).st = .down ∧
      (u.port p).vc0.inbox = x.vc0.inbox.drop 1) ∧
    (byteAt b 4 ≠ 0 → x.st ≠ .down → ∃ u, exec (.hello p) s = .next u ∧ (u.port p).st = .refused ∧ (u.port p).refusal = byteAt b 4 ∧
      u.ctr .helloRefused p = s.ctr .helloRefused p + 1) ∧
    (byteAt b 4 = 0 → x.st = .up → ack = true → x.peerInst = field b 20 4 → ∃ u, exec (.hello p) s = .next u ∧ u = { s with link := u.link } ∧
      (u.port p).st = .up ∧ (∀ k, k < 4 → ((u.port p).vc k).credit = (x.vc k).credit ∧ ((u.port p).vc k).egress = (x.vc k).egress))) ∧
  (∀ s p, let x := s.port p; s.up = true → p < 16 →
    (x.st ≠ .hello → exec (.helloResend p) s = .next s) ∧
    (x.st = .hello → ∃ u, ∃ a : Msg, exec (.helloResend p) s = .next u ∧ u.tick = s.tick + (x.helloTick + 100000 - s.tick) ∧
      (u.port p).helloTick = u.tick ∧ (u.port p).st = .hello ∧ (u.port p).vc0.egress = x.vc0.egress ++ [a] ∧ a.type = 0 ∧
      bitAt (byteAt a.body 3) 0 = x.ackSent)) ∧
  (∀ s fn p v i, i ∈ ([.linkRestart fn p v, .linkEn fn p v, .linkFraming fn p v] : List Instr) → s.up = true → s.bound fn = true → fn ≠ 0 →
    exec i s = .next s) ∧
  (∀ s p v, let x := s.port p; s.up = true → s.bound 0 = true → p < 16 →
    (bitAt v 2 = false → ∃ u, exec (.linkRestart 0 p v) s = .next u ∧ u = { s with link := u.link } ∧ u.port p = { x with restartWorb := false }) ∧
    (bitAt v 2 = true → x.st ≠ .down → x.en = true → x.phyUp = true → ∃ u, ∃ a : Msg, exec (.linkRestart 0 p v) s = .next u ∧
      (u.port p).st = .hello ∧ (u.port p).restartWorb = true ∧ (u.port p).vc0.egress = [a] ∧ a.type = 0 ∧ (u.port p).vc1.egress = [] ∧
      (u.port p).vc3.egress = []) ∧
    (bitAt v 0 = x.en → exec (.linkEn 0 p v) s = .next s) ∧
    (bitAt v 0 = false → x.en = true → ∃ u, exec (.linkEn 0 p v) s = .next u ∧ (u.port p).en = false ∧ (u.port p).st = .down ∧
      (u.port p).phyUp = x.phyUp ∧ (u.port p).vc0.egress = []) ∧
    (bitAt v 0 = true → x.en = false → x.phyUp = true → ∃ u, exec (.linkEn 0 p v) s = .next u ∧ (u.port p).en = true ∧ (u.port p).st = .hello) ∧
    (bitAt v 1 = x.framing → exec (.linkFraming 0 p v) s = .next s) ∧
    (bitAt v 1 ≠ x.framing → ∃ u, exec (.linkFraming 0 p v) s = .next u ∧ (u.port p).framing = bitAt v 1 ∧
      (u.port p).st = (if x.en = true ∧ x.phyUp = true then .hello else .down) ∧ (u.port p).vc1.egress = []))

/-- RX_FRAME, CREDIT, CREDIT_SEND and EGRESS_FRAME: what is counted, what arrives, what leaves and under which conditions (13_cunis_link.md: Receive checks and dropped messages; 13_cunis_link.md: Virtual channels, buffers and credits; 13_cunis_link.md: Native framing; 06_beat_and_windows.md: Time gates and generation priority). Clauses that the spec does not state rest on the model's choice in log entries 29, 69, 71, 72, 96. -/
def Obligations.FramesCarryMessagesUnderCredit : Prop :=
  (∀ s p n f, s.up = true →
    (16 ≤ p ∨ (s.port p).phyUp = false → ∀ bad, exec (.rxFrame p n bad f) s = .next s) ∧
    (p < 16 → (s.port p).phyUp = true →
      (∃ u, exec (.rxFrame p n true f) s = .next u ∧ u = { s with ctrs := u.ctrs } ∧ u.ctr .rxFecUncorr p = s.ctr .rxFecUncorr p + 1 ∧
        u.ctr .rxFecCorr p = s.ctr .rxFecCorr p + BitVec.ofNat 64 n) ∧
      ((s.port p).framing = false → f.length < 18 ∨ field f (f.length - 4) 4 ≠ crc32 (f.take (f.length - 4)) →
        ∃ u, exec (.rxFrame p n false f) s = .next u ∧ u = { s with ctrs := u.ctrs } ∧ u.ctr .rxFcs p = s.ctr .rxFcs p + 1) ∧
      ((s.port p).framing = true → f.length = 256 → field f 6 2 ≠ crc16 (f.take 6) →
        ∃ u, exec (.rxFrame p n false f) s = .next u ∧ u = { s with ctrs := u.ctrs } ∧ u.ctr .rxHdrCrc p = s.ctr .rxHdrCrc p + 1) ∧
      ((s.port p).framing = true → f.length = 256 → field f 6 2 = crc16 (f.take 6) → byteAt f 0 < 32 → 16 ≤ byteAt f 0 → field f 4 2 = 0 →
        ∃ u, exec (.rxFrame p n false f) s = .next u ∧ u = { s with ctrs := u.ctrs }) ∧
      (let b := slice f 8 48; let v := (s.port p).vc0
       (s.port p).framing = true → (s.port p).st = .up → f.length = 256 → field f 6 2 = crc16 (f.take 6) → byteAt f 0 = 12 → byteAt f 1 = 48 →
        field f 4 2 = 0 → field f 2 2 = v.fseqIn % 2 ^ 16 → v.part_ = [] → field b 12 4 = crc32c (b.take 12) → byteAt b 0 = 0x12 →
        byteAt b 1 % 4 = 0 → msgLen b = 32 →
        ∃ u, exec (.rxFrame p n false f) s = .next u ∧ u = { s with link := u.link, ctrs := u.ctrs } ∧
          (u.port p).vc0.inbox = v.inbox ++ [{ vc := 0, type := 2, body := slice b 16 32, data := [], cost := v.partCost, since := some s.tick }] ∧
          (u.port p).vc0.used = v.used ∧ (u.port p).vc1 = (s.port p).vc1 ∧ u.ctr .rxMsgs p = s.ctr .rxMsgs p + 1 ∧
          (∀ k, k ≠ p → u.port k = s.port k)))) ∧
  (∀ s p m, s.up = true →
    (s.headMsg p 0 1 = some m → ∃ u, exec (.credit p) s = .next u ∧ u = { s with link := u.link } ∧
      (u.port p).vc0.inbox = (s.port p).vc0.inbox.drop 1 ∧ (∀ k, k ≠ p → u.port k = s.port k) ∧
      ∀ k, k < 4 → ((u.port p).vc k).cumPeer = field m.body (4 + 4 * k) 4 ∧ ((u.port p).vc k).credit = ((s.port p).vc k).credit +
        (field m.body (4 + 4 * k) 4 + 2 ^ 32 - ((s.port p).vc k).cumPeer) % 2 ^ 32) ∧
    (s.headMsg p 0 1 = none → exec (.credit p) s = .next s)) ∧
  (∀ s p k, let v := (s.port p).vc k; s.up = true →
    (16 ≤ p ∨ 4 ≤ k ∨ (s.port p).st ≠ .up ∨ v.freed = 0 → exec (.creditSend p k) s = .next s) ∧
    (p < 16 → k < 4 → (s.port p).st = .up → v.freed ≠ 0 → ∃ u, ∃ a : Msg, exec (.creditSend p k) s = .next u ∧
      (u.port p).vc0.egress = (s.port p).vc0.egress ++ [a] ∧ a.type = 1 ∧ (u.port p).creditTick = u.tick ∧
      (s.port p).creditTick + 64 ≤ u.tick ∧ (v.freed < 8 → v.freedTick + 10000 ≤ u.tick) ∧
      ∀ j, j < 4 → ((u.port p).vc j).freed = 0 ∧
        ((u.port p).vc j).back = (((s.port p).vc j).back + ((s.port p).vc j).freed) % 2 ^ 32 ∧
        field a.body (4 + 4 * j) 4 = ((u.port p).vc j).back)) ∧
  (∀ s p, s.up = true → let x := s.port p
    (16 ≤ p ∨ x.st = .down → exec (.egressFrame p) s = .next s) ∧
    (x.vc0.egress = [] → x.vc1.egress = [] → x.vc2.egress = [] → x.vc3.egress = [] →
      (x.framing = false → exec (.egressFrame p) s = .next s) ∧
      (p < 16 → x.st ≠ .down → x.framing = true →
        exec (.egressFrame p) s = .next { s with out := .frame p (idleFlit s.drawn) :: s.out, free := s.free + 1 })) ∧
    (∀ y, let f := idleFlit y; f.length = 256 ∧ 16 ≤ byteAt f 0 ∧ byteAt f 0 < 32 ∧ field f 4 2 = 0 ∧ field f 6 2 = crc16 (f.take 6)) ∧
    (∀ m rest, let f := s.nextFrame p 0 m
      p < 16 → x.st ≠ .down → x.vc0.egress = m :: rest → m.type < 2 → m.since = none → f.last = true → ∃ u, exec (.egressFrame p) s = .next u ∧
        u = { s with link := u.link, ctrs := u.ctrs, out := u.out } ∧ u.out = .frame p f.data :: s.out ∧ (u.port p).vc0.egress = rest ∧
        (u.port p).vc0.credit = x.vc0.credit ∧ (u.port p).vc1 = x.vc1 ∧ u.ctr .txMsgs p = s.ctr .txMsgs p + 1 ∧
        (∀ k, k ≠ p → u.port k = s.port k)) ∧
    (∀ m, let f := s.nextFrame p 1 m
      p < 16 → x.st ≠ .down → x.vc0.egress = [] → x.vc1.egress = [m] → x.vc2.egress = [] → x.vc3.egress = [] →
      (x.vc1.credit < f.cost → m.waited = false → ∃ u, exec (.egressFrame p) s = .next u ∧
        u.out = (if x.framing = true then .frame p (idleFlit s.drawn) :: s.out else s.out) ∧ u.ctr .txCreditWait p = s.ctr .txCreditWait p + 1 ∧ (u.port p).vc1.egress = [{ m with waited := true }] ∧
        (u.port p).vc1.credit = x.vc1.credit) ∧
      (f.cost ≤ x.vc1.credit → ∃ u, exec (.egressFrame p) s = .next u ∧ Out.frame p f.data ∈ u.out ∧
        (u.port p).vc1.credit = x.vc1.credit - f.cost)) ∧
    (∀ m part, p < 16 → x.st ≠ .down → x.vc0.egress = [] → x.vc1.egress = [] → x.vc2.egress = [] → x.vc3.egress = [m] →
      s.portPart p = some part → s.bulkOpen part = false → ∃ u, exec (.egressFrame p) s = .next u ∧
        u.out = (if x.framing = true then .frame p (idleFlit s.drawn) :: s.out else s.out) ∧ (u.port p).vc3.egress = [m] ∧ (x.vc3.gated = false → u.ctr .gateWaitVc3 part = s.ctr .gateWaitVc3 part + 1)))

/-- SESS_EXPORT and the MOVE messages at the source and at the destination, each in the state it is for (13_cunis_link.md: Moves between units; 02_sessions.md: States and transitions). Clauses that the spec does not state rest on the model's choice in log entries 73, 85. -/
def Obligations.SessionsMoveBetweenUnits : Prop :=
  (∀ s qk c id, let x := s.getSess id; let port := byteAt c.raw 32 % 16; let p := s.port port
    NextSess s qk 0x0A c id →
    (p.framing = true → s.portPart port = some c.part → c.part = x.part → p.st = .up → bitAt p.feat 1 = true → x.st = .hot ∨ x.st = .idle →
      (∀ o ∈ s.link.outs, o.sess ≠ id) → ∃ u, ∃ m : Msg, exec (.sessExport qk) s = .next u ∧
        u = { s with host := u.host, sess := u.sess, link := u.link } ∧ (u.cmd? c.serial).isSome = true ∧ (u.getSess id).wakeSet = false ∧
        (u.getSess id).st = x.st ∧ (u.getSess id).pages = x.pages ∧ (∀ k, k ≠ id → u.getSess k = s.getSess k) ∧
        u.link.outs = s.link.outs ++ [⟨id, c.serial, port, field c.raw 36 4, .offered, x.st, x.length, x.pend⟩] ∧
        (u.port port).vc3.egress = p.vc3.egress ++ [m] ∧ (moveBodyOf m).sub = 0 ∧ byteAt m.body 1 = 1) ∧
    (p.framing = false ∨ s.portPart port ≠ some c.part ∨ (p.st = .up ∧ bitAt p.feat 1 = false) →
      ∃ u, exec (.sessExport qk) s = .next u ∧ TurnedAway s u c .formatInvalid 0 0 0 0) ∧
    (p.framing = true → s.portPart port = some c.part → p.st = .up → bitAt p.feat 1 = true → x.st ≠ .hot → x.st ≠ .idle →
      ∃ u, exec (.sessExport qk) s = .next u ∧ TurnedAway s u c .badState 0 0 0 0)) ∧
  (∀ s port part m, let b := moveBodyOf m
    let k : KvMsg := { port := port, vc := 3, handle := b.dst, pos := b.pos, layer := b.layer, bodyVer := byteAt m.body 1 % 16,
                       count := b.count, kvIn := 1, data := m.data, cost := m.cost }
    s.up = true → s.headMsg port 3 9 = some m → s.portPart port = some part →
    (s.port port).st = .up →
    (∀ id, b.sub = 0 → s.handle? part b.dst = some id → s.moveIn? id = none → (s.getSess id).st = .opened → (s.getSess id).total = 0 →
      leNat (m.data.take 8) % 2 ^ 36 = (s.model part (s.getSess id).model).geom36 → b.total ≤ maxPositions → b.kvLen ≤ b.total → b.total ≠ 0 →
      ∃ u, ∃ a : Msg, ∃ q : MoveIn, exec (.moveOffer port) s = .next u ∧ u = { s with link := u.link } ∧
        u.link.ins = (s.link.ins.filter (fun r => r.sess != id)) ++ [q] ∧ q.sess = id ∧ q.port = port ∧ q.srcHandle = b.src ∧ q.total = b.total ∧
        q.kvLen = b.kvLen ∧ q.staged = [] ∧ q.applied = false ∧ (u.port port).vc3.egress = (s.port port).vc3.egress ++ [a] ∧
        byteAt a.body 0 = 1 ∧ (u.port port).vc3.inbox = (s.port port).vc3.inbox.drop 1) ∧
    (b.sub = 0 → s.handle? part b.dst = none ∨ (∃ id, s.handle? part b.dst = some id ∧ s.moveIn? id = none ∧
        ((s.getSess id).st ≠ .opened ∨ (s.getSess id).total ≠ 0)) → ∃ u, ∃ a : Msg, exec (.moveOffer port) s = .next u ∧
        u = { s with link := u.link } ∧ u.link.ins = s.link.ins ∧ (u.port port).vc3.egress = (s.port port).vc3.egress ++ [a] ∧
        byteAt a.body 0 = 2) ∧
    (∀ r, s.reserved? port b = some r → let x := s.getSess r.sess
      (b.sub = 3 → r.applied = false → r.staged.length + b.total < r.total → x.st = .opened → x.total = 0 → x.busyCmd = false → 1 ≤ b.total →
        b.total ≤ 1008 → m.data.length = 4 * b.total → b.pos = r.staged.length → ∃ u, exec (.moveLog port) s = .next u ∧
          u = { s with link := u.link } ∧
          u.link.ins = listMod (fun q => q.sess == r.sess) (fun _ => { r with staged := r.staged ++ logToks m.data }) s.link.ins ∧ (logToks m.data).length = b.total) ∧
      (∀ id, b.sub = 4 → s.kvCheck part false k = .ok id →
        exec (.moveKv port) s = .next ((s.popMsg port 3).kvAccept id k)) ∧
      (∀ st, b.sub = 4 → s.kvCheck part false k = .error st →
        ∃ u, exec (.moveKv port) s = .next u ∧ u.link.ins = s.link.ins.filter (fun q => q.sess != r.sess) ∧ u.sess = s.sess ∧ u.fab = s.fab) ∧
      (b.sub = 6 → r.applied = false → s.moveIn? r.sess = some r → ∃ u, exec (.moveDone port) s = .next u ∧ u = { s with link := u.link } ∧
        u.link.ins = listMod (fun q => q.sess == r.sess) (fun q => { q with done := true }) s.link.ins) ∧
      (b.sub = 6 → r.applied = true → s.moveIn? r.sess = some r → x.length = r.kvLen → ∃ u, ∃ a : Msg, exec (.moveDone port) s = .next u ∧
        u = { s with link := u.link } ∧ u.link.ins = s.link.ins.filter (fun q => q.sess != r.sess) ∧ r.port = port ∧
        (u.port port).vc3.egress = (s.port port).vc3.egress ++ [a] ∧ byteAt a.body 0 = 7 ∧ byteAt a.body 2 = 0) ∧
      (b.sub = 8 → ∃ u, exec (.moveAbandon port) s = .next u ∧ u = { s with link := u.link } ∧
        u.link.ins = s.link.ins.filter (fun q => q.sess != r.sess))) ∧
    (∀ o, s.export? port b = some o → let x := s.getSess o.sess
      (b.sub = 1 → o.phase = .offered → x.st = o.prev → x.length = o.len → x.pend = o.pend → (∀ q ∈ s.dir.pubs, q.sess ≠ o.sess) →
        ∃ u, exec (.moveAccept port) s = .next u ∧ u = { s with sess := u.sess, link := u.link } ∧ (u.getSess o.sess).st = .moving ∧
          (u.getSess o.sess).exporting = true ∧ (u.getSess o.sess).length = x.length ∧ (u.getSess o.sess).log = x.log ∧
          (∀ k, k ≠ o.sess → u.getSess k = s.getSess k) ∧ (∀ q ∈ u.link.outs, q.sess = o.sess → q.phase = .logSent) ∧
          (u.port port).vc3.egress.length = (s.port port).vc3.egress.length + (chunks 1008 (x.log.length + 1) x.log).length) ∧
      (∀ e, b.sub = 1 → o.phase = .offered → (x.st ≠ o.prev ∨ x.length ≠ o.len ∨ x.pend ≠ o.pend) → s.cmd? o.serial = some e →
        ∃ u, exec (.moveAccept port) s = .next u ∧ u = { s with host := u.host, out := u.out, link := u.link, ctrs := u.ctrs } ∧
          u.link.outs = s.link.outs.filter (fun q => q.sess != o.sess) ∧ Finished s u e .badState 0 0 0 0) ∧
      (b.sub = 5 → o.phase = .logSent → (∀ q ∈ s.link.outs, q.sess = o.sess → q = o) → ∃ u, exec (.moveLogged port) s = .next u ∧
        u = { s with link := u.link, fab := u.fab } ∧
        (∀ n, (∃ f ∈ u.fab.float, f.kind = .send ∧ f.sess = o.sess ∧ f.block = n) ↔ b.pos < 64 * n + 64 ∧ 64 * n < o.len ∧ b.pos < o.len) ∧
        (∀ f ∈ u.fab.float, f.kind = .send → f.sess = o.sess → f.start = b.pos ∧ f.units = 0 ∧ f.running = false) ∧
        (∀ f, (f.kind ≠ .send ∨ f.sess ≠ o.sess) → (f ∈ u.fab.float ↔ f ∈ s.fab.float)) ∧
        (b.pos < o.len → (u.port port).vc3.egress = (s.port port).vc3.egress ∧ (∀ q ∈ u.link.outs, q.sess = o.sess → q.phase = .logSent)) ∧
        (o.len ≤ b.pos → ∃ a : Msg, (u.port port).vc3.egress = (s.port port).vc3.egress ++ [a] ∧ byteAt a.body 0 = 6 ∧
          (∀ q ∈ u.link.outs, q.sess = o.sess → q.phase = .doneSent))) ∧
      (∀ e, b.sub = 2 → o.phase = .offered → s.cmd? o.serial = some e → ∃ u, exec (.moveRefuse port) s = .next u ∧
        u = { s with host := u.host, out := u.out, link := u.link, ctrs := u.ctrs } ∧ u.link.outs = s.link.outs.filter (fun q => q.sess != o.sess) ∧
        Finished s u e (statusOfCode b.status) 0 0 0 0) ∧
      (∀ e, b.sub = 7 → o.phase ≠ .offered → s.cmd? o.serial = some e →
        (({ s with link := { s.link with outs := s.link.outs.filter (fun q => q.sess != o.sess) } } : State).referred o.sess = false) →
        ∃ u, exec (.moveAck port) s = .next u ∧ (u.getSess o.sess).st = .free ∧ (u.getSess o.sess).gen = x.gen ∧
          (∀ k, k ≠ o.sess → u.getSess k = s.getSess k) ∧ Finished s u e (statusOfCode b.status) 0 0 0 0)))

/-- Every management service: the reply it gives and what else it changes; the order of service; the paths that may ask (17_management_and_health.md: Services; 17_management_and_health.md: Pupoac; 17_management_and_health.md: Boot store and boot configuration; 15_security.md: Attestation). Clauses that the spec does not state rest on the model's choice in log entry 67. -/
def Obligations.HawkServesItsRequests : Prop :=
  (∀ (s : State) (r : MReq), s.nextReq = some r → (s.fullMbx true ≠ [] → (s.fullMbx true).head? = some r) ∧
    (s.fullMbx true = [] → ∀ p l, s.mgmt.pup = p :: l → r.path = .pupoac p.seq ∧ r.svc = p.svc ∧ r.op = p.op ∧ r.payload = p.payload)) ∧
  (∀ (s : State) (r : MReq) st b seq, r.path = .pupoac seq →
    s.reply r st b = { s with mgmt := { s.mgmt with pup := s.mgmt.pup.drop 1 }, out := .pupoac (pupReply r seq st b) :: s.out }) ∧
  (∀ (s : State) (r : MReq) st b port n tag, r.path = .mailbox port n tag → let u := s.reply r st b
    (u.mbxAt port n).go = false ∧ u = { s with host := u.host, out := u.out, ctrs := u.ctrs } ∧
    u.ctr .hlthMbxServed 0 = s.ctr .hlthMbxServed 0 + 1) ∧
  (∀ s r,
    (Asks s 1 1 r → exec .info s = .next (s.reply r .ok (natLe 4 s.idPart ++ natLe 4 idVersion ++ natLe 4 s.idCap ++
      natLe 4 Config.keyGroup.toNat ++ natLe 8 Config.serial.toNat ++ natLe 4 s.hlthState ++ natLe 4 s.mgmt.hb.toNat ++ s.slotBytes ++
      natLe 1 (s.mgmt.trip.getD 0xFF)))) ∧
    (Asks s 2 1 r → exec .healthState s = .next (s.reply r .ok (natLe 4 s.hlthState ++ natLe 8 s.hlthStack))) ∧
    (Asks s 2 2 r → exec .healthSensors s = .next (s.reply r .ok ((List.range 32).flatMap (fun n => natLe 8 (s.hlthSens n))))) ∧
    (Asks s 2 3 r → exec .healthPower s = .next (s.reply r .ok (natLe 8 s.hlthPwr))) ∧
    (Asks s 3 1 r → exec .wear s = .next (s.reply r .ok ((List.range 59).flatMap (fun n => natLe 8 (s.hlthWear n))))) ∧
    (Asks s 5 1 r → let k := (s.getPart (Config.reqField 5 1 0 r.payload % 16)).comp? (Config.reqField 5 1 1 r.payload % 16)
      (k = none → exec .meter s = .next (s.reply r .badState [])) ∧
      (∀ c, k = some c → exec .meter s = .next (s.reply r .ok (meterBytes (Config.reqField 5 1 0 r.payload % 16) c)))) ∧
    (Asks s 6 1 r → exec .bootcfgGet s = .next (s.reply r .ok (s.mgmt.cfg.bytes ++ s.mgmt.bootCfg.bytes))) ∧
    (Asks s 6 2 r → let c := bootCfgOf r.payload
      (c.ok = true → exec .bootcfgSet s =
        .next (({ s with mgmt := { s.mgmt with cfgA := some c, cfgB := some c } } : State).reply r .ok [])) ∧
      (c.ok = false → exec .bootcfgSet s = .next (s.reply r .formatInvalid [])))) ∧
  (∀ s r, Asks s 4 1 r → let kind := Config.reqField 4 1 0 r.payload % 2; let part := Config.reqField 4 1 1 r.payload % 16
    let waiting := (s.sec.attests.filter (fun a => !a.ready)).length
    (s.attestAllowed r.path kind part = false → exec .attestStart s = .next (s.reply r .secureOnly [])) ∧
    (s.attestAllowed r.path kind part = true → (r.path.isMgmt = true ∨ reportLen ≤ r.buffer.2) → (kind = 0 ∨ s.partExists part = true) →
      (8 ≤ waiting → exec .attestStart s = .next (s.reply r .noSpace [])) ∧
      (waiting < 8 → ∃ a : Attest, a.ticket = s.sec.nextTicket ∧ a.kind = kind ∧ a.part = part ∧ a.ready = false ∧ a.mgmt = r.path.isMgmt ∧
        let c : Security := { s.sec with attests := s.sec.attests ++ [a], nextTicket := (s.sec.nextTicket + 1) % 2 ^ 32 }
        exec .attestStart s = .next (({ s with sec := c } : State).reply r .ok (natLe 4 s.sec.nextTicket))))) ∧
  (∀ s r, Asks s 4 2 r → let t := s.sec.attests.find? (fun a => a.ticket == Config.reqField 4 2 0 r.payload % 2 ^ 32)
    (t = none → exec .attestRead s = .next (s.reply r .badState [])) ∧
    (∀ a, t = some a → (a.mgmt ≠ r.path.isMgmt ∨ a.fn ≠ r.path.fn) → exec .attestRead s = .next (s.reply r .secureOnly [])) ∧
    (∀ a, t = some a → a.mgmt = r.path.isMgmt → a.fn = r.path.fn → a.ready = false → exec .attestRead s = .next (s.reply r .badState [])) ∧
    (∀ a, t = some a → a.mgmt = r.path.isMgmt → a.fn = r.path.fn → a.ready = true → exec .attestRead s = .next (s.reply r .ok
      (if a.mgmt = true then slice a.report (Config.reqField 4 2 1 r.payload) 1152 else a.report)))) ∧
  (∀ s r,
    (Asks s 7 1 r → let n := Config.reqField 7 1 0 r.payload
      (n = 0 ∨ fwMax < n → exec .firmwareBegin s = .next (s.reply r .formatInvalid [])) ∧
      (n ≠ 0 → n ≤ fwMax → let m : Mgmt := { s.mgmt with staging := some { size := n } }
        let c : Security := { s.sec with slots := s.sec.slots.set s.spareSlot {} }
        exec .firmwareBegin s = .next (({ s with mgmt := m, sec := c } : State).reply r .ok []))) ∧
    (Asks s 7 2 r → let o := field r.payload 0 4; let d := r.payload.drop 4
      (s.mgmt.staging = none → exec .firmwareWrite s = .next (s.reply r .badState [])) ∧
      (∀ g, s.mgmt.staging = some g → g.committed = false → d ≠ [] → d.length ≤ 1024 → o + d.length ≤ g.size →
        let y : Staging := { g with data := stageWrite g.data o d, got := (stageWrite g.data o d).length }
        exec .firmwareWrite s = .next (({ s with mgmt := { s.mgmt with staging := some y } } : State).reply r .ok [])) ∧
      (∀ g, s.mgmt.staging = some g → g.committed = false → g.size < o + d.length →
        exec .firmwareWrite s = .next (s.reply r .formatInvalid []))) ∧
    (Asks s 7 3 r → (s.mgmt.staging = none → exec .firmwareCommit s = .next (s.reply r .badState [])) ∧
      (∀ g, s.mgmt.staging = some g → let img := memRead g.data 0 g.size; let before := img.take (g.size - sigLen)
        let block := img.drop (g.size - sigLen); let key := byteAt block 3 % 4; let svn := field block 4 4 % 128
        let good := g.size ≤ g.got ∧ sigLen ≤ g.size ∧ bitAt s.sec.revoked key = false ∧
          sigBlockOk 0 (Config.vendorKey key) "YK-FW-1" before block = true
        (¬ good → exec .firmwareCommit s = .next (s.reply r .digestMismatch [])) ∧
        (good → svn < s.sec.fuseSvn ∨ 64 < svn → exec .firmwareCommit s = .next (s.reply r .versionUnsupported [])) ∧
        (good → s.sec.fuseSvn ≤ svn → svn ≤ 64 →
          let w : FwSlot := { valid := true, svn := svn, vkey := key, digest := sha256 before, revoke := byteAt block 8 % 16 }
          let c : Security := { s.sec with slots := s.sec.slots.set s.spareSlot w }
          let m : Mgmt := { s.mgmt with staging := some { g with committed := true } }
          exec .firmwareCommit s = .next (({ s with sec := c, mgmt := m } : State).reply r .ok [])))) ∧
    (Asks s 7 4 r → exec .firmwareStatus s = .next (s.reply r .ok (natLe 4 (match s.mgmt.staging with
      | none => 0
      | some g => if g.committed then 2 else 1) ++ natLe 4 ((s.mgmt.staging.map (·.got)).getD 0) ++ s.slotBytes))) ∧
    (Asks s 8 1 r → (byteAt r.payload 0 = 0x5A → exec .pupoacResetMgmt s = .next (s.reply r .ok []).domainReset) ∧
      (byteAt r.payload 0 ≠ 0x5A → exec .pupoacResetMgmt s = .next (s.reply r .formatInvalid []))) ∧
    (Asks s 8 2 r → (byteAt r.payload 0 = 0x5A → ∃ u, exec .pupoacResetModule s = .next u ∧ u.pwr = { s.pwr with pendCause := 3 } ∧
        u = { s.reply r .ok [] with pwr := u.pwr }) ∧
      (byteAt r.payload 0 ≠ 0x5A → exec .pupoacResetModule s = .next (s.reply r .formatInvalid [])))) ∧
  (∀ s r i svc op, (i, svc, op) ∈ ([(.meter, 5, 1), (.bootcfgSet, 6, 2), (.firmwareBegin, 7, 1), (.firmwareWrite, 7, 2),
      (.firmwareCommit, 7, 3), (.pupoacResetMgmt, 8, 1), (.pupoacResetModule, 8, 2)] : List (Instr × Nat × Nat)) →
    s.up = true → s.hawkUp = true → s.nextReq = some r → r.svc = svc → r.op = op →
    ∀ port n tag, r.path = .mailbox port n tag → 16 ≤ n → exec i s = .next (s.reply r .secureOnly []))

/-- HAWK_READY, the heartbeat and the tick, datagrams, domain reset, wear and thermal samples, I3C and JTAG (17_management_and_health.md: The hawk and its readiness; 17_management_and_health.md: Pupoac; 17_management_and_health.md: The board controller's view; 17_management_and_health.md: Thermal and power limits; 17_management_and_health.md: Wear and end of life; 15_security.md: Attestation; 15_security.md: Firmware and anti-rollback). Clauses that the spec does not state rest on the model's choice in log entries 62, 67, 68. -/
def Obligations.HawkAndMonitorsAct : Prop :=
  (∀ s, s.up = true →
    (s.host.inReset = false ∨ s.sec.running = 2 → exec .hawkReady s = .next s) ∧
    (s.host.inReset = true → s.sec.running ≠ 2 → ∃ u, exec .hawkReady s = .next u ∧ u.host.inReset = false ∧ u.mgmt.ready = true ∧
      u.mgmt.failed = false ∧ u.mgmt.loaded = true ∧ u.mgmt.hb = 0 ∧ u.sess = s.sess ∧ FusesKept s.sec u.sec ∧
      u.sec.fuseSvn = Nat.max s.sec.fuseSvn s.fwSlot.svn ∧
      (s.mgmt.loaded = false → s.part.composable = false → s.partExists 0 = false → (u.getPart 0).st = .active ∧
        (u.getPart 0).clusters = List.range 32 ∧ (u.getPart 0).groups = 256 ∧ u.fnPart 0 = some 0 ∧ u.fnPart 17 = some 0 ∧
        (∀ p, p < 16 → u.portPart p = some 0)) ∧
      (s.mgmt.loaded = true → u.part = s.part))) ∧
  (∀ s, s.up = true →
    (s.hawkUp = true → s.mgmt.hbAt + 10 ≤ s.mgmt.ms → ∃ u, exec .heartbeat s = .next u ∧ u = { s with mgmt := u.mgmt, host := u.host } ∧
      u.mgmt.hb = s.mgmt.hb + 1 ∧ u.host.hb = s.host.hb + 1 ∧ u.mgmt.hbAt = s.mgmt.hbAt + 10) ∧
    (s.hawkUp = false ∨ s.mgmt.ms < s.mgmt.hbAt + 10 → exec .heartbeat s = .next s) ∧
    (∃ u, exec .mgmtTick s = .next u ∧ u = { s with mgmt := u.mgmt, host := u.host, part := u.part, ckpt := u.ckpt } ∧
      u.mgmt.ms = s.mgmt.ms + 1 ∧ (s.hawkUp = true → u.ckpt.msHalf = s.ckpt.msHalf + 1) ∧
      (s.hawkUp = false → u.ckpt = s.ckpt ∧ u.part = s.part) ∧
      (s.host.holder ≠ 0 → u.host.age = Nat.min 2047 (s.host.age + 1)) ∧ u.part.doms = s.part.doms ∧ u.part.fns = s.part.fns)) ∧
  (∀ s d, s.up = true →
    (s.hawkUp = false → exec (.pupoacDatagram d) s = .next s) ∧
    (s.hawkUp = true → 64 ≤ s.mgmt.pup.length → ∃ u, exec (.pupoacDatagram d) s = .next u ∧ u = { s with ctrs := u.ctrs } ∧
      u.ctr .hlthPupDrop 0 = s.ctr .hlthPupDrop 0 + 1) ∧
    (s.hawkUp = true → s.mgmt.pup.length < 64 → s.pupOk d = false → ∃ u, exec (.pupoacDatagram d) s = .next u ∧ u = { s with ctrs := u.ctrs } ∧
      u.ctr .secMgmtReject 0 = s.ctr .secMgmtReject 0 + 1) ∧
    (s.hawkUp = true → s.mgmt.pup.length < 64 → s.pupOk d = true → ∃ u, ∃ p : Pup, exec (.pupoacDatagram d) s = .next u ∧
      u = { s with mgmt := { s.mgmt with pup := s.mgmt.pup ++ [p] }, sec := { s.sec with seqHw := field d 8 8 } } ∧ p.svc = byteAt d 1 ∧
      p.op = byteAt d 2 ∧ p.seq = field d 8 8 ∧ s.sec.seqHw < field d 8 8)) ∧
  (∀ s port v, s.up = true →
    (bitAt v 0 = false → ∃ u, exec (.mgmtDomainReset port v) s = .next u ∧ u = { s with host := u.host } ∧ u.host.inReset = s.host.inReset) ∧
    (port < 2 → bitAt v 0 = true → s.host.inReset = true ∨ s.host.holder ≠ port + 1 ∨ bits v 8 8 ≠ 0x5A →
      ∃ u, exec (.mgmtDomainReset port v) s = .next u ∧ u = { s with host := u.host, ctrs := u.ctrs } ∧ u.host.inReset = s.host.inReset ∧
        u.ctr .ykIgnored port = s.ctr .ykIgnored port + 1) ∧
    (port < 2 → bitAt v 0 = true → s.host.inReset = false → s.host.holder = port + 1 → bits v 8 8 = 0x5A →
      ∃ u, exec (.mgmtDomainReset port v) s = .next u ∧
        u = { s with host := u.host, mgmt := u.mgmt, sec := u.sec, ctrs := u.ctrs, out := u.out } ∧ u.host.inReset = true ∧
        u.mgmt.ready = false ∧ u.mgmt.pup = [] ∧ u.mgmt.staging = none ∧ u.mgmt.cfg = s.mgmt.cfg ∧ u.sec.attests = [] ∧
        u.sec.running = s.sec.bootSlot ∧ u.sec.fuseSvn = s.sec.fuseSvn ∧ u.ctr .hlthMbxServed 0 = 0)) ∧
  (∀ s raws, s.up = true →
    (s.hawkUp = false ∨ s.mgmt.ms < (s.mgmt.wearHour + 1) * 3600000 → exec (.wearSample raws) s = .next s) ∧
    (s.hawkUp = true → (s.mgmt.wearHour + 1) * 3600000 ≤ s.mgmt.ms → ∃ u, exec (.wearSample raws) s = .next u ∧ u = { s with mgmt := u.mgmt } ∧
      u.mgmt.wearHour = s.mgmt.wearHour + 1 ∧ (∀ n, n < 58 → tabGet 0 u.mgmt.wear n = s.wearNext raws n) ∧
      (∀ n, n < 59 → tabGet [] u.mgmt.wearRing n = (u.wearRaw n :: tabGet [] s.mgmt.wearRing n).take 720))) ∧
  (∀ s temps avg input vin, let cool := ∀ n, n < 30 → temps.getD n 0 < ((tripLimit n * 16 : Nat) : Int); s.up = true →
    (cool → ∃ u, exec (.thermalSample temps avg input vin) s = .next u ∧ u = { s with mgmt := u.mgmt, ctrs := u.ctrs } ∧
      u.mgmt.inputW = input ∧ u.mgmt.vinCv = vin ∧ u.mgmt.peakW = Nat.max s.mgmt.peakW input ∧
      (∀ n, n < 32 → let y := tabGet {} u.mgmt.sensors n
        y.temp = temps.getD n 0 ∧ (thrLimit n ≠ 0 → ((thrLimit n * 16 : Nat) : Int) ≤ y.temp → y.throttle = true) ∧
        (y.temp ≤ ((thrLimit n * 16 : Nat) : Int) - 80 → y.throttle = false) ∧
        (∀ x, tabGet? s.mgmt.sensors n = some x → thrLimit n ≠ 0 → ((thrLimit n * 16 : Nat) : Int) - 80 < y.temp →
          y.temp < ((thrLimit n * 16 : Nat) : Int) → y.throttle = x.throttle))) ∧
    (¬ cool → ∃ u n, exec (.thermalSample temps avg input vin) s = .next u ∧ n < 30 ∧ ((tripLimit n * 16 : Nat) : Int) ≤ temps.getD n 0 ∧
      u.mgmt.trip = some n ∧ u.pwr.st = .safeTrip ∧ u.sess = [] ∧ u.up = false ∧ u.host = s.host)) ∧
  (∀ s v a, s.up = true →
    (s.i3cUp = false → exec (.rstReq v) s = .next s) ∧
    (s.i3cUp = true → v ≠ 0xA5 ∨ s.mgmt.resetReq = true → exec (.rstReq v) s = .next { s with mgmt := { s.mgmt with i3cPtr := 0x50 } }) ∧
    (s.i3cUp = true → s.mgmt.resetReq = false → ∃ u, exec (.rstReq 0xA5) s = .next u ∧ u = { s with mgmt := u.mgmt, pwr := u.pwr } ∧
      u.mgmt.resetReq = true ∧ u.mgmt.resetAt = s.mgmt.ms ∧ u.mgmt.i3cPtr = 0x50 ∧ u.i3cRead 1 = some [1] ∧ (s.pwr.pendCause = 0 → u.pwr.pendCause = 2)) ∧
    exec (.dynamicAddressAssign a) s =
      .next (if s.i3cUp = true then { s with mgmt := { s.mgmt with i3cDyn := some (a % 128) } } else s)) ∧
  (∀ s, s.up = true →
    exec .jtagAttach s = .next (if s.sec.jtagLock = true then s else { s with sec := { s.sec with jtagAttached := true, jtagSeen := true } }) ∧
    exec .jtagDetach s = .next { s with sec := { s.sec with jtagAttached := false } } ∧
    (s.sec.attests.find? (fun a => !a.ready) = none ∨ s.hawkUp = false → exec .attestSigned s = .next s) ∧
    (∀ a, s.sec.attests.find? (fun a => !a.ready) = some a → s.hawkUp = true → ∃ u, exec .attestSigned s = .next u ∧
      u = { s with sec := u.sec } ∧ ∃ y ∈ u.sec.attests, y.ticket = a.ticket ∧ y.ready = true ∧ y.report.take 256 = s.reportBody a ∧
        y.kind = a.kind ∧ y.part = a.part))

/-- Power-up in the six steps of its table, the lockout, MOD_RESET_N, the module resets and what they keep (18_power_clocks_reset.md: The 52 V input; 18_power_clocks_reset.md: Power-up; 18_power_clocks_reset.md: XO_DLY and the fallback clock; 18_power_clocks_reset.md: Safe states; 18_power_clocks_reset.md: Resets; 18_power_clocks_reset.md: Straps). Clauses that the spec does not state rest on the model's choice in log entries 23, 63, 97. -/
def Obligations.PowerUpInItsSteps : Prop :=
  (∀ (s : State) x, (s.pwr.st ≠ .off ∨ s.pwr.overVolt = true → exec (.inputUp x) s = .next s) ∧
    (s.pwr.st = .off → s.pwr.overVolt = false → ∃ u, exec (.inputUp x) s = .next u ∧ u = { s with pwr := u.pwr } ∧
      u.pwr.st = .rising ∧ (u.pwr.bulk, u.pwr.xoDone, u.pwr.rails) = (false, false, 0) ∧ u.pwr.cause = 0 ∧
      (u.pwr.strapXo, u.pwr.strapA, u.pwr.strapB) = (x.xo, x.a, x.b))) ∧
  (∀ (s : State) high, ∃ u, exec (.inputLockout high) s = .next u ∧ WasReset s u ∧ u.pwr.st = .off ∧ u.pwr.rails = 0 ∧
    u.pwr.overVolt = high ∧ (high = false → u.pwr.cause = 0) ∧ u.out = .modOk false :: s.out) ∧
  (∀ (s : State), ∃ u, exec .inputOvRelease s = .next u ∧ u = { s with pwr := u.pwr } ∧ u.pwr = { s.pwr with overVolt := false }) ∧
  (∀ (s : State), (s.pwr.st ≠ .rising → exec .bulkCharged s = .next s ∧ exec .railRegulation s = .next s ∧ exec .railTimeout s = .next s ∧
      exec .railRetry s = .next s) ∧
    (s.pwr.st = .rising → ∃ u, exec .bulkCharged s = .next u ∧ u = { s with pwr := u.pwr } ∧ u.pwr = { s.pwr with bulk := true })) ∧
  (∀ (s : State), s.pwr.st = .rising →
    let n := if s.unit.order = .n then 4 else 5
    let next := s.pwr.bulk = true ∧ s.pwr.railWait = false ∧ s.pwr.rails < n
    (¬ next → exec .railRegulation s = .next s ∧ exec .railTimeout s = .next s) ∧
    (next → ∃ u v, exec .railRegulation s = .next u ∧ exec .railTimeout s = .next v ∧
      u = { s with pwr := u.pwr } ∧ u.pwr = { s.pwr with rails := s.pwr.rails + 1 } ∧
      v = { s with pwr := v.pwr } ∧ v.pwr = { s.pwr with rails := 0, railFails := s.pwr.railFails + 1, railWait := true }) ∧
    (s.pwr.railWait = true → s.pwr.railFails < 3 → ∃ u, exec .railRetry s = .next u ∧ u = { s with pwr := u.pwr } ∧
      u.pwr = { s.pwr with railWait := false }) ∧
    (3 ≤ s.pwr.railFails → exec .railRetry s = .next s) ∧
    (∃ u, exec .xoDlyExpiry s = .next u ∧ u = { s with pwr := u.pwr } ∧ u.pwr = { s.pwr with xoDone := true }) ∧
    (∀ pass, let ended := s.pwr.rails = n ∧ s.pwr.xoDone = true
      (¬ ended → exec (.fbClkCheck pass) s = .next s) ∧
      (ended → ∃ u, exec (.fbClkCheck pass) s = .next u ∧ u = { s with pwr := u.pwr } ∧
        u.pwr = if pass then { s.pwr with st := .locking } else { s.pwr with xoDone := false }))) ∧
  (∀ (s : State), (s.pwr.st ≠ .locking → exec .clockLock s = .next s) ∧
    (s.pwr.st = .locking → ∃ u, exec .clockLock s = .next u ∧ u = { s with tick := 0, mgmt := u.mgmt, pwr := u.pwr } ∧
      u.mgmt = { s.mgmt with ms := 0 } ∧ u.pwr = { s.pwr with st := .held, fbOk := true })) ∧
  (∀ (s : State), ∃ u, exec .modResetNRelease s = .next u ∧ u.pwr.resetLow = false ∧
    (s.pwr.st ≠ .held → u = { s with pwr := u.pwr } ∧ u.pwr.st = s.pwr.st) ∧
    (s.pwr.st = .held → u.up = true ∧ u.sec = { s.sec with running := s.sec.bootSlot } ∧ u.out = .modOk true :: s.out ∧
      u.host.portA.training = !s.host.portA.perst ∧ u.host.portB.training = !s.host.portB.perst)) ∧
  (∀ (s : State) ns x,
    (ns < 1000 ∨ s.pwr.st = .off → exec (.modResetN ns x) s = .next s) ∧
    (1000 ≤ ns → ns < 10000 → s.pwr.st ≠ .off → exec (.modResetN ns x) s = .fault .undefinedPulse) ∧
    (10000 ≤ ns → s.pwr.st = .running ∨ s.pwr.st = .held → ∃ u, exec (.modResetN ns x) s = .next u ∧ WasReset s u ∧ u.pwr.st = .held ∧
      u.pwr.cause = 1 ∧ u.pwr.resetLow = true ∧ (u.pwr.strapXo, u.pwr.strapA, u.pwr.strapB) = (x.xo, x.a, x.b)) ∧
    (10000 ≤ ns → s.pwr.st = .safeTrip → ∃ u, exec (.modResetN ns x) s = .next u ∧ WasReset s u ∧ u.pwr.st = .rising ∧ u.pwr.cause = 5 ∧
      u.pwr.bulk = true ∧ u.pwr.xoDone = false ∧ u.pwr.rails = (if s.mgmt.trip = some 28 then 0 else 1) ∧
      (u.pwr.strapXo, u.pwr.strapA, u.pwr.strapB) = (x.xo, x.a, x.b))) ∧
  (∀ (s : State) x, s.up = true →
    let wait := s.pwr.pendCause = 2 ∧ s.ckpt.take.isSome = true ∧ s.mgmt.ms < s.mgmt.resetAt + 5000
    (s.pwr.pendCause = 0 ∨ wait → exec (.moduleReset x) s = .next s) ∧
    (s.pwr.pendCause ≠ 0 → ¬ wait → ∃ u, exec (.moduleReset x) s = .next u ∧ WasReset s u ∧ u.pwr.st = .held ∧ u.pwr.cause = s.pwr.pendCause ∧
      u.pwr.pendCause = 0 ∧ (u.pwr.strapXo, u.pwr.strapA, u.pwr.strapB) = (x.xo, x.a, x.b))) ∧
  (∀ (s : State) x, s.pwr.st = .safeClock →
    (s.pwr.recover = false → ∃ u, exec (.fbClkCheck true) s = .next u ∧ u = { s with pwr := u.pwr } ∧
      u.pwr = { s.pwr with recover := true, xoDone := false }) ∧
    (s.pwr.recover = false ∨ s.pwr.xoDone = false → exec (.clockLossRecovery x) s = .next s) ∧
    (s.pwr.recover = true → s.pwr.xoDone = true → ∃ u, exec (.clockLossRecovery x) s = .next u ∧ WasReset s u ∧ u.pwr.st = .locking ∧
      u.pwr.cause = 4 ∧ (u.pwr.strapXo, u.pwr.strapA, u.pwr.strapB) = (x.xo, x.a, x.b))) ∧
  (∀ (s : State) x, s.pwr.st ≠ .safeClock → exec (.clockLossRecovery x) s = .next s)

/-- The clock reference: every row of the switch-over table, its counters, and the safe state where no source is left (18_power_clocks_reset.md: The reference and its switch-over; 18_power_clocks_reset.md: Safe states; 18_power_clocks_reset.md: Registers). Clauses that the spec does not state rest on the model's choice in log entries 25, 64. -/
def Obligations.ReferenceSwitchesSource : Prop :=
  let Rec : State → State → Prop := fun s u => u = { s with pwr := u.pwr, ctrs := u.ctrs } ∧ u.pwr.recovered = true ∧ u.pwr.slewing = true ∧
    u.ctr .clkToRec 0 = s.ctr .clkToRec 0 + 1;
  let Fb : State → State → Prop := fun s u => u = { s with pwr := u.pwr, ctrs := u.ctrs } ∧ u.pwr.recovered = false ∧ u.pwr.slewing = true ∧
    u.pwr.lockAt = s.tick ∧ u.ctr .clkToFb 0 = s.ctr .clkToFb 0 + 1;
  let Safe : State → State → Prop := fun s u => u.pwr.st = .safeClock ∧ u.pwr.recovered = false ∧ u.sess = [] ∧ u.fab = {} ∧ u.dir = {} ∧
    u.out = .modOk false :: s.out ∧ u.sec = s.sec ∧ u.mgmt = s.mgmt ∧ u.ret = s.ret ∧ u.ckpt = s.ckpt;
  (∀ (s : State), s.up = true → s.pwr.fbOk = true → ∃ u, exec .fbClkLost s = .next u ∧
    (s.pwr.recovered = true → u = { s with pwr := u.pwr, ctrs := u.ctrs } ∧ u.pwr = { s.pwr with fbOk := false } ∧
      u.ctr .clkFbLoss 0 = s.ctr .clkFbLoss 0 + 1) ∧
    (s.pwr.recovered = false → s.pwr.recLock = true → Rec s u ∧ u.pwr.fbOk = false) ∧
    (s.pwr.recovered = false → s.pwr.recLock = false → Safe s u)) ∧
  (∀ (s : State) n, s.up = true → n < 16 →
    (∃ u, exec (.cdrLockGained n) s = .next u ∧ u = { s with link := u.link, pwr := u.pwr } ∧ (u.port n).cdrLock = true ∧
      (n ≠ s.pwr.clkPort → u.pwr = s.pwr) ∧
      (n = s.pwr.clkPort → (s.port n).en = true → s.pwr.recLock = false → u.pwr = { s.pwr with recLock := true, lockAt := s.tick })) ∧
    (∃ u, exec (.cdrLockLost n) s = .next u ∧
      (n ≠ s.pwr.clkPort → u = { s with link := u.link } ∧ (u.port n).cdrLock = false) ∧
      (n = s.pwr.clkPort → s.pwr.recovered = false → u.pwr = { s.pwr with recLock := false } ∧ (u.port n).cdrLock = false) ∧
      (n = s.pwr.clkPort → s.pwr.recovered = true → s.pwr.fbOk = true → Fb { s with link := u.link } u ∧ u.pwr.recLock = false) ∧
      (n = s.pwr.clkPort → s.pwr.recovered = true → s.pwr.fbOk = false → Safe s u))) ∧
  (∀ (s : State), s.up = true →
    let may := s.pwr.recovered = false ∧ s.pwr.recLock = true ∧ s.pwr.autoReturn = true ∧ s.pwr.forceFb = false
    (¬ may → exec .autoReturn s = .next s) ∧
    (may → ∃ u, exec .autoReturn s = .next u ∧ Rec (s.pass (s.pwr.lockAt + 1000000 - s.tick)) u ∧
      (s.tick ≤ s.pwr.lockAt + 1000000 → u.tick = s.pwr.lockAt + 1000000))) ∧
  (∀ (s : State) fn v, s.up = true → fn ≠ 0 → s.bound fn = true → exec (.returnClk fn) s = .next s ∧ exec (.forceFb fn) s = .next s ∧
    exec (.linkClkselWrite fn v) s = .next s) ∧
  (∀ (s : State), s.up = true → ∃ u, exec (.returnClk 0) s = .next u ∧
    (s.pwr.recovered = false → s.pwr.recLock = true → s.pwr.forceFb = false → Rec s u) ∧
    (s.pwr.recovered = true ∨ s.pwr.recLock = false ∨ s.pwr.forceFb = true → u = { s with pwr := { s.pwr with returnWorb := true } })) ∧
  (∀ (s : State), s.up = true → ∃ u, exec (.forceFb 0) s = .next u ∧
    (s.pwr.recovered = false → u = { s with pwr := { s.pwr with forceFb := true } }) ∧
    (s.pwr.recovered = true → s.pwr.fbOk = true → Fb s u ∧ u.pwr.forceFb = true) ∧
    (s.pwr.recovered = true → s.pwr.fbOk = false → Safe s u)) ∧
  (∀ (s : State) v, s.up = true → ∃ u, exec (.linkClkselWrite 0 v) s = .next u ∧
    (s.pwr.recovered = false ∨ s.pwr.fbOk = true → u.pwr.clkPort = v % 16 ∧ u.pwr.lockAt = s.tick ∧
      u.pwr.recLock = ((s.port (v % 16)).cdrLock && (s.port (v % 16)).en)) ∧
    (s.pwr.recovered = false → u = { s with pwr := u.pwr }) ∧
    (s.pwr.recovered = true → s.pwr.fbOk = true → Fb s u) ∧
    (s.pwr.recovered = true → s.pwr.fbOk = false → Safe s u)) ∧
  (∀ (s : State), s.up = true → exec .slewDone s = .next { s with pwr := { s.pwr with slewing := false } })

/-- Register writes: range checks, read-only registers, selections that take a copy, core windows, owner bytes, the dust latch (03_state_fabric.md: Registers; 06_beat_and_windows.md: Registers; 14_partitions_and_admission.md: Registers; 04_undercoat_directory.md: Registers; 05_attention.md: Registers; 08_text_unit.md: Registers; 02_sessions.md: Readback; 09_scaesh_model.md: Core control registers; 15_security.md: Registers; 15_security.md: Confidential partitions). Clauses that the spec does not state rest on the model's choice in log entry 27. -/
def Obligations.RegisterWritesByTheirRules : Prop :=
  let Only : State → State → List (Reg × Nat) → Prop := fun s u l => u = { s with regs := u.regs } ∧
    ∀ r q, (∀ e ∈ l, regKey r q ≠ regKey e.1 e.2) → u.reg r q = s.reg r q;
  (∀ r ∈ ([(0x400008, 4, .sfStallLimit, .sfEvtBadcfg, fun v => v % 2 ^ 32 % 256, fun v => 1 ≤ v % 256 ∧ v % 256 ≤ 254),
      (0x400010, 4, .sfPrimer, .sfEvtBadcfg, fun v => v % 2 ^ 20, fun v => (1 ≤ v % 4096 ∧ v % 4096 ≤ 4094) ∧ v / 4096 % 256 ≤ 254),
      (0xA00100, 8, .schedWin, .schedBadcfg, fun v => v % 2 ^ 64, fun v => (1000 ≤ v % 2 ^ 24 ∧ v % 2 ^ 24 ≤ 16777214) ∧
        v / 2 ^ 24 % 2 ^ 24 ≤ 16777214 ∧ 1000 ≤ v / 2 ^ 48 % 2 ^ 16 ∧ v / 2 ^ 48 % 2 ^ 16 ≤ 65534),
      (0xB00018, 4, .admOverhead, .admBadcfg, fun v => v % 2 ^ 16, fun v => v % 2 ^ 16 ≠ 65535)] :
      List (Nat × Nat × Reg × Counter × (Nat → Nat) × (Nat → Prop))), ∀ s fn p v, s.up = true → s.reach fn r.1 = .yes p →
    (r.2.2.2.2.2 v → ∃ u, exec (.regWrite fn r.1 r.2.1 v) s = .next u ∧ u.reg r.2.2.1 p = r.2.2.2.2.1 v ∧ Only s u [(r.2.2.1, p)]) ∧
    (¬ r.2.2.2.2.2 v → exec (.regWrite fn r.1 r.2.1 v) s = .next (s.bump r.2.2.2.1 p))) ∧
  (∀ o ∈ [0x0, 0x4, 0x8, 0xC, 0x400040, 0x500000, 0x700238, 0xA00008, 0xC00000, 0xD00030, 0xE00000, 0xF00008, 0xF00010, 0xF00018],
    ∀ s fn p v, s.up = true → s.reach fn o = .yes p → exec (.regWrite fn o 4 v) s = .next s) ∧
  (∀ s fn o w v, s.up = true → o < coreBase → s.reach fn o = .denied → exec (.regWrite fn o w v) s = .next (s.denied fn)) ∧
  (∀ s fn v, s.up = true → s.reach fn 0xC00008 = .yes 0 →
    let ok := fn = 0 ∧ s.anyConf = false ∧ v % 32 ≤ 20 ∧ (6 ≤ v / 256 % 32 ∧ v / 256 % 32 ≤ 20) ∧ v / 65536 % 16 ≤ 12
    (ok → ∃ u, exec (.regWrite fn 0xC00008 4 v) s = .next u ∧ Only s u [(.secDust, 0)] ∧
      u.cntShift = v % 32 ∧ u.timeShift = v / 256 % 32 ∧ u.epochLog2 = v / 65536 % 16) ∧
    (¬ ok → exec (.regWrite fn 0xC00008 4 v) s = .next (s.denied fn))) ∧
  (∀ s fn p v, s.up = true → s.reach fn 0x400030 = .yes p → ∃ u, exec (.sfPlSelWrite fn v) s = .next u ∧ Only s u [(.sfPlSel, p), (.sfPlDesc, p)] ∧
    u.reg .sfPlSel p = v % 2 ^ 47 ∧
    (∀ id, s.handle? p (v % 2 ^ 32) = some id → u.reg .sfPlDesc p = ((s.getSess id).desc (v / 2 ^ 32 % 2 ^ 15)).stored) ∧
    (s.handle? p (v % 2 ^ 32) = none → u.reg .sfPlDesc p = 0)) ∧
  (∀ s fn p v, s.up = true → s.reach fn 0x400050 = .yes p → ∃ u, exec (.sfProbeSelWrite fn v) s = .next u ∧ Only s u [(.sfProbeSel, p), (.sfProbe, p)] ∧
    (∀ id, s.handle? p (v % 2 ^ 32) = some id → u.reg .sfProbe p = s.probeOf (s.getSess id)) ∧
    (s.handle? p (v % 2 ^ 32) = none → u.reg .sfProbe p = 0)) ∧
  (∀ s fn p v, s.up = true → s.reach fn 0x500020 = .yes p → ∃ u, exec (.dirRecSelWrite fn v) s = .next u ∧ Only s u [(.dirRecSel, p), (.dirRec, p)] ∧
    u.reg .dirRec p = if inRecs (s.getPart p) (v % 2 ^ 18) then (s.dirRec (v % 2 ^ 18)).stored else 0) ∧
  (∀ s fn p v, s.up = true → s.reach fn 0x700230 = .yes p → ∃ u, exec (.textHeldSelWrite fn v) s = .next u ∧
    Only s u [(.textHeldSel, p), (.textHeldCnt, p), (.textHeld, p)] ∧
    (∀ id, s.handle? p (v % 2 ^ 32) = some id →
      u.reg .textHeldCnt p = (s.getSess id).seamNow.length + (s.getSess id).utf8Now.length * 256 ∧
      u.reg .textHeld p = leNat ((s.getSess id).seamNow ++ (s.getSess id).utf8Now) ∧
      ((s.getSess id).lateSeam = [] → (s.getSess id).seamNow = (s.getSess id).seam)) ∧
    (s.handle? p (v % 2 ^ 32) = none → u.reg .textHeldCnt p = 0 ∧ u.reg .textHeld p = 0)) ∧
  (∀ s fn p v, s.up = true → s.reach fn 0x300020 = .yes p → ∃ u, exec (.sessTokSelWrite fn v) s = .next u ∧
    Only s u [(.sessTokSel, fn), (.sessTokInfo, fn), (.sessTok, fn)] ∧
    (∀ id, s.handle? p (v % 2 ^ 32) = some id → (s.getSess id).logLost = false → u.reg .sessTokInfo fn = (s.getSess id).total + 2 ^ 23 ∧
      u.reg .sessTok fn = leNat ((((s.getSess id).log.drop (v / 2 ^ 32 % 2 ^ 22)).take 16).flatMap (fun t => natLe 4 t.word))) ∧
    (s.handle? p (v % 2 ^ 32) = none → u.reg .sessTokInfo fn = 0 ∧ u.reg .sessTok fn = 0)) ∧
  (∀ s fn p v, s.up = true → s.reach fn 0x600028 = .yes p → ∃ u, exec (.attTurnClr fn v) s = .next u ∧ Only s u [(.attTurnClr, p), (.attTurn, p)] ∧
    u.reg .attTurn p = if v % 2 = 1 then s.reg .attTurn p % 2 ^ 24 else s.reg .attTurn p) ∧
  (∀ s fn p off w v, s.up = true → s.reach fn 0x380000 = .yes p →
    let id := s.reg .sessWin fn % 256 * 4096 + off / 128
    let ok := (w = 4 ∨ w = 8) ∧ w ∣ off ∧ 64 ≤ off % 128 ∧ off < 0x80000 ∧ inRange (s.getPart p) id = true ∧ (s.getSess id).st ≠ .free
    (ok → ∃ u, exec (.ownerByteWrite fn off w v) s = .next u ∧ u = { s with sess := u.sess } ∧ (∀ k, k ≠ id → u.getSess k = s.getSess k) ∧
      u.getSess id = { s.getSess id with owner := putSlice (fit 0 64 (s.getSess id).owner) (off % 128 - 64) (natLe w v) }) ∧
    (¬ ok → exec (.ownerByteWrite fn off w v) s = .next (s.bump .sessBadwr fn))) ∧
  (∀ s fn n m v, s.up = true → s.bound fn = true → s.coreReach fn n = .yes m →
    (∃ u, exec (.coreFaultClear fn n v) s = .next u ∧ (v / 2 ^ 63 % 2 = 0 → u = s) ∧ (v / 2 ^ 63 % 2 = 1 → u.core n = { s.core n with faultValid := false }) ∧
      (∀ k, k ≠ n → u.core k = s.core k) ∧ u = { s with cores := u.cores }) ∧
    (s.coreConf n = true → exec (.coreDbgHalt fn n v) s = .next (s.bump .coreBadwr n) ∧
      exec (.coreDbgStep fn n v) s = .next (s.bump .coreBadwr n)) ∧
    (s.coreConf n = false → ∃ u t, exec (.coreDbgHalt fn n v) s = .next u ∧ exec (.coreDbgStep fn n v) s = .next t ∧
      u = { s with cores := u.cores } ∧ t = { s with cores := t.cores } ∧ (∀ k, k ≠ n → u.core k = s.core k ∧ t.core k = s.core k) ∧
      (u.core n).halt = v % 16 ∧ (t.core n).halt = (s.core n).halt ∧
      (∀ k, k < 4 → bitAt (u.core n).stepBits k = (bitAt (s.core n).stepBits k && bitAt v k) ∧
        bitAt (t.core n).stepBits k = (bitAt (s.core n).stepBits k || (bitAt v (4 + k) && bitAt (s.core n).halt k))))) ∧
  (∀ s fn n m o v, s.up = true → s.bound fn = true → s.coreReach fn n = .yes m → 0x20000 ≤ o → o + 8 ≤ 0x30000 → 8 ∣ o →
    let a := (s.core n).ldmPage * 65536 + (o - 0x20000)
    (s.coreConf n = true → exec (.coreWindowWrite fn n o 8 v) s = .next (s.bump .coreBadwr n)) ∧
    (s.coreConf n = false → a < 0x28000 → exec (.coreWindowWrite fn n o 8 v) s = .next (s.bump .coreBadwr n)) ∧
    (s.coreConf n = false → 0x28000 ≤ a → ∃ u, exec (.coreWindowWrite fn n o 8 v) s = .next u ∧ u = { s with cores := u.cores } ∧
      memRead (u.core n).ldm a 8 = natLe 8 v ∧ (∀ b, b < a ∨ a + 8 ≤ b → tabGet 0 (u.core n).ldm b = tabGet 0 (s.core n).ldm b) ∧
      (∀ k, k ≠ n → u.core k = s.core k))) ∧
  (∀ s fn n m v, s.up = true → s.bound fn = true → s.coreReach fn n = .yes m →
    exec (.coreWindowWrite fn n 0x10014 4 v) s = .next (s.bump .coreBadwr n) ∧
    exec (.coreWindowWrite fn n 0x1002C 4 v) s = .next (s.bump .coreBadwr n) ∧
    (∃ u, exec (.coreWindowWrite fn n 0x10010 4 v) s = .next u ∧ u = { s with cores := u.cores } ∧ (u.core n).ldmPage = v % 4 ∧
      (∀ k, k ≠ n → u.core k = s.core k))) ∧
  (∀ s, s.up = true →
    let now := s.beat.tick = 0 ∧ s.beat.hold = false ∧ s.beat.none_ = false ∧ s.beat.num % 2 ^ s.epochLog2 = 0
    (¬ now → exec .dustLatch s = .next s) ∧
    (now → ∃ u, exec .dustLatch s = .next u ∧ u = { s with sec := u.sec } ∧ u.sec = { s.sec with latch := u.sec.latch } ∧
      ∀ x ∈ s.part.parts, x.2.conf = true → x.2.st ≠ .none_ → ∀ c ∈ counterTable, c.2.2.1 = .part → s.dusted c.1 .part x.1 = true →
        (tabGet (0 : Word) u.sec.latch (ctrKey c.1 x.1)).toNat = (s.ctr c.1 x.1).toNat / 2 ^ s.cntShift * 2 ^ s.cntShift))

/-- A step is the effect of the command at the front of the queue on the state with the rest of the queue; an empty queue passes one tick (00_scope.md: Two time worlds; 18_power_clocks_reset.md: The reference and its switch-over). Clauses that the spec does not state rest on the model's choice in log entry 1. -/
def Obligations.StepRunsTheFirstCommand : Prop :=
  (∀ c rest (s : State), step { s with pending := c :: rest } = exec c { s with pending := rest }) ∧
  (∀ (s : State), s.pending = [] → step s = .next (s.pass 1) ∧ (s.pass 1).tick = s.tick + 1) ∧
  (∀ (s : State) nbits w, decodeTableWord nbits w = none ∧ s.withFetchWord nbits w = s)

/-- Right after reset, and once the hawk is ready, the registers read the reset values of their tables (01_architecture.md: Identity registers; 03_state_fabric.md: Registers; 05_attention.md: Registers; 06_beat_and_windows.md: Registers; 07_sampling_and_stencils.md: Registers; 08_text_unit.md: Registers; 09_scaesh_model.md: Core control registers; 11_flash_retrieval.md: Registers; 13_cunis_link.md: Registers; 14_partitions_and_admission.md: Registers; 16_checkpoint_and_recovery.md: Registers; 18_power_clocks_reset.md: Registers). Clauses that the spec does not state rest on the model's choice in log entries 23, 32, 62. -/
def Obligations.ResetGivesTheResetValues : Prop :=
  (State.reset.pending = [] ∧ State.reset.sess = [] ∧ State.reset.part.parts = [] ∧ State.reset.cores = {} ∧ State.reset.ctrs = [] ∧
    State.reset.sec.fuseSvn = 0 ∧ State.reset.sec.revoked = 0 ∧ State.reset.up = true) ∧
  (∀ r ∈ ([(0x4, 0x01110100), (0x8, 0x00202007), (0x100, 0x1000), (0x300000, 0), (0xA00000, 0x0008000000000000), (0xA00008, 0), (0xA00010, 0), (0xA00018, 0),
      (0x800000, 0xE0002000), (0x910000, 0), (0xC00008, 0x00080A0A), (0xD00000, 0x00000003100001F4), (0xD00008, 0), (0xD00010, 0),
      (0xD00018, 0), (0xD00020, 0)] ++
      [(0xD00028, 0), (0xD00030, 0), (0xD00038, 0), (0xE00000, 0), (0xE00008, 0), (0xE00010, 0), (0xF00000, 1), (0xF00008, 1)] :
      List (Nat × Nat)), State.reset.readReg 0 r.1 = r.2) ∧
  (∃ u, exec .hawkReady State.reset = .next u ∧
    (∀ r ∈ ([(0x300008, 0x00010000), (0x300010, 0), (0x300018, 0), (0x300020, 0), (0x300028, 0), (0x400000, 0x0A050A05), (0x400008, 4),
        (0x400010, 0x8004), (0x400018, 0), (0x400020, 0x0000C000A0000AFC), (0x400030, 0), (0x400040, 0), (0x400050, 0), (0x400058, 0),
        (0x400200, 0), (0x400208, 0), (0x400210, 0)] ++
        [(0x500000, 0x01000000), (0x500008, 0), (0x500010, 0), (0x500018, 0), (0x500020, 0), (0x500040, 0), (0x600000, 0), (0x600008, 0),
        (0x600010, 0), (0x600020, 0), (0x600028, 0), (0x600030, 0)] ++
        [(0xA00100, 0x07D0002710019A28), (0xA00108, 0x08101000), (0xA00110, 0), (0x700000, 0), (0x700008, 0), (0x700010, 0x0004000000040000),
        (0x700018, 0), (0x700020, 0), (0x700028, 0), (0x700030, 3), (0x700038, 0)] ++
        [(0x700200, 0x0004000000040000), (0x700208, 0), (0x700210, 0), (0x700218, 0), (0x700220, 0), (0x700228, 0), (0x700230, 0),
        (0x700238, 0), (0x700240, 0), (0x800010, 0), (0x800018, 0), (0x800020, 0), (0x800028, 0)] ++
        [(0x900000, 1), (0x900008, 0), (0x900010, 0), (0x900018, 0), (0x900028, 0x0000001400400000), (0x900030, 0), (0x1010000, 0),
        (0x1010008, 0x7F), (0x1010010, 0), (0x1010018, 0), (0x1010020, 0), (0x1010028, 0)] ++
        [(0xB00000, 2), (0xB00008, 0x00010000FFFFFFFF), (0xB00018, 0x40), (0xB00020, 0), (0xB00028, 0), (0xB00030, 0), (0xB00038, 0),
        (0xB00040, 0), (0xB00048, 0)] : List (Nat × Nat)), u.readReg 0 r.1 = r.2))

/-- Every step takes exactly the first command off the queue, keeps the unit, and never un-blows a fuse (15_security.md: Firmware and anti-rollback; 18_power_clocks_reset.md: Resets). -/
def Obligations.StepsKeepFusesIdentityAndOrder : Prop :=
  ∀ s t : State, step s = .next t →
    t.pending = s.pending.tail ∧ t.unit = s.unit ∧ FusesKept s.sec t.sec ∧
      (s.sec.versionsFit → t.sec.versionsFit)

/-- The fuses and firmware slots after reset are in range (15_security.md: Firmware and anti-rollback). -/
def Obligations.ResetVersionsFit : Prop :=
  State.reset.sec.versionsFit

/-- Every command goes on in every state, save a MOD_RESET_N pulse of 1 to 10 µs on a powered module (18_power_clocks_reset.md: Resets). -/
def Obligations.OnlyAnUndefinedPulseFaults : Prop :=
  ∀ c (s : State), (undefinedPulse c = false → GoesOn (exec c s)) ∧ (∀ r, exec c s ≠ .refused r) ∧
    (undefinedPulse c = true → (s.pwr.st ≠ .off → exec c s = .fault .undefinedPulse) ∧ (s.pwr.st = .off → exec c s = .next s))
end

