-- ==== Sys2Proof/Laws/Keeps.lean ====
section
/-! SUPPORT. What a conditional and a fold over states keep: one lemma per part of the state, for the frame lemmas of the shared operations
(Keeps1 to Keeps4). -/

namespace Sys2Proof.Machine

theorem foldl_fix {α β γ : Type} (P : β → γ) (g : β → α → β) (h : ∀ s a, P (g s a) = P s) (l : List α) (s : β) :
    P (l.foldl g s) = P s := by
  induction l generalizing s with
  | nil => rfl
  | cons a t ih => rw [List.foldl_cons, ih, h]

theorem foldSome_fix {α β γ : Type} (P : β → γ) (f : β → α → Option β) (h : ∀ s a t, f s a = some t → P t = P s) {l : List α} (s : β) {t : β}
    (e : foldSome f s l = some t) : P t = P s := by
  induction l generalizing s with
  | nil => cases e; rfl
  | cons a l ih =>
    unfold foldSome at e
    split at e
    · next e1 => exact (ih _ e).trans (h _ _ _ e1)
    · cases e

@[simp] theorem Security.ite_fuseSvn (c : Prop) [Decidable c] (a b : Security) : (if c then a else b).fuseSvn = if c then a.fuseSvn else b.fuseSvn :=
  apply_ite (fun s : Security => s.fuseSvn) c a b

@[simp] theorem Security.ite_revoked (c : Prop) [Decidable c] (a b : Security) : (if c then a else b).revoked = if c then a.revoked else b.revoked :=
  apply_ite (fun s : Security => s.revoked) c a b

@[simp] theorem Security.ite_slots (c : Prop) [Decidable c] (a b : Security) : (if c then a else b).slots = if c then a.slots else b.slots :=
  apply_ite (fun s : Security => s.slots) c a b

@[simp] theorem State.ite_unit (c : Prop) [Decidable c] (a b : State) : (if c then a else b).unit = if c then a.unit else b.unit :=
  apply_ite (fun s : State => s.unit) c a b

@[simp] theorem State.foldl_unit {α : Type} (g : State → α → State) (h : ∀ s a, (g s a).unit = s.unit) (l : List α) (s : State) :
    (l.foldl g s).unit = s.unit := by
  induction l generalizing s with
  | nil => rfl
  | cons a t ih => rw [List.foldl_cons, ih, h]

@[simp] theorem State.ite_free (c : Prop) [Decidable c] (a b : State) : (if c then a else b).free = if c then a.free else b.free :=
  apply_ite (fun s : State => s.free) c a b

@[simp] theorem State.foldl_free {α : Type} (g : State → α → State) (h : ∀ s a, (g s a).free = s.free) (l : List α) (s : State) :
    (l.foldl g s).free = s.free := by
  induction l generalizing s with
  | nil => rfl
  | cons a t ih => rw [List.foldl_cons, ih, h]

@[simp] theorem State.ite_tick (c : Prop) [Decidable c] (a b : State) : (if c then a else b).tick = if c then a.tick else b.tick :=
  apply_ite (fun s : State => s.tick) c a b

@[simp] theorem State.foldl_tick {α : Type} (g : State → α → State) (h : ∀ s a, (g s a).tick = s.tick) (l : List α) (s : State) :
    (l.foldl g s).tick = s.tick := by
  induction l generalizing s with
  | nil => rfl
  | cons a t ih => rw [List.foldl_cons, ih, h]

@[simp] theorem State.ite_regs (c : Prop) [Decidable c] (a b : State) : (if c then a else b).regs = if c then a.regs else b.regs :=
  apply_ite (fun s : State => s.regs) c a b

@[simp] theorem State.foldl_regs {α : Type} (g : State → α → State) (h : ∀ s a, (g s a).regs = s.regs) (l : List α) (s : State) :
    (l.foldl g s).regs = s.regs := by
  induction l generalizing s with
  | nil => rfl
  | cons a t ih => rw [List.foldl_cons, ih, h]

@[simp] theorem State.ite_ctrs (c : Prop) [Decidable c] (a b : State) : (if c then a else b).ctrs = if c then a.ctrs else b.ctrs :=
  apply_ite (fun s : State => s.ctrs) c a b

@[simp] theorem State.foldl_ctrs {α : Type} (g : State → α → State) (h : ∀ s a, (g s a).ctrs = s.ctrs) (l : List α) (s : State) :
    (l.foldl g s).ctrs = s.ctrs := by
  induction l generalizing s with
  | nil => rfl
  | cons a t ih => rw [List.foldl_cons, ih, h]

@[simp] theorem State.ite_host (c : Prop) [Decidable c] (a b : State) : (if c then a else b).host = if c then a.host else b.host :=
  apply_ite (fun s : State => s.host) c a b

@[simp] theorem State.foldl_host {α : Type} (g : State → α → State) (h : ∀ s a, (g s a).host = s.host) (l : List α) (s : State) :
    (l.foldl g s).host = s.host := by
  induction l generalizing s with
  | nil => rfl
  | cons a t ih => rw [List.foldl_cons, ih, h]

@[simp] theorem State.ite_sess (c : Prop) [Decidable c] (a b : State) : (if c then a else b).sess = if c then a.sess else b.sess :=
  apply_ite (fun s : State => s.sess) c a b

@[simp] theorem State.foldl_sess {α : Type} (g : State → α → State) (h : ∀ s a, (g s a).sess = s.sess) (l : List α) (s : State) :
    (l.foldl g s).sess = s.sess := by
  induction l generalizing s with
  | nil => rfl
  | cons a t ih => rw [List.foldl_cons, ih, h]

@[simp] theorem State.ite_fab (c : Prop) [Decidable c] (a b : State) : (if c then a else b).fab = if c then a.fab else b.fab :=
  apply_ite (fun s : State => s.fab) c a b

@[simp] theorem State.foldl_fab {α : Type} (g : State → α → State) (h : ∀ s a, (g s a).fab = s.fab) (l : List α) (s : State) :
    (l.foldl g s).fab = s.fab := by
  induction l generalizing s with
  | nil => rfl
  | cons a t ih => rw [List.foldl_cons, ih, h]

@[simp] theorem State.ite_dir (c : Prop) [Decidable c] (a b : State) : (if c then a else b).dir = if c then a.dir else b.dir :=
  apply_ite (fun s : State => s.dir) c a b

@[simp] theorem State.foldl_dir {α : Type} (g : State → α → State) (h : ∀ s a, (g s a).dir = s.dir) (l : List α) (s : State) :
    (l.foldl g s).dir = s.dir := by
  induction l generalizing s with
  | nil => rfl
  | cons a t ih => rw [List.foldl_cons, ih, h]

@[simp] theorem State.ite_att (c : Prop) [Decidable c] (a b : State) : (if c then a else b).att = if c then a.att else b.att :=
  apply_ite (fun s : State => s.att) c a b

@[simp] theorem State.foldl_att {α : Type} (g : State → α → State) (h : ∀ s a, (g s a).att = s.att) (l : List α) (s : State) :
    (l.foldl g s).att = s.att := by
  induction l generalizing s with
  | nil => rfl
  | cons a t ih => rw [List.foldl_cons, ih, h]

@[simp] theorem State.ite_beat (c : Prop) [Decidable c] (a b : State) : (if c then a else b).beat = if c then a.beat else b.beat :=
  apply_ite (fun s : State => s.beat) c a b

@[simp] theorem State.foldl_beat {α : Type} (g : State → α → State) (h : ∀ s a, (g s a).beat = s.beat) (l : List α) (s : State) :
    (l.foldl g s).beat = s.beat := by
  induction l generalizing s with
  | nil => rfl
  | cons a t ih => rw [List.foldl_cons, ih, h]

@[simp] theorem State.ite_emit (c : Prop) [Decidable c] (a b : State) : (if c then a else b).emit = if c then a.emit else b.emit :=
  apply_ite (fun s : State => s.emit) c a b

@[simp] theorem State.foldl_emit {α : Type} (g : State → α → State) (h : ∀ s a, (g s a).emit = s.emit) (l : List α) (s : State) :
    (l.foldl g s).emit = s.emit := by
  induction l generalizing s with
  | nil => rfl
  | cons a t ih => rw [List.foldl_cons, ih, h]

@[simp] theorem State.ite_text (c : Prop) [Decidable c] (a b : State) : (if c then a else b).text = if c then a.text else b.text :=
  apply_ite (fun s : State => s.text) c a b

@[simp] theorem State.foldl_text {α : Type} (g : State → α → State) (h : ∀ s a, (g s a).text = s.text) (l : List α) (s : State) :
    (l.foldl g s).text = s.text := by
  induction l generalizing s with
  | nil => rfl
  | cons a t ih => rw [List.foldl_cons, ih, h]

@[simp] theorem State.ite_cores (c : Prop) [Decidable c] (a b : State) : (if c then a else b).cores = if c then a.cores else b.cores :=
  apply_ite (fun s : State => s.cores) c a b

@[simp] theorem State.foldl_cores {α : Type} (g : State → α → State) (h : ∀ s a, (g s a).cores = s.cores) (l : List α) (s : State) :
    (l.foldl g s).cores = s.cores := by
  induction l generalizing s with
  | nil => rfl
  | cons a t ih => rw [List.foldl_cons, ih, h]

@[simp] theorem State.ite_ret (c : Prop) [Decidable c] (a b : State) : (if c then a else b).ret = if c then a.ret else b.ret :=
  apply_ite (fun s : State => s.ret) c a b

@[simp] theorem State.foldl_ret {α : Type} (g : State → α → State) (h : ∀ s a, (g s a).ret = s.ret) (l : List α) (s : State) :
    (l.foldl g s).ret = s.ret := by
  induction l generalizing s with
  | nil => rfl
  | cons a t ih => rw [List.foldl_cons, ih, h]

@[simp] theorem State.ite_link (c : Prop) [Decidable c] (a b : State) : (if c then a else b).link = if c then a.link else b.link :=
  apply_ite (fun s : State => s.link) c a b

@[simp] theorem State.foldl_link {α : Type} (g : State → α → State) (h : ∀ s a, (g s a).link = s.link) (l : List α) (s : State) :
    (l.foldl g s).link = s.link := by
  induction l generalizing s with
  | nil => rfl
  | cons a t ih => rw [List.foldl_cons, ih, h]

@[simp] theorem State.ite_part (c : Prop) [Decidable c] (a b : State) : (if c then a else b).part = if c then a.part else b.part :=
  apply_ite (fun s : State => s.part) c a b

@[simp] theorem State.foldl_part {α : Type} (g : State → α → State) (h : ∀ s a, (g s a).part = s.part) (l : List α) (s : State) :
    (l.foldl g s).part = s.part := by
  induction l generalizing s with
  | nil => rfl
  | cons a t ih => rw [List.foldl_cons, ih, h]

@[simp] theorem State.ite_sec (c : Prop) [Decidable c] (a b : State) : (if c then a else b).sec = if c then a.sec else b.sec :=
  apply_ite (fun s : State => s.sec) c a b

@[simp] theorem State.foldl_sec {α : Type} (g : State → α → State) (h : ∀ s a, (g s a).sec = s.sec) (l : List α) (s : State) :
    (l.foldl g s).sec = s.sec := by
  induction l generalizing s with
  | nil => rfl
  | cons a t ih => rw [List.foldl_cons, ih, h]

@[simp] theorem State.ite_ckpt (c : Prop) [Decidable c] (a b : State) : (if c then a else b).ckpt = if c then a.ckpt else b.ckpt :=
  apply_ite (fun s : State => s.ckpt) c a b

@[simp] theorem State.foldl_ckpt {α : Type} (g : State → α → State) (h : ∀ s a, (g s a).ckpt = s.ckpt) (l : List α) (s : State) :
    (l.foldl g s).ckpt = s.ckpt := by
  induction l generalizing s with
  | nil => rfl
  | cons a t ih => rw [List.foldl_cons, ih, h]

@[simp] theorem State.ite_mgmt (c : Prop) [Decidable c] (a b : State) : (if c then a else b).mgmt = if c then a.mgmt else b.mgmt :=
  apply_ite (fun s : State => s.mgmt) c a b

@[simp] theorem State.foldl_mgmt {α : Type} (g : State → α → State) (h : ∀ s a, (g s a).mgmt = s.mgmt) (l : List α) (s : State) :
    (l.foldl g s).mgmt = s.mgmt := by
  induction l generalizing s with
  | nil => rfl
  | cons a t ih => rw [List.foldl_cons, ih, h]

@[simp] theorem State.ite_pwr (c : Prop) [Decidable c] (a b : State) : (if c then a else b).pwr = if c then a.pwr else b.pwr :=
  apply_ite (fun s : State => s.pwr) c a b

@[simp] theorem State.foldl_pwr {α : Type} (g : State → α → State) (h : ∀ s a, (g s a).pwr = s.pwr) (l : List α) (s : State) :
    (l.foldl g s).pwr = s.pwr := by
  induction l generalizing s with
  | nil => rfl
  | cons a t ih => rw [List.foldl_cons, ih, h]

@[simp] theorem State.ite_out (c : Prop) [Decidable c] (a b : State) : (if c then a else b).out = if c then a.out else b.out :=
  apply_ite (fun s : State => s.out) c a b

@[simp] theorem State.foldl_out {α : Type} (g : State → α → State) (h : ∀ s a, (g s a).out = s.out) (l : List α) (s : State) :
    (l.foldl g s).out = s.out := by
  induction l generalizing s with
  | nil => rfl
  | cons a t ih => rw [List.foldl_cons, ih, h]

@[simp] theorem State.ite_pending (c : Prop) [Decidable c] (a b : State) : (if c then a else b).pending = if c then a.pending else b.pending :=
  apply_ite (fun s : State => s.pending) c a b

@[simp] theorem State.foldl_pending {α : Type} (g : State → α → State) (h : ∀ s a, (g s a).pending = s.pending) (l : List α) (s : State) :
    (l.foldl g s).pending = s.pending := by
  induction l generalizing s with
  | nil => rfl
  | cons a t ih => rw [List.foldl_cons, ih, h]

@[simp] theorem State.ite_sec_fuseSvn (c : Prop) [Decidable c] (a b : State) : (if c then a else b).sec.fuseSvn = if c then a.sec.fuseSvn else b.sec.fuseSvn :=
  apply_ite (fun s : State => s.sec.fuseSvn) c a b

@[simp] theorem State.foldl_sec_fuseSvn {α : Type} (g : State → α → State) (h : ∀ s a, (g s a).sec.fuseSvn = s.sec.fuseSvn) (l : List α) (s : State) :
    (l.foldl g s).sec.fuseSvn = s.sec.fuseSvn := by
  induction l generalizing s with
  | nil => rfl
  | cons a t ih => rw [List.foldl_cons, ih, h]

@[simp] theorem State.ite_sec_revoked (c : Prop) [Decidable c] (a b : State) : (if c then a else b).sec.revoked = if c then a.sec.revoked else b.sec.revoked :=
  apply_ite (fun s : State => s.sec.revoked) c a b

@[simp] theorem State.foldl_sec_revoked {α : Type} (g : State → α → State) (h : ∀ s a, (g s a).sec.revoked = s.sec.revoked) (l : List α) (s : State) :
    (l.foldl g s).sec.revoked = s.sec.revoked := by
  induction l generalizing s with
  | nil => rfl
  | cons a t ih => rw [List.foldl_cons, ih, h]

@[simp] theorem State.ite_sec_slots (c : Prop) [Decidable c] (a b : State) : (if c then a else b).sec.slots = if c then a.sec.slots else b.sec.slots :=
  apply_ite (fun s : State => s.sec.slots) c a b

@[simp] theorem State.foldl_sec_slots {α : Type} (g : State → α → State) (h : ∀ s a, (g s a).sec.slots = s.sec.slots) (l : List α) (s : State) :
    (l.foldl g s).sec.slots = s.sec.slots := by
  induction l generalizing s with
  | nil => rfl
  | cons a t ih => rw [List.foldl_cons, ih, h]

end Sys2Proof.Machine
end

