-- ==== Sys2Proof/Laws/Keeps1.lean ====
section
/-! SUPPORT. The frame of each shared operation on the state: the parts it leaves as they are (Counters, DirOps, Fabric, Messages, Ops, Sessions, Text). -/

namespace Sys2Proof.Machine

@[simp] theorem State.bumpBy_keeps (s : State) (c : Counter) (scope : Nat) (n : Nat) :
    (s.bumpBy c scope n).unit = s.unit ∧ (s.bumpBy c scope n).free = s.free ∧ (s.bumpBy c scope n).tick = s.tick ∧
    (s.bumpBy c scope n).regs = s.regs ∧ (s.bumpBy c scope n).host = s.host ∧ (s.bumpBy c scope n).sess = s.sess ∧
    (s.bumpBy c scope n).fab = s.fab ∧ (s.bumpBy c scope n).dir = s.dir ∧ (s.bumpBy c scope n).att = s.att ∧
    (s.bumpBy c scope n).beat = s.beat ∧ (s.bumpBy c scope n).emit = s.emit ∧ (s.bumpBy c scope n).text = s.text ∧
    (s.bumpBy c scope n).cores = s.cores ∧ (s.bumpBy c scope n).ret = s.ret ∧ (s.bumpBy c scope n).link = s.link ∧
    (s.bumpBy c scope n).part = s.part ∧ (s.bumpBy c scope n).sec = s.sec ∧ (s.bumpBy c scope n).ckpt = s.ckpt ∧
    (s.bumpBy c scope n).mgmt = s.mgmt ∧ (s.bumpBy c scope n).pwr = s.pwr ∧ (s.bumpBy c scope n).out = s.out ∧
    (s.bumpBy c scope n).pending = s.pending := by
  exact ⟨rfl, rfl, rfl, rfl, rfl, rfl, rfl, rfl, rfl, rfl, rfl, rfl, rfl, rfl, rfl, rfl, rfl, rfl, rfl, rfl, rfl, rfl⟩

@[simp] theorem State.bump_keeps (s : State) (c : Counter) (scope : Nat) :
    (s.bump c scope).unit = s.unit ∧ (s.bump c scope).free = s.free ∧ (s.bump c scope).tick = s.tick ∧
    (s.bump c scope).regs = s.regs ∧ (s.bump c scope).host = s.host ∧ (s.bump c scope).sess = s.sess ∧
    (s.bump c scope).fab = s.fab ∧ (s.bump c scope).dir = s.dir ∧ (s.bump c scope).att = s.att ∧ (s.bump c scope).beat = s.beat ∧
    (s.bump c scope).emit = s.emit ∧ (s.bump c scope).text = s.text ∧ (s.bump c scope).cores = s.cores ∧
    (s.bump c scope).ret = s.ret ∧ (s.bump c scope).link = s.link ∧ (s.bump c scope).part = s.part ∧ (s.bump c scope).sec = s.sec ∧
    (s.bump c scope).ckpt = s.ckpt ∧ (s.bump c scope).mgmt = s.mgmt ∧ (s.bump c scope).pwr = s.pwr ∧ (s.bump c scope).out = s.out ∧
    (s.bump c scope).pending = s.pending := by
  exact ⟨rfl, rfl, rfl, rfl, rfl, rfl, rfl, rfl, rfl, rfl, rfl, rfl, rfl, rfl, rfl, rfl, rfl, rfl, rfl, rfl, rfl, rfl⟩

@[simp] theorem State.setReg_keeps (s : State) (r : Reg) (scope : Nat) (v : Nat) :
    (s.setReg r scope v).unit = s.unit ∧ (s.setReg r scope v).free = s.free ∧ (s.setReg r scope v).tick = s.tick ∧
    (s.setReg r scope v).ctrs = s.ctrs ∧ (s.setReg r scope v).host = s.host ∧ (s.setReg r scope v).sess = s.sess ∧
    (s.setReg r scope v).fab = s.fab ∧ (s.setReg r scope v).dir = s.dir ∧ (s.setReg r scope v).att = s.att ∧
    (s.setReg r scope v).beat = s.beat ∧ (s.setReg r scope v).emit = s.emit ∧ (s.setReg r scope v).text = s.text ∧
    (s.setReg r scope v).cores = s.cores ∧ (s.setReg r scope v).ret = s.ret ∧ (s.setReg r scope v).link = s.link ∧
    (s.setReg r scope v).part = s.part ∧ (s.setReg r scope v).sec = s.sec ∧ (s.setReg r scope v).ckpt = s.ckpt ∧
    (s.setReg r scope v).mgmt = s.mgmt ∧ (s.setReg r scope v).pwr = s.pwr ∧ (s.setReg r scope v).out = s.out ∧
    (s.setReg r scope v).pending = s.pending := by
  exact ⟨rfl, rfl, rfl, rfl, rfl, rfl, rfl, rfl, rfl, rfl, rfl, rfl, rfl, rfl, rfl, rfl, rfl, rfl, rfl, rfl, rfl, rfl⟩

@[simp] theorem State.draw_keeps (s : State) :
    s.draw.unit = s.unit ∧ s.draw.tick = s.tick ∧ s.draw.regs = s.regs ∧ s.draw.ctrs = s.ctrs ∧ s.draw.host = s.host ∧
    s.draw.sess = s.sess ∧ s.draw.fab = s.fab ∧ s.draw.dir = s.dir ∧ s.draw.att = s.att ∧ s.draw.beat = s.beat ∧
    s.draw.emit = s.emit ∧ s.draw.text = s.text ∧ s.draw.cores = s.cores ∧ s.draw.ret = s.ret ∧ s.draw.link = s.link ∧
    s.draw.part = s.part ∧ s.draw.sec = s.sec ∧ s.draw.ckpt = s.ckpt ∧ s.draw.mgmt = s.mgmt ∧ s.draw.pwr = s.pwr ∧
    s.draw.out = s.out ∧ s.draw.pending = s.pending := by
  exact ⟨rfl, rfl, rfl, rfl, rfl, rfl, rfl, rfl, rfl, rfl, rfl, rfl, rfl, rfl, rfl, rfl, rfl, rfl, rfl, rfl, rfl, rfl⟩

@[simp] theorem State.emitOut_keeps (s : State) (o : Out) :
    (s.emitOut o).unit = s.unit ∧ (s.emitOut o).free = s.free ∧ (s.emitOut o).tick = s.tick ∧ (s.emitOut o).regs = s.regs ∧
    (s.emitOut o).ctrs = s.ctrs ∧ (s.emitOut o).host = s.host ∧ (s.emitOut o).sess = s.sess ∧ (s.emitOut o).fab = s.fab ∧
    (s.emitOut o).dir = s.dir ∧ (s.emitOut o).att = s.att ∧ (s.emitOut o).beat = s.beat ∧ (s.emitOut o).emit = s.emit ∧
    (s.emitOut o).text = s.text ∧ (s.emitOut o).cores = s.cores ∧ (s.emitOut o).ret = s.ret ∧ (s.emitOut o).link = s.link ∧
    (s.emitOut o).part = s.part ∧ (s.emitOut o).sec = s.sec ∧ (s.emitOut o).ckpt = s.ckpt ∧ (s.emitOut o).mgmt = s.mgmt ∧
    (s.emitOut o).pwr = s.pwr ∧ (s.emitOut o).pending = s.pending := by
  exact ⟨rfl, rfl, rfl, rfl, rfl, rfl, rfl, rfl, rfl, rfl, rfl, rfl, rfl, rfl, rfl, rfl, rfl, rfl, rfl, rfl, rfl, rfl⟩

@[simp] theorem State.modHost_keeps (s : State) (f : HostIf → HostIf) :
    (s.modHost f).unit = s.unit ∧ (s.modHost f).free = s.free ∧ (s.modHost f).tick = s.tick ∧ (s.modHost f).regs = s.regs ∧
    (s.modHost f).ctrs = s.ctrs ∧ (s.modHost f).sess = s.sess ∧ (s.modHost f).fab = s.fab ∧ (s.modHost f).dir = s.dir ∧
    (s.modHost f).att = s.att ∧ (s.modHost f).beat = s.beat ∧ (s.modHost f).emit = s.emit ∧ (s.modHost f).text = s.text ∧
    (s.modHost f).cores = s.cores ∧ (s.modHost f).ret = s.ret ∧ (s.modHost f).link = s.link ∧ (s.modHost f).part = s.part ∧
    (s.modHost f).sec = s.sec ∧ (s.modHost f).ckpt = s.ckpt ∧ (s.modHost f).mgmt = s.mgmt ∧ (s.modHost f).pwr = s.pwr ∧
    (s.modHost f).out = s.out ∧ (s.modHost f).pending = s.pending := by
  exact ⟨rfl, rfl, rfl, rfl, rfl, rfl, rfl, rfl, rfl, rfl, rfl, rfl, rfl, rfl, rfl, rfl, rfl, rfl, rfl, rfl, rfl, rfl⟩

@[simp] theorem State.modFab_keeps (s : State) (f : Fabric → Fabric) :
    (s.modFab f).unit = s.unit ∧ (s.modFab f).free = s.free ∧ (s.modFab f).tick = s.tick ∧ (s.modFab f).regs = s.regs ∧
    (s.modFab f).ctrs = s.ctrs ∧ (s.modFab f).host = s.host ∧ (s.modFab f).sess = s.sess ∧ (s.modFab f).dir = s.dir ∧
    (s.modFab f).att = s.att ∧ (s.modFab f).beat = s.beat ∧ (s.modFab f).emit = s.emit ∧ (s.modFab f).text = s.text ∧
    (s.modFab f).cores = s.cores ∧ (s.modFab f).ret = s.ret ∧ (s.modFab f).link = s.link ∧ (s.modFab f).part = s.part ∧
    (s.modFab f).sec = s.sec ∧ (s.modFab f).ckpt = s.ckpt ∧ (s.modFab f).mgmt = s.mgmt ∧ (s.modFab f).pwr = s.pwr ∧
    (s.modFab f).out = s.out ∧ (s.modFab f).pending = s.pending := by
  exact ⟨rfl, rfl, rfl, rfl, rfl, rfl, rfl, rfl, rfl, rfl, rfl, rfl, rfl, rfl, rfl, rfl, rfl, rfl, rfl, rfl, rfl, rfl⟩

@[simp] theorem State.modDir_keeps (s : State) (f : Directory → Directory) :
    (s.modDir f).unit = s.unit ∧ (s.modDir f).free = s.free ∧ (s.modDir f).tick = s.tick ∧ (s.modDir f).regs = s.regs ∧
    (s.modDir f).ctrs = s.ctrs ∧ (s.modDir f).host = s.host ∧ (s.modDir f).sess = s.sess ∧ (s.modDir f).fab = s.fab ∧
    (s.modDir f).att = s.att ∧ (s.modDir f).beat = s.beat ∧ (s.modDir f).emit = s.emit ∧ (s.modDir f).text = s.text ∧
    (s.modDir f).cores = s.cores ∧ (s.modDir f).ret = s.ret ∧ (s.modDir f).link = s.link ∧ (s.modDir f).part = s.part ∧
    (s.modDir f).sec = s.sec ∧ (s.modDir f).ckpt = s.ckpt ∧ (s.modDir f).mgmt = s.mgmt ∧ (s.modDir f).pwr = s.pwr ∧
    (s.modDir f).out = s.out ∧ (s.modDir f).pending = s.pending := by
  exact ⟨rfl, rfl, rfl, rfl, rfl, rfl, rfl, rfl, rfl, rfl, rfl, rfl, rfl, rfl, rfl, rfl, rfl, rfl, rfl, rfl, rfl, rfl⟩

@[simp] theorem State.modAtt_keeps (s : State) (f : Attention → Attention) :
    (s.modAtt f).unit = s.unit ∧ (s.modAtt f).free = s.free ∧ (s.modAtt f).tick = s.tick ∧ (s.modAtt f).regs = s.regs ∧
    (s.modAtt f).ctrs = s.ctrs ∧ (s.modAtt f).host = s.host ∧ (s.modAtt f).sess = s.sess ∧ (s.modAtt f).fab = s.fab ∧
    (s.modAtt f).dir = s.dir ∧ (s.modAtt f).beat = s.beat ∧ (s.modAtt f).emit = s.emit ∧ (s.modAtt f).text = s.text ∧
    (s.modAtt f).cores = s.cores ∧ (s.modAtt f).ret = s.ret ∧ (s.modAtt f).link = s.link ∧ (s.modAtt f).part = s.part ∧
    (s.modAtt f).sec = s.sec ∧ (s.modAtt f).ckpt = s.ckpt ∧ (s.modAtt f).mgmt = s.mgmt ∧ (s.modAtt f).pwr = s.pwr ∧
    (s.modAtt f).out = s.out ∧ (s.modAtt f).pending = s.pending := by
  exact ⟨rfl, rfl, rfl, rfl, rfl, rfl, rfl, rfl, rfl, rfl, rfl, rfl, rfl, rfl, rfl, rfl, rfl, rfl, rfl, rfl, rfl, rfl⟩

@[simp] theorem State.modBeat_keeps (s : State) (f : BeatUnit → BeatUnit) :
    (s.modBeat f).unit = s.unit ∧ (s.modBeat f).free = s.free ∧ (s.modBeat f).tick = s.tick ∧ (s.modBeat f).regs = s.regs ∧
    (s.modBeat f).ctrs = s.ctrs ∧ (s.modBeat f).host = s.host ∧ (s.modBeat f).sess = s.sess ∧ (s.modBeat f).fab = s.fab ∧
    (s.modBeat f).dir = s.dir ∧ (s.modBeat f).att = s.att ∧ (s.modBeat f).emit = s.emit ∧ (s.modBeat f).text = s.text ∧
    (s.modBeat f).cores = s.cores ∧ (s.modBeat f).ret = s.ret ∧ (s.modBeat f).link = s.link ∧ (s.modBeat f).part = s.part ∧
    (s.modBeat f).sec = s.sec ∧ (s.modBeat f).ckpt = s.ckpt ∧ (s.modBeat f).mgmt = s.mgmt ∧ (s.modBeat f).pwr = s.pwr ∧
    (s.modBeat f).out = s.out ∧ (s.modBeat f).pending = s.pending := by
  exact ⟨rfl, rfl, rfl, rfl, rfl, rfl, rfl, rfl, rfl, rfl, rfl, rfl, rfl, rfl, rfl, rfl, rfl, rfl, rfl, rfl, rfl, rfl⟩

@[simp] theorem State.modEmit_keeps (s : State) (f : EmitUnit → EmitUnit) :
    (s.modEmit f).unit = s.unit ∧ (s.modEmit f).free = s.free ∧ (s.modEmit f).tick = s.tick ∧ (s.modEmit f).regs = s.regs ∧
    (s.modEmit f).ctrs = s.ctrs ∧ (s.modEmit f).host = s.host ∧ (s.modEmit f).sess = s.sess ∧ (s.modEmit f).fab = s.fab ∧
    (s.modEmit f).dir = s.dir ∧ (s.modEmit f).att = s.att ∧ (s.modEmit f).beat = s.beat ∧ (s.modEmit f).text = s.text ∧
    (s.modEmit f).cores = s.cores ∧ (s.modEmit f).ret = s.ret ∧ (s.modEmit f).link = s.link ∧ (s.modEmit f).part = s.part ∧
    (s.modEmit f).sec = s.sec ∧ (s.modEmit f).ckpt = s.ckpt ∧ (s.modEmit f).mgmt = s.mgmt ∧ (s.modEmit f).pwr = s.pwr ∧
    (s.modEmit f).out = s.out ∧ (s.modEmit f).pending = s.pending := by
  exact ⟨rfl, rfl, rfl, rfl, rfl, rfl, rfl, rfl, rfl, rfl, rfl, rfl, rfl, rfl, rfl, rfl, rfl, rfl, rfl, rfl, rfl, rfl⟩

@[simp] theorem State.modText_keeps (s : State) (f : TextUnit → TextUnit) :
    (s.modText f).unit = s.unit ∧ (s.modText f).free = s.free ∧ (s.modText f).tick = s.tick ∧ (s.modText f).regs = s.regs ∧
    (s.modText f).ctrs = s.ctrs ∧ (s.modText f).host = s.host ∧ (s.modText f).sess = s.sess ∧ (s.modText f).fab = s.fab ∧
    (s.modText f).dir = s.dir ∧ (s.modText f).att = s.att ∧ (s.modText f).beat = s.beat ∧ (s.modText f).emit = s.emit ∧
    (s.modText f).cores = s.cores ∧ (s.modText f).ret = s.ret ∧ (s.modText f).link = s.link ∧ (s.modText f).part = s.part ∧
    (s.modText f).sec = s.sec ∧ (s.modText f).ckpt = s.ckpt ∧ (s.modText f).mgmt = s.mgmt ∧ (s.modText f).pwr = s.pwr ∧
    (s.modText f).out = s.out ∧ (s.modText f).pending = s.pending := by
  exact ⟨rfl, rfl, rfl, rfl, rfl, rfl, rfl, rfl, rfl, rfl, rfl, rfl, rfl, rfl, rfl, rfl, rfl, rfl, rfl, rfl, rfl, rfl⟩

@[simp] theorem State.modCores_keeps (s : State) (f : Cores → Cores) :
    (s.modCores f).unit = s.unit ∧ (s.modCores f).free = s.free ∧ (s.modCores f).tick = s.tick ∧ (s.modCores f).regs = s.regs ∧
    (s.modCores f).ctrs = s.ctrs ∧ (s.modCores f).host = s.host ∧ (s.modCores f).sess = s.sess ∧ (s.modCores f).fab = s.fab ∧
    (s.modCores f).dir = s.dir ∧ (s.modCores f).att = s.att ∧ (s.modCores f).beat = s.beat ∧ (s.modCores f).emit = s.emit ∧
    (s.modCores f).text = s.text ∧ (s.modCores f).ret = s.ret ∧ (s.modCores f).link = s.link ∧ (s.modCores f).part = s.part ∧
    (s.modCores f).sec = s.sec ∧ (s.modCores f).ckpt = s.ckpt ∧ (s.modCores f).mgmt = s.mgmt ∧ (s.modCores f).pwr = s.pwr ∧
    (s.modCores f).out = s.out ∧ (s.modCores f).pending = s.pending := by
  exact ⟨rfl, rfl, rfl, rfl, rfl, rfl, rfl, rfl, rfl, rfl, rfl, rfl, rfl, rfl, rfl, rfl, rfl, rfl, rfl, rfl, rfl, rfl⟩

@[simp] theorem State.modRet_keeps (s : State) (f : Retrieval → Retrieval) :
    (s.modRet f).unit = s.unit ∧ (s.modRet f).free = s.free ∧ (s.modRet f).tick = s.tick ∧ (s.modRet f).regs = s.regs ∧
    (s.modRet f).ctrs = s.ctrs ∧ (s.modRet f).host = s.host ∧ (s.modRet f).sess = s.sess ∧ (s.modRet f).fab = s.fab ∧
    (s.modRet f).dir = s.dir ∧ (s.modRet f).att = s.att ∧ (s.modRet f).beat = s.beat ∧ (s.modRet f).emit = s.emit ∧
    (s.modRet f).text = s.text ∧ (s.modRet f).cores = s.cores ∧ (s.modRet f).link = s.link ∧ (s.modRet f).part = s.part ∧
    (s.modRet f).sec = s.sec ∧ (s.modRet f).ckpt = s.ckpt ∧ (s.modRet f).mgmt = s.mgmt ∧ (s.modRet f).pwr = s.pwr ∧
    (s.modRet f).out = s.out ∧ (s.modRet f).pending = s.pending := by
  exact ⟨rfl, rfl, rfl, rfl, rfl, rfl, rfl, rfl, rfl, rfl, rfl, rfl, rfl, rfl, rfl, rfl, rfl, rfl, rfl, rfl, rfl, rfl⟩

@[simp] theorem State.modLink_keeps (s : State) (f : Link → Link) :
    (s.modLink f).unit = s.unit ∧ (s.modLink f).free = s.free ∧ (s.modLink f).tick = s.tick ∧ (s.modLink f).regs = s.regs ∧
    (s.modLink f).ctrs = s.ctrs ∧ (s.modLink f).host = s.host ∧ (s.modLink f).sess = s.sess ∧ (s.modLink f).fab = s.fab ∧
    (s.modLink f).dir = s.dir ∧ (s.modLink f).att = s.att ∧ (s.modLink f).beat = s.beat ∧ (s.modLink f).emit = s.emit ∧
    (s.modLink f).text = s.text ∧ (s.modLink f).cores = s.cores ∧ (s.modLink f).ret = s.ret ∧ (s.modLink f).part = s.part ∧
    (s.modLink f).sec = s.sec ∧ (s.modLink f).ckpt = s.ckpt ∧ (s.modLink f).mgmt = s.mgmt ∧ (s.modLink f).pwr = s.pwr ∧
    (s.modLink f).out = s.out ∧ (s.modLink f).pending = s.pending := by
  exact ⟨rfl, rfl, rfl, rfl, rfl, rfl, rfl, rfl, rfl, rfl, rfl, rfl, rfl, rfl, rfl, rfl, rfl, rfl, rfl, rfl, rfl, rfl⟩

@[simp] theorem State.modPartU_keeps (s : State) (f : PartUnit → PartUnit) :
    (s.modPartU f).unit = s.unit ∧ (s.modPartU f).free = s.free ∧ (s.modPartU f).tick = s.tick ∧ (s.modPartU f).regs = s.regs ∧
    (s.modPartU f).ctrs = s.ctrs ∧ (s.modPartU f).host = s.host ∧ (s.modPartU f).sess = s.sess ∧ (s.modPartU f).fab = s.fab ∧
    (s.modPartU f).dir = s.dir ∧ (s.modPartU f).att = s.att ∧ (s.modPartU f).beat = s.beat ∧ (s.modPartU f).emit = s.emit ∧
    (s.modPartU f).text = s.text ∧ (s.modPartU f).cores = s.cores ∧ (s.modPartU f).ret = s.ret ∧ (s.modPartU f).link = s.link ∧
    (s.modPartU f).sec = s.sec ∧ (s.modPartU f).ckpt = s.ckpt ∧ (s.modPartU f).mgmt = s.mgmt ∧ (s.modPartU f).pwr = s.pwr ∧
    (s.modPartU f).out = s.out ∧ (s.modPartU f).pending = s.pending := by
  exact ⟨rfl, rfl, rfl, rfl, rfl, rfl, rfl, rfl, rfl, rfl, rfl, rfl, rfl, rfl, rfl, rfl, rfl, rfl, rfl, rfl, rfl, rfl⟩

@[simp] theorem State.modSec_keeps (s : State) (f : Security → Security) :
    (s.modSec f).unit = s.unit ∧ (s.modSec f).free = s.free ∧ (s.modSec f).tick = s.tick ∧ (s.modSec f).regs = s.regs ∧
    (s.modSec f).ctrs = s.ctrs ∧ (s.modSec f).host = s.host ∧ (s.modSec f).sess = s.sess ∧ (s.modSec f).fab = s.fab ∧
    (s.modSec f).dir = s.dir ∧ (s.modSec f).att = s.att ∧ (s.modSec f).beat = s.beat ∧ (s.modSec f).emit = s.emit ∧
    (s.modSec f).text = s.text ∧ (s.modSec f).cores = s.cores ∧ (s.modSec f).ret = s.ret ∧ (s.modSec f).link = s.link ∧
    (s.modSec f).part = s.part ∧ (s.modSec f).ckpt = s.ckpt ∧ (s.modSec f).mgmt = s.mgmt ∧ (s.modSec f).pwr = s.pwr ∧
    (s.modSec f).out = s.out ∧ (s.modSec f).pending = s.pending := by
  exact ⟨rfl, rfl, rfl, rfl, rfl, rfl, rfl, rfl, rfl, rfl, rfl, rfl, rfl, rfl, rfl, rfl, rfl, rfl, rfl, rfl, rfl, rfl⟩

@[simp] theorem State.modSec_sec (s : State) (f : Security → Security) : (s.modSec f).sec = f s.sec := rfl

@[simp] theorem State.modCkpt_keeps (s : State) (f : Ckpt → Ckpt) :
    (s.modCkpt f).unit = s.unit ∧ (s.modCkpt f).free = s.free ∧ (s.modCkpt f).tick = s.tick ∧ (s.modCkpt f).regs = s.regs ∧
    (s.modCkpt f).ctrs = s.ctrs ∧ (s.modCkpt f).host = s.host ∧ (s.modCkpt f).sess = s.sess ∧ (s.modCkpt f).fab = s.fab ∧
    (s.modCkpt f).dir = s.dir ∧ (s.modCkpt f).att = s.att ∧ (s.modCkpt f).beat = s.beat ∧ (s.modCkpt f).emit = s.emit ∧
    (s.modCkpt f).text = s.text ∧ (s.modCkpt f).cores = s.cores ∧ (s.modCkpt f).ret = s.ret ∧ (s.modCkpt f).link = s.link ∧
    (s.modCkpt f).part = s.part ∧ (s.modCkpt f).sec = s.sec ∧ (s.modCkpt f).mgmt = s.mgmt ∧ (s.modCkpt f).pwr = s.pwr ∧
    (s.modCkpt f).out = s.out ∧ (s.modCkpt f).pending = s.pending := by
  exact ⟨rfl, rfl, rfl, rfl, rfl, rfl, rfl, rfl, rfl, rfl, rfl, rfl, rfl, rfl, rfl, rfl, rfl, rfl, rfl, rfl, rfl, rfl⟩

@[simp] theorem State.modMgmt_keeps (s : State) (f : Mgmt → Mgmt) :
    (s.modMgmt f).unit = s.unit ∧ (s.modMgmt f).free = s.free ∧ (s.modMgmt f).tick = s.tick ∧ (s.modMgmt f).regs = s.regs ∧
    (s.modMgmt f).ctrs = s.ctrs ∧ (s.modMgmt f).host = s.host ∧ (s.modMgmt f).sess = s.sess ∧ (s.modMgmt f).fab = s.fab ∧
    (s.modMgmt f).dir = s.dir ∧ (s.modMgmt f).att = s.att ∧ (s.modMgmt f).beat = s.beat ∧ (s.modMgmt f).emit = s.emit ∧
    (s.modMgmt f).text = s.text ∧ (s.modMgmt f).cores = s.cores ∧ (s.modMgmt f).ret = s.ret ∧ (s.modMgmt f).link = s.link ∧
    (s.modMgmt f).part = s.part ∧ (s.modMgmt f).sec = s.sec ∧ (s.modMgmt f).ckpt = s.ckpt ∧ (s.modMgmt f).pwr = s.pwr ∧
    (s.modMgmt f).out = s.out ∧ (s.modMgmt f).pending = s.pending := by
  exact ⟨rfl, rfl, rfl, rfl, rfl, rfl, rfl, rfl, rfl, rfl, rfl, rfl, rfl, rfl, rfl, rfl, rfl, rfl, rfl, rfl, rfl, rfl⟩

@[simp] theorem State.modPwr_keeps (s : State) (f : Power → Power) :
    (s.modPwr f).unit = s.unit ∧ (s.modPwr f).free = s.free ∧ (s.modPwr f).tick = s.tick ∧ (s.modPwr f).regs = s.regs ∧
    (s.modPwr f).ctrs = s.ctrs ∧ (s.modPwr f).host = s.host ∧ (s.modPwr f).sess = s.sess ∧ (s.modPwr f).fab = s.fab ∧
    (s.modPwr f).dir = s.dir ∧ (s.modPwr f).att = s.att ∧ (s.modPwr f).beat = s.beat ∧ (s.modPwr f).emit = s.emit ∧
    (s.modPwr f).text = s.text ∧ (s.modPwr f).cores = s.cores ∧ (s.modPwr f).ret = s.ret ∧ (s.modPwr f).link = s.link ∧
    (s.modPwr f).part = s.part ∧ (s.modPwr f).sec = s.sec ∧ (s.modPwr f).ckpt = s.ckpt ∧ (s.modPwr f).mgmt = s.mgmt ∧
    (s.modPwr f).out = s.out ∧ (s.modPwr f).pending = s.pending := by
  exact ⟨rfl, rfl, rfl, rfl, rfl, rfl, rfl, rfl, rfl, rfl, rfl, rfl, rfl, rfl, rfl, rfl, rfl, rfl, rfl, rfl, rfl, rfl⟩

@[simp] theorem State.modPart_keeps (s : State) (p : Nat) (f : Part → Part) :
    (s.modPart p f).unit = s.unit ∧ (s.modPart p f).free = s.free ∧ (s.modPart p f).tick = s.tick ∧ (s.modPart p f).regs = s.regs ∧
    (s.modPart p f).ctrs = s.ctrs ∧ (s.modPart p f).host = s.host ∧ (s.modPart p f).sess = s.sess ∧ (s.modPart p f).fab = s.fab ∧
    (s.modPart p f).dir = s.dir ∧ (s.modPart p f).att = s.att ∧ (s.modPart p f).beat = s.beat ∧ (s.modPart p f).emit = s.emit ∧
    (s.modPart p f).text = s.text ∧ (s.modPart p f).cores = s.cores ∧ (s.modPart p f).ret = s.ret ∧ (s.modPart p f).link = s.link ∧
    (s.modPart p f).sec = s.sec ∧ (s.modPart p f).ckpt = s.ckpt ∧ (s.modPart p f).mgmt = s.mgmt ∧ (s.modPart p f).pwr = s.pwr ∧
    (s.modPart p f).out = s.out ∧ (s.modPart p f).pending = s.pending := by
  exact ⟨rfl, rfl, rfl, rfl, rfl, rfl, rfl, rfl, rfl, rfl, rfl, rfl, rfl, rfl, rfl, rfl, rfl, rfl, rfl, rfl, rfl, rfl⟩

@[simp] theorem State.setSess_keeps (s : State) (id : Nat) (x : Sess) :
    (s.setSess id x).unit = s.unit ∧ (s.setSess id x).free = s.free ∧ (s.setSess id x).tick = s.tick ∧
    (s.setSess id x).regs = s.regs ∧ (s.setSess id x).ctrs = s.ctrs ∧ (s.setSess id x).host = s.host ∧
    (s.setSess id x).fab = s.fab ∧ (s.setSess id x).dir = s.dir ∧ (s.setSess id x).att = s.att ∧ (s.setSess id x).beat = s.beat ∧
    (s.setSess id x).emit = s.emit ∧ (s.setSess id x).text = s.text ∧ (s.setSess id x).cores = s.cores ∧
    (s.setSess id x).ret = s.ret ∧ (s.setSess id x).link = s.link ∧ (s.setSess id x).part = s.part ∧ (s.setSess id x).sec = s.sec ∧
    (s.setSess id x).ckpt = s.ckpt ∧ (s.setSess id x).mgmt = s.mgmt ∧ (s.setSess id x).pwr = s.pwr ∧ (s.setSess id x).out = s.out ∧
    (s.setSess id x).pending = s.pending := by
  exact ⟨rfl, rfl, rfl, rfl, rfl, rfl, rfl, rfl, rfl, rfl, rfl, rfl, rfl, rfl, rfl, rfl, rfl, rfl, rfl, rfl, rfl, rfl⟩

@[simp] theorem State.modSess_keeps (s : State) (id : Nat) (f : Sess → Sess) :
    (s.modSess id f).unit = s.unit ∧ (s.modSess id f).free = s.free ∧ (s.modSess id f).tick = s.tick ∧
    (s.modSess id f).regs = s.regs ∧ (s.modSess id f).ctrs = s.ctrs ∧ (s.modSess id f).host = s.host ∧
    (s.modSess id f).fab = s.fab ∧ (s.modSess id f).dir = s.dir ∧ (s.modSess id f).att = s.att ∧ (s.modSess id f).beat = s.beat ∧
    (s.modSess id f).emit = s.emit ∧ (s.modSess id f).text = s.text ∧ (s.modSess id f).cores = s.cores ∧
    (s.modSess id f).ret = s.ret ∧ (s.modSess id f).link = s.link ∧ (s.modSess id f).part = s.part ∧ (s.modSess id f).sec = s.sec ∧
    (s.modSess id f).ckpt = s.ckpt ∧ (s.modSess id f).mgmt = s.mgmt ∧ (s.modSess id f).pwr = s.pwr ∧ (s.modSess id f).out = s.out ∧
    (s.modSess id f).pending = s.pending := by
  exact ⟨rfl, rfl, rfl, rfl, rfl, rfl, rfl, rfl, rfl, rfl, rfl, rfl, rfl, rfl, rfl, rfl, rfl, rfl, rfl, rfl, rfl, rfl⟩

@[simp] theorem State.upd_keeps (s : State) (id : Nat) (f : Sess → Sess) :
    (s.upd id f).unit = s.unit ∧ (s.upd id f).free = s.free ∧ (s.upd id f).tick = s.tick ∧ (s.upd id f).regs = s.regs ∧
    (s.upd id f).ctrs = s.ctrs ∧ (s.upd id f).host = s.host ∧ (s.upd id f).fab = s.fab ∧ (s.upd id f).dir = s.dir ∧
    (s.upd id f).att = s.att ∧ (s.upd id f).beat = s.beat ∧ (s.upd id f).emit = s.emit ∧ (s.upd id f).text = s.text ∧
    (s.upd id f).cores = s.cores ∧ (s.upd id f).ret = s.ret ∧ (s.upd id f).link = s.link ∧ (s.upd id f).part = s.part ∧
    (s.upd id f).sec = s.sec ∧ (s.upd id f).ckpt = s.ckpt ∧ (s.upd id f).mgmt = s.mgmt ∧ (s.upd id f).pwr = s.pwr ∧
    (s.upd id f).out = s.out ∧ (s.upd id f).pending = s.pending := by
  exact ⟨rfl, rfl, rfl, rfl, rfl, rfl, rfl, rfl, rfl, rfl, rfl, rfl, rfl, rfl, rfl, rfl, rfl, rfl, rfl, rfl, rfl, rfl⟩

@[simp] theorem State.modQs_keeps (s : State) (qk : Nat) (f : QueueSet → QueueSet) :
    (s.modQs qk f).unit = s.unit ∧ (s.modQs qk f).free = s.free ∧ (s.modQs qk f).tick = s.tick ∧ (s.modQs qk f).regs = s.regs ∧
    (s.modQs qk f).ctrs = s.ctrs ∧ (s.modQs qk f).sess = s.sess ∧ (s.modQs qk f).fab = s.fab ∧ (s.modQs qk f).dir = s.dir ∧
    (s.modQs qk f).att = s.att ∧ (s.modQs qk f).beat = s.beat ∧ (s.modQs qk f).emit = s.emit ∧ (s.modQs qk f).text = s.text ∧
    (s.modQs qk f).cores = s.cores ∧ (s.modQs qk f).ret = s.ret ∧ (s.modQs qk f).link = s.link ∧ (s.modQs qk f).part = s.part ∧
    (s.modQs qk f).sec = s.sec ∧ (s.modQs qk f).ckpt = s.ckpt ∧ (s.modQs qk f).mgmt = s.mgmt ∧ (s.modQs qk f).pwr = s.pwr ∧
    (s.modQs qk f).out = s.out ∧ (s.modQs qk f).pending = s.pending := by
  exact ⟨rfl, rfl, rfl, rfl, rfl, rfl, rfl, rfl, rfl, rfl, rfl, rfl, rfl, rfl, rfl, rfl, rfl, rfl, rfl, rfl, rfl, rfl⟩

@[simp] theorem State.fireVec_keeps (s : State) (fn : Nat) (vec : Nat) :
    (s.fireVec fn vec).unit = s.unit ∧ (s.fireVec fn vec).free = s.free ∧ (s.fireVec fn vec).tick = s.tick ∧
    (s.fireVec fn vec).regs = s.regs ∧ (s.fireVec fn vec).ctrs = s.ctrs ∧ (s.fireVec fn vec).sess = s.sess ∧
    (s.fireVec fn vec).fab = s.fab ∧ (s.fireVec fn vec).dir = s.dir ∧ (s.fireVec fn vec).att = s.att ∧
    (s.fireVec fn vec).beat = s.beat ∧ (s.fireVec fn vec).emit = s.emit ∧ (s.fireVec fn vec).text = s.text ∧
    (s.fireVec fn vec).cores = s.cores ∧ (s.fireVec fn vec).ret = s.ret ∧ (s.fireVec fn vec).link = s.link ∧
    (s.fireVec fn vec).part = s.part ∧ (s.fireVec fn vec).sec = s.sec ∧ (s.fireVec fn vec).ckpt = s.ckpt ∧
    (s.fireVec fn vec).mgmt = s.mgmt ∧ (s.fireVec fn vec).pwr = s.pwr ∧ (s.fireVec fn vec).pending = s.pending := by
  simp [State.fireVec]

@[simp] theorem State.signalCpl_keeps (s : State) (qk : Nat) :
    (s.signalCpl qk).unit = s.unit ∧ (s.signalCpl qk).free = s.free ∧ (s.signalCpl qk).tick = s.tick ∧
    (s.signalCpl qk).regs = s.regs ∧ (s.signalCpl qk).ctrs = s.ctrs ∧ (s.signalCpl qk).sess = s.sess ∧
    (s.signalCpl qk).fab = s.fab ∧ (s.signalCpl qk).dir = s.dir ∧ (s.signalCpl qk).att = s.att ∧ (s.signalCpl qk).beat = s.beat ∧
    (s.signalCpl qk).emit = s.emit ∧ (s.signalCpl qk).text = s.text ∧ (s.signalCpl qk).cores = s.cores ∧
    (s.signalCpl qk).ret = s.ret ∧ (s.signalCpl qk).link = s.link ∧ (s.signalCpl qk).part = s.part ∧ (s.signalCpl qk).sec = s.sec ∧
    (s.signalCpl qk).ckpt = s.ckpt ∧ (s.signalCpl qk).mgmt = s.mgmt ∧ (s.signalCpl qk).pwr = s.pwr ∧
    (s.signalCpl qk).pending = s.pending := by
  simp [State.signalCpl]

@[simp] theorem State.signalEmit_keeps (s : State) (qk : Nat) :
    (s.signalEmit qk).unit = s.unit ∧ (s.signalEmit qk).free = s.free ∧ (s.signalEmit qk).tick = s.tick ∧
    (s.signalEmit qk).regs = s.regs ∧ (s.signalEmit qk).ctrs = s.ctrs ∧ (s.signalEmit qk).sess = s.sess ∧
    (s.signalEmit qk).fab = s.fab ∧ (s.signalEmit qk).dir = s.dir ∧ (s.signalEmit qk).att = s.att ∧
    (s.signalEmit qk).beat = s.beat ∧ (s.signalEmit qk).emit = s.emit ∧ (s.signalEmit qk).text = s.text ∧
    (s.signalEmit qk).cores = s.cores ∧ (s.signalEmit qk).ret = s.ret ∧ (s.signalEmit qk).link = s.link ∧
    (s.signalEmit qk).part = s.part ∧ (s.signalEmit qk).sec = s.sec ∧ (s.signalEmit qk).ckpt = s.ckpt ∧
    (s.signalEmit qk).mgmt = s.mgmt ∧ (s.signalEmit qk).pwr = s.pwr ∧ (s.signalEmit qk).pending = s.pending := by
  simp [State.signalEmit]

@[simp] theorem State.postCpl_keeps (s : State) (qk : Nat) (c : Cpl) :
    (s.postCpl qk c).unit = s.unit ∧ (s.postCpl qk c).free = s.free ∧ (s.postCpl qk c).tick = s.tick ∧
    (s.postCpl qk c).regs = s.regs ∧ (s.postCpl qk c).ctrs = s.ctrs ∧ (s.postCpl qk c).sess = s.sess ∧
    (s.postCpl qk c).fab = s.fab ∧ (s.postCpl qk c).dir = s.dir ∧ (s.postCpl qk c).att = s.att ∧ (s.postCpl qk c).beat = s.beat ∧
    (s.postCpl qk c).emit = s.emit ∧ (s.postCpl qk c).text = s.text ∧ (s.postCpl qk c).cores = s.cores ∧
    (s.postCpl qk c).ret = s.ret ∧ (s.postCpl qk c).link = s.link ∧ (s.postCpl qk c).part = s.part ∧ (s.postCpl qk c).sec = s.sec ∧
    (s.postCpl qk c).ckpt = s.ckpt ∧ (s.postCpl qk c).mgmt = s.mgmt ∧ (s.postCpl qk c).pwr = s.pwr ∧
    (s.postCpl qk c).pending = s.pending := by
  simp [State.postCpl]

@[simp] theorem State.final_keeps (s : State) (serial : Nat) (st : Status) (handle : Nat) (res0 : Nat) (res1 : Nat) (res2 : Nat) :
    (s.final serial st handle res0 res1 res2).unit = s.unit ∧ (s.final serial st handle res0 res1 res2).free = s.free ∧
    (s.final serial st handle res0 res1 res2).tick = s.tick ∧ (s.final serial st handle res0 res1 res2).regs = s.regs ∧
    (s.final serial st handle res0 res1 res2).sess = s.sess ∧ (s.final serial st handle res0 res1 res2).fab = s.fab ∧
    (s.final serial st handle res0 res1 res2).dir = s.dir ∧ (s.final serial st handle res0 res1 res2).att = s.att ∧
    (s.final serial st handle res0 res1 res2).beat = s.beat ∧ (s.final serial st handle res0 res1 res2).emit = s.emit ∧
    (s.final serial st handle res0 res1 res2).text = s.text ∧ (s.final serial st handle res0 res1 res2).cores = s.cores ∧
    (s.final serial st handle res0 res1 res2).ret = s.ret ∧ (s.final serial st handle res0 res1 res2).link = s.link ∧
    (s.final serial st handle res0 res1 res2).part = s.part ∧ (s.final serial st handle res0 res1 res2).sec = s.sec ∧
    (s.final serial st handle res0 res1 res2).ckpt = s.ckpt ∧ (s.final serial st handle res0 res1 res2).mgmt = s.mgmt ∧
    (s.final serial st handle res0 res1 res2).pwr = s.pwr ∧ (s.final serial st handle res0 res1 res2).pending = s.pending := by
  unfold State.final
  split <;> simp

@[simp] theorem State.done_keeps (s : State) (serial : Nat) (st : Status) :
    (s.done serial st).unit = s.unit ∧ (s.done serial st).free = s.free ∧ (s.done serial st).tick = s.tick ∧
    (s.done serial st).regs = s.regs ∧ (s.done serial st).sess = s.sess ∧ (s.done serial st).fab = s.fab ∧
    (s.done serial st).dir = s.dir ∧ (s.done serial st).att = s.att ∧ (s.done serial st).beat = s.beat ∧
    (s.done serial st).emit = s.emit ∧ (s.done serial st).text = s.text ∧ (s.done serial st).cores = s.cores ∧
    (s.done serial st).ret = s.ret ∧ (s.done serial st).link = s.link ∧ (s.done serial st).part = s.part ∧
    (s.done serial st).sec = s.sec ∧ (s.done serial st).ckpt = s.ckpt ∧ (s.done serial st).mgmt = s.mgmt ∧
    (s.done serial st).pwr = s.pwr ∧ (s.done serial st).pending = s.pending := by
  simp [State.done]

@[simp] theorem State.start_keeps (s : State) (serial : Nat) :
    (s.start serial).unit = s.unit ∧ (s.start serial).free = s.free ∧ (s.start serial).tick = s.tick ∧
    (s.start serial).regs = s.regs ∧ (s.start serial).ctrs = s.ctrs ∧ (s.start serial).sess = s.sess ∧
    (s.start serial).fab = s.fab ∧ (s.start serial).dir = s.dir ∧ (s.start serial).att = s.att ∧ (s.start serial).beat = s.beat ∧
    (s.start serial).emit = s.emit ∧ (s.start serial).text = s.text ∧ (s.start serial).cores = s.cores ∧
    (s.start serial).ret = s.ret ∧ (s.start serial).link = s.link ∧ (s.start serial).part = s.part ∧ (s.start serial).sec = s.sec ∧
    (s.start serial).ckpt = s.ckpt ∧ (s.start serial).mgmt = s.mgmt ∧ (s.start serial).pwr = s.pwr ∧ (s.start serial).out = s.out ∧
    (s.start serial).pending = s.pending := by
  exact ⟨rfl, rfl, rfl, rfl, rfl, rfl, rfl, rfl, rfl, rfl, rfl, rfl, rfl, rfl, rfl, rfl, rfl, rfl, rfl, rfl, rfl, rfl⟩

@[simp] theorem State.settle_keeps (s : State) (serial : Nat) :
    (s.settle serial).unit = s.unit ∧ (s.settle serial).free = s.free ∧ (s.settle serial).tick = s.tick ∧
    (s.settle serial).regs = s.regs ∧ (s.settle serial).ctrs = s.ctrs ∧ (s.settle serial).sess = s.sess ∧
    (s.settle serial).fab = s.fab ∧ (s.settle serial).dir = s.dir ∧ (s.settle serial).att = s.att ∧
    (s.settle serial).beat = s.beat ∧ (s.settle serial).emit = s.emit ∧ (s.settle serial).text = s.text ∧
    (s.settle serial).cores = s.cores ∧ (s.settle serial).ret = s.ret ∧ (s.settle serial).link = s.link ∧
    (s.settle serial).part = s.part ∧ (s.settle serial).sec = s.sec ∧ (s.settle serial).ckpt = s.ckpt ∧
    (s.settle serial).mgmt = s.mgmt ∧ (s.settle serial).pwr = s.pwr ∧ (s.settle serial).out = s.out ∧
    (s.settle serial).pending = s.pending := by
  exact ⟨rfl, rfl, rfl, rfl, rfl, rfl, rfl, rfl, rfl, rfl, rfl, rfl, rfl, rfl, rfl, rfl, rfl, rfl, rfl, rfl, rfl, rfl⟩

@[simp] theorem State.modPort_keeps (s : State) (p : Nat) (f : Port → Port) :
    (s.modPort p f).unit = s.unit ∧ (s.modPort p f).free = s.free ∧ (s.modPort p f).tick = s.tick ∧ (s.modPort p f).regs = s.regs ∧
    (s.modPort p f).ctrs = s.ctrs ∧ (s.modPort p f).host = s.host ∧ (s.modPort p f).sess = s.sess ∧ (s.modPort p f).fab = s.fab ∧
    (s.modPort p f).dir = s.dir ∧ (s.modPort p f).att = s.att ∧ (s.modPort p f).beat = s.beat ∧ (s.modPort p f).emit = s.emit ∧
    (s.modPort p f).text = s.text ∧ (s.modPort p f).cores = s.cores ∧ (s.modPort p f).ret = s.ret ∧ (s.modPort p f).part = s.part ∧
    (s.modPort p f).sec = s.sec ∧ (s.modPort p f).ckpt = s.ckpt ∧ (s.modPort p f).mgmt = s.mgmt ∧ (s.modPort p f).pwr = s.pwr ∧
    (s.modPort p f).out = s.out ∧ (s.modPort p f).pending = s.pending := by
  exact ⟨rfl, rfl, rfl, rfl, rfl, rfl, rfl, rfl, rfl, rfl, rfl, rfl, rfl, rfl, rfl, rfl, rfl, rfl, rfl, rfl, rfl, rfl⟩

@[simp] theorem State.send_keeps (s : State) (port : Nat) (m : Msg) :
    (s.send port m).unit = s.unit ∧ (s.send port m).free = s.free ∧ (s.send port m).tick = s.tick ∧ (s.send port m).regs = s.regs ∧
    (s.send port m).host = s.host ∧ (s.send port m).sess = s.sess ∧ (s.send port m).fab = s.fab ∧ (s.send port m).dir = s.dir ∧
    (s.send port m).att = s.att ∧ (s.send port m).beat = s.beat ∧ (s.send port m).emit = s.emit ∧ (s.send port m).text = s.text ∧
    (s.send port m).cores = s.cores ∧ (s.send port m).ret = s.ret ∧ (s.send port m).part = s.part ∧ (s.send port m).sec = s.sec ∧
    (s.send port m).ckpt = s.ckpt ∧ (s.send port m).mgmt = s.mgmt ∧ (s.send port m).pwr = s.pwr ∧ (s.send port m).out = s.out ∧
    (s.send port m).pending = s.pending := by
  simp [State.send]

@[simp] theorem State.modRoster_keeps (s : State) (p : Nat) (f : Roster → Roster) :
    (s.modRoster p f).unit = s.unit ∧ (s.modRoster p f).free = s.free ∧ (s.modRoster p f).tick = s.tick ∧
    (s.modRoster p f).regs = s.regs ∧ (s.modRoster p f).ctrs = s.ctrs ∧ (s.modRoster p f).host = s.host ∧
    (s.modRoster p f).sess = s.sess ∧ (s.modRoster p f).fab = s.fab ∧ (s.modRoster p f).dir = s.dir ∧
    (s.modRoster p f).att = s.att ∧ (s.modRoster p f).emit = s.emit ∧ (s.modRoster p f).text = s.text ∧
    (s.modRoster p f).cores = s.cores ∧ (s.modRoster p f).ret = s.ret ∧ (s.modRoster p f).link = s.link ∧
    (s.modRoster p f).part = s.part ∧ (s.modRoster p f).sec = s.sec ∧ (s.modRoster p f).ckpt = s.ckpt ∧
    (s.modRoster p f).mgmt = s.mgmt ∧ (s.modRoster p f).pwr = s.pwr ∧ (s.modRoster p f).out = s.out ∧
    (s.modRoster p f).pending = s.pending := by
  exact ⟨rfl, rfl, rfl, rfl, rfl, rfl, rfl, rfl, rfl, rfl, rfl, rfl, rfl, rfl, rfl, rfl, rfl, rfl, rfl, rfl, rfl, rfl⟩

@[simp] theorem State.placeAt_keeps (s : State) (m : ModelEnt) (cl : Nat) (tier : Nat) :
    (s.placeAt m cl tier).2.unit = s.unit ∧ (s.placeAt m cl tier).2.tick = s.tick ∧ (s.placeAt m cl tier).2.regs = s.regs ∧
    (s.placeAt m cl tier).2.ctrs = s.ctrs ∧ (s.placeAt m cl tier).2.host = s.host ∧ (s.placeAt m cl tier).2.sess = s.sess ∧
    (s.placeAt m cl tier).2.fab = s.fab ∧ (s.placeAt m cl tier).2.dir = s.dir ∧ (s.placeAt m cl tier).2.att = s.att ∧
    (s.placeAt m cl tier).2.beat = s.beat ∧ (s.placeAt m cl tier).2.emit = s.emit ∧ (s.placeAt m cl tier).2.text = s.text ∧
    (s.placeAt m cl tier).2.cores = s.cores ∧ (s.placeAt m cl tier).2.ret = s.ret ∧ (s.placeAt m cl tier).2.link = s.link ∧
    (s.placeAt m cl tier).2.part = s.part ∧ (s.placeAt m cl tier).2.sec = s.sec ∧ (s.placeAt m cl tier).2.ckpt = s.ckpt ∧
    (s.placeAt m cl tier).2.mgmt = s.mgmt ∧ (s.placeAt m cl tier).2.pwr = s.pwr ∧ (s.placeAt m cl tier).2.out = s.out ∧
    (s.placeAt m cl tier).2.pending = s.pending := by
  exact ⟨rfl, rfl, rfl, rfl, rfl, rfl, rfl, rfl, rfl, rfl, rfl, rfl, rfl, rfl, rfl, rfl, rfl, rfl, rfl, rfl, rfl, rfl⟩

@[simp] theorem State.parkAt_keeps (s : State) (m : ModelEnt) (cl : Nat) (tier : Nat) (win : Nat) :
    (s.parkAt m cl tier win).2.unit = s.unit ∧ (s.parkAt m cl tier win).2.tick = s.tick ∧
    (s.parkAt m cl tier win).2.regs = s.regs ∧ (s.parkAt m cl tier win).2.ctrs = s.ctrs ∧
    (s.parkAt m cl tier win).2.host = s.host ∧ (s.parkAt m cl tier win).2.sess = s.sess ∧ (s.parkAt m cl tier win).2.fab = s.fab ∧
    (s.parkAt m cl tier win).2.dir = s.dir ∧ (s.parkAt m cl tier win).2.att = s.att ∧ (s.parkAt m cl tier win).2.beat = s.beat ∧
    (s.parkAt m cl tier win).2.emit = s.emit ∧ (s.parkAt m cl tier win).2.text = s.text ∧
    (s.parkAt m cl tier win).2.cores = s.cores ∧ (s.parkAt m cl tier win).2.ret = s.ret ∧
    (s.parkAt m cl tier win).2.link = s.link ∧ (s.parkAt m cl tier win).2.part = s.part ∧ (s.parkAt m cl tier win).2.sec = s.sec ∧
    (s.parkAt m cl tier win).2.ckpt = s.ckpt ∧ (s.parkAt m cl tier win).2.mgmt = s.mgmt ∧ (s.parkAt m cl tier win).2.pwr = s.pwr ∧
    (s.parkAt m cl tier win).2.out = s.out ∧ (s.parkAt m cl tier win).2.pending = s.pending := by
  exact ⟨rfl, rfl, rfl, rfl, rfl, rfl, rfl, rfl, rfl, rfl, rfl, rfl, rfl, rfl, rfl, rfl, rfl, rfl, rfl, rfl, rfl, rfl⟩

@[simp] theorem State.newBlk_keeps (s : State) :
    s.newBlk.2.unit = s.unit ∧ s.newBlk.2.free = s.free ∧ s.newBlk.2.tick = s.tick ∧ s.newBlk.2.regs = s.regs ∧
    s.newBlk.2.ctrs = s.ctrs ∧ s.newBlk.2.host = s.host ∧ s.newBlk.2.sess = s.sess ∧ s.newBlk.2.dir = s.dir ∧
    s.newBlk.2.att = s.att ∧ s.newBlk.2.beat = s.beat ∧ s.newBlk.2.emit = s.emit ∧ s.newBlk.2.text = s.text ∧
    s.newBlk.2.cores = s.cores ∧ s.newBlk.2.ret = s.ret ∧ s.newBlk.2.link = s.link ∧ s.newBlk.2.part = s.part ∧
    s.newBlk.2.sec = s.sec ∧ s.newBlk.2.ckpt = s.ckpt ∧ s.newBlk.2.mgmt = s.mgmt ∧ s.newBlk.2.pwr = s.pwr ∧
    s.newBlk.2.out = s.out ∧ s.newBlk.2.pending = s.pending := by
  exact ⟨rfl, rfl, rfl, rfl, rfl, rfl, rfl, rfl, rfl, rfl, rfl, rfl, rfl, rfl, rfl, rfl, rfl, rfl, rfl, rfl, rfl, rfl⟩

@[simp] theorem State.setBlk_keeps (s : State) (b : Nat) (k : KvBlk) :
    (s.setBlk b k).unit = s.unit ∧ (s.setBlk b k).free = s.free ∧ (s.setBlk b k).tick = s.tick ∧ (s.setBlk b k).regs = s.regs ∧
    (s.setBlk b k).ctrs = s.ctrs ∧ (s.setBlk b k).host = s.host ∧ (s.setBlk b k).sess = s.sess ∧ (s.setBlk b k).dir = s.dir ∧
    (s.setBlk b k).att = s.att ∧ (s.setBlk b k).beat = s.beat ∧ (s.setBlk b k).emit = s.emit ∧ (s.setBlk b k).text = s.text ∧
    (s.setBlk b k).cores = s.cores ∧ (s.setBlk b k).ret = s.ret ∧ (s.setBlk b k).link = s.link ∧ (s.setBlk b k).part = s.part ∧
    (s.setBlk b k).sec = s.sec ∧ (s.setBlk b k).ckpt = s.ckpt ∧ (s.setBlk b k).mgmt = s.mgmt ∧ (s.setBlk b k).pwr = s.pwr ∧
    (s.setBlk b k).out = s.out ∧ (s.setBlk b k).pending = s.pending := by
  exact ⟨rfl, rfl, rfl, rfl, rfl, rfl, rfl, rfl, rfl, rfl, rfl, rfl, rfl, rfl, rfl, rfl, rfl, rfl, rfl, rfl, rfl, rfl⟩

@[simp] theorem State.modReads_keeps (s : State) (f : List CkRead → List CkRead) :
    (s.modReads f).unit = s.unit ∧ (s.modReads f).free = s.free ∧ (s.modReads f).tick = s.tick ∧ (s.modReads f).regs = s.regs ∧
    (s.modReads f).ctrs = s.ctrs ∧ (s.modReads f).host = s.host ∧ (s.modReads f).sess = s.sess ∧ (s.modReads f).fab = s.fab ∧
    (s.modReads f).dir = s.dir ∧ (s.modReads f).att = s.att ∧ (s.modReads f).beat = s.beat ∧ (s.modReads f).emit = s.emit ∧
    (s.modReads f).text = s.text ∧ (s.modReads f).cores = s.cores ∧ (s.modReads f).ret = s.ret ∧ (s.modReads f).link = s.link ∧
    (s.modReads f).part = s.part ∧ (s.modReads f).sec = s.sec ∧ (s.modReads f).mgmt = s.mgmt ∧ (s.modReads f).pwr = s.pwr ∧
    (s.modReads f).out = s.out ∧ (s.modReads f).pending = s.pending := by
  exact ⟨rfl, rfl, rfl, rfl, rfl, rfl, rfl, rfl, rfl, rfl, rfl, rfl, rfl, rfl, rfl, rfl, rfl, rfl, rfl, rfl, rfl, rfl⟩

@[simp] theorem State.holdPlace_keeps (s : State) (blk : Nat) (pl : Place) :
    (s.holdPlace blk pl).unit = s.unit ∧ (s.holdPlace blk pl).free = s.free ∧ (s.holdPlace blk pl).tick = s.tick ∧
    (s.holdPlace blk pl).regs = s.regs ∧ (s.holdPlace blk pl).ctrs = s.ctrs ∧ (s.holdPlace blk pl).host = s.host ∧
    (s.holdPlace blk pl).sess = s.sess ∧ (s.holdPlace blk pl).fab = s.fab ∧ (s.holdPlace blk pl).dir = s.dir ∧
    (s.holdPlace blk pl).att = s.att ∧ (s.holdPlace blk pl).beat = s.beat ∧ (s.holdPlace blk pl).emit = s.emit ∧
    (s.holdPlace blk pl).text = s.text ∧ (s.holdPlace blk pl).cores = s.cores ∧ (s.holdPlace blk pl).ret = s.ret ∧
    (s.holdPlace blk pl).link = s.link ∧ (s.holdPlace blk pl).part = s.part ∧ (s.holdPlace blk pl).sec = s.sec ∧
    (s.holdPlace blk pl).mgmt = s.mgmt ∧ (s.holdPlace blk pl).pwr = s.pwr ∧ (s.holdPlace blk pl).out = s.out ∧
    (s.holdPlace blk pl).pending = s.pending := by
  exact ⟨rfl, rfl, rfl, rfl, rfl, rfl, rfl, rfl, rfl, rfl, rfl, rfl, rfl, rfl, rfl, rfl, rfl, rfl, rfl, rfl, rfl, rfl⟩

@[simp] theorem State.dropBlk_keeps (s : State) (b : Nat) :
    (s.dropBlk b).unit = s.unit ∧ (s.dropBlk b).free = s.free ∧ (s.dropBlk b).tick = s.tick ∧ (s.dropBlk b).regs = s.regs ∧
    (s.dropBlk b).ctrs = s.ctrs ∧ (s.dropBlk b).host = s.host ∧ (s.dropBlk b).sess = s.sess ∧ (s.dropBlk b).dir = s.dir ∧
    (s.dropBlk b).att = s.att ∧ (s.dropBlk b).beat = s.beat ∧ (s.dropBlk b).emit = s.emit ∧ (s.dropBlk b).text = s.text ∧
    (s.dropBlk b).cores = s.cores ∧ (s.dropBlk b).ret = s.ret ∧ (s.dropBlk b).link = s.link ∧ (s.dropBlk b).part = s.part ∧
    (s.dropBlk b).sec = s.sec ∧ (s.dropBlk b).ckpt = s.ckpt ∧ (s.dropBlk b).mgmt = s.mgmt ∧ (s.dropBlk b).pwr = s.pwr ∧
    (s.dropBlk b).out = s.out ∧ (s.dropBlk b).pending = s.pending := by
  exact ⟨rfl, rfl, rfl, rfl, rfl, rfl, rfl, rfl, rfl, rfl, rfl, rfl, rfl, rfl, rfl, rfl, rfl, rfl, rfl, rfl, rfl, rfl⟩

@[simp] theorem State.letBlk_keeps (s : State) (d : Desc) :
    (s.letBlk d).unit = s.unit ∧ (s.letBlk d).free = s.free ∧ (s.letBlk d).tick = s.tick ∧ (s.letBlk d).regs = s.regs ∧
    (s.letBlk d).ctrs = s.ctrs ∧ (s.letBlk d).host = s.host ∧ (s.letBlk d).sess = s.sess ∧ (s.letBlk d).dir = s.dir ∧
    (s.letBlk d).att = s.att ∧ (s.letBlk d).beat = s.beat ∧ (s.letBlk d).emit = s.emit ∧ (s.letBlk d).text = s.text ∧
    (s.letBlk d).cores = s.cores ∧ (s.letBlk d).ret = s.ret ∧ (s.letBlk d).link = s.link ∧ (s.letBlk d).part = s.part ∧
    (s.letBlk d).sec = s.sec ∧ (s.letBlk d).mgmt = s.mgmt ∧ (s.letBlk d).pwr = s.pwr ∧ (s.letBlk d).out = s.out ∧
    (s.letBlk d).pending = s.pending := by
  exact ⟨rfl, rfl, rfl, rfl, rfl, rfl, rfl, rfl, rfl, rfl, rfl, rfl, rfl, rfl, rfl, rfl, rfl, rfl, rfl, rfl, rfl⟩

theorem State.readyList_keeps (s : State) (id b : Nat) {t : State} (h : s.readyList id b = .ok t) : t.unit = s.unit ∧ t.tick = s.tick ∧ t.regs = s.regs ∧ t.ctrs = s.ctrs ∧ t.host = s.host ∧ t.fab = s.fab ∧ t.dir = s.dir ∧ t.att = s.att ∧ t.beat = s.beat ∧ t.emit = s.emit ∧ t.text = s.text ∧ t.cores = s.cores ∧ t.ret = s.ret ∧ t.link = s.link ∧ t.part = s.part ∧ t.sec = s.sec ∧ t.ckpt = s.ckpt ∧ t.mgmt = s.mgmt ∧ t.pwr = s.pwr ∧ t.out = s.out ∧ t.pending = s.pending := by
  unfold State.readyList at h
  dsimp only at h
  split at h
  · cases h
  · split at h
    · cases h
      simp
    · split at h
      · cases h
        simp
      · cases h
theorem State.readyTo_keeps (s : State) (id n : Nat) {t : State} (h : s.readyTo id n = .ok t) : t.unit = s.unit ∧ t.tick = s.tick ∧ t.regs = s.regs ∧ t.ctrs = s.ctrs ∧ t.host = s.host ∧ t.fab = s.fab ∧ t.dir = s.dir ∧ t.att = s.att ∧ t.beat = s.beat ∧ t.emit = s.emit ∧ t.text = s.text ∧ t.cores = s.cores ∧ t.ret = s.ret ∧ t.link = s.link ∧ t.part = s.part ∧ t.sec = s.sec ∧ t.ckpt = s.ckpt ∧ t.mgmt = s.mgmt ∧ t.pwr = s.pwr ∧ t.out = s.out ∧ t.pending = s.pending := by
  induction n generalizing t with
  | zero => cases h; simp
  | succ n ih =>
    unfold State.readyTo at h
    split at h
    · cases h
    · next e =>
      have ih := ih e
      split at h
      · have k := State.readyList_keeps _ _ _ h
        simp_all
      · cases h
        exact ih

theorem State.newBlock_keeps (s : State) (id : Nat) (b : Nat) {tt : State} (ht : s.newBlock id b = some tt) :
    tt.unit = s.unit ∧ tt.tick = s.tick ∧ tt.regs = s.regs ∧ tt.host = s.host ∧ tt.dir = s.dir ∧ tt.att = s.att ∧
    tt.beat = s.beat ∧ tt.emit = s.emit ∧ tt.text = s.text ∧ tt.cores = s.cores ∧ tt.ret = s.ret ∧ tt.link = s.link ∧
    tt.part = s.part ∧ tt.sec = s.sec ∧ tt.ckpt = s.ckpt ∧ tt.mgmt = s.mgmt ∧ tt.pwr = s.pwr ∧ tt.out = s.out ∧
    tt.pending = s.pending := by
  unfold State.newBlock at ht
  dsimp only at ht
  split at ht
  · cases ht
  · next s0 e =>
    have k := State.readyList_keeps _ _ _ e
    split at ht
    · cases ht
    · cases ht
      split <;> (split <;> simp [k])

@[simp] theorem State.dropMoves_keeps (s : State) (id : Nat) :
    (s.dropMoves id).unit = s.unit ∧ (s.dropMoves id).free = s.free ∧ (s.dropMoves id).tick = s.tick ∧
    (s.dropMoves id).regs = s.regs ∧ (s.dropMoves id).ctrs = s.ctrs ∧ (s.dropMoves id).host = s.host ∧
    (s.dropMoves id).sess = s.sess ∧ (s.dropMoves id).dir = s.dir ∧ (s.dropMoves id).att = s.att ∧ (s.dropMoves id).beat = s.beat ∧
    (s.dropMoves id).emit = s.emit ∧ (s.dropMoves id).text = s.text ∧ (s.dropMoves id).cores = s.cores ∧
    (s.dropMoves id).ret = s.ret ∧ (s.dropMoves id).link = s.link ∧ (s.dropMoves id).part = s.part ∧ (s.dropMoves id).sec = s.sec ∧
    (s.dropMoves id).ckpt = s.ckpt ∧ (s.dropMoves id).mgmt = s.mgmt ∧ (s.dropMoves id).pwr = s.pwr ∧ (s.dropMoves id).out = s.out ∧
    (s.dropMoves id).pending = s.pending := by
  exact ⟨rfl, rfl, rfl, rfl, rfl, rfl, rfl, rfl, rfl, rfl, rfl, rfl, rfl, rfl, rfl, rfl, rfl, rfl, rfl, rfl, rfl, rfl⟩

@[simp] theorem State.queueMove_keeps (s : State) (f : FReq) :
    (s.queueMove f).unit = s.unit ∧ (s.queueMove f).free = s.free ∧ (s.queueMove f).tick = s.tick ∧ (s.queueMove f).regs = s.regs ∧
    (s.queueMove f).ctrs = s.ctrs ∧ (s.queueMove f).host = s.host ∧ (s.queueMove f).sess = s.sess ∧ (s.queueMove f).dir = s.dir ∧
    (s.queueMove f).att = s.att ∧ (s.queueMove f).beat = s.beat ∧ (s.queueMove f).emit = s.emit ∧ (s.queueMove f).text = s.text ∧
    (s.queueMove f).cores = s.cores ∧ (s.queueMove f).ret = s.ret ∧ (s.queueMove f).link = s.link ∧ (s.queueMove f).part = s.part ∧
    (s.queueMove f).sec = s.sec ∧ (s.queueMove f).ckpt = s.ckpt ∧ (s.queueMove f).mgmt = s.mgmt ∧ (s.queueMove f).pwr = s.pwr ∧
    (s.queueMove f).out = s.out ∧ (s.queueMove f).pending = s.pending := by
  simp [State.queueMove]

@[simp] theorem State.logGrow_keeps (s : State) (id : Nat) :
    (s.logGrow id).unit = s.unit ∧ (s.logGrow id).tick = s.tick ∧ (s.logGrow id).regs = s.regs ∧ (s.logGrow id).ctrs = s.ctrs ∧
    (s.logGrow id).host = s.host ∧ (s.logGrow id).fab = s.fab ∧ (s.logGrow id).dir = s.dir ∧ (s.logGrow id).att = s.att ∧
    (s.logGrow id).beat = s.beat ∧ (s.logGrow id).emit = s.emit ∧ (s.logGrow id).text = s.text ∧ (s.logGrow id).cores = s.cores ∧
    (s.logGrow id).ret = s.ret ∧ (s.logGrow id).link = s.link ∧ (s.logGrow id).part = s.part ∧ (s.logGrow id).sec = s.sec ∧
    (s.logGrow id).ckpt = s.ckpt ∧ (s.logGrow id).mgmt = s.mgmt ∧ (s.logGrow id).pwr = s.pwr ∧ (s.logGrow id).out = s.out ∧
    (s.logGrow id).pending = s.pending := by
  unfold State.logGrow
  simp

@[simp] theorem State.logPut_keeps (s : State) (id : Nat) (l : List LogTok) :
    (s.logPut id l).unit = s.unit ∧ (s.logPut id l).tick = s.tick ∧ (s.logPut id l).regs = s.regs ∧ (s.logPut id l).ctrs = s.ctrs ∧
    (s.logPut id l).host = s.host ∧ (s.logPut id l).fab = s.fab ∧ (s.logPut id l).dir = s.dir ∧ (s.logPut id l).att = s.att ∧
    (s.logPut id l).beat = s.beat ∧ (s.logPut id l).emit = s.emit ∧ (s.logPut id l).text = s.text ∧
    (s.logPut id l).cores = s.cores ∧ (s.logPut id l).ret = s.ret ∧ (s.logPut id l).link = s.link ∧ (s.logPut id l).part = s.part ∧
    (s.logPut id l).sec = s.sec ∧ (s.logPut id l).ckpt = s.ckpt ∧ (s.logPut id l).mgmt = s.mgmt ∧ (s.logPut id l).pwr = s.pwr ∧
    (s.logPut id l).out = s.out ∧ (s.logPut id l).pending = s.pending := by
  simp [State.logPut]

@[simp] theorem State.setRec_keeps (s : State) (ix : Nat) (r : Rec) :
    (s.setRec ix r).unit = s.unit ∧ (s.setRec ix r).free = s.free ∧ (s.setRec ix r).tick = s.tick ∧ (s.setRec ix r).regs = s.regs ∧
    (s.setRec ix r).ctrs = s.ctrs ∧ (s.setRec ix r).host = s.host ∧ (s.setRec ix r).sess = s.sess ∧ (s.setRec ix r).fab = s.fab ∧
    (s.setRec ix r).att = s.att ∧ (s.setRec ix r).beat = s.beat ∧ (s.setRec ix r).emit = s.emit ∧ (s.setRec ix r).text = s.text ∧
    (s.setRec ix r).cores = s.cores ∧ (s.setRec ix r).ret = s.ret ∧ (s.setRec ix r).link = s.link ∧ (s.setRec ix r).part = s.part ∧
    (s.setRec ix r).sec = s.sec ∧ (s.setRec ix r).ckpt = s.ckpt ∧ (s.setRec ix r).mgmt = s.mgmt ∧ (s.setRec ix r).pwr = s.pwr ∧
    (s.setRec ix r).out = s.out ∧ (s.setRec ix r).pending = s.pending := by
  exact ⟨rfl, rfl, rfl, rfl, rfl, rfl, rfl, rfl, rfl, rfl, rfl, rfl, rfl, rfl, rfl, rfl, rfl, rfl, rfl, rfl, rfl, rfl⟩

@[simp] theorem State.modRec_keeps (s : State) (ix : Nat) (f : Rec → Rec) :
    (s.modRec ix f).unit = s.unit ∧ (s.modRec ix f).free = s.free ∧ (s.modRec ix f).tick = s.tick ∧ (s.modRec ix f).regs = s.regs ∧
    (s.modRec ix f).ctrs = s.ctrs ∧ (s.modRec ix f).host = s.host ∧ (s.modRec ix f).sess = s.sess ∧ (s.modRec ix f).fab = s.fab ∧
    (s.modRec ix f).att = s.att ∧ (s.modRec ix f).beat = s.beat ∧ (s.modRec ix f).emit = s.emit ∧ (s.modRec ix f).text = s.text ∧
    (s.modRec ix f).cores = s.cores ∧ (s.modRec ix f).ret = s.ret ∧ (s.modRec ix f).link = s.link ∧ (s.modRec ix f).part = s.part ∧
    (s.modRec ix f).sec = s.sec ∧ (s.modRec ix f).ckpt = s.ckpt ∧ (s.modRec ix f).mgmt = s.mgmt ∧ (s.modRec ix f).pwr = s.pwr ∧
    (s.modRec ix f).out = s.out ∧ (s.modRec ix f).pending = s.pending := by
  exact ⟨rfl, rfl, rfl, rfl, rfl, rfl, rfl, rfl, rfl, rfl, rfl, rfl, rfl, rfl, rfl, rfl, rfl, rfl, rfl, rfl, rfl, rfl⟩

@[simp] theorem State.stamp_keeps (s : State) :
    s.stamp.unit = s.unit ∧ s.stamp.free = s.free ∧ s.stamp.tick = s.tick ∧ s.stamp.regs = s.regs ∧ s.stamp.ctrs = s.ctrs ∧
    s.stamp.host = s.host ∧ s.stamp.sess = s.sess ∧ s.stamp.fab = s.fab ∧ s.stamp.att = s.att ∧ s.stamp.beat = s.beat ∧
    s.stamp.emit = s.emit ∧ s.stamp.text = s.text ∧ s.stamp.cores = s.cores ∧ s.stamp.ret = s.ret ∧ s.stamp.link = s.link ∧
    s.stamp.part = s.part ∧ s.stamp.sec = s.sec ∧ s.stamp.ckpt = s.ckpt ∧ s.stamp.mgmt = s.mgmt ∧ s.stamp.pwr = s.pwr ∧
    s.stamp.out = s.out ∧ s.stamp.pending = s.pending := by
  exact ⟨rfl, rfl, rfl, rfl, rfl, rfl, rfl, rfl, rfl, rfl, rfl, rfl, rfl, rfl, rfl, rfl, rfl, rfl, rfl, rfl, rfl, rfl⟩

@[simp] theorem State.dropSlot_keeps (s : State) (ix : Nat) :
    (s.dropSlot ix).unit = s.unit ∧ (s.dropSlot ix).free = s.free ∧ (s.dropSlot ix).tick = s.tick ∧ (s.dropSlot ix).regs = s.regs ∧
    (s.dropSlot ix).ctrs = s.ctrs ∧ (s.dropSlot ix).host = s.host ∧ (s.dropSlot ix).sess = s.sess ∧ (s.dropSlot ix).fab = s.fab ∧
    (s.dropSlot ix).att = s.att ∧ (s.dropSlot ix).beat = s.beat ∧ (s.dropSlot ix).emit = s.emit ∧ (s.dropSlot ix).text = s.text ∧
    (s.dropSlot ix).cores = s.cores ∧ (s.dropSlot ix).ret = s.ret ∧ (s.dropSlot ix).link = s.link ∧ (s.dropSlot ix).part = s.part ∧
    (s.dropSlot ix).sec = s.sec ∧ (s.dropSlot ix).ckpt = s.ckpt ∧ (s.dropSlot ix).mgmt = s.mgmt ∧ (s.dropSlot ix).pwr = s.pwr ∧
    (s.dropSlot ix).out = s.out ∧ (s.dropSlot ix).pending = s.pending := by
  exact ⟨rfl, rfl, rfl, rfl, rfl, rfl, rfl, rfl, rfl, rfl, rfl, rfl, rfl, rfl, rfl, rfl, rfl, rfl, rfl, rfl, rfl, rfl⟩

@[simp] theorem State.refInc_keeps (s : State) (ix : Nat) :
    (s.refInc ix).unit = s.unit ∧ (s.refInc ix).free = s.free ∧ (s.refInc ix).tick = s.tick ∧ (s.refInc ix).regs = s.regs ∧
    (s.refInc ix).ctrs = s.ctrs ∧ (s.refInc ix).host = s.host ∧ (s.refInc ix).sess = s.sess ∧ (s.refInc ix).fab = s.fab ∧
    (s.refInc ix).att = s.att ∧ (s.refInc ix).beat = s.beat ∧ (s.refInc ix).emit = s.emit ∧ (s.refInc ix).text = s.text ∧
    (s.refInc ix).cores = s.cores ∧ (s.refInc ix).ret = s.ret ∧ (s.refInc ix).link = s.link ∧ (s.refInc ix).part = s.part ∧
    (s.refInc ix).sec = s.sec ∧ (s.refInc ix).ckpt = s.ckpt ∧ (s.refInc ix).mgmt = s.mgmt ∧ (s.refInc ix).pwr = s.pwr ∧
    (s.refInc ix).out = s.out ∧ (s.refInc ix).pending = s.pending := by
  exact ⟨rfl, rfl, rfl, rfl, rfl, rfl, rfl, rfl, rfl, rfl, rfl, rfl, rfl, rfl, rfl, rfl, rfl, rfl, rfl, rfl, rfl, rfl⟩

@[simp] theorem State.releaseRec_keeps (s : State) (ix : Nat) :
    (s.releaseRec ix).unit = s.unit ∧ (s.releaseRec ix).free = s.free ∧ (s.releaseRec ix).tick = s.tick ∧
    (s.releaseRec ix).regs = s.regs ∧ (s.releaseRec ix).host = s.host ∧ (s.releaseRec ix).dir = s.dir ∧
    (s.releaseRec ix).att = s.att ∧ (s.releaseRec ix).emit = s.emit ∧ (s.releaseRec ix).text = s.text ∧
    (s.releaseRec ix).ret = s.ret ∧ (s.releaseRec ix).link = s.link ∧ (s.releaseRec ix).sec = s.sec ∧
    (s.releaseRec ix).ckpt = s.ckpt ∧ (s.releaseRec ix).mgmt = s.mgmt ∧ (s.releaseRec ix).pwr = s.pwr ∧
    (s.releaseRec ix).out = s.out ∧ (s.releaseRec ix).pending = s.pending := by
  simp [State.releaseRec]

@[simp] theorem State.refDec_keeps (s : State) (ix : Nat) :
    (s.refDec ix).unit = s.unit ∧ (s.refDec ix).free = s.free ∧ (s.refDec ix).tick = s.tick ∧ (s.refDec ix).regs = s.regs ∧
    (s.refDec ix).host = s.host ∧ (s.refDec ix).att = s.att ∧ (s.refDec ix).emit = s.emit ∧ (s.refDec ix).text = s.text ∧
    (s.refDec ix).ret = s.ret ∧ (s.refDec ix).link = s.link ∧ (s.refDec ix).sec = s.sec ∧ (s.refDec ix).ckpt = s.ckpt ∧
    (s.refDec ix).mgmt = s.mgmt ∧ (s.refDec ix).pwr = s.pwr ∧ (s.refDec ix).out = s.out ∧ (s.refDec ix).pending = s.pending := by
  simp [State.refDec]

@[simp] theorem State.loseReads_keeps (s : State) (gone : CkRead → Bool) :
    (s.loseReads gone).unit = s.unit ∧ (s.loseReads gone).free = s.free ∧ (s.loseReads gone).tick = s.tick ∧
    (s.loseReads gone).regs = s.regs ∧ (s.loseReads gone).host = s.host ∧ (s.loseReads gone).att = s.att ∧
    (s.loseReads gone).emit = s.emit ∧ (s.loseReads gone).text = s.text ∧ (s.loseReads gone).ret = s.ret ∧
    (s.loseReads gone).link = s.link ∧ (s.loseReads gone).sec = s.sec ∧ (s.loseReads gone).mgmt = s.mgmt ∧
    (s.loseReads gone).pwr = s.pwr ∧ (s.loseReads gone).out = s.out ∧ (s.loseReads gone).pending = s.pending := by
  have key : ∀ x : State, (x.unit, x.free, x.tick, x.regs, x.host, x.att, x.emit, x.text, x.ret, x.link, x.sec, x.mgmt, x.pwr, x.out, x.pending) = (s.unit, s.free, s.tick, s.regs, s.host, s.att, s.emit, s.text, s.ret, s.link, s.sec, s.mgmt, s.pwr, s.out, s.pending) → x.unit = s.unit ∧ x.free = s.free ∧ x.tick = s.tick ∧ x.regs = s.regs ∧ x.host = s.host ∧ x.att = s.att ∧ x.emit = s.emit ∧ x.text = s.text ∧ x.ret = s.ret ∧ x.link = s.link ∧ x.sec = s.sec ∧ x.mgmt = s.mgmt ∧ x.pwr = s.pwr ∧ x.out = s.out ∧ x.pending = s.pending := by intro x h; simpa using h
  refine key _ ?_
  unfold State.loseReads
  dsimp only
  split
  · rfl
  · refine (foldl_fix (fun x : State => (x.unit, x.free, x.tick, x.regs, x.host, x.att, x.emit, x.text, x.ret, x.link, x.sec, x.mgmt, x.pwr, x.out, x.pending)) _ ?_ _ _).trans ?_
    · intro s a
      split <;> simp
    · simp

@[simp] theorem State.freeRecord_keeps (s : State) (ix : Nat) :
    (s.freeRecord ix).unit = s.unit ∧ (s.freeRecord ix).free = s.free ∧ (s.freeRecord ix).tick = s.tick ∧
    (s.freeRecord ix).regs = s.regs ∧ (s.freeRecord ix).host = s.host ∧ (s.freeRecord ix).att = s.att ∧
    (s.freeRecord ix).emit = s.emit ∧ (s.freeRecord ix).text = s.text ∧ (s.freeRecord ix).ret = s.ret ∧
    (s.freeRecord ix).link = s.link ∧ (s.freeRecord ix).sec = s.sec ∧ (s.freeRecord ix).mgmt = s.mgmt ∧
    (s.freeRecord ix).pwr = s.pwr ∧ (s.freeRecord ix).out = s.out ∧ (s.freeRecord ix).pending = s.pending := by
  simp [State.freeRecord]

@[simp] theorem State.unlinkTail_keeps (s : State) (ix : Nat) :
    (s.unlinkTail ix).unit = s.unit ∧ (s.unlinkTail ix).free = s.free ∧ (s.unlinkTail ix).tick = s.tick ∧
    (s.unlinkTail ix).regs = s.regs ∧ (s.unlinkTail ix).ctrs = s.ctrs ∧ (s.unlinkTail ix).host = s.host ∧
    (s.unlinkTail ix).sess = s.sess ∧ (s.unlinkTail ix).fab = s.fab ∧ (s.unlinkTail ix).att = s.att ∧
    (s.unlinkTail ix).beat = s.beat ∧ (s.unlinkTail ix).emit = s.emit ∧ (s.unlinkTail ix).text = s.text ∧
    (s.unlinkTail ix).cores = s.cores ∧ (s.unlinkTail ix).ret = s.ret ∧ (s.unlinkTail ix).link = s.link ∧
    (s.unlinkTail ix).part = s.part ∧ (s.unlinkTail ix).sec = s.sec ∧ (s.unlinkTail ix).ckpt = s.ckpt ∧
    (s.unlinkTail ix).mgmt = s.mgmt ∧ (s.unlinkTail ix).pwr = s.pwr ∧ (s.unlinkTail ix).out = s.out ∧
    (s.unlinkTail ix).pending = s.pending := by
  simp [State.unlinkTail]

@[simp] theorem State.retireEntry_keeps (s : State) (ix : Nat) :
    (s.retireEntry ix).unit = s.unit ∧ (s.retireEntry ix).free = s.free ∧ (s.retireEntry ix).tick = s.tick ∧
    (s.retireEntry ix).regs = s.regs ∧ (s.retireEntry ix).host = s.host ∧ (s.retireEntry ix).att = s.att ∧
    (s.retireEntry ix).emit = s.emit ∧ (s.retireEntry ix).text = s.text ∧ (s.retireEntry ix).ret = s.ret ∧
    (s.retireEntry ix).link = s.link ∧ (s.retireEntry ix).sec = s.sec ∧ (s.retireEntry ix).ckpt = s.ckpt ∧
    (s.retireEntry ix).mgmt = s.mgmt ∧ (s.retireEntry ix).pwr = s.pwr ∧ (s.retireEntry ix).out = s.out ∧
    (s.retireEntry ix).pending = s.pending := by
  simp [State.retireEntry]

@[simp] theorem State.addRetire_keeps (s : State) (r : Retire) :
    (s.addRetire r).unit = s.unit ∧ (s.addRetire r).free = s.free ∧ (s.addRetire r).tick = s.tick ∧ (s.addRetire r).regs = s.regs ∧
    (s.addRetire r).ctrs = s.ctrs ∧ (s.addRetire r).host = s.host ∧ (s.addRetire r).sess = s.sess ∧ (s.addRetire r).fab = s.fab ∧
    (s.addRetire r).att = s.att ∧ (s.addRetire r).beat = s.beat ∧ (s.addRetire r).emit = s.emit ∧ (s.addRetire r).text = s.text ∧
    (s.addRetire r).cores = s.cores ∧ (s.addRetire r).ret = s.ret ∧ (s.addRetire r).link = s.link ∧ (s.addRetire r).part = s.part ∧
    (s.addRetire r).sec = s.sec ∧ (s.addRetire r).ckpt = s.ckpt ∧ (s.addRetire r).mgmt = s.mgmt ∧ (s.addRetire r).pwr = s.pwr ∧
    (s.addRetire r).out = s.out ∧ (s.addRetire r).pending = s.pending := by
  exact ⟨rfl, rfl, rfl, rfl, rfl, rfl, rfl, rfl, rfl, rfl, rfl, rfl, rfl, rfl, rfl, rfl, rfl, rfl, rfl, rfl, rfl, rfl⟩

@[simp] theorem State.dropCopy_keeps (s : State) (id : Nat) :
    (s.dropCopy id).unit = s.unit ∧ (s.dropCopy id).free = s.free ∧ (s.dropCopy id).tick = s.tick ∧ (s.dropCopy id).regs = s.regs ∧
    (s.dropCopy id).host = s.host ∧ (s.dropCopy id).att = s.att ∧ (s.dropCopy id).emit = s.emit ∧ (s.dropCopy id).text = s.text ∧
    (s.dropCopy id).ret = s.ret ∧ (s.dropCopy id).link = s.link ∧ (s.dropCopy id).sec = s.sec ∧ (s.dropCopy id).ckpt = s.ckpt ∧
    (s.dropCopy id).mgmt = s.mgmt ∧ (s.dropCopy id).pwr = s.pwr ∧ (s.dropCopy id).out = s.out ∧
    (s.dropCopy id).pending = s.pending := by
  simp [State.dropCopy]

@[simp] theorem State.freeBlocks_keeps (s : State) (id : Nat) :
    (s.freeBlocks id).unit = s.unit ∧ (s.freeBlocks id).free = s.free ∧ (s.freeBlocks id).tick = s.tick ∧
    (s.freeBlocks id).regs = s.regs ∧ (s.freeBlocks id).host = s.host ∧ (s.freeBlocks id).att = s.att ∧
    (s.freeBlocks id).emit = s.emit ∧ (s.freeBlocks id).text = s.text ∧ (s.freeBlocks id).ret = s.ret ∧
    (s.freeBlocks id).link = s.link ∧ (s.freeBlocks id).sec = s.sec ∧ (s.freeBlocks id).mgmt = s.mgmt ∧
    (s.freeBlocks id).pwr = s.pwr ∧ (s.freeBlocks id).out = s.out ∧ (s.freeBlocks id).pending = s.pending := by
  simp [State.freeBlocks]

@[simp] theorem State.dropPub_keeps (s : State) (q : Pub) :
    (s.dropPub q).unit = s.unit ∧ (s.dropPub q).free = s.free ∧ (s.dropPub q).tick = s.tick ∧ (s.dropPub q).regs = s.regs ∧
    (s.dropPub q).ctrs = s.ctrs ∧ (s.dropPub q).host = s.host ∧ (s.dropPub q).sess = s.sess ∧ (s.dropPub q).fab = s.fab ∧
    (s.dropPub q).att = s.att ∧ (s.dropPub q).beat = s.beat ∧ (s.dropPub q).emit = s.emit ∧ (s.dropPub q).text = s.text ∧
    (s.dropPub q).cores = s.cores ∧ (s.dropPub q).ret = s.ret ∧ (s.dropPub q).link = s.link ∧ (s.dropPub q).part = s.part ∧
    (s.dropPub q).sec = s.sec ∧ (s.dropPub q).ckpt = s.ckpt ∧ (s.dropPub q).mgmt = s.mgmt ∧ (s.dropPub q).pwr = s.pwr ∧
    (s.dropPub q).out = s.out ∧ (s.dropPub q).pending = s.pending := by
  exact ⟨rfl, rfl, rfl, rfl, rfl, rfl, rfl, rfl, rfl, rfl, rfl, rfl, rfl, rfl, rfl, rfl, rfl, rfl, rfl, rfl, rfl, rfl⟩

@[simp] theorem State.pubUndo_keeps (s : State) (q : Pub) :
    (s.pubUndo q).unit = s.unit ∧ (s.pubUndo q).free = s.free ∧ (s.pubUndo q).tick = s.tick ∧ (s.pubUndo q).regs = s.regs ∧
    (s.pubUndo q).host = s.host ∧ (s.pubUndo q).att = s.att ∧ (s.pubUndo q).emit = s.emit ∧ (s.pubUndo q).text = s.text ∧
    (s.pubUndo q).ret = s.ret ∧ (s.pubUndo q).link = s.link ∧ (s.pubUndo q).sec = s.sec ∧ (s.pubUndo q).ckpt = s.ckpt ∧
    (s.pubUndo q).mgmt = s.mgmt ∧ (s.pubUndo q).pwr = s.pwr ∧ (s.pubUndo q).out = s.out ∧ (s.pubUndo q).pending = s.pending := by
  have A : ∀ s1 : State, s1.unit = s.unit ∧ s1.free = s.free ∧ s1.tick = s.tick ∧ s1.regs = s.regs ∧ s1.host = s.host ∧ s1.att = s.att ∧ s1.emit = s.emit ∧ s1.text = s.text ∧ s1.ret = s.ret ∧ s1.link = s.link ∧ s1.sec = s.sec ∧ s1.ckpt = s.ckpt ∧ s1.mgmt = s.mgmt ∧ s1.pwr = s.pwr ∧ s1.out = s.out ∧ s1.pending = s.pending → ((fun x : State => (x.unit, x.free, x.tick, x.regs, x.host, x.att, x.emit, x.text, x.ret, x.link, x.sec, x.ckpt, x.mgmt, x.pwr, x.out, x.pending)) (
    let fresh := q.ixs.drop q.firstNew ++ q.tailIx.toList
    let s2 := fresh.reverse.foldl (fun s ix =>
      let r := s.dirRec ix
      let t := ({ s with dir := { s.dir with recs := tabErase s.dir.recs ix } } : State).dropSlot ix
      if r.chain = 0 || r.root || fresh.contains r.parent then t else t.refDec r.parent) s1
    let s3 : State := { s2 with
      dir := { s2.dir with slots := s2.dir.slots.filter (fun x => !q.slots.contains x.1) },
      fab := { s2.fab with float := s2.fab.float.filter (fun (f : FReq) => !(f.kind == FKind.pubTail && f.sess == q.sess && !f.onRec)) } }
    (if q.tailBlk = 0 then s3 else s3.dropBlk q.tailBlk).dropPub q)) = (fun x : State => (x.unit, x.free, x.tick, x.regs, x.host, x.att, x.emit, x.text, x.ret, x.link, x.sec, x.ckpt, x.mgmt, x.pwr, x.out, x.pending)) s := by
    intro s1 h
    have e := foldl_fix (fun x : State => (x.unit, x.free, x.tick, x.regs, x.host, x.att, x.emit, x.text, x.ret, x.link, x.sec, x.ckpt, x.mgmt, x.pwr, x.out, x.pending)) (fun (s : State) (ix : Nat) =>
      let r := s.dirRec ix
      let t := ({ s with dir := { s.dir with recs := tabErase s.dir.recs ix } } : State).dropSlot ix
      if r.chain = 0 || r.root || (q.ixs.drop q.firstNew ++ q.tailIx.toList).contains r.parent then t else t.refDec r.parent)
      (by intro s a; dsimp only; split <;> simp) (q.ixs.drop q.firstNew ++ q.tailIx.toList).reverse s1
    dsimp only at e ⊢
    simp only [Prod.mk.injEq] at e
    split <;> simp [-List.foldl_reverse, e, h]
  have B := A (match q.saved with
    | some (ds, ix, coat) =>
      let x := s.getSess q.sess
      let back := s.upd q.sess (fun x => { x with pages := ds ++ x.pages.drop ds.length, undercoatIx := ix, coatPos := coat })
      if x.undercoatIx = ix ∧ x.coatPos = coat then back
      else
        let b1 := if coat = 0 then back else back.refInc ix
        if x.coatPos = 0 then b1 else b1.refDec x.undercoatIx
    | none => s) (by
      split
      · dsimp only
        (repeat' split) <;> simp
      · simp)
  simp only [Prod.mk.injEq] at B
  exact B

@[simp] theorem State.pubStop_keeps (s : State) (id : Nat) (st : Status) :
    (s.pubStop id st).unit = s.unit ∧ (s.pubStop id st).free = s.free ∧ (s.pubStop id st).tick = s.tick ∧
    (s.pubStop id st).regs = s.regs ∧ (s.pubStop id st).att = s.att ∧ (s.pubStop id st).emit = s.emit ∧
    (s.pubStop id st).text = s.text ∧ (s.pubStop id st).ret = s.ret ∧ (s.pubStop id st).link = s.link ∧
    (s.pubStop id st).sec = s.sec ∧ (s.pubStop id st).ckpt = s.ckpt ∧ (s.pubStop id st).mgmt = s.mgmt ∧
    (s.pubStop id st).pwr = s.pwr ∧ (s.pubStop id st).pending = s.pending := by
  unfold State.pubStop
  split <;> simp

@[simp] theorem State.answerQ_keeps (s : State) (r : QReq) (st : Nat) (data : Bytes) (lse : Bool) :
    (s.answerQ r st data lse).unit = s.unit ∧ (s.answerQ r st data lse).free = s.free ∧ (s.answerQ r st data lse).tick = s.tick ∧
    (s.answerQ r st data lse).regs = s.regs ∧ (s.answerQ r st data lse).host = s.host ∧ (s.answerQ r st data lse).sess = s.sess ∧
    (s.answerQ r st data lse).fab = s.fab ∧ (s.answerQ r st data lse).dir = s.dir ∧ (s.answerQ r st data lse).beat = s.beat ∧
    (s.answerQ r st data lse).emit = s.emit ∧ (s.answerQ r st data lse).text = s.text ∧ (s.answerQ r st data lse).ret = s.ret ∧
    (s.answerQ r st data lse).part = s.part ∧ (s.answerQ r st data lse).sec = s.sec ∧ (s.answerQ r st data lse).ckpt = s.ckpt ∧
    (s.answerQ r st data lse).mgmt = s.mgmt ∧ (s.answerQ r st data lse).pwr = s.pwr ∧ (s.answerQ r st data lse).out = s.out ∧
    (s.answerQ r st data lse).pending = s.pending := by
  simp [State.answerQ]

@[simp] theorem State.answerAll_keeps (s : State) (handle : Nat) (st : Status) :
    (s.answerAll handle st).unit = s.unit ∧ (s.answerAll handle st).free = s.free ∧ (s.answerAll handle st).tick = s.tick ∧
    (s.answerAll handle st).regs = s.regs ∧ (s.answerAll handle st).host = s.host ∧ (s.answerAll handle st).sess = s.sess ∧
    (s.answerAll handle st).fab = s.fab ∧ (s.answerAll handle st).dir = s.dir ∧ (s.answerAll handle st).beat = s.beat ∧
    (s.answerAll handle st).emit = s.emit ∧ (s.answerAll handle st).text = s.text ∧ (s.answerAll handle st).ret = s.ret ∧
    (s.answerAll handle st).part = s.part ∧ (s.answerAll handle st).sec = s.sec ∧ (s.answerAll handle st).ckpt = s.ckpt ∧
    (s.answerAll handle st).mgmt = s.mgmt ∧ (s.answerAll handle st).pwr = s.pwr ∧ (s.answerAll handle st).out = s.out ∧
    (s.answerAll handle st).pending = s.pending := by
  simp [State.answerAll]

@[simp] theorem State.rejectOut_keeps (s : State) (port : Nat) (handle : Nat) (pos : Nat) (cause : Status) :
    (s.rejectOut port handle pos cause).unit = s.unit ∧ (s.rejectOut port handle pos cause).free = s.free ∧
    (s.rejectOut port handle pos cause).tick = s.tick ∧ (s.rejectOut port handle pos cause).regs = s.regs ∧
    (s.rejectOut port handle pos cause).host = s.host ∧ (s.rejectOut port handle pos cause).sess = s.sess ∧
    (s.rejectOut port handle pos cause).fab = s.fab ∧ (s.rejectOut port handle pos cause).dir = s.dir ∧
    (s.rejectOut port handle pos cause).att = s.att ∧ (s.rejectOut port handle pos cause).beat = s.beat ∧
    (s.rejectOut port handle pos cause).emit = s.emit ∧ (s.rejectOut port handle pos cause).text = s.text ∧
    (s.rejectOut port handle pos cause).cores = s.cores ∧ (s.rejectOut port handle pos cause).ret = s.ret ∧
    (s.rejectOut port handle pos cause).part = s.part ∧ (s.rejectOut port handle pos cause).sec = s.sec ∧
    (s.rejectOut port handle pos cause).ckpt = s.ckpt ∧ (s.rejectOut port handle pos cause).mgmt = s.mgmt ∧
    (s.rejectOut port handle pos cause).pwr = s.pwr ∧ (s.rejectOut port handle pos cause).out = s.out ∧
    (s.rejectOut port handle pos cause).pending = s.pending := by
  simp [State.rejectOut]

@[simp] theorem State.rejectLogits_keeps (s : State) (p : Nat) (id : Nat) (cause : Status) :
    (s.rejectLogits p id cause).unit = s.unit ∧ (s.rejectLogits p id cause).free = s.free ∧
    (s.rejectLogits p id cause).tick = s.tick ∧ (s.rejectLogits p id cause).host = s.host ∧
    (s.rejectLogits p id cause).fab = s.fab ∧ (s.rejectLogits p id cause).dir = s.dir ∧ (s.rejectLogits p id cause).att = s.att ∧
    (s.rejectLogits p id cause).beat = s.beat ∧ (s.rejectLogits p id cause).text = s.text ∧
    (s.rejectLogits p id cause).cores = s.cores ∧ (s.rejectLogits p id cause).ret = s.ret ∧
    (s.rejectLogits p id cause).part = s.part ∧ (s.rejectLogits p id cause).sec = s.sec ∧
    (s.rejectLogits p id cause).ckpt = s.ckpt ∧ (s.rejectLogits p id cause).mgmt = s.mgmt ∧
    (s.rejectLogits p id cause).pwr = s.pwr ∧ (s.rejectLogits p id cause).out = s.out ∧
    (s.rejectLogits p id cause).pending = s.pending := by
  unfold State.rejectLogits; dsimp only; (repeat' split) <;> simp

@[simp] theorem State.ctrlEnd_keeps (s : State) (p : Nat) (handle : Nat) :
    (s.ctrlEnd p handle).unit = s.unit ∧ (s.ctrlEnd p handle).free = s.free ∧ (s.ctrlEnd p handle).tick = s.tick ∧
    (s.ctrlEnd p handle).regs = s.regs ∧ (s.ctrlEnd p handle).host = s.host ∧ (s.ctrlEnd p handle).sess = s.sess ∧
    (s.ctrlEnd p handle).fab = s.fab ∧ (s.ctrlEnd p handle).dir = s.dir ∧ (s.ctrlEnd p handle).att = s.att ∧
    (s.ctrlEnd p handle).beat = s.beat ∧ (s.ctrlEnd p handle).emit = s.emit ∧ (s.ctrlEnd p handle).text = s.text ∧
    (s.ctrlEnd p handle).cores = s.cores ∧ (s.ctrlEnd p handle).ret = s.ret ∧ (s.ctrlEnd p handle).part = s.part ∧
    (s.ctrlEnd p handle).sec = s.sec ∧ (s.ctrlEnd p handle).ckpt = s.ckpt ∧ (s.ctrlEnd p handle).mgmt = s.mgmt ∧
    (s.ctrlEnd p handle).pwr = s.pwr ∧ (s.ctrlEnd p handle).out = s.out ∧ (s.ctrlEnd p handle).pending = s.pending := by
  simp [State.ctrlEnd]

@[simp] theorem State.recall_keeps (s : State) (h : Nat) :
    (s.recall h).unit = s.unit ∧ (s.recall h).free = s.free ∧ (s.recall h).tick = s.tick ∧ (s.recall h).regs = s.regs ∧
    (s.recall h).ctrs = s.ctrs ∧ (s.recall h).host = s.host ∧ (s.recall h).sess = s.sess ∧ (s.recall h).fab = s.fab ∧
    (s.recall h).dir = s.dir ∧ (s.recall h).att = s.att ∧ (s.recall h).beat = s.beat ∧ (s.recall h).emit = s.emit ∧
    (s.recall h).text = s.text ∧ (s.recall h).cores = s.cores ∧ (s.recall h).ret = s.ret ∧ (s.recall h).part = s.part ∧
    (s.recall h).sec = s.sec ∧ (s.recall h).ckpt = s.ckpt ∧ (s.recall h).mgmt = s.mgmt ∧ (s.recall h).pwr = s.pwr ∧
    (s.recall h).out = s.out ∧ (s.recall h).pending = s.pending := by
  exact ⟨rfl, rfl, rfl, rfl, rfl, rfl, rfl, rfl, rfl, rfl, rfl, rfl, rfl, rfl, rfl, rfl, rfl, rfl, rfl, rfl, rfl, rfl⟩

@[simp] theorem State.freeCredit_keeps (s : State) (port : Nat) (vc : Nat) (n : Nat) :
    (s.freeCredit port vc n).unit = s.unit ∧ (s.freeCredit port vc n).free = s.free ∧ (s.freeCredit port vc n).tick = s.tick ∧
    (s.freeCredit port vc n).regs = s.regs ∧ (s.freeCredit port vc n).ctrs = s.ctrs ∧ (s.freeCredit port vc n).host = s.host ∧
    (s.freeCredit port vc n).sess = s.sess ∧ (s.freeCredit port vc n).fab = s.fab ∧ (s.freeCredit port vc n).dir = s.dir ∧
    (s.freeCredit port vc n).att = s.att ∧ (s.freeCredit port vc n).beat = s.beat ∧ (s.freeCredit port vc n).emit = s.emit ∧
    (s.freeCredit port vc n).text = s.text ∧ (s.freeCredit port vc n).cores = s.cores ∧ (s.freeCredit port vc n).ret = s.ret ∧
    (s.freeCredit port vc n).part = s.part ∧ (s.freeCredit port vc n).sec = s.sec ∧ (s.freeCredit port vc n).ckpt = s.ckpt ∧
    (s.freeCredit port vc n).mgmt = s.mgmt ∧ (s.freeCredit port vc n).pwr = s.pwr ∧ (s.freeCredit port vc n).out = s.out ∧
    (s.freeCredit port vc n).pending = s.pending := by
  exact ⟨rfl, rfl, rfl, rfl, rfl, rfl, rfl, rfl, rfl, rfl, rfl, rfl, rfl, rfl, rfl, rfl, rfl, rfl, rfl, rfl, rfl, rfl⟩

@[simp] theorem State.popMsg_keeps (s : State) (port : Nat) (vc : Nat) :
    (s.popMsg port vc).unit = s.unit ∧ (s.popMsg port vc).free = s.free ∧ (s.popMsg port vc).tick = s.tick ∧
    (s.popMsg port vc).regs = s.regs ∧ (s.popMsg port vc).ctrs = s.ctrs ∧ (s.popMsg port vc).host = s.host ∧
    (s.popMsg port vc).sess = s.sess ∧ (s.popMsg port vc).fab = s.fab ∧ (s.popMsg port vc).dir = s.dir ∧
    (s.popMsg port vc).att = s.att ∧ (s.popMsg port vc).beat = s.beat ∧ (s.popMsg port vc).emit = s.emit ∧
    (s.popMsg port vc).text = s.text ∧ (s.popMsg port vc).cores = s.cores ∧ (s.popMsg port vc).ret = s.ret ∧
    (s.popMsg port vc).part = s.part ∧ (s.popMsg port vc).sec = s.sec ∧ (s.popMsg port vc).ckpt = s.ckpt ∧
    (s.popMsg port vc).mgmt = s.mgmt ∧ (s.popMsg port vc).pwr = s.pwr ∧ (s.popMsg port vc).out = s.out ∧
    (s.popMsg port vc).pending = s.pending := by
  exact ⟨rfl, rfl, rfl, rfl, rfl, rfl, rfl, rfl, rfl, rfl, rfl, rfl, rfl, rfl, rfl, rfl, rfl, rfl, rfl, rfl, rfl, rfl⟩

@[simp] theorem State.takeMsg_keeps (s : State) (port : Nat) (vc : Nat) (m : Msg) :
    (s.takeMsg port vc m).unit = s.unit ∧ (s.takeMsg port vc m).free = s.free ∧ (s.takeMsg port vc m).tick = s.tick ∧
    (s.takeMsg port vc m).regs = s.regs ∧ (s.takeMsg port vc m).ctrs = s.ctrs ∧ (s.takeMsg port vc m).host = s.host ∧
    (s.takeMsg port vc m).sess = s.sess ∧ (s.takeMsg port vc m).fab = s.fab ∧ (s.takeMsg port vc m).dir = s.dir ∧
    (s.takeMsg port vc m).att = s.att ∧ (s.takeMsg port vc m).beat = s.beat ∧ (s.takeMsg port vc m).emit = s.emit ∧
    (s.takeMsg port vc m).text = s.text ∧ (s.takeMsg port vc m).cores = s.cores ∧ (s.takeMsg port vc m).ret = s.ret ∧
    (s.takeMsg port vc m).part = s.part ∧ (s.takeMsg port vc m).sec = s.sec ∧ (s.takeMsg port vc m).ckpt = s.ckpt ∧
    (s.takeMsg port vc m).mgmt = s.mgmt ∧ (s.takeMsg port vc m).pwr = s.pwr ∧ (s.takeMsg port vc m).out = s.out ∧
    (s.takeMsg port vc m).pending = s.pending := by
  exact ⟨rfl, rfl, rfl, rfl, rfl, rfl, rfl, rfl, rfl, rfl, rfl, rfl, rfl, rfl, rfl, rfl, rfl, rfl, rfl, rfl, rfl, rfl⟩

@[simp] theorem State.openStall_keeps (s : State) (id : Nat) (cause : Nat) :
    (s.openStall id cause).unit = s.unit ∧ (s.openStall id cause).free = s.free ∧ (s.openStall id cause).tick = s.tick ∧
    (s.openStall id cause).regs = s.regs ∧ (s.openStall id cause).host = s.host ∧ (s.openStall id cause).fab = s.fab ∧
    (s.openStall id cause).dir = s.dir ∧ (s.openStall id cause).att = s.att ∧ (s.openStall id cause).beat = s.beat ∧
    (s.openStall id cause).emit = s.emit ∧ (s.openStall id cause).text = s.text ∧ (s.openStall id cause).cores = s.cores ∧
    (s.openStall id cause).ret = s.ret ∧ (s.openStall id cause).link = s.link ∧ (s.openStall id cause).part = s.part ∧
    (s.openStall id cause).sec = s.sec ∧ (s.openStall id cause).ckpt = s.ckpt ∧ (s.openStall id cause).mgmt = s.mgmt ∧
    (s.openStall id cause).pwr = s.pwr ∧ (s.openStall id cause).out = s.out ∧ (s.openStall id cause).pending = s.pending := by
  unfold State.openStall; dsimp only; (repeat' split) <;> simp

@[simp] theorem State.closeStall_keeps (s : State) (id : Nat) :
    (s.closeStall id).unit = s.unit ∧ (s.closeStall id).free = s.free ∧ (s.closeStall id).tick = s.tick ∧
    (s.closeStall id).regs = s.regs ∧ (s.closeStall id).ctrs = s.ctrs ∧ (s.closeStall id).host = s.host ∧
    (s.closeStall id).fab = s.fab ∧ (s.closeStall id).dir = s.dir ∧ (s.closeStall id).att = s.att ∧
    (s.closeStall id).beat = s.beat ∧ (s.closeStall id).emit = s.emit ∧ (s.closeStall id).text = s.text ∧
    (s.closeStall id).cores = s.cores ∧ (s.closeStall id).ret = s.ret ∧ (s.closeStall id).link = s.link ∧
    (s.closeStall id).part = s.part ∧ (s.closeStall id).sec = s.sec ∧ (s.closeStall id).ckpt = s.ckpt ∧
    (s.closeStall id).mgmt = s.mgmt ∧ (s.closeStall id).pwr = s.pwr ∧ (s.closeStall id).out = s.out ∧
    (s.closeStall id).pending = s.pending := by
  exact ⟨rfl, rfl, rfl, rfl, rfl, rfl, rfl, rfl, rfl, rfl, rfl, rfl, rfl, rfl, rfl, rfl, rfl, rfl, rfl, rfl, rfl, rfl⟩

@[simp] theorem State.endIn_keeps (s : State) (id : Nat) (st : Status) :
    (s.endIn id st).unit = s.unit ∧ (s.endIn id st).free = s.free ∧ (s.endIn id st).tick = s.tick ∧ (s.endIn id st).regs = s.regs ∧
    (s.endIn id st).host = s.host ∧ (s.endIn id st).sess = s.sess ∧ (s.endIn id st).fab = s.fab ∧ (s.endIn id st).dir = s.dir ∧
    (s.endIn id st).att = s.att ∧ (s.endIn id st).beat = s.beat ∧ (s.endIn id st).emit = s.emit ∧ (s.endIn id st).text = s.text ∧
    (s.endIn id st).cores = s.cores ∧ (s.endIn id st).ret = s.ret ∧ (s.endIn id st).part = s.part ∧ (s.endIn id st).sec = s.sec ∧
    (s.endIn id st).ckpt = s.ckpt ∧ (s.endIn id st).mgmt = s.mgmt ∧ (s.endIn id st).pwr = s.pwr ∧ (s.endIn id st).out = s.out ∧
    (s.endIn id st).pending = s.pending := by
  unfold State.endIn
  split <;> simp

@[simp] theorem State.modIn_keeps (s : State) (id : Nat) (f : MoveIn → MoveIn) :
    (s.modIn id f).unit = s.unit ∧ (s.modIn id f).free = s.free ∧ (s.modIn id f).tick = s.tick ∧ (s.modIn id f).regs = s.regs ∧
    (s.modIn id f).ctrs = s.ctrs ∧ (s.modIn id f).host = s.host ∧ (s.modIn id f).sess = s.sess ∧ (s.modIn id f).fab = s.fab ∧
    (s.modIn id f).dir = s.dir ∧ (s.modIn id f).att = s.att ∧ (s.modIn id f).beat = s.beat ∧ (s.modIn id f).emit = s.emit ∧
    (s.modIn id f).text = s.text ∧ (s.modIn id f).cores = s.cores ∧ (s.modIn id f).ret = s.ret ∧ (s.modIn id f).part = s.part ∧
    (s.modIn id f).sec = s.sec ∧ (s.modIn id f).ckpt = s.ckpt ∧ (s.modIn id f).mgmt = s.mgmt ∧ (s.modIn id f).pwr = s.pwr ∧
    (s.modIn id f).out = s.out ∧ (s.modIn id f).pending = s.pending := by
  exact ⟨rfl, rfl, rfl, rfl, rfl, rfl, rfl, rfl, rfl, rfl, rfl, rfl, rfl, rfl, rfl, rfl, rfl, rfl, rfl, rfl, rfl, rfl⟩

@[simp] theorem State.moveLogged_keeps (s : State) (id : Nat) :
    (s.moveLogged id).unit = s.unit ∧ (s.moveLogged id).free = s.free ∧ (s.moveLogged id).tick = s.tick ∧
    (s.moveLogged id).regs = s.regs ∧ (s.moveLogged id).host = s.host ∧ (s.moveLogged id).sess = s.sess ∧
    (s.moveLogged id).fab = s.fab ∧ (s.moveLogged id).dir = s.dir ∧ (s.moveLogged id).att = s.att ∧
    (s.moveLogged id).beat = s.beat ∧ (s.moveLogged id).emit = s.emit ∧ (s.moveLogged id).text = s.text ∧
    (s.moveLogged id).cores = s.cores ∧ (s.moveLogged id).ret = s.ret ∧ (s.moveLogged id).part = s.part ∧
    (s.moveLogged id).sec = s.sec ∧ (s.moveLogged id).ckpt = s.ckpt ∧ (s.moveLogged id).mgmt = s.mgmt ∧
    (s.moveLogged id).pwr = s.pwr ∧ (s.moveLogged id).out = s.out ∧ (s.moveLogged id).pending = s.pending := by
  unfold State.moveLogged
  split <;> simp

@[simp] theorem State.moveDone_keeps (s : State) (id : Nat) :
    (s.moveDone id).unit = s.unit ∧ (s.moveDone id).free = s.free ∧ (s.moveDone id).tick = s.tick ∧ (s.moveDone id).regs = s.regs ∧
    (s.moveDone id).sess = s.sess ∧ (s.moveDone id).fab = s.fab ∧ (s.moveDone id).dir = s.dir ∧ (s.moveDone id).att = s.att ∧
    (s.moveDone id).beat = s.beat ∧ (s.moveDone id).emit = s.emit ∧ (s.moveDone id).text = s.text ∧
    (s.moveDone id).cores = s.cores ∧ (s.moveDone id).ret = s.ret ∧ (s.moveDone id).part = s.part ∧ (s.moveDone id).sec = s.sec ∧
    (s.moveDone id).ckpt = s.ckpt ∧ (s.moveDone id).mgmt = s.mgmt ∧ (s.moveDone id).pwr = s.pwr ∧
    (s.moveDone id).pending = s.pending := by
  unfold State.moveDone
  split <;> simp

@[simp] theorem State.abandonOut_keeps (s : State) (m : MoveOut) (st : Status) :
    (s.abandonOut m st).unit = s.unit ∧ (s.abandonOut m st).free = s.free ∧ (s.abandonOut m st).tick = s.tick ∧
    (s.abandonOut m st).regs = s.regs ∧ (s.abandonOut m st).sess = s.sess ∧ (s.abandonOut m st).fab = s.fab ∧
    (s.abandonOut m st).dir = s.dir ∧ (s.abandonOut m st).att = s.att ∧ (s.abandonOut m st).beat = s.beat ∧
    (s.abandonOut m st).emit = s.emit ∧ (s.abandonOut m st).text = s.text ∧ (s.abandonOut m st).cores = s.cores ∧
    (s.abandonOut m st).ret = s.ret ∧ (s.abandonOut m st).part = s.part ∧ (s.abandonOut m st).sec = s.sec ∧
    (s.abandonOut m st).ckpt = s.ckpt ∧ (s.abandonOut m st).mgmt = s.mgmt ∧ (s.abandonOut m st).pwr = s.pwr ∧
    (s.abandonOut m st).pending = s.pending := by
  simp [State.abandonOut]

@[simp] theorem State.writeRec_keeps (s : State) (qk : Nat) (p : Nat) (r : Bytes) :
    (s.writeRec qk p r).unit = s.unit ∧ (s.writeRec qk p r).free = s.free ∧ (s.writeRec qk p r).tick = s.tick ∧
    (s.writeRec qk p r).regs = s.regs ∧ (s.writeRec qk p r).sess = s.sess ∧ (s.writeRec qk p r).fab = s.fab ∧
    (s.writeRec qk p r).dir = s.dir ∧ (s.writeRec qk p r).att = s.att ∧ (s.writeRec qk p r).beat = s.beat ∧
    (s.writeRec qk p r).emit = s.emit ∧ (s.writeRec qk p r).text = s.text ∧ (s.writeRec qk p r).cores = s.cores ∧
    (s.writeRec qk p r).ret = s.ret ∧ (s.writeRec qk p r).link = s.link ∧ (s.writeRec qk p r).part = s.part ∧
    (s.writeRec qk p r).sec = s.sec ∧ (s.writeRec qk p r).ckpt = s.ckpt ∧ (s.writeRec qk p r).mgmt = s.mgmt ∧
    (s.writeRec qk p r).pwr = s.pwr ∧ (s.writeRec qk p r).pending = s.pending := by
  simp [State.writeRec]

@[simp] theorem State.writeWait_keeps (s : State) (w : WaitRec) :
    (s.writeWait w).unit = s.unit ∧ (s.writeWait w).free = s.free ∧ (s.writeWait w).tick = s.tick ∧ (s.writeWait w).regs = s.regs ∧
    (s.writeWait w).fab = s.fab ∧ (s.writeWait w).dir = s.dir ∧ (s.writeWait w).att = s.att ∧ (s.writeWait w).beat = s.beat ∧
    (s.writeWait w).emit = s.emit ∧ (s.writeWait w).cores = s.cores ∧ (s.writeWait w).ret = s.ret ∧ (s.writeWait w).link = s.link ∧
    (s.writeWait w).part = s.part ∧ (s.writeWait w).sec = s.sec ∧ (s.writeWait w).ckpt = s.ckpt ∧ (s.writeWait w).mgmt = s.mgmt ∧
    (s.writeWait w).pwr = s.pwr ∧ (s.writeWait w).pending = s.pending := by
  simp [State.writeWait]

@[simp] theorem State.flushWaits_keeps (s : State) :
    s.flushWaits.unit = s.unit ∧ s.flushWaits.free = s.free ∧ s.flushWaits.tick = s.tick ∧ s.flushWaits.regs = s.regs ∧
    s.flushWaits.fab = s.fab ∧ s.flushWaits.dir = s.dir ∧ s.flushWaits.att = s.att ∧ s.flushWaits.beat = s.beat ∧
    s.flushWaits.emit = s.emit ∧ s.flushWaits.cores = s.cores ∧ s.flushWaits.ret = s.ret ∧ s.flushWaits.link = s.link ∧
    s.flushWaits.part = s.part ∧ s.flushWaits.sec = s.sec ∧ s.flushWaits.ckpt = s.ckpt ∧ s.flushWaits.mgmt = s.mgmt ∧
    s.flushWaits.pwr = s.pwr ∧ s.flushWaits.pending = s.pending := by
  have key : ∀ x : State, (x.unit, x.free, x.tick, x.regs, x.fab, x.dir, x.att, x.beat, x.emit, x.cores, x.ret, x.link, x.part, x.sec, x.ckpt, x.mgmt, x.pwr, x.pending) = (s.unit, s.free, s.tick, s.regs, s.fab, s.dir, s.att, s.beat, s.emit, s.cores, s.ret, s.link, s.part, s.sec, s.ckpt, s.mgmt, s.pwr, s.pending) → x.unit = s.unit ∧ x.free = s.free ∧ x.tick = s.tick ∧ x.regs = s.regs ∧ x.fab = s.fab ∧ x.dir = s.dir ∧ x.att = s.att ∧ x.beat = s.beat ∧ x.emit = s.emit ∧ x.cores = s.cores ∧ x.ret = s.ret ∧ x.link = s.link ∧ x.part = s.part ∧ x.sec = s.sec ∧ x.ckpt = s.ckpt ∧ x.mgmt = s.mgmt ∧ x.pwr = s.pwr ∧ x.pending = s.pending := by intro x h; simpa using h
  refine key _ ?_
  unfold State.flushWaits
  refine foldl_fix (fun x : State => (x.unit, x.free, x.tick, x.regs, x.fab, x.dir, x.att, x.beat, x.emit, x.cores, x.ret, x.link, x.part, x.sec, x.ckpt, x.mgmt, x.pwr, x.pending)) _ ?_ _ _
  intro a w
  split <;> simp

@[simp] theorem State.dropMovesOnly_keeps (s : State) (id : Nat) :
    (s.dropMovesOnly id).unit = s.unit ∧ (s.dropMovesOnly id).free = s.free ∧ (s.dropMovesOnly id).tick = s.tick ∧
    (s.dropMovesOnly id).regs = s.regs ∧ (s.dropMovesOnly id).ctrs = s.ctrs ∧ (s.dropMovesOnly id).host = s.host ∧
    (s.dropMovesOnly id).sess = s.sess ∧ (s.dropMovesOnly id).dir = s.dir ∧ (s.dropMovesOnly id).att = s.att ∧
    (s.dropMovesOnly id).beat = s.beat ∧ (s.dropMovesOnly id).emit = s.emit ∧ (s.dropMovesOnly id).text = s.text ∧
    (s.dropMovesOnly id).cores = s.cores ∧ (s.dropMovesOnly id).ret = s.ret ∧ (s.dropMovesOnly id).link = s.link ∧
    (s.dropMovesOnly id).part = s.part ∧ (s.dropMovesOnly id).sec = s.sec ∧ (s.dropMovesOnly id).ckpt = s.ckpt ∧
    (s.dropMovesOnly id).mgmt = s.mgmt ∧ (s.dropMovesOnly id).pwr = s.pwr ∧ (s.dropMovesOnly id).out = s.out ∧
    (s.dropMovesOnly id).pending = s.pending := by
  exact ⟨rfl, rfl, rfl, rfl, rfl, rfl, rfl, rfl, rfl, rfl, rfl, rfl, rfl, rfl, rfl, rfl, rfl, rfl, rfl, rfl, rfl, rfl⟩

@[simp] theorem State.startPark_keeps (s : State) (id : Nat) :
    (s.startPark id).unit = s.unit ∧ (s.startPark id).free = s.free ∧ (s.startPark id).tick = s.tick ∧
    (s.startPark id).regs = s.regs ∧ (s.startPark id).att = s.att ∧ (s.startPark id).emit = s.emit ∧
    (s.startPark id).text = s.text ∧ (s.startPark id).ret = s.ret ∧ (s.startPark id).link = s.link ∧ (s.startPark id).sec = s.sec ∧
    (s.startPark id).ckpt = s.ckpt ∧ (s.startPark id).mgmt = s.mgmt ∧ (s.startPark id).pwr = s.pwr ∧
    (s.startPark id).pending = s.pending := by
  simp [State.startPark]

@[simp] theorem State.startRevive_keeps (s : State) (id : Nat) (q : FQueue) (start : Nat) :
    (s.startRevive id q start).unit = s.unit ∧ (s.startRevive id q start).free = s.free ∧
    (s.startRevive id q start).tick = s.tick ∧ (s.startRevive id q start).regs = s.regs ∧
    (s.startRevive id q start).ctrs = s.ctrs ∧ (s.startRevive id q start).dir = s.dir ∧ (s.startRevive id q start).att = s.att ∧
    (s.startRevive id q start).emit = s.emit ∧ (s.startRevive id q start).text = s.text ∧
    (s.startRevive id q start).cores = s.cores ∧ (s.startRevive id q start).ret = s.ret ∧
    (s.startRevive id q start).link = s.link ∧ (s.startRevive id q start).sec = s.sec ∧ (s.startRevive id q start).ckpt = s.ckpt ∧
    (s.startRevive id q start).mgmt = s.mgmt ∧ (s.startRevive id q start).pwr = s.pwr ∧ (s.startRevive id q start).out = s.out ∧
    (s.startRevive id q start).pending = s.pending := by
  simp [State.startRevive]

@[simp] theorem State.parkDone_keeps (s : State) (id : Nat) :
    (s.parkDone id).unit = s.unit ∧ (s.parkDone id).free = s.free ∧ (s.parkDone id).tick = s.tick ∧ (s.parkDone id).regs = s.regs ∧
    (s.parkDone id).ctrs = s.ctrs ∧ (s.parkDone id).host = s.host ∧ (s.parkDone id).fab = s.fab ∧ (s.parkDone id).dir = s.dir ∧
    (s.parkDone id).att = s.att ∧ (s.parkDone id).beat = s.beat ∧ (s.parkDone id).emit = s.emit ∧ (s.parkDone id).text = s.text ∧
    (s.parkDone id).cores = s.cores ∧ (s.parkDone id).ret = s.ret ∧ (s.parkDone id).link = s.link ∧ (s.parkDone id).part = s.part ∧
    (s.parkDone id).sec = s.sec ∧ (s.parkDone id).ckpt = s.ckpt ∧ (s.parkDone id).mgmt = s.mgmt ∧ (s.parkDone id).pwr = s.pwr ∧
    (s.parkDone id).out = s.out ∧ (s.parkDone id).pending = s.pending := by
  simp [State.parkDone]

@[simp] theorem State.enteredIdle_keeps (s : State) (id : Nat) :
    (s.enteredIdle id).unit = s.unit ∧ (s.enteredIdle id).free = s.free ∧ (s.enteredIdle id).tick = s.tick ∧
    (s.enteredIdle id).regs = s.regs ∧ (s.enteredIdle id).att = s.att ∧ (s.enteredIdle id).emit = s.emit ∧
    (s.enteredIdle id).text = s.text ∧ (s.enteredIdle id).ret = s.ret ∧ (s.enteredIdle id).link = s.link ∧
    (s.enteredIdle id).sec = s.sec ∧ (s.enteredIdle id).ckpt = s.ckpt ∧ (s.enteredIdle id).mgmt = s.mgmt ∧
    (s.enteredIdle id).pwr = s.pwr ∧ (s.enteredIdle id).pending = s.pending := by
  simp [State.enteredIdle]

@[simp] theorem State.genFinal_keeps (s : State) (h : Nat) (g : Gen) (st : Status) :
    (s.genFinal h g st).unit = s.unit ∧ (s.genFinal h g st).free = s.free ∧ (s.genFinal h g st).tick = s.tick ∧
    (s.genFinal h g st).regs = s.regs ∧ (s.genFinal h g st).sess = s.sess ∧ (s.genFinal h g st).fab = s.fab ∧
    (s.genFinal h g st).dir = s.dir ∧ (s.genFinal h g st).att = s.att ∧ (s.genFinal h g st).beat = s.beat ∧
    (s.genFinal h g st).emit = s.emit ∧ (s.genFinal h g st).text = s.text ∧ (s.genFinal h g st).cores = s.cores ∧
    (s.genFinal h g st).ret = s.ret ∧ (s.genFinal h g st).link = s.link ∧ (s.genFinal h g st).part = s.part ∧
    (s.genFinal h g st).sec = s.sec ∧ (s.genFinal h g st).ckpt = s.ckpt ∧ (s.genFinal h g st).mgmt = s.mgmt ∧
    (s.genFinal h g st).pwr = s.pwr ∧ (s.genFinal h g st).pending = s.pending := by
  simp [State.genFinal]

@[simp] theorem State.endGen_keeps (s : State) (id : Nat) (st : Status) (stNew : SState) :
    (s.endGen id st stNew).unit = s.unit ∧ (s.endGen id st stNew).free = s.free ∧ (s.endGen id st stNew).tick = s.tick ∧
    (s.endGen id st stNew).regs = s.regs ∧ (s.endGen id st stNew).fab = s.fab ∧ (s.endGen id st stNew).dir = s.dir ∧
    (s.endGen id st stNew).att = s.att ∧ (s.endGen id st stNew).beat = s.beat ∧ (s.endGen id st stNew).emit = s.emit ∧
    (s.endGen id st stNew).cores = s.cores ∧ (s.endGen id st stNew).ret = s.ret ∧ (s.endGen id st stNew).link = s.link ∧
    (s.endGen id st stNew).part = s.part ∧ (s.endGen id st stNew).sec = s.sec ∧ (s.endGen id st stNew).ckpt = s.ckpt ∧
    (s.endGen id st stNew).mgmt = s.mgmt ∧ (s.endGen id st stNew).pwr = s.pwr ∧ (s.endGen id st stNew).pending = s.pending := by
  unfold State.endGen; dsimp only; (repeat' split) <;> simp

@[simp] theorem State.keepReads_keeps (s : State) (id : Nat) :
    (s.keepReads id).unit = s.unit ∧ (s.keepReads id).free = s.free ∧ (s.keepReads id).tick = s.tick ∧
    (s.keepReads id).regs = s.regs ∧ (s.keepReads id).ctrs = s.ctrs ∧ (s.keepReads id).host = s.host ∧
    (s.keepReads id).sess = s.sess ∧ (s.keepReads id).fab = s.fab ∧ (s.keepReads id).dir = s.dir ∧ (s.keepReads id).beat = s.beat ∧
    (s.keepReads id).emit = s.emit ∧ (s.keepReads id).text = s.text ∧ (s.keepReads id).cores = s.cores ∧
    (s.keepReads id).ret = s.ret ∧ (s.keepReads id).link = s.link ∧ (s.keepReads id).part = s.part ∧ (s.keepReads id).sec = s.sec ∧
    (s.keepReads id).ckpt = s.ckpt ∧ (s.keepReads id).mgmt = s.mgmt ∧ (s.keepReads id).pwr = s.pwr ∧ (s.keepReads id).out = s.out ∧
    (s.keepReads id).pending = s.pending := by
  exact ⟨rfl, rfl, rfl, rfl, rfl, rfl, rfl, rfl, rfl, rfl, rfl, rfl, rfl, rfl, rfl, rfl, rfl, rfl, rfl, rfl, rfl, rfl⟩

@[simp] theorem State.toEnded_keeps (s : State) (id : Nat) :
    (s.toEnded id).unit = s.unit ∧ (s.toEnded id).free = s.free ∧ (s.toEnded id).tick = s.tick ∧ (s.toEnded id).regs = s.regs ∧
    (s.toEnded id).emit = s.emit ∧ (s.toEnded id).text = s.text ∧ (s.toEnded id).ret = s.ret ∧ (s.toEnded id).sec = s.sec ∧
    (s.toEnded id).ckpt = s.ckpt ∧ (s.toEnded id).mgmt = s.mgmt ∧ (s.toEnded id).pwr = s.pwr ∧ (s.toEnded id).pending = s.pending := by
  simp [State.toEnded]

@[simp] theorem State.closeIfDue_keeps (s : State) (id : Nat) :
    (s.closeIfDue id).unit = s.unit ∧ (s.closeIfDue id).free = s.free ∧ (s.closeIfDue id).tick = s.tick ∧
    (s.closeIfDue id).regs = s.regs ∧ (s.closeIfDue id).emit = s.emit ∧ (s.closeIfDue id).text = s.text ∧
    (s.closeIfDue id).ret = s.ret ∧ (s.closeIfDue id).sec = s.sec ∧ (s.closeIfDue id).ckpt = s.ckpt ∧
    (s.closeIfDue id).mgmt = s.mgmt ∧ (s.closeIfDue id).pwr = s.pwr ∧ (s.closeIfDue id).pending = s.pending := by
  simp [State.closeIfDue]

end Sys2Proof.Machine
end

