-- ==== Sys2Proof/Laws/Keeps2.lean ====
section
/-! SUPPORT. The frame of each shared operation on the state: the parts it leaves as they are (Commit, Directory, Invoke, KvWrite, Mover, Scaesh, SessCmds, Sessions). -/

namespace Sys2Proof.Machine

@[simp] theorem State.endGenIdle_keeps (s : State) (id : Nat) (st : Status) :
    (s.endGenIdle id st).unit = s.unit ∧ (s.endGenIdle id st).free = s.free ∧ (s.endGenIdle id st).tick = s.tick ∧
    (s.endGenIdle id st).regs = s.regs ∧ (s.endGenIdle id st).emit = s.emit ∧ (s.endGenIdle id st).ret = s.ret ∧
    (s.endGenIdle id st).sec = s.sec ∧ (s.endGenIdle id st).ckpt = s.ckpt ∧ (s.endGenIdle id st).mgmt = s.mgmt ∧
    (s.endGenIdle id st).pwr = s.pwr ∧ (s.endGenIdle id st).pending = s.pending := by
  simp [State.endGenIdle]

@[simp] theorem State.dropHeld_keeps (s : State) (id : Nat) (st : Status) :
    (s.dropHeld id st).unit = s.unit ∧ (s.dropHeld id st).free = s.free ∧ (s.dropHeld id st).tick = s.tick ∧
    (s.dropHeld id st).regs = s.regs ∧ (s.dropHeld id st).fab = s.fab ∧ (s.dropHeld id st).dir = s.dir ∧
    (s.dropHeld id st).att = s.att ∧ (s.dropHeld id st).beat = s.beat ∧ (s.dropHeld id st).emit = s.emit ∧
    (s.dropHeld id st).text = s.text ∧ (s.dropHeld id st).cores = s.cores ∧ (s.dropHeld id st).ret = s.ret ∧
    (s.dropHeld id st).link = s.link ∧ (s.dropHeld id st).part = s.part ∧ (s.dropHeld id st).sec = s.sec ∧
    (s.dropHeld id st).ckpt = s.ckpt ∧ (s.dropHeld id st).mgmt = s.mgmt ∧ (s.dropHeld id st).pwr = s.pwr ∧
    (s.dropHeld id st).pending = s.pending := by
  unfold State.dropHeld; dsimp only; (repeat' split) <;> simp

@[simp] theorem State.strip_keeps (s : State) (id : Nat) :
    (s.strip id).unit = s.unit ∧ (s.strip id).free = s.free ∧ (s.strip id).tick = s.tick ∧ (s.strip id).regs = s.regs ∧
    (s.strip id).emit = s.emit ∧ (s.strip id).text = s.text ∧ (s.strip id).ret = s.ret ∧ (s.strip id).link = s.link ∧
    (s.strip id).sec = s.sec ∧ (s.strip id).mgmt = s.mgmt ∧ (s.strip id).pwr = s.pwr ∧ (s.strip id).pending = s.pending := by
  simp [State.strip]

@[simp] theorem State.endOpen_keeps (s : State) (id : Nat) (st : Status) (stNew : SState) :
    (s.endOpen id st stNew).unit = s.unit ∧ (s.endOpen id st stNew).free = s.free ∧ (s.endOpen id st stNew).tick = s.tick ∧
    (s.endOpen id st stNew).regs = s.regs ∧ (s.endOpen id st stNew).fab = s.fab ∧ (s.endOpen id st stNew).dir = s.dir ∧
    (s.endOpen id st stNew).att = s.att ∧ (s.endOpen id st stNew).beat = s.beat ∧ (s.endOpen id st stNew).emit = s.emit ∧
    (s.endOpen id st stNew).cores = s.cores ∧ (s.endOpen id st stNew).ret = s.ret ∧ (s.endOpen id st stNew).link = s.link ∧
    (s.endOpen id st stNew).part = s.part ∧ (s.endOpen id st stNew).sec = s.sec ∧ (s.endOpen id st stNew).ckpt = s.ckpt ∧
    (s.endOpen id st stNew).mgmt = s.mgmt ∧ (s.endOpen id st stNew).pwr = s.pwr ∧ (s.endOpen id st stNew).pending = s.pending := by
  simp [State.endOpen]

@[simp] theorem State.faultSess_keeps (s : State) (id : Nat) (st : Status) :
    (s.faultSess id st).unit = s.unit ∧ (s.faultSess id st).free = s.free ∧ (s.faultSess id st).tick = s.tick ∧
    (s.faultSess id st).regs = s.regs ∧ (s.faultSess id st).emit = s.emit ∧ (s.faultSess id st).ret = s.ret ∧
    (s.faultSess id st).sec = s.sec ∧ (s.faultSess id st).mgmt = s.mgmt ∧ (s.faultSess id st).pwr = s.pwr ∧
    (s.faultSess id st).pending = s.pending := by
  simp [State.faultSess]

@[simp] theorem State.tierFault_keeps (s : State) (id : Nat) :
    (s.tierFault id).unit = s.unit ∧ (s.tierFault id).free = s.free ∧ (s.tierFault id).tick = s.tick ∧
    (s.tierFault id).regs = s.regs ∧ (s.tierFault id).emit = s.emit ∧ (s.tierFault id).ret = s.ret ∧ (s.tierFault id).sec = s.sec ∧
    (s.tierFault id).mgmt = s.mgmt ∧ (s.tierFault id).pwr = s.pwr ∧ (s.tierFault id).pending = s.pending := by
  simp [State.tierFault]

@[simp] theorem State.loseBlock_keeps (s : State) (id : Nat) (b : Nat) :
    (s.loseBlock id b).unit = s.unit ∧ (s.loseBlock id b).free = s.free ∧ (s.loseBlock id b).tick = s.tick ∧
    (s.loseBlock id b).regs = s.regs ∧ (s.loseBlock id b).ctrs = s.ctrs ∧ (s.loseBlock id b).host = s.host ∧
    (s.loseBlock id b).dir = s.dir ∧ (s.loseBlock id b).att = s.att ∧ (s.loseBlock id b).beat = s.beat ∧
    (s.loseBlock id b).emit = s.emit ∧ (s.loseBlock id b).text = s.text ∧ (s.loseBlock id b).cores = s.cores ∧
    (s.loseBlock id b).ret = s.ret ∧ (s.loseBlock id b).link = s.link ∧ (s.loseBlock id b).part = s.part ∧
    (s.loseBlock id b).sec = s.sec ∧ (s.loseBlock id b).ckpt = s.ckpt ∧ (s.loseBlock id b).mgmt = s.mgmt ∧
    (s.loseBlock id b).pwr = s.pwr ∧ (s.loseBlock id b).out = s.out ∧ (s.loseBlock id b).pending = s.pending := by
  simp [State.loseBlock]

@[simp] theorem State.blocksFault_keeps (s : State) (id : Nat) (bs : List Nat) :
    (s.blocksFault id bs).unit = s.unit ∧ (s.blocksFault id bs).free = s.free ∧ (s.blocksFault id bs).tick = s.tick ∧
    (s.blocksFault id bs).regs = s.regs ∧ (s.blocksFault id bs).emit = s.emit ∧ (s.blocksFault id bs).ret = s.ret ∧
    (s.blocksFault id bs).sec = s.sec ∧ (s.blocksFault id bs).mgmt = s.mgmt ∧ (s.blocksFault id bs).pwr = s.pwr ∧
    (s.blocksFault id bs).pending = s.pending := by
  simp [State.blocksFault]

@[simp] theorem State.coverCheck_keeps (s : State) (id : Nat) :
    (s.coverCheck id).unit = s.unit ∧ (s.coverCheck id).free = s.free ∧ (s.coverCheck id).tick = s.tick ∧
    (s.coverCheck id).regs = s.regs ∧ (s.coverCheck id).emit = s.emit ∧ (s.coverCheck id).ret = s.ret ∧
    (s.coverCheck id).sec = s.sec ∧ (s.coverCheck id).mgmt = s.mgmt ∧ (s.coverCheck id).pwr = s.pwr ∧
    (s.coverCheck id).pending = s.pending := by
  simp [State.coverCheck]

@[simp] theorem State.loadEntry_keeps (s : State) (id : Nat) (w : List Nat) :
    (s.loadEntry id w).unit = s.unit ∧ (s.loadEntry id w).free = s.free ∧ (s.loadEntry id w).tick = s.tick ∧
    (s.loadEntry id w).regs = s.regs ∧ (s.loadEntry id w).emit = s.emit ∧ (s.loadEntry id w).ret = s.ret ∧
    (s.loadEntry id w).sec = s.sec ∧ (s.loadEntry id w).mgmt = s.mgmt ∧ (s.loadEntry id w).pwr = s.pwr ∧
    (s.loadEntry id w).pending = s.pending := by
  unfold State.loadEntry; dsimp only; (repeat' split) <;> simp

@[simp] theorem State.loadEntries_keeps (s : State) (l : List (Nat × List Nat)) :
    (s.loadEntries l).unit = s.unit ∧ (s.loadEntries l).free = s.free ∧ (s.loadEntries l).tick = s.tick ∧
    (s.loadEntries l).regs = s.regs ∧ (s.loadEntries l).emit = s.emit ∧ (s.loadEntries l).ret = s.ret ∧
    (s.loadEntries l).sec = s.sec ∧ (s.loadEntries l).mgmt = s.mgmt ∧ (s.loadEntries l).pwr = s.pwr ∧
    (s.loadEntries l).pending = s.pending := by
  simp [State.loadEntries]

@[simp] theorem State.stripUntil_keeps (s : State) (p : Nat) (enough : State → Bool) :
    (s.stripUntil p enough).unit = s.unit ∧ (s.stripUntil p enough).free = s.free ∧ (s.stripUntil p enough).tick = s.tick ∧
    (s.stripUntil p enough).regs = s.regs ∧ (s.stripUntil p enough).emit = s.emit ∧ (s.stripUntil p enough).text = s.text ∧
    (s.stripUntil p enough).ret = s.ret ∧ (s.stripUntil p enough).link = s.link ∧ (s.stripUntil p enough).sec = s.sec ∧
    (s.stripUntil p enough).mgmt = s.mgmt ∧ (s.stripUntil p enough).pwr = s.pwr ∧ (s.stripUntil p enough).pending = s.pending := by
  simp [State.stripUntil]

@[simp] theorem State.stripFor_keeps (s : State) (p : Nat) (need : Nat) :
    (s.stripFor p need).unit = s.unit ∧ (s.stripFor p need).free = s.free ∧ (s.stripFor p need).tick = s.tick ∧
    (s.stripFor p need).regs = s.regs ∧ (s.stripFor p need).emit = s.emit ∧ (s.stripFor p need).text = s.text ∧
    (s.stripFor p need).ret = s.ret ∧ (s.stripFor p need).link = s.link ∧ (s.stripFor p need).sec = s.sec ∧
    (s.stripFor p need).mgmt = s.mgmt ∧ (s.stripFor p need).pwr = s.pwr ∧ (s.stripFor p need).pending = s.pending := by
  simp [State.stripFor]

@[simp] theorem State.stripLog_keeps (s : State) (id : Nat) (n : Nat) :
    (s.stripLog id n).unit = s.unit ∧ (s.stripLog id n).free = s.free ∧ (s.stripLog id n).tick = s.tick ∧
    (s.stripLog id n).regs = s.regs ∧ (s.stripLog id n).emit = s.emit ∧ (s.stripLog id n).text = s.text ∧
    (s.stripLog id n).ret = s.ret ∧ (s.stripLog id n).link = s.link ∧ (s.stripLog id n).sec = s.sec ∧
    (s.stripLog id n).mgmt = s.mgmt ∧ (s.stripLog id n).pwr = s.pwr ∧ (s.stripLog id n).pending = s.pending := by
  simp [State.stripLog]

@[simp] theorem State.freeSess_keeps (s : State) (id : Nat) :
    (s.freeSess id).unit = s.unit ∧ (s.freeSess id).free = s.free ∧ (s.freeSess id).tick = s.tick ∧ (s.freeSess id).regs = s.regs ∧
    (s.freeSess id).host = s.host ∧ (s.freeSess id).att = s.att ∧ (s.freeSess id).emit = s.emit ∧ (s.freeSess id).text = s.text ∧
    (s.freeSess id).ret = s.ret ∧ (s.freeSess id).link = s.link ∧ (s.freeSess id).sec = s.sec ∧ (s.freeSess id).mgmt = s.mgmt ∧
    (s.freeSess id).pwr = s.pwr ∧ (s.freeSess id).out = s.out ∧ (s.freeSess id).pending = s.pending := by
  simp [State.freeSess]

@[simp] theorem State.laneAdd_keeps (s : State) (cl : Nat) (q : LaneReq) :
    (s.laneAdd cl q).unit = s.unit ∧ (s.laneAdd cl q).free = s.free ∧ (s.laneAdd cl q).tick = s.tick ∧
    (s.laneAdd cl q).regs = s.regs ∧ (s.laneAdd cl q).ctrs = s.ctrs ∧ (s.laneAdd cl q).host = s.host ∧
    (s.laneAdd cl q).sess = s.sess ∧ (s.laneAdd cl q).fab = s.fab ∧ (s.laneAdd cl q).att = s.att ∧ (s.laneAdd cl q).beat = s.beat ∧
    (s.laneAdd cl q).emit = s.emit ∧ (s.laneAdd cl q).text = s.text ∧ (s.laneAdd cl q).cores = s.cores ∧
    (s.laneAdd cl q).ret = s.ret ∧ (s.laneAdd cl q).link = s.link ∧ (s.laneAdd cl q).part = s.part ∧ (s.laneAdd cl q).sec = s.sec ∧
    (s.laneAdd cl q).ckpt = s.ckpt ∧ (s.laneAdd cl q).mgmt = s.mgmt ∧ (s.laneAdd cl q).pwr = s.pwr ∧ (s.laneAdd cl q).out = s.out ∧
    (s.laneAdd cl q).pending = s.pending := by
  exact ⟨rfl, rfl, rfl, rfl, rfl, rfl, rfl, rfl, rfl, rfl, rfl, rfl, rfl, rfl, rfl, rfl, rfl, rfl, rfl, rfl, rfl, rfl⟩

@[simp] theorem State.modWalk_keeps (s : State) (id : Nat) (f : Walk → Walk) :
    (s.modWalk id f).unit = s.unit ∧ (s.modWalk id f).free = s.free ∧ (s.modWalk id f).tick = s.tick ∧
    (s.modWalk id f).regs = s.regs ∧ (s.modWalk id f).ctrs = s.ctrs ∧ (s.modWalk id f).host = s.host ∧
    (s.modWalk id f).sess = s.sess ∧ (s.modWalk id f).fab = s.fab ∧ (s.modWalk id f).att = s.att ∧ (s.modWalk id f).beat = s.beat ∧
    (s.modWalk id f).emit = s.emit ∧ (s.modWalk id f).text = s.text ∧ (s.modWalk id f).cores = s.cores ∧
    (s.modWalk id f).ret = s.ret ∧ (s.modWalk id f).link = s.link ∧ (s.modWalk id f).part = s.part ∧ (s.modWalk id f).sec = s.sec ∧
    (s.modWalk id f).ckpt = s.ckpt ∧ (s.modWalk id f).mgmt = s.mgmt ∧ (s.modWalk id f).pwr = s.pwr ∧ (s.modWalk id f).out = s.out ∧
    (s.modWalk id f).pending = s.pending := by
  exact ⟨rfl, rfl, rfl, rfl, rfl, rfl, rfl, rfl, rfl, rfl, rfl, rfl, rfl, rfl, rfl, rfl, rfl, rfl, rfl, rfl, rfl, rfl⟩

@[simp] theorem State.walkWaits_keeps (s : State) (id : Nat) :
    (s.walkWaits id).unit = s.unit ∧ (s.walkWaits id).free = s.free ∧ (s.walkWaits id).tick = s.tick ∧
    (s.walkWaits id).regs = s.regs ∧ (s.walkWaits id).ctrs = s.ctrs ∧ (s.walkWaits id).host = s.host ∧
    (s.walkWaits id).sess = s.sess ∧ (s.walkWaits id).fab = s.fab ∧ (s.walkWaits id).att = s.att ∧ (s.walkWaits id).beat = s.beat ∧
    (s.walkWaits id).emit = s.emit ∧ (s.walkWaits id).text = s.text ∧ (s.walkWaits id).cores = s.cores ∧
    (s.walkWaits id).ret = s.ret ∧ (s.walkWaits id).link = s.link ∧ (s.walkWaits id).part = s.part ∧ (s.walkWaits id).sec = s.sec ∧
    (s.walkWaits id).ckpt = s.ckpt ∧ (s.walkWaits id).mgmt = s.mgmt ∧ (s.walkWaits id).pwr = s.pwr ∧ (s.walkWaits id).out = s.out ∧
    (s.walkWaits id).pending = s.pending := by
  exact ⟨rfl, rfl, rfl, rfl, rfl, rfl, rfl, rfl, rfl, rfl, rfl, rfl, rfl, rfl, rfl, rfl, rfl, rfl, rfl, rfl, rfl, rfl⟩

@[simp] theorem State.lenDone_keeps (s : State) (id : Nat) (serial : Nat) (st : Status) :
    (s.lenDone id serial st).unit = s.unit ∧ (s.lenDone id serial st).free = s.free ∧ (s.lenDone id serial st).tick = s.tick ∧
    (s.lenDone id serial st).regs = s.regs ∧ (s.lenDone id serial st).sess = s.sess ∧ (s.lenDone id serial st).fab = s.fab ∧
    (s.lenDone id serial st).dir = s.dir ∧ (s.lenDone id serial st).att = s.att ∧ (s.lenDone id serial st).beat = s.beat ∧
    (s.lenDone id serial st).emit = s.emit ∧ (s.lenDone id serial st).text = s.text ∧ (s.lenDone id serial st).cores = s.cores ∧
    (s.lenDone id serial st).ret = s.ret ∧ (s.lenDone id serial st).link = s.link ∧ (s.lenDone id serial st).part = s.part ∧
    (s.lenDone id serial st).sec = s.sec ∧ (s.lenDone id serial st).ckpt = s.ckpt ∧ (s.lenDone id serial st).mgmt = s.mgmt ∧
    (s.lenDone id serial st).pwr = s.pwr ∧ (s.lenDone id serial st).pending = s.pending := by
  simp [State.lenDone]

@[simp] theorem State.endWalk_keeps (s : State) (w : Walk) (tail : Option Nat) :
    (s.endWalk w tail).unit = s.unit ∧ (s.endWalk w tail).tick = s.tick ∧ (s.endWalk w tail).regs = s.regs ∧
    (s.endWalk w tail).emit = s.emit ∧ (s.endWalk w tail).text = s.text ∧ (s.endWalk w tail).ret = s.ret ∧
    (s.endWalk w tail).sec = s.sec ∧ (s.endWalk w tail).mgmt = s.mgmt ∧ (s.endWalk w tail).pwr = s.pwr ∧
    (s.endWalk w tail).pending = s.pending := by
  have key : ∀ x : State, (x.unit, x.tick, x.regs, x.emit, x.text, x.ret, x.sec, x.mgmt, x.pwr, x.pending) = (s.unit, s.tick, s.regs, s.emit, s.text, s.ret, s.sec, s.mgmt, s.pwr, s.pending) → x.unit = s.unit ∧ x.tick = s.tick ∧ x.regs = s.regs ∧ x.emit = s.emit ∧ x.text = s.text ∧ x.ret = s.ret ∧ x.sec = s.sec ∧ x.mgmt = s.mgmt ∧ x.pwr = s.pwr ∧ x.pending = s.pending := by intro x h; simpa using h
  refine key _ ?_
  unfold State.endWalk
  dsimp only
  split
  · split <;> split <;> split <;> simp
  · next s1 e =>
    have k0 := State.readyTo_keeps _ _ _ e
    have k : s1.unit = s.unit ∧ s1.tick = s.tick ∧ s1.regs = s.regs ∧ s1.emit = s.emit ∧ s1.text = s.text ∧ s1.ret = s.ret ∧ s1.sec = s.sec ∧ s1.mgmt = s.mgmt ∧ s1.pwr = s.pwr ∧ s1.pending = s.pending := by
      simp at k0
      simp [k0]
    clear k0 e
    (repeat' split) <;> first | (simp; done) | (simp; exact k)

@[simp] theorem State.stopWalk_keeps (s : State) (w : Walk) :
    (s.stopWalk w).unit = s.unit ∧ (s.stopWalk w).tick = s.tick ∧ (s.stopWalk w).regs = s.regs ∧ (s.stopWalk w).emit = s.emit ∧
    (s.stopWalk w).text = s.text ∧ (s.stopWalk w).ret = s.ret ∧ (s.stopWalk w).sec = s.sec ∧ (s.stopWalk w).mgmt = s.mgmt ∧
    (s.stopWalk w).pwr = s.pwr ∧ (s.stopWalk w).pending = s.pending := by
  unfold State.stopWalk
  split <;> simp

@[simp] theorem State.startWalk_keeps (s : State) (id : Nat) (serial : Nat) (resume : Bool) (toks : List LogTok) :
    (s.startWalk id serial resume toks).unit = s.unit ∧ (s.startWalk id serial resume toks).tick = s.tick ∧
    (s.startWalk id serial resume toks).regs = s.regs ∧ (s.startWalk id serial resume toks).emit = s.emit ∧
    (s.startWalk id serial resume toks).text = s.text ∧ (s.startWalk id serial resume toks).ret = s.ret ∧
    (s.startWalk id serial resume toks).sec = s.sec ∧ (s.startWalk id serial resume toks).mgmt = s.mgmt ∧
    (s.startWalk id serial resume toks).pwr = s.pwr ∧ (s.startWalk id serial resume toks).pending = s.pending := by
  simp [State.startWalk]

@[simp] theorem State.pubsFault_keeps (s : State) (ix : Nat) :
    (s.pubsFault ix).unit = s.unit ∧ (s.pubsFault ix).free = s.free ∧ (s.pubsFault ix).tick = s.tick ∧
    (s.pubsFault ix).regs = s.regs ∧ (s.pubsFault ix).emit = s.emit ∧ (s.pubsFault ix).ret = s.ret ∧ (s.pubsFault ix).sec = s.sec ∧
    (s.pubsFault ix).mgmt = s.mgmt ∧ (s.pubsFault ix).pwr = s.pwr ∧ (s.pubsFault ix).pending = s.pending := by
  simp [State.pubsFault]

@[simp] theorem State.recFault_keeps (s : State) (ix : Nat) :
    (s.recFault ix).unit = s.unit ∧ (s.recFault ix).free = s.free ∧ (s.recFault ix).tick = s.tick ∧ (s.recFault ix).regs = s.regs ∧
    (s.recFault ix).emit = s.emit ∧ (s.recFault ix).ret = s.ret ∧ (s.recFault ix).sec = s.sec ∧ (s.recFault ix).mgmt = s.mgmt ∧
    (s.recFault ix).pwr = s.pwr ∧ (s.recFault ix).pending = s.pending := by
  simp [State.recFault]

@[simp] theorem State.searchSlot_keeps (s : State) (w : Walk) (bad : Bool) :
    (s.searchSlot w bad).unit = s.unit ∧ (s.searchSlot w bad).tick = s.tick ∧ (s.searchSlot w bad).regs = s.regs ∧
    (s.searchSlot w bad).emit = s.emit ∧ (s.searchSlot w bad).ret = s.ret ∧ (s.searchSlot w bad).sec = s.sec ∧
    (s.searchSlot w bad).mgmt = s.mgmt ∧ (s.searchSlot w bad).pwr = s.pwr ∧ (s.searchSlot w bad).pending = s.pending := by
  unfold State.searchSlot; dsimp only; (repeat' split) <;> simp

@[simp] theorem State.tailSlot_keeps (s : State) (w : Walk) (bad : Bool) :
    (s.tailSlot w bad).unit = s.unit ∧ (s.tailSlot w bad).tick = s.tick ∧ (s.tailSlot w bad).regs = s.regs ∧
    (s.tailSlot w bad).emit = s.emit ∧ (s.tailSlot w bad).ret = s.ret ∧ (s.tailSlot w bad).sec = s.sec ∧
    (s.tailSlot w bad).mgmt = s.mgmt ∧ (s.tailSlot w bad).pwr = s.pwr ∧ (s.tailSlot w bad).pending = s.pending := by
  simp [State.tailSlot]

@[simp] theorem State.modPub_keeps (s : State) (serial : Nat) (f : Pub → Pub) :
    (s.modPub serial f).unit = s.unit ∧ (s.modPub serial f).free = s.free ∧ (s.modPub serial f).tick = s.tick ∧
    (s.modPub serial f).regs = s.regs ∧ (s.modPub serial f).ctrs = s.ctrs ∧ (s.modPub serial f).host = s.host ∧
    (s.modPub serial f).sess = s.sess ∧ (s.modPub serial f).fab = s.fab ∧ (s.modPub serial f).att = s.att ∧
    (s.modPub serial f).beat = s.beat ∧ (s.modPub serial f).emit = s.emit ∧ (s.modPub serial f).text = s.text ∧
    (s.modPub serial f).cores = s.cores ∧ (s.modPub serial f).ret = s.ret ∧ (s.modPub serial f).link = s.link ∧
    (s.modPub serial f).part = s.part ∧ (s.modPub serial f).sec = s.sec ∧ (s.modPub serial f).ckpt = s.ckpt ∧
    (s.modPub serial f).mgmt = s.mgmt ∧ (s.modPub serial f).pwr = s.pwr ∧ (s.modPub serial f).out = s.out ∧
    (s.modPub serial f).pending = s.pending := by
  exact ⟨rfl, rfl, rfl, rfl, rfl, rfl, rfl, rfl, rfl, rfl, rfl, rfl, rfl, rfl, rfl, rfl, rfl, rfl, rfl, rfl, rfl, rfl⟩

@[simp] theorem State.pubFail_keeps (s : State) (q : Pub) (st : Status) :
    (s.pubFail q st).unit = s.unit ∧ (s.pubFail q st).free = s.free ∧ (s.pubFail q st).tick = s.tick ∧
    (s.pubFail q st).regs = s.regs ∧ (s.pubFail q st).att = s.att ∧ (s.pubFail q st).emit = s.emit ∧
    (s.pubFail q st).text = s.text ∧ (s.pubFail q st).ret = s.ret ∧ (s.pubFail q st).link = s.link ∧ (s.pubFail q st).sec = s.sec ∧
    (s.pubFail q st).ckpt = s.ckpt ∧ (s.pubFail q st).mgmt = s.mgmt ∧ (s.pubFail q st).pwr = s.pwr ∧
    (s.pubFail q st).pending = s.pending := by
  simp [State.pubFail]

@[simp] theorem State.pubNoSpace_keeps (s : State) (q : Pub) :
    (s.pubNoSpace q).unit = s.unit ∧ (s.pubNoSpace q).free = s.free ∧ (s.pubNoSpace q).tick = s.tick ∧
    (s.pubNoSpace q).regs = s.regs ∧ (s.pubNoSpace q).att = s.att ∧ (s.pubNoSpace q).emit = s.emit ∧
    (s.pubNoSpace q).text = s.text ∧ (s.pubNoSpace q).ret = s.ret ∧ (s.pubNoSpace q).link = s.link ∧ (s.pubNoSpace q).sec = s.sec ∧
    (s.pubNoSpace q).ckpt = s.ckpt ∧ (s.pubNoSpace q).mgmt = s.mgmt ∧ (s.pubNoSpace q).pwr = s.pwr ∧
    (s.pubNoSpace q).pending = s.pending := by
  simp [State.pubNoSpace]

@[simp] theorem State.reserveTail_keeps (s : State) (q : Pub) (t : Nat) :
    (s.reserveTail q t).unit = s.unit ∧ (s.reserveTail q t).free = s.free ∧ (s.reserveTail q t).tick = s.tick ∧
    (s.reserveTail q t).regs = s.regs ∧ (s.reserveTail q t).ctrs = s.ctrs ∧ (s.reserveTail q t).host = s.host ∧
    (s.reserveTail q t).sess = s.sess ∧ (s.reserveTail q t).fab = s.fab ∧ (s.reserveTail q t).att = s.att ∧
    (s.reserveTail q t).beat = s.beat ∧ (s.reserveTail q t).emit = s.emit ∧ (s.reserveTail q t).text = s.text ∧
    (s.reserveTail q t).cores = s.cores ∧ (s.reserveTail q t).ret = s.ret ∧ (s.reserveTail q t).link = s.link ∧
    (s.reserveTail q t).sec = s.sec ∧ (s.reserveTail q t).ckpt = s.ckpt ∧ (s.reserveTail q t).mgmt = s.mgmt ∧
    (s.reserveTail q t).pwr = s.pwr ∧ (s.reserveTail q t).out = s.out ∧ (s.reserveTail q t).pending = s.pending := by
  exact ⟨rfl, rfl, rfl, rfl, rfl, rfl, rfl, rfl, rfl, rfl, rfl, rfl, rfl, rfl, rfl, rfl, rfl, rfl, rfl, rfl, rfl⟩

@[simp] theorem State.pubDone_keeps (s : State) (q : Pub) :
    (s.pubDone q).unit = s.unit ∧ (s.pubDone q).free = s.free ∧ (s.pubDone q).tick = s.tick ∧ (s.pubDone q).regs = s.regs ∧
    (s.pubDone q).att = s.att ∧ (s.pubDone q).beat = s.beat ∧ (s.pubDone q).emit = s.emit ∧ (s.pubDone q).text = s.text ∧
    (s.pubDone q).cores = s.cores ∧ (s.pubDone q).ret = s.ret ∧ (s.pubDone q).link = s.link ∧ (s.pubDone q).part = s.part ∧
    (s.pubDone q).sec = s.sec ∧ (s.pubDone q).mgmt = s.mgmt ∧ (s.pubDone q).pwr = s.pwr ∧ (s.pubDone q).pending = s.pending := by
  simp [State.pubDone]

@[simp] theorem State.pubSwitch_keeps (s : State) (q : Pub) :
    (s.pubSwitch q).unit = s.unit ∧ (s.pubSwitch q).free = s.free ∧ (s.pubSwitch q).tick = s.tick ∧ (s.pubSwitch q).regs = s.regs ∧
    (s.pubSwitch q).host = s.host ∧ (s.pubSwitch q).att = s.att ∧ (s.pubSwitch q).emit = s.emit ∧ (s.pubSwitch q).text = s.text ∧
    (s.pubSwitch q).ret = s.ret ∧ (s.pubSwitch q).link = s.link ∧ (s.pubSwitch q).sec = s.sec ∧ (s.pubSwitch q).ckpt = s.ckpt ∧
    (s.pubSwitch q).mgmt = s.mgmt ∧ (s.pubSwitch q).pwr = s.pwr ∧ (s.pubSwitch q).out = s.out ∧
    (s.pubSwitch q).pending = s.pending := by
  simp [State.pubSwitch]

@[simp] theorem State.pubStep_keeps (s : State) (q : Pub) :
    (s.pubStep q).unit = s.unit ∧ (s.pubStep q).free = s.free ∧ (s.pubStep q).tick = s.tick ∧ (s.pubStep q).regs = s.regs ∧
    (s.pubStep q).att = s.att ∧ (s.pubStep q).emit = s.emit ∧ (s.pubStep q).text = s.text ∧ (s.pubStep q).ret = s.ret ∧
    (s.pubStep q).link = s.link ∧ (s.pubStep q).sec = s.sec ∧ (s.pubStep q).mgmt = s.mgmt ∧ (s.pubStep q).pwr = s.pwr ∧
    (s.pubStep q).pending = s.pending := by
  unfold State.pubStep; dsimp only; (repeat' split) <;> simp

@[simp] theorem State.pubSlot_keeps (s : State) (q : Pub) :
    (s.pubSlot q).unit = s.unit ∧ (s.pubSlot q).free = s.free ∧ (s.pubSlot q).tick = s.tick ∧ (s.pubSlot q).regs = s.regs ∧
    (s.pubSlot q).att = s.att ∧ (s.pubSlot q).emit = s.emit ∧ (s.pubSlot q).text = s.text ∧ (s.pubSlot q).ret = s.ret ∧
    (s.pubSlot q).link = s.link ∧ (s.pubSlot q).sec = s.sec ∧ (s.pubSlot q).mgmt = s.mgmt ∧ (s.pubSlot q).pwr = s.pwr ∧
    (s.pubSlot q).pending = s.pending := by
  unfold State.pubSlot; dsimp only; (repeat' split) <;> simp

@[simp] theorem State.retireDone_keeps (s : State) (r : Retire) :
    (s.retireDone r).unit = s.unit ∧ (s.retireDone r).free = s.free ∧ (s.retireDone r).tick = s.tick ∧
    (s.retireDone r).regs = s.regs ∧ (s.retireDone r).sess = s.sess ∧ (s.retireDone r).fab = s.fab ∧ (s.retireDone r).att = s.att ∧
    (s.retireDone r).beat = s.beat ∧ (s.retireDone r).emit = s.emit ∧ (s.retireDone r).text = s.text ∧
    (s.retireDone r).cores = s.cores ∧ (s.retireDone r).ret = s.ret ∧ (s.retireDone r).link = s.link ∧
    (s.retireDone r).sec = s.sec ∧ (s.retireDone r).ckpt = s.ckpt ∧ (s.retireDone r).mgmt = s.mgmt ∧ (s.retireDone r).pwr = s.pwr ∧
    (s.retireDone r).pending = s.pending := by
  unfold State.retireDone
  split <;> simp

@[simp] theorem State.putRetire_keeps (s : State) (r : Retire) (q : Retire) :
    (s.putRetire r q).unit = s.unit ∧ (s.putRetire r q).free = s.free ∧ (s.putRetire r q).tick = s.tick ∧
    (s.putRetire r q).regs = s.regs ∧ (s.putRetire r q).ctrs = s.ctrs ∧ (s.putRetire r q).host = s.host ∧
    (s.putRetire r q).sess = s.sess ∧ (s.putRetire r q).fab = s.fab ∧ (s.putRetire r q).att = s.att ∧
    (s.putRetire r q).beat = s.beat ∧ (s.putRetire r q).emit = s.emit ∧ (s.putRetire r q).text = s.text ∧
    (s.putRetire r q).cores = s.cores ∧ (s.putRetire r q).ret = s.ret ∧ (s.putRetire r q).link = s.link ∧
    (s.putRetire r q).part = s.part ∧ (s.putRetire r q).sec = s.sec ∧ (s.putRetire r q).ckpt = s.ckpt ∧
    (s.putRetire r q).mgmt = s.mgmt ∧ (s.putRetire r q).pwr = s.pwr ∧ (s.putRetire r q).out = s.out ∧
    (s.putRetire r q).pending = s.pending := by
  exact ⟨rfl, rfl, rfl, rfl, rfl, rfl, rfl, rfl, rfl, rfl, rfl, rfl, rfl, rfl, rfl, rfl, rfl, rfl, rfl, rfl, rfl, rfl⟩

@[simp] theorem State.retireSlot_keeps (s : State) (r : Retire) :
    (s.retireSlot r).unit = s.unit ∧ (s.retireSlot r).free = s.free ∧ (s.retireSlot r).tick = s.tick ∧
    (s.retireSlot r).regs = s.regs ∧ (s.retireSlot r).att = s.att ∧ (s.retireSlot r).emit = s.emit ∧
    (s.retireSlot r).text = s.text ∧ (s.retireSlot r).ret = s.ret ∧ (s.retireSlot r).link = s.link ∧ (s.retireSlot r).sec = s.sec ∧
    (s.retireSlot r).ckpt = s.ckpt ∧ (s.retireSlot r).mgmt = s.mgmt ∧ (s.retireSlot r).pwr = s.pwr ∧
    (s.retireSlot r).pending = s.pending := by
  unfold State.retireSlot
  split <;> simp

@[simp] theorem State.startLearn_keeps (s : State) (id : Nat) (b : Nat) :
    (s.startLearn id b).unit = s.unit ∧ (s.startLearn id b).free = s.free ∧ (s.startLearn id b).tick = s.tick ∧
    (s.startLearn id b).regs = s.regs ∧ (s.startLearn id b).ctrs = s.ctrs ∧ (s.startLearn id b).host = s.host ∧
    (s.startLearn id b).fab = s.fab ∧ (s.startLearn id b).att = s.att ∧ (s.startLearn id b).beat = s.beat ∧
    (s.startLearn id b).emit = s.emit ∧ (s.startLearn id b).text = s.text ∧ (s.startLearn id b).cores = s.cores ∧
    (s.startLearn id b).ret = s.ret ∧ (s.startLearn id b).link = s.link ∧ (s.startLearn id b).part = s.part ∧
    (s.startLearn id b).sec = s.sec ∧ (s.startLearn id b).ckpt = s.ckpt ∧ (s.startLearn id b).mgmt = s.mgmt ∧
    (s.startLearn id b).pwr = s.pwr ∧ (s.startLearn id b).out = s.out ∧ (s.startLearn id b).pending = s.pending := by
  simp [State.startLearn]

@[simp] theorem State.adoptLearned_keeps (s : State) (id : Nat) (b : Nat) (ix : Nat) :
    (s.adoptLearned id b ix).unit = s.unit ∧ (s.adoptLearned id b ix).free = s.free ∧ (s.adoptLearned id b ix).tick = s.tick ∧
    (s.adoptLearned id b ix).regs = s.regs ∧ (s.adoptLearned id b ix).host = s.host ∧ (s.adoptLearned id b ix).att = s.att ∧
    (s.adoptLearned id b ix).emit = s.emit ∧ (s.adoptLearned id b ix).text = s.text ∧ (s.adoptLearned id b ix).ret = s.ret ∧
    (s.adoptLearned id b ix).link = s.link ∧ (s.adoptLearned id b ix).sec = s.sec ∧ (s.adoptLearned id b ix).mgmt = s.mgmt ∧
    (s.adoptLearned id b ix).pwr = s.pwr ∧ (s.adoptLearned id b ix).out = s.out ∧ (s.adoptLearned id b ix).pending = s.pending := by
  simp [State.adoptLearned]

theorem State.learnSlot_keeps (s : State) (p : Nat) (dom : Nat) (chain : Nat) {tt : Nat × State} (ht : s.learnSlot p dom chain =
    some tt) :
    tt.2.unit = s.unit ∧ tt.2.free = s.free ∧ tt.2.tick = s.tick ∧ tt.2.regs = s.regs ∧ tt.2.host = s.host ∧ tt.2.att = s.att ∧
    tt.2.emit = s.emit ∧ tt.2.text = s.text ∧ tt.2.ret = s.ret ∧ tt.2.link = s.link ∧ tt.2.sec = s.sec ∧ tt.2.ckpt = s.ckpt ∧
    tt.2.mgmt = s.mgmt ∧ tt.2.pwr = s.pwr ∧ tt.2.out = s.out ∧ tt.2.pending = s.pending := by
  unfold State.learnSlot at ht; dsimp only at ht; (repeat' split at ht) <;> (first | (cases ht; simp_all) | simp_all)

@[simp] theorem State.learnWrite_keeps (s : State) (id : Nat) (b : Nat) (chain : Nat) (slotNo : Nat) (ix : Nat) :
    (s.learnWrite id b chain slotNo ix).unit = s.unit ∧ (s.learnWrite id b chain slotNo ix).free = s.free ∧
    (s.learnWrite id b chain slotNo ix).tick = s.tick ∧ (s.learnWrite id b chain slotNo ix).regs = s.regs ∧
    (s.learnWrite id b chain slotNo ix).host = s.host ∧ (s.learnWrite id b chain slotNo ix).att = s.att ∧
    (s.learnWrite id b chain slotNo ix).emit = s.emit ∧ (s.learnWrite id b chain slotNo ix).text = s.text ∧
    (s.learnWrite id b chain slotNo ix).ret = s.ret ∧ (s.learnWrite id b chain slotNo ix).link = s.link ∧
    (s.learnWrite id b chain slotNo ix).sec = s.sec ∧ (s.learnWrite id b chain slotNo ix).mgmt = s.mgmt ∧
    (s.learnWrite id b chain slotNo ix).pwr = s.pwr ∧ (s.learnWrite id b chain slotNo ix).out = s.out ∧
    (s.learnWrite id b chain slotNo ix).pending = s.pending := by
  simp [State.learnWrite]

@[simp] theorem State.learnDrop_keeps (s : State) (id : Nat) :
    (s.learnDrop id).unit = s.unit ∧ (s.learnDrop id).free = s.free ∧ (s.learnDrop id).tick = s.tick ∧
    (s.learnDrop id).regs = s.regs ∧ (s.learnDrop id).host = s.host ∧ (s.learnDrop id).fab = s.fab ∧ (s.learnDrop id).dir = s.dir ∧
    (s.learnDrop id).att = s.att ∧ (s.learnDrop id).beat = s.beat ∧ (s.learnDrop id).emit = s.emit ∧
    (s.learnDrop id).text = s.text ∧ (s.learnDrop id).cores = s.cores ∧ (s.learnDrop id).ret = s.ret ∧
    (s.learnDrop id).link = s.link ∧ (s.learnDrop id).part = s.part ∧ (s.learnDrop id).sec = s.sec ∧
    (s.learnDrop id).ckpt = s.ckpt ∧ (s.learnDrop id).mgmt = s.mgmt ∧ (s.learnDrop id).pwr = s.pwr ∧ (s.learnDrop id).out = s.out ∧
    (s.learnDrop id).pending = s.pending := by
  exact ⟨rfl, rfl, rfl, rfl, rfl, rfl, rfl, rfl, rfl, rfl, rfl, rfl, rfl, rfl, rfl, rfl, rfl, rfl, rfl, rfl, rfl⟩

@[simp] theorem State.learnSlotStep_keeps (s : State) (n : Learn) (k : Nat) :
    (s.learnSlotStep n k).unit = s.unit ∧ (s.learnSlotStep n k).free = s.free ∧ (s.learnSlotStep n k).tick = s.tick ∧
    (s.learnSlotStep n k).regs = s.regs ∧ (s.learnSlotStep n k).host = s.host ∧ (s.learnSlotStep n k).att = s.att ∧
    (s.learnSlotStep n k).emit = s.emit ∧ (s.learnSlotStep n k).text = s.text ∧ (s.learnSlotStep n k).ret = s.ret ∧
    (s.learnSlotStep n k).link = s.link ∧ (s.learnSlotStep n k).sec = s.sec ∧ (s.learnSlotStep n k).mgmt = s.mgmt ∧
    (s.learnSlotStep n k).pwr = s.pwr ∧ (s.learnSlotStep n k).out = s.out ∧ (s.learnSlotStep n k).pending = s.pending := by
  unfold State.learnSlotStep
  dsimp only
  split
  · simp
  · split
    · simp
    · split
      · simp
      · next sl s1 e =>
        have k := State.learnSlot_keeps _ _ _ _ e
        split <;> simp_all

@[simp] theorem State.rebuildKey_keeps (s : State) (part : Nat) (ix : Nat) :
    (s.rebuildKey part ix).unit = s.unit ∧ (s.rebuildKey part ix).free = s.free ∧ (s.rebuildKey part ix).tick = s.tick ∧
    (s.rebuildKey part ix).regs = s.regs ∧ (s.rebuildKey part ix).att = s.att ∧ (s.rebuildKey part ix).emit = s.emit ∧
    (s.rebuildKey part ix).text = s.text ∧ (s.rebuildKey part ix).ret = s.ret ∧ (s.rebuildKey part ix).link = s.link ∧
    (s.rebuildKey part ix).sec = s.sec ∧ (s.rebuildKey part ix).ckpt = s.ckpt ∧ (s.rebuildKey part ix).mgmt = s.mgmt ∧
    (s.rebuildKey part ix).pwr = s.pwr ∧ (s.rebuildKey part ix).pending = s.pending := by
  unfold State.rebuildKey; dsimp only; (repeat' split) <;> simp

@[simp] theorem State.fetchMask_keeps (s : State) (id : Nat) :
    (s.fetchMask id).unit = s.unit ∧ (s.fetchMask id).free = s.free ∧ (s.fetchMask id).tick = s.tick ∧
    (s.fetchMask id).regs = s.regs ∧ (s.fetchMask id).ctrs = s.ctrs ∧ (s.fetchMask id).host = s.host ∧
    (s.fetchMask id).sess = s.sess ∧ (s.fetchMask id).fab = s.fab ∧ (s.fetchMask id).dir = s.dir ∧ (s.fetchMask id).att = s.att ∧
    (s.fetchMask id).beat = s.beat ∧ (s.fetchMask id).text = s.text ∧ (s.fetchMask id).cores = s.cores ∧
    (s.fetchMask id).ret = s.ret ∧ (s.fetchMask id).link = s.link ∧ (s.fetchMask id).part = s.part ∧ (s.fetchMask id).sec = s.sec ∧
    (s.fetchMask id).ckpt = s.ckpt ∧ (s.fetchMask id).mgmt = s.mgmt ∧ (s.fetchMask id).pwr = s.pwr ∧ (s.fetchMask id).out = s.out ∧
    (s.fetchMask id).pending = s.pending := by
  unfold State.fetchMask; dsimp only; (repeat' split) <;> simp

@[simp] theorem State.modEmitStep_keeps (s : State) (id : Nat) (f : EmitStep → EmitStep) :
    (s.modEmitStep id f).unit = s.unit ∧ (s.modEmitStep id f).free = s.free ∧ (s.modEmitStep id f).tick = s.tick ∧
    (s.modEmitStep id f).regs = s.regs ∧ (s.modEmitStep id f).ctrs = s.ctrs ∧ (s.modEmitStep id f).host = s.host ∧
    (s.modEmitStep id f).fab = s.fab ∧ (s.modEmitStep id f).dir = s.dir ∧ (s.modEmitStep id f).att = s.att ∧
    (s.modEmitStep id f).beat = s.beat ∧ (s.modEmitStep id f).text = s.text ∧ (s.modEmitStep id f).cores = s.cores ∧
    (s.modEmitStep id f).ret = s.ret ∧ (s.modEmitStep id f).link = s.link ∧ (s.modEmitStep id f).part = s.part ∧
    (s.modEmitStep id f).sec = s.sec ∧ (s.modEmitStep id f).ckpt = s.ckpt ∧ (s.modEmitStep id f).mgmt = s.mgmt ∧
    (s.modEmitStep id f).pwr = s.pwr ∧ (s.modEmitStep id f).out = s.out ∧ (s.modEmitStep id f).pending = s.pending := by
  exact ⟨rfl, rfl, rfl, rfl, rfl, rfl, rfl, rfl, rfl, rfl, rfl, rfl, rfl, rfl, rfl, rfl, rfl, rfl, rfl, rfl, rfl⟩

@[simp] theorem State.rejectPiece_keeps (s : State) (part : Nat) (port : Nat) (p : Piece) (cause : Status) :
    (s.rejectPiece part port p cause).unit = s.unit ∧ (s.rejectPiece part port p cause).free = s.free ∧
    (s.rejectPiece part port p cause).tick = s.tick ∧ (s.rejectPiece part port p cause).host = s.host ∧
    (s.rejectPiece part port p cause).fab = s.fab ∧ (s.rejectPiece part port p cause).dir = s.dir ∧
    (s.rejectPiece part port p cause).att = s.att ∧ (s.rejectPiece part port p cause).beat = s.beat ∧
    (s.rejectPiece part port p cause).text = s.text ∧ (s.rejectPiece part port p cause).cores = s.cores ∧
    (s.rejectPiece part port p cause).ret = s.ret ∧ (s.rejectPiece part port p cause).part = s.part ∧
    (s.rejectPiece part port p cause).sec = s.sec ∧ (s.rejectPiece part port p cause).ckpt = s.ckpt ∧
    (s.rejectPiece part port p cause).mgmt = s.mgmt ∧ (s.rejectPiece part port p cause).pwr = s.pwr ∧
    (s.rejectPiece part port p cause).out = s.out ∧ (s.rejectPiece part port p cause).pending = s.pending := by
  unfold State.rejectPiece; dsimp only; (repeat' split) <;> simp

@[simp] theorem State.takePiece_keeps (s : State) (part : Nat) (port : Nat) (id : Nat) (p : Piece) :
    (s.takePiece part port id p).unit = s.unit ∧ (s.takePiece part port id p).free = s.free ∧
    (s.takePiece part port id p).tick = s.tick ∧ (s.takePiece part port id p).regs = s.regs ∧
    (s.takePiece part port id p).host = s.host ∧ (s.takePiece part port id p).fab = s.fab ∧
    (s.takePiece part port id p).dir = s.dir ∧ (s.takePiece part port id p).att = s.att ∧
    (s.takePiece part port id p).beat = s.beat ∧ (s.takePiece part port id p).text = s.text ∧
    (s.takePiece part port id p).cores = s.cores ∧ (s.takePiece part port id p).ret = s.ret ∧
    (s.takePiece part port id p).link = s.link ∧ (s.takePiece part port id p).part = s.part ∧
    (s.takePiece part port id p).sec = s.sec ∧ (s.takePiece part port id p).ckpt = s.ckpt ∧
    (s.takePiece part port id p).mgmt = s.mgmt ∧ (s.takePiece part port id p).pwr = s.pwr ∧
    (s.takePiece part port id p).out = s.out ∧ (s.takePiece part port id p).pending = s.pending := by
  unfold State.takePiece; dsimp only; (repeat' split) <;> simp

@[simp] theorem State.commit_keeps (s : State) (id : Nat) (tok : Nat) :
    (s.commit id tok).unit = s.unit ∧ (s.commit id tok).tick = s.tick ∧ (s.commit id tok).regs = s.regs ∧
    (s.commit id tok).text = s.text ∧ (s.commit id tok).ret = s.ret ∧ (s.commit id tok).sec = s.sec ∧
    (s.commit id tok).mgmt = s.mgmt ∧ (s.commit id tok).pwr = s.pwr ∧ (s.commit id tok).pending = s.pending := by
  unfold State.commit; dsimp only; (repeat' split) <;> simp

@[simp] theorem State.rankStep_keeps (s : State) (id : Nat) (st : InStep) :
    (s.rankStep id st).unit = s.unit ∧ (s.rankStep id st).tick = s.tick ∧ (s.rankStep id st).regs = s.regs ∧
    (s.rankStep id st).host = s.host ∧ (s.rankStep id st).fab = s.fab ∧ (s.rankStep id st).dir = s.dir ∧
    (s.rankStep id st).att = s.att ∧ (s.rankStep id st).beat = s.beat ∧ (s.rankStep id st).text = s.text ∧
    (s.rankStep id st).cores = s.cores ∧ (s.rankStep id st).ret = s.ret ∧ (s.rankStep id st).link = s.link ∧
    (s.rankStep id st).part = s.part ∧ (s.rankStep id st).sec = s.sec ∧ (s.rankStep id st).ckpt = s.ckpt ∧
    (s.rankStep id st).mgmt = s.mgmt ∧ (s.rankStep id st).pwr = s.pwr ∧ (s.rankStep id st).out = s.out ∧
    (s.rankStep id st).pending = s.pending := by
  simp [State.rankStep]

@[simp] theorem State.drawStep_keeps (s : State) (id : Nat) (st : InStep) (r : Ranked) :
    (s.drawStep id st r).2.unit = s.unit ∧ (s.drawStep id st r).2.tick = s.tick ∧ (s.drawStep id st r).2.regs = s.regs ∧
    (s.drawStep id st r).2.ctrs = s.ctrs ∧ (s.drawStep id st r).2.host = s.host ∧ (s.drawStep id st r).2.sess = s.sess ∧
    (s.drawStep id st r).2.fab = s.fab ∧ (s.drawStep id st r).2.dir = s.dir ∧ (s.drawStep id st r).2.att = s.att ∧
    (s.drawStep id st r).2.beat = s.beat ∧ (s.drawStep id st r).2.emit = s.emit ∧ (s.drawStep id st r).2.text = s.text ∧
    (s.drawStep id st r).2.cores = s.cores ∧ (s.drawStep id st r).2.ret = s.ret ∧ (s.drawStep id st r).2.link = s.link ∧
    (s.drawStep id st r).2.part = s.part ∧ (s.drawStep id st r).2.sec = s.sec ∧ (s.drawStep id st r).2.ckpt = s.ckpt ∧
    (s.drawStep id st r).2.mgmt = s.mgmt ∧ (s.drawStep id st r).2.pwr = s.pwr ∧ (s.drawStep id st r).2.out = s.out ∧
    (s.drawStep id st r).2.pending = s.pending := by
  exact ⟨rfl, rfl, rfl, rfl, rfl, rfl, rfl, rfl, rfl, rfl, rfl, rfl, rfl, rfl, rfl, rfl, rfl, rfl, rfl, rfl, rfl, rfl⟩

@[simp] theorem State.applyAppend_keeps (s : State) (id : Nat) (serial : Nat) (toks : List LogTok) :
    (s.applyAppend id serial toks).unit = s.unit ∧ (s.applyAppend id serial toks).tick = s.tick ∧
    (s.applyAppend id serial toks).regs = s.regs ∧ (s.applyAppend id serial toks).emit = s.emit ∧
    (s.applyAppend id serial toks).text = s.text ∧ (s.applyAppend id serial toks).ret = s.ret ∧
    (s.applyAppend id serial toks).sec = s.sec ∧ (s.applyAppend id serial toks).mgmt = s.mgmt ∧
    (s.applyAppend id serial toks).pwr = s.pwr ∧ (s.applyAppend id serial toks).pending = s.pending := by
  simp [State.applyAppend]

@[simp] theorem State.queueText_keeps (s : State) (id : Nat) (serial : Nat) (text : Bytes) :
    (s.queueText id serial text).unit = s.unit ∧ (s.queueText id serial text).free = s.free ∧
    (s.queueText id serial text).tick = s.tick ∧ (s.queueText id serial text).regs = s.regs ∧
    (s.queueText id serial text).ctrs = s.ctrs ∧ (s.queueText id serial text).host = s.host ∧
    (s.queueText id serial text).fab = s.fab ∧ (s.queueText id serial text).dir = s.dir ∧
    (s.queueText id serial text).att = s.att ∧ (s.queueText id serial text).beat = s.beat ∧
    (s.queueText id serial text).emit = s.emit ∧ (s.queueText id serial text).cores = s.cores ∧
    (s.queueText id serial text).ret = s.ret ∧ (s.queueText id serial text).link = s.link ∧
    (s.queueText id serial text).sec = s.sec ∧ (s.queueText id serial text).ckpt = s.ckpt ∧
    (s.queueText id serial text).mgmt = s.mgmt ∧ (s.queueText id serial text).pwr = s.pwr ∧
    (s.queueText id serial text).out = s.out ∧ (s.queueText id serial text).pending = s.pending := by
  exact ⟨rfl, rfl, rfl, rfl, rfl, rfl, rfl, rfl, rfl, rfl, rfl, rfl, rfl, rfl, rfl, rfl, rfl, rfl, rfl, rfl⟩

@[simp] theorem State.runAppend_keeps (s : State) (id : Nat) (c : Cmd) (data : Bytes) :
    (s.runAppend id c data).unit = s.unit ∧ (s.runAppend id c data).tick = s.tick ∧ (s.runAppend id c data).regs = s.regs ∧
    (s.runAppend id c data).emit = s.emit ∧ (s.runAppend id c data).ret = s.ret ∧ (s.runAppend id c data).sec = s.sec ∧
    (s.runAppend id c data).mgmt = s.mgmt ∧ (s.runAppend id c data).pwr = s.pwr ∧ (s.runAppend id c data).pending = s.pending := by
  simp [State.runAppend]

@[simp] theorem State.genRefused_keeps (s : State) (id : Nat) (serial : Nat) (st : Status) :
    (s.genRefused id serial st).unit = s.unit ∧ (s.genRefused id serial st).free = s.free ∧
    (s.genRefused id serial st).tick = s.tick ∧ (s.genRefused id serial st).regs = s.regs ∧
    (s.genRefused id serial st).sess = s.sess ∧ (s.genRefused id serial st).fab = s.fab ∧ (s.genRefused id serial st).dir = s.dir ∧
    (s.genRefused id serial st).att = s.att ∧ (s.genRefused id serial st).beat = s.beat ∧
    (s.genRefused id serial st).emit = s.emit ∧ (s.genRefused id serial st).text = s.text ∧
    (s.genRefused id serial st).cores = s.cores ∧ (s.genRefused id serial st).ret = s.ret ∧
    (s.genRefused id serial st).link = s.link ∧ (s.genRefused id serial st).part = s.part ∧
    (s.genRefused id serial st).sec = s.sec ∧ (s.genRefused id serial st).ckpt = s.ckpt ∧
    (s.genRefused id serial st).mgmt = s.mgmt ∧ (s.genRefused id serial st).pwr = s.pwr ∧
    (s.genRefused id serial st).pending = s.pending := by
  simp [State.genRefused]

@[simp] theorem State.runGenerate_keeps (s : State) (id : Nat) (c : Cmd) :
    (s.runGenerate id c).unit = s.unit ∧ (s.runGenerate id c).free = s.free ∧ (s.runGenerate id c).tick = s.tick ∧
    (s.runGenerate id c).regs = s.regs ∧ (s.runGenerate id c).ctrs = s.ctrs ∧ (s.runGenerate id c).host = s.host ∧
    (s.runGenerate id c).fab = s.fab ∧ (s.runGenerate id c).dir = s.dir ∧ (s.runGenerate id c).att = s.att ∧
    (s.runGenerate id c).beat = s.beat ∧ (s.runGenerate id c).emit = s.emit ∧ (s.runGenerate id c).text = s.text ∧
    (s.runGenerate id c).cores = s.cores ∧ (s.runGenerate id c).ret = s.ret ∧ (s.runGenerate id c).link = s.link ∧
    (s.runGenerate id c).part = s.part ∧ (s.runGenerate id c).sec = s.sec ∧ (s.runGenerate id c).ckpt = s.ckpt ∧
    (s.runGenerate id c).mgmt = s.mgmt ∧ (s.runGenerate id c).pwr = s.pwr ∧ (s.runGenerate id c).out = s.out ∧
    (s.runGenerate id c).pending = s.pending := by
  exact ⟨rfl, rfl, rfl, rfl, rfl, rfl, rfl, rfl, rfl, rfl, rfl, rfl, rfl, rfl, rfl, rfl, rfl, rfl, rfl, rfl, rfl, rfl⟩

@[simp] theorem State.applyHeld_keeps (s : State) (id : Nat) (h : Held) :
    (s.applyHeld id h).unit = s.unit ∧ (s.applyHeld id h).tick = s.tick ∧ (s.applyHeld id h).regs = s.regs ∧
    (s.applyHeld id h).emit = s.emit ∧ (s.applyHeld id h).ret = s.ret ∧ (s.applyHeld id h).sec = s.sec ∧
    (s.applyHeld id h).mgmt = s.mgmt ∧ (s.applyHeld id h).pwr = s.pwr ∧ (s.applyHeld id h).pending = s.pending := by
  unfold State.applyHeld; dsimp only; (repeat' split) <;> simp

@[simp] theorem State.reviveDone_keeps (s : State) (id : Nat) :
    (s.reviveDone id).unit = s.unit ∧ (s.reviveDone id).tick = s.tick ∧ (s.reviveDone id).regs = s.regs ∧
    (s.reviveDone id).emit = s.emit ∧ (s.reviveDone id).ret = s.ret ∧ (s.reviveDone id).sec = s.sec ∧
    (s.reviveDone id).mgmt = s.mgmt ∧ (s.reviveDone id).pwr = s.pwr ∧ (s.reviveDone id).pending = s.pending := by
  unfold State.reviveDone; dsimp only; (repeat' split) <;> simp

@[simp] theorem State.hold_keeps (s : State) (id : Nat) (h : Held) :
    (s.hold id h).unit = s.unit ∧ (s.hold id h).tick = s.tick ∧ (s.hold id h).regs = s.regs ∧ (s.hold id h).emit = s.emit ∧
    (s.hold id h).ret = s.ret ∧ (s.hold id h).sec = s.sec ∧ (s.hold id h).mgmt = s.mgmt ∧ (s.hold id h).pwr = s.pwr ∧
    (s.hold id h).pending = s.pending := by
  simp [State.hold]

@[simp] theorem State.ctrlEndNext_keeps (s : State) (p : Nat) (h : Nat) :
    (s.ctrlEndNext p h).unit = s.unit ∧ (s.ctrlEndNext p h).free = s.free ∧ (s.ctrlEndNext p h).tick = s.tick ∧
    (s.ctrlEndNext p h).regs = s.regs ∧ (s.ctrlEndNext p h).host = s.host ∧ (s.ctrlEndNext p h).sess = s.sess ∧
    (s.ctrlEndNext p h).fab = s.fab ∧ (s.ctrlEndNext p h).dir = s.dir ∧ (s.ctrlEndNext p h).att = s.att ∧
    (s.ctrlEndNext p h).emit = s.emit ∧ (s.ctrlEndNext p h).text = s.text ∧ (s.ctrlEndNext p h).cores = s.cores ∧
    (s.ctrlEndNext p h).ret = s.ret ∧ (s.ctrlEndNext p h).part = s.part ∧ (s.ctrlEndNext p h).sec = s.sec ∧
    (s.ctrlEndNext p h).ckpt = s.ckpt ∧ (s.ctrlEndNext p h).mgmt = s.mgmt ∧ (s.ctrlEndNext p h).pwr = s.pwr ∧
    (s.ctrlEndNext p h).out = s.out ∧ (s.ctrlEndNext p h).pending = s.pending := by
  exact ⟨rfl, rfl, rfl, rfl, rfl, rfl, rfl, rfl, rfl, rfl, rfl, rfl, rfl, rfl, rfl, rfl, rfl, rfl, rfl, rfl⟩

@[simp] theorem State.cancelRun_keeps (s : State) (id : Nat) :
    (s.cancelRun id).unit = s.unit ∧ (s.cancelRun id).free = s.free ∧ (s.cancelRun id).tick = s.tick ∧
    (s.cancelRun id).regs = s.regs ∧ (s.cancelRun id).emit = s.emit ∧ (s.cancelRun id).ret = s.ret ∧ (s.cancelRun id).sec = s.sec ∧
    (s.cancelRun id).ckpt = s.ckpt ∧ (s.cancelRun id).mgmt = s.mgmt ∧ (s.cancelRun id).pwr = s.pwr ∧
    (s.cancelRun id).pending = s.pending := by
  simp [State.cancelRun]

@[simp] theorem State.closeSess_keeps (s : State) (id : Nat) (serial : Nat) :
    (s.closeSess id serial).unit = s.unit ∧ (s.closeSess id serial).free = s.free ∧ (s.closeSess id serial).tick = s.tick ∧
    (s.closeSess id serial).regs = s.regs ∧ (s.closeSess id serial).emit = s.emit ∧ (s.closeSess id serial).ret = s.ret ∧
    (s.closeSess id serial).sec = s.sec ∧ (s.closeSess id serial).ckpt = s.ckpt ∧ (s.closeSess id serial).mgmt = s.mgmt ∧
    (s.closeSess id serial).pwr = s.pwr ∧ (s.closeSess id serial).pending = s.pending := by
  unfold State.closeSess; dsimp only; (repeat' split) <;> simp

@[simp] theorem State.logCopyLost_keeps (s : State) (id : Nat) (which : Nat) (segs : List Nat) :
    (s.logCopyLost id which segs).unit = s.unit ∧ (s.logCopyLost id which segs).free = s.free ∧
    (s.logCopyLost id which segs).tick = s.tick ∧ (s.logCopyLost id which segs).regs = s.regs ∧
    (s.logCopyLost id which segs).emit = s.emit ∧ (s.logCopyLost id which segs).ret = s.ret ∧
    (s.logCopyLost id which segs).sec = s.sec ∧ (s.logCopyLost id which segs).mgmt = s.mgmt ∧
    (s.logCopyLost id which segs).pwr = s.pwr ∧ (s.logCopyLost id which segs).pending = s.pending := by
  simp [State.logCopyLost]

@[simp] theorem State.logsLost_keeps (s : State) (gone : Nat → Bool) :
    (s.logsLost gone).unit = s.unit ∧ (s.logsLost gone).free = s.free ∧ (s.logsLost gone).tick = s.tick ∧
    (s.logsLost gone).regs = s.regs ∧ (s.logsLost gone).emit = s.emit ∧ (s.logsLost gone).ret = s.ret ∧
    (s.logsLost gone).sec = s.sec ∧ (s.logsLost gone).mgmt = s.mgmt ∧ (s.logsLost gone).pwr = s.pwr ∧
    (s.logsLost gone).pending = s.pending := by
  simp [State.logsLost]

@[simp] theorem State.blocksLost_keeps (s : State) (gone : Desc → Bool) :
    (s.blocksLost gone).unit = s.unit ∧ (s.blocksLost gone).free = s.free ∧ (s.blocksLost gone).tick = s.tick ∧
    (s.blocksLost gone).regs = s.regs ∧ (s.blocksLost gone).emit = s.emit ∧ (s.blocksLost gone).ret = s.ret ∧
    (s.blocksLost gone).sec = s.sec ∧ (s.blocksLost gone).mgmt = s.mgmt ∧ (s.blocksLost gone).pwr = s.pwr ∧
    (s.blocksLost gone).pending = s.pending := by
  simp [State.blocksLost]

@[simp] theorem State.tier1Lost_keeps (s : State) (die : Nat) :
    (s.tier1Lost die).unit = s.unit ∧ (s.tier1Lost die).free = s.free ∧ (s.tier1Lost die).tick = s.tick ∧
    (s.tier1Lost die).regs = s.regs ∧ (s.tier1Lost die).emit = s.emit ∧ (s.tier1Lost die).ret = s.ret ∧
    (s.tier1Lost die).sec = s.sec ∧ (s.tier1Lost die).mgmt = s.mgmt ∧ (s.tier1Lost die).pwr = s.pwr ∧
    (s.tier1Lost die).pending = s.pending := by
  simp [State.tier1Lost]

@[simp] theorem State.stackFault_keeps (s : State) (d : Desc) :
    (s.stackFault d).unit = s.unit ∧ (s.stackFault d).tick = s.tick ∧ (s.stackFault d).regs = s.regs ∧
    (s.stackFault d).emit = s.emit ∧ (s.stackFault d).ret = s.ret ∧ (s.stackFault d).sec = s.sec ∧ (s.stackFault d).mgmt = s.mgmt ∧
    (s.stackFault d).pwr = s.pwr ∧ (s.stackFault d).pending = s.pending := by
  simp [State.stackFault]

@[simp] theorem State.blockFault_keeps (s : State) (id : Nat) (b : Nat) :
    (s.blockFault id b).unit = s.unit ∧ (s.blockFault id b).tick = s.tick ∧ (s.blockFault id b).regs = s.regs ∧
    (s.blockFault id b).emit = s.emit ∧ (s.blockFault id b).ret = s.ret ∧ (s.blockFault id b).sec = s.sec ∧
    (s.blockFault id b).mgmt = s.mgmt ∧ (s.blockFault id b).pwr = s.pwr ∧ (s.blockFault id b).pending = s.pending := by
  simp [State.blockFault]

@[simp] theorem State.pageFault_keeps (s : State) (id : Nat) (b : Nat) (c : PageCheck) :
    (s.pageFault id b c).unit = s.unit ∧ (s.pageFault id b c).tick = s.tick ∧ (s.pageFault id b c).regs = s.regs ∧
    (s.pageFault id b c).emit = s.emit ∧ (s.pageFault id b c).ret = s.ret ∧ (s.pageFault id b c).sec = s.sec ∧
    (s.pageFault id b c).mgmt = s.mgmt ∧ (s.pageFault id b c).pwr = s.pwr ∧ (s.pageFault id b c).pending = s.pending := by
  unfold State.pageFault
  split <;> simp

theorem State.checkFault_keeps (s : State) (id : Nat) (b : Nat) (c : PageCheck) {tt : State} (ht : s.checkFault id b c = some tt) :
    tt.unit = s.unit ∧ tt.tick = s.tick ∧ tt.regs = s.regs ∧ tt.emit = s.emit ∧ tt.ret = s.ret ∧ tt.sec = s.sec ∧
    tt.mgmt = s.mgmt ∧ tt.pwr = s.pwr ∧ tt.pending = s.pending := by
  unfold State.checkFault at ht
  dsimp only at ht
  split at ht
  · cases ht; simp
  · split at ht
    · cases ht; simp
    · cases ht

theorem State.walkCover_keeps (s : State) (id : Nat) (b : Nat) {tt : State} (ht : s.walkCover id b = some tt) :
    tt.unit = s.unit ∧ tt.free = s.free ∧ tt.tick = s.tick ∧ tt.regs = s.regs ∧ tt.emit = s.emit ∧ tt.ret = s.ret ∧
    tt.sec = s.sec ∧ tt.mgmt = s.mgmt ∧ tt.pwr = s.pwr ∧ tt.pending = s.pending := by
  unfold State.walkCover at ht
  simp at ht
  obtain ⟨_, rfl⟩ := ht
  simp

theorem State.walkFault_keeps (s : State) (id : Nat) (b : Nat) (c : PageCheck) {tt : State} (ht : s.walkFault id b c = some tt) :
    tt.unit = s.unit ∧ tt.tick = s.tick ∧ tt.regs = s.regs ∧ tt.emit = s.emit ∧ tt.ret = s.ret ∧ tt.sec = s.sec ∧
    tt.mgmt = s.mgmt ∧ tt.pwr = s.pwr ∧ tt.pending = s.pending := by
  unfold State.walkFault at ht
  rw [Option.or_eq_some_iff] at ht
  rcases ht with h | ⟨_, h⟩
  · have k := State.checkFault_keeps _ _ _ _ h
    simp [k]
  · have k := State.walkCover_keeps _ _ _ h
    simp [k]

theorem State.placeNew_keeps (s : State) (p : Nat) (m : ModelEnt) (home : Nat) (pol : Policy) (b : Nat) {tt : Place × State} (ht :
    s.placeNew p m home pol b = some tt) :
    tt.2.unit = s.unit ∧ tt.2.tick = s.tick ∧ tt.2.regs = s.regs ∧ tt.2.host = s.host ∧ tt.2.sess = s.sess ∧ tt.2.fab = s.fab ∧
    tt.2.dir = s.dir ∧ tt.2.att = s.att ∧ tt.2.beat = s.beat ∧ tt.2.emit = s.emit ∧ tt.2.text = s.text ∧ tt.2.cores = s.cores ∧
    tt.2.ret = s.ret ∧ tt.2.link = s.link ∧ tt.2.part = s.part ∧ tt.2.sec = s.sec ∧ tt.2.ckpt = s.ckpt ∧ tt.2.mgmt = s.mgmt ∧
    tt.2.pwr = s.pwr ∧ tt.2.out = s.out ∧ tt.2.pending = s.pending := by
  unfold State.placeNew at ht
  simp only [Option.map_eq_some_iff] at ht
  obtain ⟨a, _, rfl⟩ := ht
  dsimp only
  split <;> simp

theorem State.moveDst_keeps (s : State) (f : FReq) (d : Desc) {tt : Place × State} (ht : s.moveDst f d = some tt) :
    tt.2.unit = s.unit ∧ tt.2.tick = s.tick ∧ tt.2.regs = s.regs ∧ tt.2.host = s.host ∧ tt.2.sess = s.sess ∧ tt.2.fab = s.fab ∧
    tt.2.dir = s.dir ∧ tt.2.att = s.att ∧ tt.2.beat = s.beat ∧ tt.2.emit = s.emit ∧ tt.2.text = s.text ∧ tt.2.cores = s.cores ∧
    tt.2.ret = s.ret ∧ tt.2.link = s.link ∧ tt.2.part = s.part ∧ tt.2.sec = s.sec ∧ tt.2.ckpt = s.ckpt ∧ tt.2.mgmt = s.mgmt ∧
    tt.2.pwr = s.pwr ∧ tt.2.out = s.out ∧ tt.2.pending = s.pending := by
  unfold State.moveDst at ht
  dsimp only at ht
  split at ht
  · split at ht
    · cases ht
    · split at ht
      · cases ht; simp
      · split at ht
        · cases ht; simp
        · cases ht
  · split at ht
    · cases ht; simp
    · cases ht
  · split at ht
    · cases ht; simp
    · cases ht
  · split at ht
    · split at ht
      · cases ht; simp
      · cases ht
    · simpa using State.placeNew_keeps _ _ _ _ _ _ ht
  · simpa using State.placeNew_keeps _ _ _ _ _ _ ht

@[simp] theorem State.setReq_keeps (s : State) (f : FReq) (g : FReq) :
    (s.setReq f g).unit = s.unit ∧ (s.setReq f g).free = s.free ∧ (s.setReq f g).tick = s.tick ∧ (s.setReq f g).regs = s.regs ∧
    (s.setReq f g).ctrs = s.ctrs ∧ (s.setReq f g).host = s.host ∧ (s.setReq f g).sess = s.sess ∧ (s.setReq f g).dir = s.dir ∧
    (s.setReq f g).att = s.att ∧ (s.setReq f g).beat = s.beat ∧ (s.setReq f g).emit = s.emit ∧ (s.setReq f g).text = s.text ∧
    (s.setReq f g).cores = s.cores ∧ (s.setReq f g).ret = s.ret ∧ (s.setReq f g).link = s.link ∧ (s.setReq f g).part = s.part ∧
    (s.setReq f g).sec = s.sec ∧ (s.setReq f g).ckpt = s.ckpt ∧ (s.setReq f g).mgmt = s.mgmt ∧ (s.setReq f g).pwr = s.pwr ∧
    (s.setReq f g).out = s.out ∧ (s.setReq f g).pending = s.pending := by
  exact ⟨rfl, rfl, rfl, rfl, rfl, rfl, rfl, rfl, rfl, rfl, rfl, rfl, rfl, rfl, rfl, rfl, rfl, rfl, rfl, rfl, rfl, rfl⟩

@[simp] theorem State.dropReq_keeps (s : State) (f : FReq) :
    (s.dropReq f).unit = s.unit ∧ (s.dropReq f).free = s.free ∧ (s.dropReq f).tick = s.tick ∧ (s.dropReq f).regs = s.regs ∧
    (s.dropReq f).ctrs = s.ctrs ∧ (s.dropReq f).host = s.host ∧ (s.dropReq f).sess = s.sess ∧ (s.dropReq f).dir = s.dir ∧
    (s.dropReq f).att = s.att ∧ (s.dropReq f).beat = s.beat ∧ (s.dropReq f).emit = s.emit ∧ (s.dropReq f).text = s.text ∧
    (s.dropReq f).cores = s.cores ∧ (s.dropReq f).ret = s.ret ∧ (s.dropReq f).link = s.link ∧ (s.dropReq f).part = s.part ∧
    (s.dropReq f).sec = s.sec ∧ (s.dropReq f).ckpt = s.ckpt ∧ (s.dropReq f).mgmt = s.mgmt ∧ (s.dropReq f).pwr = s.pwr ∧
    (s.dropReq f).out = s.out ∧ (s.dropReq f).pending = s.pending := by
  exact ⟨rfl, rfl, rfl, rfl, rfl, rfl, rfl, rfl, rfl, rfl, rfl, rfl, rfl, rfl, rfl, rfl, rfl, rfl, rfl, rfl, rfl, rfl⟩

@[simp] theorem State.sendDone_keeps (s : State) (id : Nat) :
    (s.sendDone id).unit = s.unit ∧ (s.sendDone id).free = s.free ∧ (s.sendDone id).tick = s.tick ∧ (s.sendDone id).regs = s.regs ∧
    (s.sendDone id).host = s.host ∧ (s.sendDone id).sess = s.sess ∧ (s.sendDone id).fab = s.fab ∧ (s.sendDone id).dir = s.dir ∧
    (s.sendDone id).att = s.att ∧ (s.sendDone id).beat = s.beat ∧ (s.sendDone id).emit = s.emit ∧ (s.sendDone id).text = s.text ∧
    (s.sendDone id).cores = s.cores ∧ (s.sendDone id).ret = s.ret ∧ (s.sendDone id).part = s.part ∧ (s.sendDone id).sec = s.sec ∧
    (s.sendDone id).ckpt = s.ckpt ∧ (s.sendDone id).mgmt = s.mgmt ∧ (s.sendDone id).pwr = s.pwr ∧ (s.sendDone id).out = s.out ∧
    (s.sendDone id).pending = s.pending := by
  unfold State.sendDone
  split <;> simp

@[simp] theorem State.unitSent_keeps (s : State) (f : FReq) :
    (s.unitSent f).unit = s.unit ∧ (s.unitSent f).free = s.free ∧ (s.unitSent f).tick = s.tick ∧ (s.unitSent f).regs = s.regs ∧
    (s.unitSent f).dir = s.dir ∧ (s.unitSent f).att = s.att ∧ (s.unitSent f).beat = s.beat ∧ (s.unitSent f).emit = s.emit ∧
    (s.unitSent f).text = s.text ∧ (s.unitSent f).cores = s.cores ∧ (s.unitSent f).ret = s.ret ∧ (s.unitSent f).part = s.part ∧
    (s.unitSent f).sec = s.sec ∧ (s.unitSent f).ckpt = s.ckpt ∧ (s.unitSent f).mgmt = s.mgmt ∧ (s.unitSent f).pwr = s.pwr ∧
    (s.unitSent f).out = s.out ∧ (s.unitSent f).pending = s.pending := by
  unfold State.unitSent
  split <;> simp

@[simp] theorem State.unitOver_keeps (s : State) (f : FReq) :
    (s.unitOver f).unit = s.unit ∧ (s.unitOver f).free = s.free ∧ (s.unitOver f).tick = s.tick ∧ (s.unitOver f).regs = s.regs ∧
    (s.unitOver f).dir = s.dir ∧ (s.unitOver f).att = s.att ∧ (s.unitOver f).beat = s.beat ∧ (s.unitOver f).emit = s.emit ∧
    (s.unitOver f).text = s.text ∧ (s.unitOver f).cores = s.cores ∧ (s.unitOver f).ret = s.ret ∧ (s.unitOver f).part = s.part ∧
    (s.unitOver f).sec = s.sec ∧ (s.unitOver f).ckpt = s.ckpt ∧ (s.unitOver f).mgmt = s.mgmt ∧ (s.unitOver f).pwr = s.pwr ∧
    (s.unitOver f).out = s.out ∧ (s.unitOver f).pending = s.pending := by
  simp [State.unitOver]

@[simp] theorem State.readOver_keeps (s : State) (r : CkRead) :
    (s.readOver r).unit = s.unit ∧ (s.readOver r).free = s.free ∧ (s.readOver r).tick = s.tick ∧ (s.readOver r).regs = s.regs ∧
    (s.readOver r).host = s.host ∧ (s.readOver r).att = s.att ∧ (s.readOver r).emit = s.emit ∧ (s.readOver r).text = s.text ∧
    (s.readOver r).ret = s.ret ∧ (s.readOver r).link = s.link ∧ (s.readOver r).sec = s.sec ∧ (s.readOver r).mgmt = s.mgmt ∧
    (s.readOver r).pwr = s.pwr ∧ (s.readOver r).out = s.out ∧ (s.readOver r).pending = s.pending := by
  unfold State.readOver; dsimp only; (repeat' split) <;> simp

@[simp] theorem State.unitEnds_keeps (s : State) (p : Nat) :
    (s.unitEnds p).unit = s.unit ∧ (s.unitEnds p).free = s.free ∧ (s.unitEnds p).tick = s.tick ∧ (s.unitEnds p).regs = s.regs ∧
    (s.unitEnds p).att = s.att ∧ (s.unitEnds p).emit = s.emit ∧ (s.unitEnds p).text = s.text ∧ (s.unitEnds p).ret = s.ret ∧
    (s.unitEnds p).sec = s.sec ∧ (s.unitEnds p).mgmt = s.mgmt ∧ (s.unitEnds p).pwr = s.pwr ∧ (s.unitEnds p).out = s.out ∧
    (s.unitEnds p).pending = s.pending := by
  simp [State.unitEnds]

@[simp] theorem State.queueSends_keeps (s : State) (o : MoveOut) (from_ : Nat) :
    (s.queueSends o from_).unit = s.unit ∧ (s.queueSends o from_).free = s.free ∧ (s.queueSends o from_).tick = s.tick ∧
    (s.queueSends o from_).regs = s.regs ∧ (s.queueSends o from_).dir = s.dir ∧ (s.queueSends o from_).att = s.att ∧
    (s.queueSends o from_).emit = s.emit ∧ (s.queueSends o from_).text = s.text ∧ (s.queueSends o from_).cores = s.cores ∧
    (s.queueSends o from_).ret = s.ret ∧ (s.queueSends o from_).sec = s.sec ∧ (s.queueSends o from_).ckpt = s.ckpt ∧
    (s.queueSends o from_).mgmt = s.mgmt ∧ (s.queueSends o from_).pwr = s.pwr ∧ (s.queueSends o from_).out = s.out ∧
    (s.queueSends o from_).pending = s.pending := by
  simp [State.queueSends]

@[simp] theorem State.copySpace_keeps (s : State) (id : Nat) (cl : Nat) (root : Nat) :
    (s.copySpace id cl root).unit = s.unit ∧ (s.copySpace id cl root).tick = s.tick ∧ (s.copySpace id cl root).regs = s.regs ∧
    (s.copySpace id cl root).ctrs = s.ctrs ∧ (s.copySpace id cl root).host = s.host ∧ (s.copySpace id cl root).fab = s.fab ∧
    (s.copySpace id cl root).dir = s.dir ∧ (s.copySpace id cl root).att = s.att ∧ (s.copySpace id cl root).beat = s.beat ∧
    (s.copySpace id cl root).emit = s.emit ∧ (s.copySpace id cl root).text = s.text ∧ (s.copySpace id cl root).cores = s.cores ∧
    (s.copySpace id cl root).ret = s.ret ∧ (s.copySpace id cl root).link = s.link ∧ (s.copySpace id cl root).part = s.part ∧
    (s.copySpace id cl root).sec = s.sec ∧ (s.copySpace id cl root).ckpt = s.ckpt ∧ (s.copySpace id cl root).mgmt = s.mgmt ∧
    (s.copySpace id cl root).pwr = s.pwr ∧ (s.copySpace id cl root).out = s.out ∧ (s.copySpace id cl root).pending = s.pending := by
  unfold State.copySpace
  dsimp only
  split <;> simp

@[simp] theorem State.startUnit_keeps (s : State) (f : FReq) :
    (s.startUnit f).unit = s.unit ∧ (s.startUnit f).tick = s.tick ∧ (s.startUnit f).regs = s.regs ∧ (s.startUnit f).emit = s.emit ∧
    (s.startUnit f).ret = s.ret ∧ (s.startUnit f).sec = s.sec ∧ (s.startUnit f).mgmt = s.mgmt ∧ (s.startUnit f).pwr = s.pwr ∧
    (s.startUnit f).pending = s.pending := by
  unfold State.startUnit
  dsimp only
  split
  · split <;> simp
  · split
    · simp
    · next pl s1 e =>
      have k : s1.unit = s.unit ∧ s1.tick = s.tick ∧ s1.regs = s.regs ∧ s1.emit = s.emit ∧ s1.ret = s.ret ∧ s1.sec = s.sec ∧ s1.mgmt = s.mgmt ∧ s1.pwr = s.pwr ∧ s1.pending = s.pending := by
        split at e
        · cases e; simp
        · simp only [Option.map_eq_some_iff] at e
          obtain ⟨a, _, e⟩ := e
          replace e := congrArg Prod.snd e
          dsimp only at e
          subst e
          simp
      split <;> simp [k]
  · split
    · simp
    · split <;> simp
  · split
    · simp
    · split
      · simp
      · split
        · simp
        · next pl s1 e =>
          have k : s1.unit = s.unit ∧ s1.tick = s.tick ∧ s1.regs = s.regs ∧ s1.emit = s.emit ∧ s1.ret = s.ret ∧ s1.sec = s.sec ∧ s1.mgmt = s.mgmt ∧ s1.pwr = s.pwr ∧ s1.pending = s.pending := by
            split at e
            · cases e; simp
            · have k := State.moveDst_keeps _ _ _ e
              dsimp only at k
              simp [k]
          split <;> simp [k]

@[simp] theorem State.afterMove_keeps (s : State) (f : FReq) :
    (s.afterMove f).unit = s.unit ∧ (s.afterMove f).free = s.free ∧ (s.afterMove f).tick = s.tick ∧ (s.afterMove f).regs = s.regs ∧
    (s.afterMove f).ctrs = s.ctrs ∧ (s.afterMove f).host = s.host ∧ (s.afterMove f).fab = s.fab ∧ (s.afterMove f).dir = s.dir ∧
    (s.afterMove f).att = s.att ∧ (s.afterMove f).beat = s.beat ∧ (s.afterMove f).emit = s.emit ∧ (s.afterMove f).text = s.text ∧
    (s.afterMove f).cores = s.cores ∧ (s.afterMove f).ret = s.ret ∧ (s.afterMove f).link = s.link ∧ (s.afterMove f).part = s.part ∧
    (s.afterMove f).sec = s.sec ∧ (s.afterMove f).ckpt = s.ckpt ∧ (s.afterMove f).mgmt = s.mgmt ∧ (s.afterMove f).pwr = s.pwr ∧
    (s.afterMove f).out = s.out ∧ (s.afterMove f).pending = s.pending := by
  unfold State.afterMove; (repeat' split) <;> simp_all [State.afterMove]

@[simp] theorem State.dstFails_keeps (s : State) (f : FReq) :
    (s.dstFails f).unit = s.unit ∧ (s.dstFails f).free = s.free ∧ (s.dstFails f).tick = s.tick ∧ (s.dstFails f).regs = s.regs ∧
    (s.dstFails f).emit = s.emit ∧ (s.dstFails f).ret = s.ret ∧ (s.dstFails f).sec = s.sec ∧ (s.dstFails f).mgmt = s.mgmt ∧
    (s.dstFails f).pwr = s.pwr ∧ (s.dstFails f).pending = s.pending := by
  unfold State.dstFails; dsimp only; (repeat' split) <;> simp

@[simp] theorem State.srcFails_keeps (s : State) (f : FReq) :
    (s.srcFails f).unit = s.unit ∧ (s.srcFails f).tick = s.tick ∧ (s.srcFails f).regs = s.regs ∧ (s.srcFails f).emit = s.emit ∧
    (s.srcFails f).ret = s.ret ∧ (s.srcFails f).sec = s.sec ∧ (s.srcFails f).mgmt = s.mgmt ∧ (s.srcFails f).pwr = s.pwr ∧
    (s.srcFails f).pending = s.pending := by
  unfold State.srcFails; dsimp only; (repeat' split) <;> simp

@[simp] theorem State.pathFails_keeps (s : State) (f : FReq) :
    (s.pathFails f).unit = s.unit ∧ (s.pathFails f).free = s.free ∧ (s.pathFails f).tick = s.tick ∧ (s.pathFails f).regs = s.regs ∧
    (s.pathFails f).emit = s.emit ∧ (s.pathFails f).ret = s.ret ∧ (s.pathFails f).sec = s.sec ∧ (s.pathFails f).mgmt = s.mgmt ∧
    (s.pathFails f).pwr = s.pwr ∧ (s.pathFails f).pending = s.pending := by
  unfold State.pathFails
  split <;> simp

@[simp] theorem State.bufWaits_keeps (s : State) (f : FReq) :
    (s.bufWaits f).unit = s.unit ∧ (s.bufWaits f).free = s.free ∧ (s.bufWaits f).tick = s.tick ∧ (s.bufWaits f).regs = s.regs ∧
    (s.bufWaits f).ctrs = s.ctrs ∧ (s.bufWaits f).host = s.host ∧ (s.bufWaits f).sess = s.sess ∧ (s.bufWaits f).dir = s.dir ∧
    (s.bufWaits f).att = s.att ∧ (s.bufWaits f).beat = s.beat ∧ (s.bufWaits f).emit = s.emit ∧ (s.bufWaits f).text = s.text ∧
    (s.bufWaits f).cores = s.cores ∧ (s.bufWaits f).ret = s.ret ∧ (s.bufWaits f).link = s.link ∧ (s.bufWaits f).part = s.part ∧
    (s.bufWaits f).sec = s.sec ∧ (s.bufWaits f).ckpt = s.ckpt ∧ (s.bufWaits f).mgmt = s.mgmt ∧ (s.bufWaits f).pwr = s.pwr ∧
    (s.bufWaits f).out = s.out ∧ (s.bufWaits f).pending = s.pending := by
  unfold State.bufWaits
  split <;> simp

@[simp] theorem State.floatGo_keeps (s : State) (part : Nat) :
    (s.floatGo part).unit = s.unit ∧ (s.floatGo part).tick = s.tick ∧ (s.floatGo part).regs = s.regs ∧
    (s.floatGo part).emit = s.emit ∧ (s.floatGo part).ret = s.ret ∧ (s.floatGo part).sec = s.sec ∧ (s.floatGo part).mgmt = s.mgmt ∧
    (s.floatGo part).pwr = s.pwr ∧ (s.floatGo part).pending = s.pending := by
  unfold State.floatGo
  split <;> simp

@[simp] theorem State.stripsForPark_keeps (s : State) (part : Nat) :
    (s.stripsForPark part).unit = s.unit ∧ (s.stripsForPark part).free = s.free ∧ (s.stripsForPark part).tick = s.tick ∧
    (s.stripsForPark part).regs = s.regs ∧ (s.stripsForPark part).emit = s.emit ∧ (s.stripsForPark part).text = s.text ∧
    (s.stripsForPark part).ret = s.ret ∧ (s.stripsForPark part).link = s.link ∧ (s.stripsForPark part).sec = s.sec ∧
    (s.stripsForPark part).mgmt = s.mgmt ∧ (s.stripsForPark part).pwr = s.pwr ∧ (s.stripsForPark part).pending = s.pending := by
  unfold State.stripsForPark
  split <;> simp

@[simp] theorem State.readNext_keeps (s : State) (p : Nat) :
    (s.readNext p).unit = s.unit ∧ (s.readNext p).free = s.free ∧ (s.readNext p).tick = s.tick ∧ (s.readNext p).regs = s.regs ∧
    (s.readNext p).host = s.host ∧ (s.readNext p).att = s.att ∧ (s.readNext p).emit = s.emit ∧ (s.readNext p).text = s.text ∧
    (s.readNext p).ret = s.ret ∧ (s.readNext p).link = s.link ∧ (s.readNext p).sec = s.sec ∧ (s.readNext p).mgmt = s.mgmt ∧
    (s.readNext p).pwr = s.pwr ∧ (s.readNext p).out = s.out ∧ (s.readNext p).pending = s.pending := by
  unfold State.readNext; dsimp only; (repeat' split) <;> simp

@[simp] theorem State.readFails_keeps (s : State) (r : CkRead) :
    (s.readFails r).unit = s.unit ∧ (s.readFails r).tick = s.tick ∧ (s.readFails r).regs = s.regs ∧ (s.readFails r).emit = s.emit ∧
    (s.readFails r).ret = s.ret ∧ (s.readFails r).sec = s.sec ∧ (s.readFails r).mgmt = s.mgmt ∧ (s.readFails r).pwr = s.pwr ∧
    (s.readFails r).pending = s.pending := by
  unfold State.readFails; (repeat' split) <;> simp_all [State.readFails]

@[simp] theorem State.floatNext_keeps (s : State) (part : Nat) :
    (s.floatNext part).unit = s.unit ∧ (s.floatNext part).tick = s.tick ∧ (s.floatNext part).regs = s.regs ∧
    (s.floatNext part).emit = s.emit ∧ (s.floatNext part).ret = s.ret ∧ (s.floatNext part).sec = s.sec ∧
    (s.floatNext part).mgmt = s.mgmt ∧ (s.floatNext part).pwr = s.pwr ∧ (s.floatNext part).pending = s.pending := by
  unfold State.floatNext; dsimp only; (repeat' split) <;> simp

@[simp] theorem State.switchReq_keeps (s : State) (f : FReq) (pl : Place) :
    (s.switchReq f pl).unit = s.unit ∧ (s.switchReq f pl).tick = s.tick ∧ (s.switchReq f pl).regs = s.regs ∧
    (s.switchReq f pl).emit = s.emit ∧ (s.switchReq f pl).ret = s.ret ∧ (s.switchReq f pl).sec = s.sec ∧
    (s.switchReq f pl).mgmt = s.mgmt ∧ (s.switchReq f pl).pwr = s.pwr ∧ (s.switchReq f pl).pending = s.pending := by
  unfold State.switchReq; dsimp only; (repeat' split) <;> simp

@[simp] theorem State.reclaim0_keeps (s : State) (cl : Nat) :
    (s.reclaim0 cl).unit = s.unit ∧ (s.reclaim0 cl).free = s.free ∧ (s.reclaim0 cl).tick = s.tick ∧ (s.reclaim0 cl).regs = s.regs ∧
    (s.reclaim0 cl).host = s.host ∧ (s.reclaim0 cl).att = s.att ∧ (s.reclaim0 cl).emit = s.emit ∧ (s.reclaim0 cl).text = s.text ∧
    (s.reclaim0 cl).ret = s.ret ∧ (s.reclaim0 cl).link = s.link ∧ (s.reclaim0 cl).sec = s.sec ∧ (s.reclaim0 cl).ckpt = s.ckpt ∧
    (s.reclaim0 cl).mgmt = s.mgmt ∧ (s.reclaim0 cl).pwr = s.pwr ∧ (s.reclaim0 cl).out = s.out ∧
    (s.reclaim0 cl).pending = s.pending := by
  unfold State.reclaim0; (repeat' split) <;> simp_all [State.reclaim0]

@[simp] theorem State.reclaim1_keeps (s : State) (part : Nat) (cl : Nat) :
    (s.reclaim1 part cl).unit = s.unit ∧ (s.reclaim1 part cl).free = s.free ∧ (s.reclaim1 part cl).tick = s.tick ∧
    (s.reclaim1 part cl).regs = s.regs ∧ (s.reclaim1 part cl).emit = s.emit ∧ (s.reclaim1 part cl).text = s.text ∧
    (s.reclaim1 part cl).ret = s.ret ∧ (s.reclaim1 part cl).link = s.link ∧ (s.reclaim1 part cl).sec = s.sec ∧
    (s.reclaim1 part cl).mgmt = s.mgmt ∧ (s.reclaim1 part cl).pwr = s.pwr ∧ (s.reclaim1 part cl).pending = s.pending := by
  unfold State.reclaim1; dsimp only; (repeat' split) <;> simp

@[simp] theorem State.kvLand_keeps (s0 : State) (id : Nat) (k : KvMsg) (x : Sess) (m : ModelEnt) (b : Nat) (rewrite : Bool) :
    (s0.kvLand id k x m b rewrite).unit = s0.unit ∧ (s0.kvLand id k x m b rewrite).tick = s0.tick ∧
    (s0.kvLand id k x m b rewrite).regs = s0.regs ∧ (s0.kvLand id k x m b rewrite).att = s0.att ∧
    (s0.kvLand id k x m b rewrite).beat = s0.beat ∧ (s0.kvLand id k x m b rewrite).emit = s0.emit ∧
    (s0.kvLand id k x m b rewrite).text = s0.text ∧ (s0.kvLand id k x m b rewrite).cores = s0.cores ∧
    (s0.kvLand id k x m b rewrite).ret = s0.ret ∧ (s0.kvLand id k x m b rewrite).part = s0.part ∧
    (s0.kvLand id k x m b rewrite).sec = s0.sec ∧ (s0.kvLand id k x m b rewrite).ckpt = s0.ckpt ∧
    (s0.kvLand id k x m b rewrite).mgmt = s0.mgmt ∧ (s0.kvLand id k x m b rewrite).pwr = s0.pwr ∧
    (s0.kvLand id k x m b rewrite).pending = s0.pending := by
  simp [State.kvLand]

theorem State.kvApply_keeps (s : State) (id : Nat) (k : KvMsg) {tt : State} (ht : s.kvApply id k = some tt) :
    tt.unit = s.unit ∧ tt.tick = s.tick ∧ tt.regs = s.regs ∧ tt.att = s.att ∧ tt.beat = s.beat ∧ tt.emit = s.emit ∧
    tt.text = s.text ∧ tt.cores = s.cores ∧ tt.ret = s.ret ∧ tt.part = s.part ∧ tt.sec = s.sec ∧ tt.ckpt = s.ckpt ∧
    tt.mgmt = s.mgmt ∧ tt.pwr = s.pwr ∧ tt.pending = s.pending := by
  unfold State.kvApply at ht
  dsimp only at ht
  split at ht
  · cases ht
  · split at ht
    · cases ht
    · split at ht
      · cases ht
      · next s0 e =>
        have k : s0.unit = s.unit ∧ s0.tick = s.tick ∧ s0.regs = s.regs ∧ s0.att = s.att ∧ s0.beat = s.beat ∧ s0.emit = s.emit ∧ s0.text = s.text ∧ s0.cores = s.cores ∧ s0.ret = s.ret ∧ s0.part = s.part ∧ s0.sec = s.sec ∧ s0.ckpt = s.ckpt ∧ s0.mgmt = s.mgmt ∧ s0.pwr = s.pwr ∧ s0.pending = s.pending := by
          split at e
          · cases e; simp
          · have k := State.newBlock_keeps _ _ _ e
            simp [k]
        cases ht
        simp [k]

@[simp] theorem State.kvCredit_keeps (s : State) (k : KvMsg) :
    (s.kvCredit k).unit = s.unit ∧ (s.kvCredit k).free = s.free ∧ (s.kvCredit k).tick = s.tick ∧ (s.kvCredit k).regs = s.regs ∧
    (s.kvCredit k).ctrs = s.ctrs ∧ (s.kvCredit k).host = s.host ∧ (s.kvCredit k).sess = s.sess ∧ (s.kvCredit k).fab = s.fab ∧
    (s.kvCredit k).dir = s.dir ∧ (s.kvCredit k).att = s.att ∧ (s.kvCredit k).beat = s.beat ∧ (s.kvCredit k).emit = s.emit ∧
    (s.kvCredit k).text = s.text ∧ (s.kvCredit k).cores = s.cores ∧ (s.kvCredit k).ret = s.ret ∧ (s.kvCredit k).part = s.part ∧
    (s.kvCredit k).sec = s.sec ∧ (s.kvCredit k).ckpt = s.ckpt ∧ (s.kvCredit k).mgmt = s.mgmt ∧ (s.kvCredit k).pwr = s.pwr ∧
    (s.kvCredit k).out = s.out ∧ (s.kvCredit k).pending = s.pending := by
  simp [State.kvCredit]

@[simp] theorem State.kvHold_keeps (s : State) (id : Nat) (k : KvMsg) :
    (s.kvHold id k).unit = s.unit ∧ (s.kvHold id k).free = s.free ∧ (s.kvHold id k).tick = s.tick ∧ (s.kvHold id k).regs = s.regs ∧
    (s.kvHold id k).host = s.host ∧ (s.kvHold id k).fab = s.fab ∧ (s.kvHold id k).dir = s.dir ∧ (s.kvHold id k).beat = s.beat ∧
    (s.kvHold id k).emit = s.emit ∧ (s.kvHold id k).text = s.text ∧ (s.kvHold id k).cores = s.cores ∧ (s.kvHold id k).ret = s.ret ∧
    (s.kvHold id k).link = s.link ∧ (s.kvHold id k).part = s.part ∧ (s.kvHold id k).sec = s.sec ∧ (s.kvHold id k).ckpt = s.ckpt ∧
    (s.kvHold id k).mgmt = s.mgmt ∧ (s.kvHold id k).pwr = s.pwr ∧ (s.kvHold id k).out = s.out ∧
    (s.kvHold id k).pending = s.pending := by
  simp [State.kvHold]

@[simp] theorem State.kvAccept_keeps (s : State) (id : Nat) (k : KvMsg) :
    (s.kvAccept id k).unit = s.unit ∧ (s.kvAccept id k).tick = s.tick ∧ (s.kvAccept id k).regs = s.regs ∧
    (s.kvAccept id k).beat = s.beat ∧ (s.kvAccept id k).emit = s.emit ∧ (s.kvAccept id k).text = s.text ∧
    (s.kvAccept id k).cores = s.cores ∧ (s.kvAccept id k).ret = s.ret ∧ (s.kvAccept id k).part = s.part ∧
    (s.kvAccept id k).sec = s.sec ∧ (s.kvAccept id k).ckpt = s.ckpt ∧ (s.kvAccept id k).mgmt = s.mgmt ∧
    (s.kvAccept id k).pwr = s.pwr ∧ (s.kvAccept id k).pending = s.pending := by
  unfold State.kvAccept
  split
  · simp
  · split
    · next e =>
      have k := State.kvApply_keeps _ _ _ e
      simp [k]
    · simp

@[simp] theorem State.kvReject_keeps (s : State) (part : Nat) (k : KvMsg) (cause : Status) :
    (s.kvReject part k cause).unit = s.unit ∧ (s.kvReject part k cause).free = s.free ∧ (s.kvReject part k cause).tick = s.tick ∧
    (s.kvReject part k cause).host = s.host ∧ (s.kvReject part k cause).sess = s.sess ∧ (s.kvReject part k cause).fab = s.fab ∧
    (s.kvReject part k cause).dir = s.dir ∧ (s.kvReject part k cause).att = s.att ∧ (s.kvReject part k cause).beat = s.beat ∧
    (s.kvReject part k cause).emit = s.emit ∧ (s.kvReject part k cause).text = s.text ∧ (s.kvReject part k cause).cores = s.cores ∧
    (s.kvReject part k cause).ret = s.ret ∧ (s.kvReject part k cause).link = s.link ∧ (s.kvReject part k cause).part = s.part ∧
    (s.kvReject part k cause).sec = s.sec ∧ (s.kvReject part k cause).ckpt = s.ckpt ∧ (s.kvReject part k cause).mgmt = s.mgmt ∧
    (s.kvReject part k cause).pwr = s.pwr ∧ (s.kvReject part k cause).out = s.out ∧ (s.kvReject part k cause).pending = s.pending := by
  simp [State.kvReject]

@[simp] theorem State.placeHeld_keeps (s : State) :
    s.placeHeld.unit = s.unit ∧ s.placeHeld.tick = s.tick ∧ s.placeHeld.beat = s.beat ∧ s.placeHeld.emit = s.emit ∧
    s.placeHeld.text = s.text ∧ s.placeHeld.cores = s.cores ∧ s.placeHeld.ret = s.ret ∧ s.placeHeld.part = s.part ∧
    s.placeHeld.sec = s.sec ∧ s.placeHeld.ckpt = s.ckpt ∧ s.placeHeld.mgmt = s.mgmt ∧ s.placeHeld.pwr = s.pwr ∧
    s.placeHeld.pending = s.pending := by
  have key : ∀ x : State, (x.unit, x.tick, x.beat, x.emit, x.text, x.cores, x.ret, x.part, x.sec, x.ckpt, x.mgmt, x.pwr, x.pending) = (s.unit, s.tick, s.beat, s.emit, s.text, s.cores, s.ret, s.part, s.sec, s.ckpt, s.mgmt, s.pwr, s.pending) → x.unit = s.unit ∧ x.tick = s.tick ∧ x.beat = s.beat ∧ x.emit = s.emit ∧ x.text = s.text ∧ x.cores = s.cores ∧ x.ret = s.ret ∧ x.part = s.part ∧ x.sec = s.sec ∧ x.ckpt = s.ckpt ∧ x.mgmt = s.mgmt ∧ x.pwr = s.pwr ∧ x.pending = s.pending := by intro x h; simpa using h
  refine key _ ?_
  unfold State.placeHeld
  refine foldl_fix (fun x : State × _ => (x.1.unit, x.1.tick, x.1.beat, x.1.emit, x.1.text, x.1.cores, x.1.ret, x.1.part, x.1.sec, x.1.ckpt, x.1.mgmt, x.1.pwr, x.1.pending)) _ ?_ _ (s, [])
  intro a w
  dsimp only
  split
  · rfl
  · split
    · simp
    · split
      · next e =>
        have k := State.kvApply_keeps _ _ _ e
        simp [k]
      · rfl

@[simp] theorem State.setCore_keeps (s : State) (n : Nat) (c : Core) :
    (s.setCore n c).unit = s.unit ∧ (s.setCore n c).free = s.free ∧ (s.setCore n c).tick = s.tick ∧ (s.setCore n c).regs = s.regs ∧
    (s.setCore n c).ctrs = s.ctrs ∧ (s.setCore n c).host = s.host ∧ (s.setCore n c).sess = s.sess ∧ (s.setCore n c).fab = s.fab ∧
    (s.setCore n c).dir = s.dir ∧ (s.setCore n c).att = s.att ∧ (s.setCore n c).beat = s.beat ∧ (s.setCore n c).emit = s.emit ∧
    (s.setCore n c).text = s.text ∧ (s.setCore n c).ret = s.ret ∧ (s.setCore n c).link = s.link ∧ (s.setCore n c).part = s.part ∧
    (s.setCore n c).sec = s.sec ∧ (s.setCore n c).ckpt = s.ckpt ∧ (s.setCore n c).mgmt = s.mgmt ∧ (s.setCore n c).pwr = s.pwr ∧
    (s.setCore n c).out = s.out ∧ (s.setCore n c).pending = s.pending := by
  exact ⟨rfl, rfl, rfl, rfl, rfl, rfl, rfl, rfl, rfl, rfl, rfl, rfl, rfl, rfl, rfl, rfl, rfl, rfl, rfl, rfl, rfl, rfl⟩

@[simp] theorem State.setCtxAt_keeps (s : State) (t : Site) (c : Ctx) :
    (s.setCtxAt t c).unit = s.unit ∧ (s.setCtxAt t c).free = s.free ∧ (s.setCtxAt t c).tick = s.tick ∧
    (s.setCtxAt t c).regs = s.regs ∧ (s.setCtxAt t c).ctrs = s.ctrs ∧ (s.setCtxAt t c).host = s.host ∧
    (s.setCtxAt t c).sess = s.sess ∧ (s.setCtxAt t c).fab = s.fab ∧ (s.setCtxAt t c).dir = s.dir ∧ (s.setCtxAt t c).att = s.att ∧
    (s.setCtxAt t c).beat = s.beat ∧ (s.setCtxAt t c).emit = s.emit ∧ (s.setCtxAt t c).text = s.text ∧
    (s.setCtxAt t c).ret = s.ret ∧ (s.setCtxAt t c).link = s.link ∧ (s.setCtxAt t c).part = s.part ∧ (s.setCtxAt t c).sec = s.sec ∧
    (s.setCtxAt t c).ckpt = s.ckpt ∧ (s.setCtxAt t c).mgmt = s.mgmt ∧ (s.setCtxAt t c).pwr = s.pwr ∧ (s.setCtxAt t c).out = s.out ∧
    (s.setCtxAt t c).pending = s.pending := by
  exact ⟨rfl, rfl, rfl, rfl, rfl, rfl, rfl, rfl, rfl, rfl, rfl, rfl, rfl, rfl, rfl, rfl, rfl, rfl, rfl, rfl, rfl, rfl⟩

@[simp] theorem State.locWrite_keeps (s : State) (core : Nat) (l : Loc) (b : Bytes) :
    (s.locWrite core l b).unit = s.unit ∧ (s.locWrite core l b).free = s.free ∧ (s.locWrite core l b).tick = s.tick ∧
    (s.locWrite core l b).regs = s.regs ∧ (s.locWrite core l b).ctrs = s.ctrs ∧ (s.locWrite core l b).host = s.host ∧
    (s.locWrite core l b).sess = s.sess ∧ (s.locWrite core l b).fab = s.fab ∧ (s.locWrite core l b).dir = s.dir ∧
    (s.locWrite core l b).att = s.att ∧ (s.locWrite core l b).beat = s.beat ∧ (s.locWrite core l b).emit = s.emit ∧
    (s.locWrite core l b).text = s.text ∧ (s.locWrite core l b).ret = s.ret ∧ (s.locWrite core l b).link = s.link ∧
    (s.locWrite core l b).part = s.part ∧ (s.locWrite core l b).sec = s.sec ∧ (s.locWrite core l b).ckpt = s.ckpt ∧
    (s.locWrite core l b).mgmt = s.mgmt ∧ (s.locWrite core l b).pwr = s.pwr ∧ (s.locWrite core l b).out = s.out ∧
    (s.locWrite core l b).pending = s.pending := by
  unfold State.locWrite
  split <;> simp

@[simp] theorem State.mergePut_keeps (s : State) (cl : Nat) (req : Nat) (b : Bytes) :
    (s.mergePut cl req b).2.unit = s.unit ∧ (s.mergePut cl req b).2.free = s.free ∧ (s.mergePut cl req b).2.tick = s.tick ∧
    (s.mergePut cl req b).2.regs = s.regs ∧ (s.mergePut cl req b).2.ctrs = s.ctrs ∧ (s.mergePut cl req b).2.host = s.host ∧
    (s.mergePut cl req b).2.sess = s.sess ∧ (s.mergePut cl req b).2.fab = s.fab ∧ (s.mergePut cl req b).2.dir = s.dir ∧
    (s.mergePut cl req b).2.att = s.att ∧ (s.mergePut cl req b).2.beat = s.beat ∧ (s.mergePut cl req b).2.emit = s.emit ∧
    (s.mergePut cl req b).2.text = s.text ∧ (s.mergePut cl req b).2.ret = s.ret ∧ (s.mergePut cl req b).2.link = s.link ∧
    (s.mergePut cl req b).2.part = s.part ∧ (s.mergePut cl req b).2.sec = s.sec ∧ (s.mergePut cl req b).2.ckpt = s.ckpt ∧
    (s.mergePut cl req b).2.mgmt = s.mgmt ∧ (s.mergePut cl req b).2.pwr = s.pwr ∧ (s.mergePut cl req b).2.out = s.out ∧
    (s.mergePut cl req b).2.pending = s.pending := by
  exact ⟨rfl, rfl, rfl, rfl, rfl, rfl, rfl, rfl, rfl, rfl, rfl, rfl, rfl, rfl, rfl, rfl, rfl, rfl, rfl, rfl, rfl, rfl⟩

@[simp] theorem State.sweepProgs_keeps (s : State) :
    s.sweepProgs.unit = s.unit ∧ s.sweepProgs.free = s.free ∧ s.sweepProgs.tick = s.tick ∧ s.sweepProgs.regs = s.regs ∧
    s.sweepProgs.ctrs = s.ctrs ∧ s.sweepProgs.host = s.host ∧ s.sweepProgs.sess = s.sess ∧ s.sweepProgs.fab = s.fab ∧
    s.sweepProgs.dir = s.dir ∧ s.sweepProgs.att = s.att ∧ s.sweepProgs.beat = s.beat ∧ s.sweepProgs.emit = s.emit ∧
    s.sweepProgs.text = s.text ∧ s.sweepProgs.ret = s.ret ∧ s.sweepProgs.link = s.link ∧ s.sweepProgs.part = s.part ∧
    s.sweepProgs.sec = s.sec ∧ s.sweepProgs.ckpt = s.ckpt ∧ s.sweepProgs.mgmt = s.mgmt ∧ s.sweepProgs.pwr = s.pwr ∧
    s.sweepProgs.out = s.out ∧ s.sweepProgs.pending = s.pending := by
  exact ⟨rfl, rfl, rfl, rfl, rfl, rfl, rfl, rfl, rfl, rfl, rfl, rfl, rfl, rfl, rfl, rfl, rfl, rfl, rfl, rfl, rfl, rfl⟩

@[simp] theorem State.callDone_keeps (s : State) (id : Nat) :
    (s.callDone id).unit = s.unit ∧ (s.callDone id).free = s.free ∧ (s.callDone id).tick = s.tick ∧ (s.callDone id).regs = s.regs ∧
    (s.callDone id).sess = s.sess ∧ (s.callDone id).fab = s.fab ∧ (s.callDone id).dir = s.dir ∧ (s.callDone id).att = s.att ∧
    (s.callDone id).beat = s.beat ∧ (s.callDone id).emit = s.emit ∧ (s.callDone id).text = s.text ∧ (s.callDone id).ret = s.ret ∧
    (s.callDone id).link = s.link ∧ (s.callDone id).part = s.part ∧ (s.callDone id).sec = s.sec ∧ (s.callDone id).ckpt = s.ckpt ∧
    (s.callDone id).mgmt = s.mgmt ∧ (s.callDone id).pwr = s.pwr ∧ (s.callDone id).pending = s.pending := by
  unfold State.callDone; dsimp only; (repeat' split) <;> simp

@[simp] theorem State.memberEnd_keeps (s : State) (id : Nat) (e : MemberEnd) :
    (s.memberEnd id e).unit = s.unit ∧ (s.memberEnd id e).free = s.free ∧ (s.memberEnd id e).tick = s.tick ∧
    (s.memberEnd id e).regs = s.regs ∧ (s.memberEnd id e).sess = s.sess ∧ (s.memberEnd id e).fab = s.fab ∧
    (s.memberEnd id e).dir = s.dir ∧ (s.memberEnd id e).att = s.att ∧ (s.memberEnd id e).beat = s.beat ∧
    (s.memberEnd id e).emit = s.emit ∧ (s.memberEnd id e).text = s.text ∧ (s.memberEnd id e).ret = s.ret ∧
    (s.memberEnd id e).link = s.link ∧ (s.memberEnd id e).part = s.part ∧ (s.memberEnd id e).sec = s.sec ∧
    (s.memberEnd id e).ckpt = s.ckpt ∧ (s.memberEnd id e).mgmt = s.mgmt ∧ (s.memberEnd id e).pwr = s.pwr ∧
    (s.memberEnd id e).pending = s.pending := by
  simp [State.memberEnd]

@[simp] theorem State.endInv_keeps (s : State) (t : Site) (st : Nat) (cause : Nat) :
    (s.endInv t st cause).unit = s.unit ∧ (s.endInv t st cause).free = s.free ∧ (s.endInv t st cause).tick = s.tick ∧
    (s.endInv t st cause).fab = s.fab ∧ (s.endInv t st cause).dir = s.dir ∧ (s.endInv t st cause).beat = s.beat ∧
    (s.endInv t st cause).text = s.text ∧ (s.endInv t st cause).ret = s.ret ∧ (s.endInv t st cause).part = s.part ∧
    (s.endInv t st cause).sec = s.sec ∧ (s.endInv t st cause).ckpt = s.ckpt ∧ (s.endInv t st cause).mgmt = s.mgmt ∧
    (s.endInv t st cause).pwr = s.pwr ∧ (s.endInv t st cause).pending = s.pending := by
  unfold State.endInv; dsimp only; (repeat' split) <;> simp

@[simp] theorem State.modCall_keeps (s : State) (id : Nat) (f : Call → Call) :
    (s.modCall id f).unit = s.unit ∧ (s.modCall id f).free = s.free ∧ (s.modCall id f).tick = s.tick ∧
    (s.modCall id f).regs = s.regs ∧ (s.modCall id f).ctrs = s.ctrs ∧ (s.modCall id f).host = s.host ∧
    (s.modCall id f).sess = s.sess ∧ (s.modCall id f).fab = s.fab ∧ (s.modCall id f).dir = s.dir ∧ (s.modCall id f).att = s.att ∧
    (s.modCall id f).beat = s.beat ∧ (s.modCall id f).emit = s.emit ∧ (s.modCall id f).text = s.text ∧
    (s.modCall id f).ret = s.ret ∧ (s.modCall id f).link = s.link ∧ (s.modCall id f).part = s.part ∧ (s.modCall id f).sec = s.sec ∧
    (s.modCall id f).ckpt = s.ckpt ∧ (s.modCall id f).mgmt = s.mgmt ∧ (s.modCall id f).pwr = s.pwr ∧ (s.modCall id f).out = s.out ∧
    (s.modCall id f).pending = s.pending := by
  exact ⟨rfl, rfl, rfl, rfl, rfl, rfl, rfl, rfl, rfl, rfl, rfl, rfl, rfl, rfl, rfl, rfl, rfl, rfl, rfl, rfl, rfl, rfl⟩

@[simp] theorem State.barMember_keeps (s : State) (v : Inv) :
    (s.barMember v).unit = s.unit ∧ (s.barMember v).free = s.free ∧ (s.barMember v).tick = s.tick ∧ (s.barMember v).regs = s.regs ∧
    (s.barMember v).ctrs = s.ctrs ∧ (s.barMember v).host = s.host ∧ (s.barMember v).sess = s.sess ∧ (s.barMember v).fab = s.fab ∧
    (s.barMember v).dir = s.dir ∧ (s.barMember v).att = s.att ∧ (s.barMember v).beat = s.beat ∧ (s.barMember v).emit = s.emit ∧
    (s.barMember v).text = s.text ∧ (s.barMember v).ret = s.ret ∧ (s.barMember v).link = s.link ∧ (s.barMember v).part = s.part ∧
    (s.barMember v).sec = s.sec ∧ (s.barMember v).ckpt = s.ckpt ∧ (s.barMember v).mgmt = s.mgmt ∧ (s.barMember v).pwr = s.pwr ∧
    (s.barMember v).out = s.out ∧ (s.barMember v).pending = s.pending := by
  exact ⟨rfl, rfl, rfl, rfl, rfl, rfl, rfl, rfl, rfl, rfl, rfl, rfl, rfl, rfl, rfl, rfl, rfl, rfl, rfl, rfl, rfl, rfl⟩

@[simp] theorem State.breakBarriers_keeps (s : State) (call : Nat) :
    (s.breakBarriers call).unit = s.unit ∧ (s.breakBarriers call).free = s.free ∧ (s.breakBarriers call).tick = s.tick ∧
    (s.breakBarriers call).fab = s.fab ∧ (s.breakBarriers call).dir = s.dir ∧ (s.breakBarriers call).beat = s.beat ∧
    (s.breakBarriers call).text = s.text ∧ (s.breakBarriers call).ret = s.ret ∧ (s.breakBarriers call).part = s.part ∧
    (s.breakBarriers call).sec = s.sec ∧ (s.breakBarriers call).ckpt = s.ckpt ∧ (s.breakBarriers call).mgmt = s.mgmt ∧
    (s.breakBarriers call).pwr = s.pwr ∧ (s.breakBarriers call).pending = s.pending := by
  have key : ∀ x : State, (x.unit, x.free, x.tick, x.fab, x.dir, x.beat, x.text, x.ret, x.part, x.sec, x.ckpt, x.mgmt, x.pwr, x.pending) = (s.unit, s.free, s.tick, s.fab, s.dir, s.beat, s.text, s.ret, s.part, s.sec, s.ckpt, s.mgmt, s.pwr, s.pending) → x.unit = s.unit ∧ x.free = s.free ∧ x.tick = s.tick ∧ x.fab = s.fab ∧ x.dir = s.dir ∧ x.beat = s.beat ∧ x.text = s.text ∧ x.ret = s.ret ∧ x.part = s.part ∧ x.sec = s.sec ∧ x.ckpt = s.ckpt ∧ x.mgmt = s.mgmt ∧ x.pwr = s.pwr ∧ x.pending = s.pending := by intro x h; simpa using h
  refine key _ ?_
  unfold State.breakBarriers
  split
  · rfl
  · refine foldl_fix (fun x : State => (x.unit, x.free, x.tick, x.fab, x.dir, x.beat, x.text, x.ret, x.part, x.sec, x.ckpt, x.mgmt, x.pwr, x.pending)) _ ?_ _ _
    intro s a
    refine foldl_fix (fun x : State => (x.unit, x.free, x.tick, x.fab, x.dir, x.beat, x.text, x.ret, x.part, x.sec, x.ckpt, x.mgmt, x.pwr, x.pending)) _ ?_ _ _
    intro s a
    dsimp only
    split
    · split <;> simp
    · rfl

@[simp] theorem State.killInv_keeps (s : State) (t : Site) (st : Nat) :
    (s.killInv t st).unit = s.unit ∧ (s.killInv t st).free = s.free ∧ (s.killInv t st).tick = s.tick ∧
    (s.killInv t st).fab = s.fab ∧ (s.killInv t st).dir = s.dir ∧ (s.killInv t st).beat = s.beat ∧ (s.killInv t st).text = s.text ∧
    (s.killInv t st).ret = s.ret ∧ (s.killInv t st).part = s.part ∧ (s.killInv t st).sec = s.sec ∧ (s.killInv t st).ckpt = s.ckpt ∧
    (s.killInv t st).mgmt = s.mgmt ∧ (s.killInv t st).pwr = s.pwr ∧ (s.killInv t st).pending = s.pending := by
  unfold State.killInv
  split <;> simp

@[simp] theorem State.raise_keeps (s : State) (t : Site) (cause : Nat) :
    (s.raise t cause).unit = s.unit ∧ (s.raise t cause).free = s.free ∧ (s.raise t cause).tick = s.tick ∧
    (s.raise t cause).fab = s.fab ∧ (s.raise t cause).dir = s.dir ∧ (s.raise t cause).beat = s.beat ∧
    (s.raise t cause).text = s.text ∧ (s.raise t cause).ret = s.ret ∧ (s.raise t cause).part = s.part ∧
    (s.raise t cause).sec = s.sec ∧ (s.raise t cause).ckpt = s.ckpt ∧ (s.raise t cause).mgmt = s.mgmt ∧
    (s.raise t cause).pwr = s.pwr ∧ (s.raise t cause).pending = s.pending := by
  unfold State.raise; dsimp only; (repeat' split) <;> simp

@[simp] theorem State.retire_keeps (s : State) (t : Site) :
    (s.retire t).unit = s.unit ∧ (s.retire t).free = s.free ∧ (s.retire t).tick = s.tick ∧ (s.retire t).regs = s.regs ∧
    (s.retire t).host = s.host ∧ (s.retire t).sess = s.sess ∧ (s.retire t).fab = s.fab ∧ (s.retire t).dir = s.dir ∧
    (s.retire t).att = s.att ∧ (s.retire t).beat = s.beat ∧ (s.retire t).emit = s.emit ∧ (s.retire t).text = s.text ∧
    (s.retire t).ret = s.ret ∧ (s.retire t).link = s.link ∧ (s.retire t).part = s.part ∧ (s.retire t).sec = s.sec ∧
    (s.retire t).ckpt = s.ckpt ∧ (s.retire t).mgmt = s.mgmt ∧ (s.retire t).pwr = s.pwr ∧ (s.retire t).out = s.out ∧
    (s.retire t).pending = s.pending := by
  exact ⟨rfl, rfl, rfl, rfl, rfl, rfl, rfl, rfl, rfl, rfl, rfl, rfl, rfl, rfl, rfl, rfl, rfl, rfl, rfl, rfl, rfl⟩

@[simp] theorem State.writeData_keeps (s : State) (cores : List Nat) (base : Nat) (d : Bytes) :
    (s.writeData cores base d).unit = s.unit ∧ (s.writeData cores base d).free = s.free ∧
    (s.writeData cores base d).tick = s.tick ∧ (s.writeData cores base d).regs = s.regs ∧
    (s.writeData cores base d).ctrs = s.ctrs ∧ (s.writeData cores base d).host = s.host ∧
    (s.writeData cores base d).sess = s.sess ∧ (s.writeData cores base d).fab = s.fab ∧ (s.writeData cores base d).dir = s.dir ∧
    (s.writeData cores base d).att = s.att ∧ (s.writeData cores base d).beat = s.beat ∧ (s.writeData cores base d).emit = s.emit ∧
    (s.writeData cores base d).text = s.text ∧ (s.writeData cores base d).ret = s.ret ∧ (s.writeData cores base d).link = s.link ∧
    (s.writeData cores base d).part = s.part ∧ (s.writeData cores base d).sec = s.sec ∧ (s.writeData cores base d).ckpt = s.ckpt ∧
    (s.writeData cores base d).mgmt = s.mgmt ∧ (s.writeData cores base d).pwr = s.pwr ∧ (s.writeData cores base d).out = s.out ∧
    (s.writeData cores base d).pending = s.pending := by
  simp [State.writeData]

@[simp] theorem State.dropMsgs_keeps (s : State) (p : Nat) (id : Nat) :
    (s.dropMsgs p id).unit = s.unit ∧ (s.dropMsgs p id).free = s.free ∧ (s.dropMsgs p id).tick = s.tick ∧
    (s.dropMsgs p id).regs = s.regs ∧ (s.dropMsgs p id).ctrs = s.ctrs ∧ (s.dropMsgs p id).host = s.host ∧
    (s.dropMsgs p id).sess = s.sess ∧ (s.dropMsgs p id).fab = s.fab ∧ (s.dropMsgs p id).dir = s.dir ∧
    (s.dropMsgs p id).att = s.att ∧ (s.dropMsgs p id).beat = s.beat ∧ (s.dropMsgs p id).emit = s.emit ∧
    (s.dropMsgs p id).text = s.text ∧ (s.dropMsgs p id).ret = s.ret ∧ (s.dropMsgs p id).link = s.link ∧
    (s.dropMsgs p id).part = s.part ∧ (s.dropMsgs p id).sec = s.sec ∧ (s.dropMsgs p id).ckpt = s.ckpt ∧
    (s.dropMsgs p id).mgmt = s.mgmt ∧ (s.dropMsgs p id).pwr = s.pwr ∧ (s.dropMsgs p id).out = s.out ∧
    (s.dropMsgs p id).pending = s.pending := by
  exact ⟨rfl, rfl, rfl, rfl, rfl, rfl, rfl, rfl, rfl, rfl, rfl, rfl, rfl, rfl, rfl, rfl, rfl, rfl, rfl, rfl, rfl, rfl⟩

end Sys2Proof.Machine
end

