-- ==== Sys2Proof/Laws/Keeps3.lean ====
section
/-! SUPPORT. The frame of each shared operation on the state: the parts it leaves as they are (Attention, Beat, Ckpt, Host, Invoke, Loads, Partitions, Power, Reset, Retrieval, ScaeshBlk, ScaeshSync). -/

namespace Sys2Proof.Machine

@[simp] theorem State.progSwitch_keeps (s : State) (w : ProgSwitch) :
    (s.progSwitch w).unit = s.unit ∧ (s.progSwitch w).free = s.free ∧ (s.progSwitch w).tick = s.tick ∧
    (s.progSwitch w).regs = s.regs ∧ (s.progSwitch w).sess = s.sess ∧ (s.progSwitch w).fab = s.fab ∧ (s.progSwitch w).dir = s.dir ∧
    (s.progSwitch w).att = s.att ∧ (s.progSwitch w).beat = s.beat ∧ (s.progSwitch w).emit = s.emit ∧
    (s.progSwitch w).text = s.text ∧ (s.progSwitch w).ret = s.ret ∧ (s.progSwitch w).link = s.link ∧
    (s.progSwitch w).part = s.part ∧ (s.progSwitch w).sec = s.sec ∧ (s.progSwitch w).ckpt = s.ckpt ∧
    (s.progSwitch w).mgmt = s.mgmt ∧ (s.progSwitch w).pwr = s.pwr ∧ (s.progSwitch w).pending = s.pending := by
  simp [State.progSwitch]

@[simp] theorem State.startInv_keeps (s : State) (t : Site) (v : Inv) (xs : List (Nat × Word)) (h0 : Option Nat) :
    (s.startInv t v xs h0).unit = s.unit ∧ (s.startInv t v xs h0).tick = s.tick ∧ (s.startInv t v xs h0).regs = s.regs ∧
    (s.startInv t v xs h0).ctrs = s.ctrs ∧ (s.startInv t v xs h0).host = s.host ∧ (s.startInv t v xs h0).sess = s.sess ∧
    (s.startInv t v xs h0).fab = s.fab ∧ (s.startInv t v xs h0).dir = s.dir ∧ (s.startInv t v xs h0).att = s.att ∧
    (s.startInv t v xs h0).beat = s.beat ∧ (s.startInv t v xs h0).emit = s.emit ∧ (s.startInv t v xs h0).text = s.text ∧
    (s.startInv t v xs h0).ret = s.ret ∧ (s.startInv t v xs h0).link = s.link ∧ (s.startInv t v xs h0).part = s.part ∧
    (s.startInv t v xs h0).sec = s.sec ∧ (s.startInv t v xs h0).ckpt = s.ckpt ∧ (s.startInv t v xs h0).mgmt = s.mgmt ∧
    (s.startInv t v xs h0).pwr = s.pwr ∧ (s.startInv t v xs h0).out = s.out ∧ (s.startInv t v xs h0).pending = s.pending := by
  exact ⟨rfl, rfl, rfl, rfl, rfl, rfl, rfl, rfl, rfl, rfl, rfl, rfl, rfl, rfl, rfl, rfl, rfl, rfl, rfl, rfl, rfl⟩

@[simp] theorem State.takeInv_keeps (s : State) (n : Nat) :
    (s.takeInv n).unit = s.unit ∧ (s.takeInv n).free = s.free ∧ (s.takeInv n).tick = s.tick ∧ (s.takeInv n).regs = s.regs ∧
    (s.takeInv n).ctrs = s.ctrs ∧ (s.takeInv n).host = s.host ∧ (s.takeInv n).sess = s.sess ∧ (s.takeInv n).fab = s.fab ∧
    (s.takeInv n).dir = s.dir ∧ (s.takeInv n).att = s.att ∧ (s.takeInv n).beat = s.beat ∧ (s.takeInv n).emit = s.emit ∧
    (s.takeInv n).text = s.text ∧ (s.takeInv n).ret = s.ret ∧ (s.takeInv n).link = s.link ∧ (s.takeInv n).part = s.part ∧
    (s.takeInv n).sec = s.sec ∧ (s.takeInv n).ckpt = s.ckpt ∧ (s.takeInv n).mgmt = s.mgmt ∧ (s.takeInv n).pwr = s.pwr ∧
    (s.takeInv n).out = s.out ∧ (s.takeInv n).pending = s.pending := by
  exact ⟨rfl, rfl, rfl, rfl, rfl, rfl, rfl, rfl, rfl, rfl, rfl, rfl, rfl, rfl, rfl, rfl, rfl, rfl, rfl, rfl, rfl, rfl⟩

@[simp] theorem State.modReq_keeps (s : State) (id : Nat) (f : QReq → QReq) :
    (s.modReq id f).unit = s.unit ∧ (s.modReq id f).free = s.free ∧ (s.modReq id f).tick = s.tick ∧ (s.modReq id f).regs = s.regs ∧
    (s.modReq id f).ctrs = s.ctrs ∧ (s.modReq id f).host = s.host ∧ (s.modReq id f).sess = s.sess ∧ (s.modReq id f).fab = s.fab ∧
    (s.modReq id f).dir = s.dir ∧ (s.modReq id f).beat = s.beat ∧ (s.modReq id f).emit = s.emit ∧ (s.modReq id f).text = s.text ∧
    (s.modReq id f).cores = s.cores ∧ (s.modReq id f).ret = s.ret ∧ (s.modReq id f).link = s.link ∧ (s.modReq id f).part = s.part ∧
    (s.modReq id f).sec = s.sec ∧ (s.modReq id f).ckpt = s.ckpt ∧ (s.modReq id f).mgmt = s.mgmt ∧ (s.modReq id f).pwr = s.pwr ∧
    (s.modReq id f).out = s.out ∧ (s.modReq id f).pending = s.pending := by
  exact ⟨rfl, rfl, rfl, rfl, rfl, rfl, rfl, rfl, rfl, rfl, rfl, rfl, rfl, rfl, rfl, rfl, rfl, rfl, rfl, rfl, rfl, rfl⟩

@[simp] theorem State.dealReq_keeps (s : State) (cl : Nat) (r : QReq) :
    (s.dealReq cl r).unit = s.unit ∧ (s.dealReq cl r).free = s.free ∧ (s.dealReq cl r).tick = s.tick ∧
    (s.dealReq cl r).regs = s.regs ∧ (s.dealReq cl r).ctrs = s.ctrs ∧ (s.dealReq cl r).host = s.host ∧
    (s.dealReq cl r).sess = s.sess ∧ (s.dealReq cl r).fab = s.fab ∧ (s.dealReq cl r).dir = s.dir ∧ (s.dealReq cl r).beat = s.beat ∧
    (s.dealReq cl r).emit = s.emit ∧ (s.dealReq cl r).text = s.text ∧ (s.dealReq cl r).cores = s.cores ∧
    (s.dealReq cl r).ret = s.ret ∧ (s.dealReq cl r).link = s.link ∧ (s.dealReq cl r).part = s.part ∧ (s.dealReq cl r).sec = s.sec ∧
    (s.dealReq cl r).ckpt = s.ckpt ∧ (s.dealReq cl r).mgmt = s.mgmt ∧ (s.dealReq cl r).pwr = s.pwr ∧ (s.dealReq cl r).out = s.out ∧
    (s.dealReq cl r).pending = s.pending := by
  simp [State.dealReq]

@[simp] theorem State.addCont_keeps (s : State) (cl : Nat) (it : AttItem) :
    (s.addCont cl it).unit = s.unit ∧ (s.addCont cl it).free = s.free ∧ (s.addCont cl it).tick = s.tick ∧
    (s.addCont cl it).regs = s.regs ∧ (s.addCont cl it).ctrs = s.ctrs ∧ (s.addCont cl it).host = s.host ∧
    (s.addCont cl it).sess = s.sess ∧ (s.addCont cl it).fab = s.fab ∧ (s.addCont cl it).dir = s.dir ∧
    (s.addCont cl it).beat = s.beat ∧ (s.addCont cl it).emit = s.emit ∧ (s.addCont cl it).text = s.text ∧
    (s.addCont cl it).cores = s.cores ∧ (s.addCont cl it).ret = s.ret ∧ (s.addCont cl it).link = s.link ∧
    (s.addCont cl it).part = s.part ∧ (s.addCont cl it).sec = s.sec ∧ (s.addCont cl it).ckpt = s.ckpt ∧
    (s.addCont cl it).mgmt = s.mgmt ∧ (s.addCont cl it).pwr = s.pwr ∧ (s.addCont cl it).out = s.out ∧
    (s.addCont cl it).pending = s.pending := by
  exact ⟨rfl, rfl, rfl, rfl, rfl, rfl, rfl, rfl, rfl, rfl, rfl, rfl, rfl, rfl, rfl, rfl, rfl, rfl, rfl, rfl, rfl, rfl⟩

@[simp] theorem State.lateOver_keeps (s : State) (r : QReq) :
    (s.lateOver r).unit = s.unit ∧ (s.lateOver r).free = s.free ∧ (s.lateOver r).tick = s.tick ∧ (s.lateOver r).regs = s.regs ∧
    (s.lateOver r).ctrs = s.ctrs ∧ (s.lateOver r).host = s.host ∧ (s.lateOver r).fab = s.fab ∧ (s.lateOver r).dir = s.dir ∧
    (s.lateOver r).att = s.att ∧ (s.lateOver r).beat = s.beat ∧ (s.lateOver r).emit = s.emit ∧ (s.lateOver r).text = s.text ∧
    (s.lateOver r).cores = s.cores ∧ (s.lateOver r).ret = s.ret ∧ (s.lateOver r).link = s.link ∧ (s.lateOver r).part = s.part ∧
    (s.lateOver r).sec = s.sec ∧ (s.lateOver r).ckpt = s.ckpt ∧ (s.lateOver r).mgmt = s.mgmt ∧ (s.lateOver r).pwr = s.pwr ∧
    (s.lateOver r).out = s.out ∧ (s.lateOver r).pending = s.pending := by
  simp [State.lateOver]

@[simp] theorem State.giveAnswer_keeps (s : State) (r : QReq) (data : Bytes) :
    (s.giveAnswer r data).unit = s.unit ∧ (s.giveAnswer r data).free = s.free ∧ (s.giveAnswer r data).tick = s.tick ∧
    (s.giveAnswer r data).regs = s.regs ∧ (s.giveAnswer r data).host = s.host ∧ (s.giveAnswer r data).fab = s.fab ∧
    (s.giveAnswer r data).dir = s.dir ∧ (s.giveAnswer r data).beat = s.beat ∧ (s.giveAnswer r data).emit = s.emit ∧
    (s.giveAnswer r data).text = s.text ∧ (s.giveAnswer r data).ret = s.ret ∧ (s.giveAnswer r data).part = s.part ∧
    (s.giveAnswer r data).sec = s.sec ∧ (s.giveAnswer r data).ckpt = s.ckpt ∧ (s.giveAnswer r data).mgmt = s.mgmt ∧
    (s.giveAnswer r data).pwr = s.pwr ∧ (s.giveAnswer r data).out = s.out ∧ (s.giveAnswer r data).pending = s.pending := by
  simp [State.giveAnswer]

@[simp] theorem State.attAnswer_keeps (s : State) (id : Nat) (row : Nat) (st : Nat) (out : Bytes) (lse : Bytes) :
    (s.attAnswer id row st out lse).unit = s.unit ∧ (s.attAnswer id row st out lse).free = s.free ∧
    (s.attAnswer id row st out lse).tick = s.tick ∧ (s.attAnswer id row st out lse).regs = s.regs ∧
    (s.attAnswer id row st out lse).host = s.host ∧ (s.attAnswer id row st out lse).fab = s.fab ∧
    (s.attAnswer id row st out lse).dir = s.dir ∧ (s.attAnswer id row st out lse).beat = s.beat ∧
    (s.attAnswer id row st out lse).emit = s.emit ∧ (s.attAnswer id row st out lse).text = s.text ∧
    (s.attAnswer id row st out lse).ret = s.ret ∧ (s.attAnswer id row st out lse).part = s.part ∧
    (s.attAnswer id row st out lse).sec = s.sec ∧ (s.attAnswer id row st out lse).ckpt = s.ckpt ∧
    (s.attAnswer id row st out lse).mgmt = s.mgmt ∧ (s.attAnswer id row st out lse).pwr = s.pwr ∧
    (s.attAnswer id row st out lse).out = s.out ∧ (s.attAnswer id row st out lse).pending = s.pending := by
  unfold State.attAnswer
  split <;> simp

theorem State.post_st_keeps (s : State) (r : QReq) (row core lv0 cover : Nat) (b : Bytes) :
    (s.post r row core lv0 cover b).st.unit = s.unit ∧ (s.post r row core lv0 cover b).st.tick = s.tick ∧ (s.post r row core lv0 cover b).st.regs = s.regs ∧ (s.post r row core lv0 cover b).st.host = s.host ∧ (s.post r row core lv0 cover b).st.fab = s.fab ∧ (s.post r row core lv0 cover b).st.dir = s.dir ∧ (s.post r row core lv0 cover b).st.beat = s.beat ∧ (s.post r row core lv0 cover b).st.emit = s.emit ∧ (s.post r row core lv0 cover b).st.text = s.text ∧ (s.post r row core lv0 cover b).st.ret = s.ret ∧ (s.post r row core lv0 cover b).st.part = s.part ∧ (s.post r row core lv0 cover b).st.sec = s.sec ∧ (s.post r row core lv0 cover b).st.ckpt = s.ckpt ∧ (s.post r row core lv0 cover b).st.mgmt = s.mgmt ∧ (s.post r row core lv0 cover b).st.pwr = s.pwr ∧ (s.post r row core lv0 cover b).st.out = s.out ∧ (s.post r row core lv0 cover b).st.pending = s.pending := by
  unfold State.post
  dsimp only
  (repeat' split) <;> simp
theorem State.runMerge_fix (s : State) (id row core hd n lv cover : Nat) (ps : List RowPart) :
    (fun x : State => (x.unit, x.tick, x.regs, x.host, x.fab, x.dir, x.beat, x.emit, x.text, x.ret, x.part, x.sec, x.ckpt, x.mgmt, x.pwr, x.out, x.pending)) (s.runMerge id row core hd n lv cover ps) = (fun x : State => (x.unit, x.tick, x.regs, x.host, x.fab, x.dir, x.beat, x.emit, x.text, x.ret, x.part, x.sec, x.ckpt, x.mgmt, x.pwr, x.out, x.pending)) s := by
  induction n generalizing s lv cover ps with
  | zero => simp [State.runMerge]
  | succ n ih =>
    unfold State.runMerge
    split
    · rfl
    · next r _ =>
      dsimp only
      have p := State.post_st_keeps s r row core lv cover (recOut hd ps)
      split
      · simp [p]
      · split
        · simp [p]
        · refine (ih _ _ _ _).trans ?_
          simp [p]
@[simp] theorem State.runMerge_keeps (s : State) (id row core hd n lv cover : Nat) (ps : List RowPart) :
    (s.runMerge id row core hd n lv cover ps).unit = s.unit ∧ (s.runMerge id row core hd n lv cover ps).tick = s.tick ∧ (s.runMerge id row core hd n lv cover ps).regs = s.regs ∧ (s.runMerge id row core hd n lv cover ps).host = s.host ∧ (s.runMerge id row core hd n lv cover ps).fab = s.fab ∧ (s.runMerge id row core hd n lv cover ps).dir = s.dir ∧ (s.runMerge id row core hd n lv cover ps).beat = s.beat ∧ (s.runMerge id row core hd n lv cover ps).emit = s.emit ∧ (s.runMerge id row core hd n lv cover ps).text = s.text ∧ (s.runMerge id row core hd n lv cover ps).ret = s.ret ∧ (s.runMerge id row core hd n lv cover ps).part = s.part ∧ (s.runMerge id row core hd n lv cover ps).sec = s.sec ∧ (s.runMerge id row core hd n lv cover ps).ckpt = s.ckpt ∧ (s.runMerge id row core hd n lv cover ps).mgmt = s.mgmt ∧ (s.runMerge id row core hd n lv cover ps).pwr = s.pwr ∧ (s.runMerge id row core hd n lv cover ps).out = s.out ∧ (s.runMerge id row core hd n lv cover ps).pending = s.pending := by
  simpa using State.runMerge_fix s id row core hd n lv cover ps

@[simp] theorem State.runPage_keeps (s : State) (r : QReq) (it : AttItem) (core : Nat) :
    (s.runPage r it core).unit = s.unit ∧ (s.runPage r it core).tick = s.tick ∧ (s.runPage r it core).regs = s.regs ∧
    (s.runPage r it core).host = s.host ∧ (s.runPage r it core).fab = s.fab ∧ (s.runPage r it core).dir = s.dir ∧
    (s.runPage r it core).beat = s.beat ∧ (s.runPage r it core).emit = s.emit ∧ (s.runPage r it core).text = s.text ∧
    (s.runPage r it core).ret = s.ret ∧ (s.runPage r it core).part = s.part ∧ (s.runPage r it core).sec = s.sec ∧
    (s.runPage r it core).ckpt = s.ckpt ∧ (s.runPage r it core).mgmt = s.mgmt ∧ (s.runPage r it core).pwr = s.pwr ∧
    (s.runPage r it core).out = s.out ∧ (s.runPage r it core).pending = s.pending := by
  simp [State.runPage]

@[simp] theorem State.runCont_keeps (s : State) (r : QReq) (it : AttItem) (core : Nat) :
    (s.runCont r it core).unit = s.unit ∧ (s.runCont r it core).tick = s.tick ∧ (s.runCont r it core).regs = s.regs ∧
    (s.runCont r it core).host = s.host ∧ (s.runCont r it core).fab = s.fab ∧ (s.runCont r it core).dir = s.dir ∧
    (s.runCont r it core).beat = s.beat ∧ (s.runCont r it core).emit = s.emit ∧ (s.runCont r it core).text = s.text ∧
    (s.runCont r it core).ret = s.ret ∧ (s.runCont r it core).part = s.part ∧ (s.runCont r it core).sec = s.sec ∧
    (s.runCont r it core).ckpt = s.ckpt ∧ (s.runCont r it core).mgmt = s.mgmt ∧ (s.runCont r it core).pwr = s.pwr ∧
    (s.runCont r it core).out = s.out ∧ (s.runCont r it core).pending = s.pending := by
  simp [State.runCont]

@[simp] theorem State.startItem_keeps (s : State) (g : Prog) (e : ProgEntry) (r : QReq) (it : AttItem) (core : Nat) (ev : Nat) :
    (s.startItem g e r it core ev).unit = s.unit ∧ (s.startItem g e r it core ev).tick = s.tick ∧
    (s.startItem g e r it core ev).regs = s.regs ∧ (s.startItem g e r it core ev).ctrs = s.ctrs ∧
    (s.startItem g e r it core ev).host = s.host ∧ (s.startItem g e r it core ev).fab = s.fab ∧
    (s.startItem g e r it core ev).dir = s.dir ∧ (s.startItem g e r it core ev).att = s.att ∧
    (s.startItem g e r it core ev).beat = s.beat ∧ (s.startItem g e r it core ev).emit = s.emit ∧
    (s.startItem g e r it core ev).text = s.text ∧ (s.startItem g e r it core ev).ret = s.ret ∧
    (s.startItem g e r it core ev).link = s.link ∧ (s.startItem g e r it core ev).part = s.part ∧
    (s.startItem g e r it core ev).sec = s.sec ∧ (s.startItem g e r it core ev).ckpt = s.ckpt ∧
    (s.startItem g e r it core ev).mgmt = s.mgmt ∧ (s.startItem g e r it core ev).pwr = s.pwr ∧
    (s.startItem g e r it core ev).out = s.out ∧ (s.startItem g e r it core ev).pending = s.pending := by
  unfold State.startItem
  split <;> simp

@[simp] theorem State.popDecode_keeps (s : State) (core : Nat) :
    (s.popDecode core).unit = s.unit ∧ (s.popDecode core).free = s.free ∧ (s.popDecode core).tick = s.tick ∧
    (s.popDecode core).regs = s.regs ∧ (s.popDecode core).ctrs = s.ctrs ∧ (s.popDecode core).host = s.host ∧
    (s.popDecode core).sess = s.sess ∧ (s.popDecode core).fab = s.fab ∧ (s.popDecode core).dir = s.dir ∧
    (s.popDecode core).beat = s.beat ∧ (s.popDecode core).emit = s.emit ∧ (s.popDecode core).text = s.text ∧
    (s.popDecode core).cores = s.cores ∧ (s.popDecode core).ret = s.ret ∧ (s.popDecode core).link = s.link ∧
    (s.popDecode core).part = s.part ∧ (s.popDecode core).sec = s.sec ∧ (s.popDecode core).ckpt = s.ckpt ∧
    (s.popDecode core).mgmt = s.mgmt ∧ (s.popDecode core).pwr = s.pwr ∧ (s.popDecode core).out = s.out ∧
    (s.popDecode core).pending = s.pending := by
  exact ⟨rfl, rfl, rfl, rfl, rfl, rfl, rfl, rfl, rfl, rfl, rfl, rfl, rfl, rfl, rfl, rfl, rfl, rfl, rfl, rfl, rfl, rfl⟩

@[simp] theorem State.popPrefill_keeps (s : State) (core : Nat) :
    (s.popPrefill core).unit = s.unit ∧ (s.popPrefill core).free = s.free ∧ (s.popPrefill core).tick = s.tick ∧
    (s.popPrefill core).regs = s.regs ∧ (s.popPrefill core).ctrs = s.ctrs ∧ (s.popPrefill core).host = s.host ∧
    (s.popPrefill core).sess = s.sess ∧ (s.popPrefill core).fab = s.fab ∧ (s.popPrefill core).dir = s.dir ∧
    (s.popPrefill core).beat = s.beat ∧ (s.popPrefill core).emit = s.emit ∧ (s.popPrefill core).text = s.text ∧
    (s.popPrefill core).cores = s.cores ∧ (s.popPrefill core).ret = s.ret ∧ (s.popPrefill core).link = s.link ∧
    (s.popPrefill core).part = s.part ∧ (s.popPrefill core).sec = s.sec ∧ (s.popPrefill core).ckpt = s.ckpt ∧
    (s.popPrefill core).mgmt = s.mgmt ∧ (s.popPrefill core).pwr = s.pwr ∧ (s.popPrefill core).out = s.out ∧
    (s.popPrefill core).pending = s.pending := by
  exact ⟨rfl, rfl, rfl, rfl, rfl, rfl, rfl, rfl, rfl, rfl, rfl, rfl, rfl, rfl, rfl, rfl, rfl, rfl, rfl, rfl, rfl, rfl⟩

@[simp] theorem State.readFault_keeps (s : State) (r : QReq) :
    (s.readFault r).unit = s.unit ∧ (s.readFault r).free = s.free ∧ (s.readFault r).tick = s.tick ∧ (s.readFault r).regs = s.regs ∧
    (s.readFault r).emit = s.emit ∧ (s.readFault r).ret = s.ret ∧ (s.readFault r).sec = s.sec ∧ (s.readFault r).mgmt = s.mgmt ∧
    (s.readFault r).pwr = s.pwr ∧ (s.readFault r).pending = s.pending := by
  unfold State.readFault
  split <;> simp

@[simp] theorem State.walkPage_keeps (s : State) (r : QReq) (it : AttItem) (core : Nat) (c : PageCheck) :
    (s.walkPage r it core c).unit = s.unit ∧ (s.walkPage r it core c).tick = s.tick ∧ (s.walkPage r it core c).regs = s.regs ∧
    (s.walkPage r it core c).emit = s.emit ∧ (s.walkPage r it core c).ret = s.ret ∧ (s.walkPage r it core c).sec = s.sec ∧
    (s.walkPage r it core c).mgmt = s.mgmt ∧ (s.walkPage r it core c).pwr = s.pwr ∧ (s.walkPage r it core c).pending = s.pending := by
  unfold State.walkPage
  split
  · next s1 e =>
    split at e
    · have k := State.walkFault_keeps _ _ _ _ e
      simp [k]
    · cases e
  · simp

@[simp] theorem State.pageLate_keeps (s : State) (r : QReq) (it : AttItem) :
    (s.pageLate r it).unit = s.unit ∧ (s.pageLate r it).free = s.free ∧ (s.pageLate r it).tick = s.tick ∧
    (s.pageLate r it).regs = s.regs ∧ (s.pageLate r it).host = s.host ∧ (s.pageLate r it).fab = s.fab ∧
    (s.pageLate r it).dir = s.dir ∧ (s.pageLate r it).beat = s.beat ∧ (s.pageLate r it).emit = s.emit ∧
    (s.pageLate r it).text = s.text ∧ (s.pageLate r it).cores = s.cores ∧ (s.pageLate r it).ret = s.ret ∧
    (s.pageLate r it).link = s.link ∧ (s.pageLate r it).part = s.part ∧ (s.pageLate r it).sec = s.sec ∧
    (s.pageLate r it).ckpt = s.ckpt ∧ (s.pageLate r it).mgmt = s.mgmt ∧ (s.pageLate r it).pwr = s.pwr ∧
    (s.pageLate r it).out = s.out ∧ (s.pageLate r it).pending = s.pending := by
  unfold State.pageLate
  split <;> simp

@[simp] theorem State.abortPrefill_keeps (s : State) (core : Nat) :
    (s.abortPrefill core).unit = s.unit ∧ (s.abortPrefill core).free = s.free ∧ (s.abortPrefill core).tick = s.tick ∧
    (s.abortPrefill core).regs = s.regs ∧ (s.abortPrefill core).host = s.host ∧ (s.abortPrefill core).sess = s.sess ∧
    (s.abortPrefill core).fab = s.fab ∧ (s.abortPrefill core).dir = s.dir ∧ (s.abortPrefill core).beat = s.beat ∧
    (s.abortPrefill core).emit = s.emit ∧ (s.abortPrefill core).text = s.text ∧ (s.abortPrefill core).ret = s.ret ∧
    (s.abortPrefill core).link = s.link ∧ (s.abortPrefill core).part = s.part ∧ (s.abortPrefill core).sec = s.sec ∧
    (s.abortPrefill core).ckpt = s.ckpt ∧ (s.abortPrefill core).mgmt = s.mgmt ∧ (s.abortPrefill core).pwr = s.pwr ∧
    (s.abortPrefill core).out = s.out ∧ (s.abortPrefill core).pending = s.pending := by
  have key : ∀ x : State, (x.unit, x.free, x.tick, x.regs, x.host, x.sess, x.fab, x.dir, x.beat, x.emit, x.text, x.ret, x.link, x.part, x.sec, x.ckpt, x.mgmt, x.pwr, x.out, x.pending) = (s.unit, s.free, s.tick, s.regs, s.host, s.sess, s.fab, s.dir, s.beat, s.emit, s.text, s.ret, s.link, s.part, s.sec, s.ckpt, s.mgmt, s.pwr, s.out, s.pending) → x.unit = s.unit ∧ x.free = s.free ∧ x.tick = s.tick ∧ x.regs = s.regs ∧ x.host = s.host ∧ x.sess = s.sess ∧ x.fab = s.fab ∧ x.dir = s.dir ∧ x.beat = s.beat ∧ x.emit = s.emit ∧ x.text = s.text ∧ x.ret = s.ret ∧ x.link = s.link ∧ x.part = s.part ∧ x.sec = s.sec ∧ x.ckpt = s.ckpt ∧ x.mgmt = s.mgmt ∧ x.pwr = s.pwr ∧ x.out = s.out ∧ x.pending = s.pending := by intro x h; simpa using h
  refine key _ ?_
  unfold State.abortPrefill
  refine foldl_fix (fun x : State => (x.unit, x.free, x.tick, x.regs, x.host, x.sess, x.fab, x.dir, x.beat, x.emit, x.text, x.ret, x.link, x.part, x.sec, x.ckpt, x.mgmt, x.pwr, x.out, x.pending)) _ ?_ _ _
  intro s a
  dsimp only
  split
  · rfl
  · split <;> simp

@[simp] theorem State.startDraw_keeps (s : State) (g : Prog) (e : ProgEntry) (id : Nat) (st : InStep) (r : Ranked) :
    (s.startDraw g e id st r).unit = s.unit ∧ (s.startDraw g e id st r).tick = s.tick ∧ (s.startDraw g e id st r).regs = s.regs ∧
    (s.startDraw g e id st r).ctrs = s.ctrs ∧ (s.startDraw g e id st r).host = s.host ∧ (s.startDraw g e id st r).fab = s.fab ∧
    (s.startDraw g e id st r).dir = s.dir ∧ (s.startDraw g e id st r).att = s.att ∧ (s.startDraw g e id st r).beat = s.beat ∧
    (s.startDraw g e id st r).emit = s.emit ∧ (s.startDraw g e id st r).text = s.text ∧ (s.startDraw g e id st r).ret = s.ret ∧
    (s.startDraw g e id st r).link = s.link ∧ (s.startDraw g e id st r).part = s.part ∧ (s.startDraw g e id st r).sec = s.sec ∧
    (s.startDraw g e id st r).ckpt = s.ckpt ∧ (s.startDraw g e id st r).mgmt = s.mgmt ∧ (s.startDraw g e id st r).pwr = s.pwr ∧
    (s.startDraw g e id st r).out = s.out ∧ (s.startDraw g e id st r).pending = s.pending := by
  simp [State.startDraw]

@[simp] theorem State.learnOver_keeps (s : State) (id : Nat) :
    (s.learnOver id).unit = s.unit ∧ (s.learnOver id).free = s.free ∧ (s.learnOver id).tick = s.tick ∧
    (s.learnOver id).regs = s.regs ∧ (s.learnOver id).host = s.host ∧ (s.learnOver id).fab = s.fab ∧ (s.learnOver id).dir = s.dir ∧
    (s.learnOver id).beat = s.beat ∧ (s.learnOver id).emit = s.emit ∧ (s.learnOver id).text = s.text ∧
    (s.learnOver id).ret = s.ret ∧ (s.learnOver id).part = s.part ∧ (s.learnOver id).sec = s.sec ∧ (s.learnOver id).ckpt = s.ckpt ∧
    (s.learnOver id).mgmt = s.mgmt ∧ (s.learnOver id).pwr = s.pwr ∧ (s.learnOver id).out = s.out ∧
    (s.learnOver id).pending = s.pending := by
  have key : ∀ x : State, (x.unit, x.free, x.tick, x.regs, x.host, x.fab, x.dir, x.beat, x.emit, x.text, x.ret, x.part, x.sec, x.ckpt, x.mgmt, x.pwr, x.out, x.pending) = (s.unit, s.free, s.tick, s.regs, s.host, s.fab, s.dir, s.beat, s.emit, s.text, s.ret, s.part, s.sec, s.ckpt, s.mgmt, s.pwr, s.out, s.pending) → x.unit = s.unit ∧ x.free = s.free ∧ x.tick = s.tick ∧ x.regs = s.regs ∧ x.host = s.host ∧ x.fab = s.fab ∧ x.dir = s.dir ∧ x.beat = s.beat ∧ x.emit = s.emit ∧ x.text = s.text ∧ x.ret = s.ret ∧ x.part = s.part ∧ x.sec = s.sec ∧ x.ckpt = s.ckpt ∧ x.mgmt = s.mgmt ∧ x.pwr = s.pwr ∧ x.out = s.out ∧ x.pending = s.pending := by intro x h; simpa using h
  refine key _ ?_
  unfold State.learnOver
  split
  · rfl
  · dsimp only
    refine (foldl_fix (fun x : State => (x.unit, x.free, x.tick, x.regs, x.host, x.fab, x.dir, x.beat, x.emit, x.text, x.ret, x.part, x.sec, x.ckpt, x.mgmt, x.pwr, x.out, x.pending)) _ ?_ _ _).trans ?_
    · intro s a
      split <;> simp
    · split <;> simp

@[simp] theorem State.newMark_keeps (s : State) :
    s.newMark.2.unit = s.unit ∧ s.newMark.2.free = s.free ∧ s.newMark.2.tick = s.tick ∧ s.newMark.2.regs = s.regs ∧
    s.newMark.2.ctrs = s.ctrs ∧ s.newMark.2.host = s.host ∧ s.newMark.2.sess = s.sess ∧ s.newMark.2.fab = s.fab ∧
    s.newMark.2.dir = s.dir ∧ s.newMark.2.att = s.att ∧ s.newMark.2.beat = s.beat ∧ s.newMark.2.emit = s.emit ∧
    s.newMark.2.text = s.text ∧ s.newMark.2.ret = s.ret ∧ s.newMark.2.link = s.link ∧ s.newMark.2.part = s.part ∧
    s.newMark.2.sec = s.sec ∧ s.newMark.2.ckpt = s.ckpt ∧ s.newMark.2.mgmt = s.mgmt ∧ s.newMark.2.pwr = s.pwr ∧
    s.newMark.2.out = s.out ∧ s.newMark.2.pending = s.pending := by
  exact ⟨rfl, rfl, rfl, rfl, rfl, rfl, rfl, rfl, rfl, rfl, rfl, rfl, rfl, rfl, rfl, rfl, rfl, rfl, rfl, rfl, rfl, rfl⟩

@[simp] theorem State.putMsg_keeps (s : State) (k : Nat) (mark : Nat) (m : CoreMsg) :
    (s.putMsg k mark m).unit = s.unit ∧ (s.putMsg k mark m).free = s.free ∧ (s.putMsg k mark m).tick = s.tick ∧
    (s.putMsg k mark m).regs = s.regs ∧ (s.putMsg k mark m).ctrs = s.ctrs ∧ (s.putMsg k mark m).host = s.host ∧
    (s.putMsg k mark m).sess = s.sess ∧ (s.putMsg k mark m).fab = s.fab ∧ (s.putMsg k mark m).dir = s.dir ∧
    (s.putMsg k mark m).att = s.att ∧ (s.putMsg k mark m).beat = s.beat ∧ (s.putMsg k mark m).emit = s.emit ∧
    (s.putMsg k mark m).text = s.text ∧ (s.putMsg k mark m).ret = s.ret ∧ (s.putMsg k mark m).link = s.link ∧
    (s.putMsg k mark m).part = s.part ∧ (s.putMsg k mark m).sec = s.sec ∧ (s.putMsg k mark m).ckpt = s.ckpt ∧
    (s.putMsg k mark m).mgmt = s.mgmt ∧ (s.putMsg k mark m).pwr = s.pwr ∧ (s.putMsg k mark m).out = s.out ∧
    (s.putMsg k mark m).pending = s.pending := by
  simp [State.putMsg]

theorem State.takeChan_keeps (s : State) (k : Nat) {tt : CoreMsg × State} (ht : s.takeChan k = some tt) :
    tt.2.unit = s.unit ∧ tt.2.free = s.free ∧ tt.2.tick = s.tick ∧ tt.2.regs = s.regs ∧ tt.2.ctrs = s.ctrs ∧ tt.2.host = s.host ∧
    tt.2.sess = s.sess ∧ tt.2.fab = s.fab ∧ tt.2.dir = s.dir ∧ tt.2.att = s.att ∧ tt.2.beat = s.beat ∧ tt.2.emit = s.emit ∧
    tt.2.text = s.text ∧ tt.2.ret = s.ret ∧ tt.2.link = s.link ∧ tt.2.part = s.part ∧ tt.2.sec = s.sec ∧ tt.2.ckpt = s.ckpt ∧
    tt.2.mgmt = s.mgmt ∧ tt.2.pwr = s.pwr ∧ tt.2.out = s.out ∧ tt.2.pending = s.pending := by
  unfold State.takeChan at ht; (repeat' split at ht) <;> simp at ht <;> (try subst ht) <;> simp_all

@[simp] theorem State.release_keeps (s : State) (t : Site) :
    (s.release t).unit = s.unit ∧ (s.release t).free = s.free ∧ (s.release t).tick = s.tick ∧ (s.release t).regs = s.regs ∧
    (s.release t).host = s.host ∧ (s.release t).sess = s.sess ∧ (s.release t).fab = s.fab ∧ (s.release t).dir = s.dir ∧
    (s.release t).att = s.att ∧ (s.release t).beat = s.beat ∧ (s.release t).emit = s.emit ∧ (s.release t).text = s.text ∧
    (s.release t).ret = s.ret ∧ (s.release t).link = s.link ∧ (s.release t).part = s.part ∧ (s.release t).sec = s.sec ∧
    (s.release t).ckpt = s.ckpt ∧ (s.release t).mgmt = s.mgmt ∧ (s.release t).pwr = s.pwr ∧ (s.release t).out = s.out ∧
    (s.release t).pending = s.pending := by
  simp [State.release]

@[simp] theorem State.pass_keeps (s : State) (n : Nat) :
    (s.pass n).unit = s.unit ∧ (s.pass n).free = s.free ∧ (s.pass n).regs = s.regs ∧ (s.pass n).ctrs = s.ctrs ∧
    (s.pass n).host = s.host ∧ (s.pass n).sess = s.sess ∧ (s.pass n).fab = s.fab ∧ (s.pass n).dir = s.dir ∧
    (s.pass n).att = s.att ∧ (s.pass n).emit = s.emit ∧ (s.pass n).text = s.text ∧ (s.pass n).cores = s.cores ∧
    (s.pass n).ret = s.ret ∧ (s.pass n).link = s.link ∧ (s.pass n).part = s.part ∧ (s.pass n).sec = s.sec ∧
    (s.pass n).ckpt = s.ckpt ∧ (s.pass n).mgmt = s.mgmt ∧ (s.pass n).pwr = s.pwr ∧ (s.pass n).out = s.out ∧
    (s.pass n).pending = s.pending := by
  exact ⟨rfl, rfl, rfl, rfl, rfl, rfl, rfl, rfl, rfl, rfl, rfl, rfl, rfl, rfl, rfl, rfl, rfl, rfl, rfl, rfl, rfl⟩

@[simp] theorem State.passTo_keeps (s : State) (n : Nat) :
    (s.passTo n).unit = s.unit ∧ (s.passTo n).free = s.free ∧ (s.passTo n).regs = s.regs ∧ (s.passTo n).ctrs = s.ctrs ∧
    (s.passTo n).host = s.host ∧ (s.passTo n).sess = s.sess ∧ (s.passTo n).fab = s.fab ∧ (s.passTo n).dir = s.dir ∧
    (s.passTo n).att = s.att ∧ (s.passTo n).emit = s.emit ∧ (s.passTo n).text = s.text ∧ (s.passTo n).cores = s.cores ∧
    (s.passTo n).ret = s.ret ∧ (s.passTo n).link = s.link ∧ (s.passTo n).part = s.part ∧ (s.passTo n).sec = s.sec ∧
    (s.passTo n).ckpt = s.ckpt ∧ (s.passTo n).mgmt = s.mgmt ∧ (s.passTo n).pwr = s.pwr ∧ (s.passTo n).out = s.out ∧
    (s.passTo n).pending = s.pending := by
  exact ⟨rfl, rfl, rfl, rfl, rfl, rfl, rfl, rfl, rfl, rfl, rfl, rfl, rfl, rfl, rfl, rfl, rfl, rfl, rfl, rfl, rfl⟩

@[simp] theorem State.modWin_keeps (s : State) (p : Nat) (f : PWin → PWin) :
    (s.modWin p f).unit = s.unit ∧ (s.modWin p f).free = s.free ∧ (s.modWin p f).tick = s.tick ∧ (s.modWin p f).regs = s.regs ∧
    (s.modWin p f).ctrs = s.ctrs ∧ (s.modWin p f).host = s.host ∧ (s.modWin p f).sess = s.sess ∧ (s.modWin p f).fab = s.fab ∧
    (s.modWin p f).dir = s.dir ∧ (s.modWin p f).att = s.att ∧ (s.modWin p f).emit = s.emit ∧ (s.modWin p f).text = s.text ∧
    (s.modWin p f).cores = s.cores ∧ (s.modWin p f).ret = s.ret ∧ (s.modWin p f).link = s.link ∧ (s.modWin p f).part = s.part ∧
    (s.modWin p f).sec = s.sec ∧ (s.modWin p f).ckpt = s.ckpt ∧ (s.modWin p f).mgmt = s.mgmt ∧ (s.modWin p f).pwr = s.pwr ∧
    (s.modWin p f).out = s.out ∧ (s.modWin p f).pending = s.pending := by
  exact ⟨rfl, rfl, rfl, rfl, rfl, rfl, rfl, rfl, rfl, rfl, rfl, rfl, rfl, rfl, rfl, rfl, rfl, rfl, rfl, rfl, rfl, rfl⟩

@[simp] theorem State.countOverrun_keeps (s : State) (p : Nat) :
    (s.countOverrun p).unit = s.unit ∧ (s.countOverrun p).free = s.free ∧ (s.countOverrun p).tick = s.tick ∧
    (s.countOverrun p).regs = s.regs ∧ (s.countOverrun p).host = s.host ∧ (s.countOverrun p).sess = s.sess ∧
    (s.countOverrun p).fab = s.fab ∧ (s.countOverrun p).dir = s.dir ∧ (s.countOverrun p).att = s.att ∧
    (s.countOverrun p).emit = s.emit ∧ (s.countOverrun p).text = s.text ∧ (s.countOverrun p).cores = s.cores ∧
    (s.countOverrun p).ret = s.ret ∧ (s.countOverrun p).link = s.link ∧ (s.countOverrun p).part = s.part ∧
    (s.countOverrun p).sec = s.sec ∧ (s.countOverrun p).ckpt = s.ckpt ∧ (s.countOverrun p).mgmt = s.mgmt ∧
    (s.countOverrun p).pwr = s.pwr ∧ (s.countOverrun p).out = s.out ∧ (s.countOverrun p).pending = s.pending := by
  simp [State.countOverrun]

@[simp] theorem State.freshBulk_keeps (s : State) (p : Nat) :
    (s.freshBulk p).unit = s.unit ∧ (s.freshBulk p).free = s.free ∧ (s.freshBulk p).tick = s.tick ∧ (s.freshBulk p).regs = s.regs ∧
    (s.freshBulk p).ctrs = s.ctrs ∧ (s.freshBulk p).host = s.host ∧ (s.freshBulk p).sess = s.sess ∧ (s.freshBulk p).dir = s.dir ∧
    (s.freshBulk p).att = s.att ∧ (s.freshBulk p).beat = s.beat ∧ (s.freshBulk p).emit = s.emit ∧ (s.freshBulk p).text = s.text ∧
    (s.freshBulk p).cores = s.cores ∧ (s.freshBulk p).ret = s.ret ∧ (s.freshBulk p).link = s.link ∧ (s.freshBulk p).part = s.part ∧
    (s.freshBulk p).sec = s.sec ∧ (s.freshBulk p).ckpt = s.ckpt ∧ (s.freshBulk p).mgmt = s.mgmt ∧ (s.freshBulk p).pwr = s.pwr ∧
    (s.freshBulk p).out = s.out ∧ (s.freshBulk p).pending = s.pending := by
  exact ⟨rfl, rfl, rfl, rfl, rfl, rfl, rfl, rfl, rfl, rfl, rfl, rfl, rfl, rfl, rfl, rfl, rfl, rfl, rfl, rfl, rfl, rfl⟩

@[simp] theorem State.openWindows_keeps (s : State) (p : Nat) :
    (s.openWindows p).unit = s.unit ∧ (s.openWindows p).free = s.free ∧ (s.openWindows p).tick = s.tick ∧
    (s.openWindows p).regs = s.regs ∧ (s.openWindows p).ctrs = s.ctrs ∧ (s.openWindows p).host = s.host ∧
    (s.openWindows p).sess = s.sess ∧ (s.openWindows p).dir = s.dir ∧ (s.openWindows p).att = s.att ∧
    (s.openWindows p).emit = s.emit ∧ (s.openWindows p).text = s.text ∧ (s.openWindows p).cores = s.cores ∧
    (s.openWindows p).ret = s.ret ∧ (s.openWindows p).link = s.link ∧ (s.openWindows p).part = s.part ∧
    (s.openWindows p).sec = s.sec ∧ (s.openWindows p).ckpt = s.ckpt ∧ (s.openWindows p).mgmt = s.mgmt ∧
    (s.openWindows p).pwr = s.pwr ∧ (s.openWindows p).out = s.out ∧ (s.openWindows p).pending = s.pending := by
  simp [State.openWindows]

@[simp] theorem State.releaseIf_keeps (s : State) (st : CtxSt) (f : Inv → Bool) :
    (s.releaseIf st f).unit = s.unit ∧ (s.releaseIf st f).free = s.free ∧ (s.releaseIf st f).tick = s.tick ∧
    (s.releaseIf st f).regs = s.regs ∧ (s.releaseIf st f).host = s.host ∧ (s.releaseIf st f).sess = s.sess ∧
    (s.releaseIf st f).fab = s.fab ∧ (s.releaseIf st f).dir = s.dir ∧ (s.releaseIf st f).att = s.att ∧
    (s.releaseIf st f).beat = s.beat ∧ (s.releaseIf st f).emit = s.emit ∧ (s.releaseIf st f).text = s.text ∧
    (s.releaseIf st f).ret = s.ret ∧ (s.releaseIf st f).link = s.link ∧ (s.releaseIf st f).part = s.part ∧
    (s.releaseIf st f).sec = s.sec ∧ (s.releaseIf st f).ckpt = s.ckpt ∧ (s.releaseIf st f).mgmt = s.mgmt ∧
    (s.releaseIf st f).pwr = s.pwr ∧ (s.releaseIf st f).out = s.out ∧ (s.releaseIf st f).pending = s.pending := by
  simp [State.releaseIf]

@[simp] theorem State.suspendIf_keeps (s : State) (f : Nat → Bool) :
    (s.suspendIf f).unit = s.unit ∧ (s.suspendIf f).free = s.free ∧ (s.suspendIf f).tick = s.tick ∧ (s.suspendIf f).regs = s.regs ∧
    (s.suspendIf f).host = s.host ∧ (s.suspendIf f).sess = s.sess ∧ (s.suspendIf f).fab = s.fab ∧ (s.suspendIf f).dir = s.dir ∧
    (s.suspendIf f).att = s.att ∧ (s.suspendIf f).beat = s.beat ∧ (s.suspendIf f).emit = s.emit ∧ (s.suspendIf f).text = s.text ∧
    (s.suspendIf f).ret = s.ret ∧ (s.suspendIf f).link = s.link ∧ (s.suspendIf f).part = s.part ∧ (s.suspendIf f).sec = s.sec ∧
    (s.suspendIf f).ckpt = s.ckpt ∧ (s.suspendIf f).mgmt = s.mgmt ∧ (s.suspendIf f).pwr = s.pwr ∧ (s.suspendIf f).out = s.out ∧
    (s.suspendIf f).pending = s.pending := by
  have key : ∀ x : State, (x.unit, x.free, x.tick, x.regs, x.host, x.sess, x.fab, x.dir, x.att, x.beat, x.emit, x.text, x.ret, x.link, x.part, x.sec, x.ckpt, x.mgmt, x.pwr, x.out, x.pending) = (s.unit, s.free, s.tick, s.regs, s.host, s.sess, s.fab, s.dir, s.att, s.beat, s.emit, s.text, s.ret, s.link, s.part, s.sec, s.ckpt, s.mgmt, s.pwr, s.out, s.pending) → x.unit = s.unit ∧ x.free = s.free ∧ x.tick = s.tick ∧ x.regs = s.regs ∧ x.host = s.host ∧ x.sess = s.sess ∧ x.fab = s.fab ∧ x.dir = s.dir ∧ x.att = s.att ∧ x.beat = s.beat ∧ x.emit = s.emit ∧ x.text = s.text ∧ x.ret = s.ret ∧ x.link = s.link ∧ x.part = s.part ∧ x.sec = s.sec ∧ x.ckpt = s.ckpt ∧ x.mgmt = s.mgmt ∧ x.pwr = s.pwr ∧ x.out = s.out ∧ x.pending = s.pending := by intro x h; simpa using h
  refine key _ ?_
  unfold State.suspendIf
  refine foldl_fix (fun x : State => (x.unit, x.free, x.tick, x.regs, x.host, x.sess, x.fab, x.dir, x.att, x.beat, x.emit, x.text, x.ret, x.link, x.part, x.sec, x.ckpt, x.mgmt, x.pwr, x.out, x.pending)) _ ?_ _ _
  intro s a
  dsimp only
  split
  · rfl
  · split <;> simp

@[simp] theorem State.resumeIf_keeps (s : State) (p : Nat) (cls : InvClass) :
    (s.resumeIf p cls).unit = s.unit ∧ (s.resumeIf p cls).free = s.free ∧ (s.resumeIf p cls).tick = s.tick ∧
    (s.resumeIf p cls).regs = s.regs ∧ (s.resumeIf p cls).ctrs = s.ctrs ∧ (s.resumeIf p cls).host = s.host ∧
    (s.resumeIf p cls).sess = s.sess ∧ (s.resumeIf p cls).fab = s.fab ∧ (s.resumeIf p cls).dir = s.dir ∧
    (s.resumeIf p cls).att = s.att ∧ (s.resumeIf p cls).beat = s.beat ∧ (s.resumeIf p cls).emit = s.emit ∧
    (s.resumeIf p cls).text = s.text ∧ (s.resumeIf p cls).ret = s.ret ∧ (s.resumeIf p cls).link = s.link ∧
    (s.resumeIf p cls).part = s.part ∧ (s.resumeIf p cls).sec = s.sec ∧ (s.resumeIf p cls).ckpt = s.ckpt ∧
    (s.resumeIf p cls).mgmt = s.mgmt ∧ (s.resumeIf p cls).pwr = s.pwr ∧ (s.resumeIf p cls).out = s.out ∧
    (s.resumeIf p cls).pending = s.pending := by
  simp [State.resumeIf]

@[simp] theorem State.abandonUnits_keeps (s : State) :
    s.abandonUnits.unit = s.unit ∧ s.abandonUnits.free = s.free ∧ s.abandonUnits.tick = s.tick ∧ s.abandonUnits.regs = s.regs ∧
    s.abandonUnits.att = s.att ∧ s.abandonUnits.emit = s.emit ∧ s.abandonUnits.text = s.text ∧ s.abandonUnits.ret = s.ret ∧
    s.abandonUnits.sec = s.sec ∧ s.abandonUnits.mgmt = s.mgmt ∧ s.abandonUnits.pwr = s.pwr ∧ s.abandonUnits.out = s.out ∧
    s.abandonUnits.pending = s.pending := by
  simp [State.abandonUnits]

@[simp] theorem State.admitStep_keeps (s : State) (id : Nat) :
    (s.admitStep id).unit = s.unit ∧ (s.admitStep id).free = s.free ∧ (s.admitStep id).tick = s.tick ∧
    (s.admitStep id).regs = s.regs ∧ (s.admitStep id).host = s.host ∧ (s.admitStep id).fab = s.fab ∧ (s.admitStep id).dir = s.dir ∧
    (s.admitStep id).att = s.att ∧ (s.admitStep id).emit = s.emit ∧ (s.admitStep id).text = s.text ∧
    (s.admitStep id).cores = s.cores ∧ (s.admitStep id).ret = s.ret ∧ (s.admitStep id).link = s.link ∧
    (s.admitStep id).part = s.part ∧ (s.admitStep id).sec = s.sec ∧ (s.admitStep id).ckpt = s.ckpt ∧
    (s.admitStep id).mgmt = s.mgmt ∧ (s.admitStep id).pwr = s.pwr ∧ (s.admitStep id).out = s.out ∧
    (s.admitStep id).pending = s.pending := by
  simp [State.admitStep]

@[simp] theorem State.carry_keeps (s : State) (p : Nat) :
    (s.carry p).2.unit = s.unit ∧ (s.carry p).2.free = s.free ∧ (s.carry p).2.tick = s.tick ∧ (s.carry p).2.regs = s.regs ∧
    (s.carry p).2.host = s.host ∧ (s.carry p).2.fab = s.fab ∧ (s.carry p).2.dir = s.dir ∧ (s.carry p).2.att = s.att ∧
    (s.carry p).2.beat = s.beat ∧ (s.carry p).2.emit = s.emit ∧ (s.carry p).2.text = s.text ∧ (s.carry p).2.cores = s.cores ∧
    (s.carry p).2.ret = s.ret ∧ (s.carry p).2.link = s.link ∧ (s.carry p).2.part = s.part ∧ (s.carry p).2.sec = s.sec ∧
    (s.carry p).2.ckpt = s.ckpt ∧ (s.carry p).2.mgmt = s.mgmt ∧ (s.carry p).2.pwr = s.pwr ∧ (s.carry p).2.out = s.out ∧
    (s.carry p).2.pending = s.pending := by
  have key : ∀ x : State, (x.unit, x.free, x.tick, x.regs, x.host, x.fab, x.dir, x.att, x.beat, x.emit, x.text, x.cores, x.ret, x.link, x.part, x.sec, x.ckpt, x.mgmt, x.pwr, x.out, x.pending) = (s.unit, s.free, s.tick, s.regs, s.host, s.fab, s.dir, s.att, s.beat, s.emit, s.text, s.cores, s.ret, s.link, s.part, s.sec, s.ckpt, s.mgmt, s.pwr, s.out, s.pending) → x.unit = s.unit ∧ x.free = s.free ∧ x.tick = s.tick ∧ x.regs = s.regs ∧ x.host = s.host ∧ x.fab = s.fab ∧ x.dir = s.dir ∧ x.att = s.att ∧ x.beat = s.beat ∧ x.emit = s.emit ∧ x.text = s.text ∧ x.cores = s.cores ∧ x.ret = s.ret ∧ x.link = s.link ∧ x.part = s.part ∧ x.sec = s.sec ∧ x.ckpt = s.ckpt ∧ x.mgmt = s.mgmt ∧ x.pwr = s.pwr ∧ x.out = s.out ∧ x.pending = s.pending := by intro x h; simpa using h
  refine key _ ?_
  unfold State.carry
  refine foldl_fix (fun x : State => (x.unit, x.free, x.tick, x.regs, x.host, x.fab, x.dir, x.att, x.beat, x.emit, x.text, x.cores, x.ret, x.link, x.part, x.sec, x.ckpt, x.mgmt, x.pwr, x.out, x.pending)) _ ?_ _ _
  intro s a
  split
  · dsimp only
    split <;> simp
  · rfl

@[simp] theorem State.buildRoster_keeps (s : State) (p : Nat) :
    (s.buildRoster p).unit = s.unit ∧ (s.buildRoster p).free = s.free ∧ (s.buildRoster p).tick = s.tick ∧
    (s.buildRoster p).regs = s.regs ∧ (s.buildRoster p).host = s.host ∧ (s.buildRoster p).fab = s.fab ∧
    (s.buildRoster p).dir = s.dir ∧ (s.buildRoster p).att = s.att ∧ (s.buildRoster p).emit = s.emit ∧
    (s.buildRoster p).text = s.text ∧ (s.buildRoster p).cores = s.cores ∧ (s.buildRoster p).ret = s.ret ∧
    (s.buildRoster p).link = s.link ∧ (s.buildRoster p).part = s.part ∧ (s.buildRoster p).sec = s.sec ∧
    (s.buildRoster p).ckpt = s.ckpt ∧ (s.buildRoster p).mgmt = s.mgmt ∧ (s.buildRoster p).pwr = s.pwr ∧
    (s.buildRoster p).out = s.out ∧ (s.buildRoster p).pending = s.pending := by
  simp [State.buildRoster]

@[simp] theorem State.newBeat_keeps (s : State) (f : BeatUnit → BeatUnit) :
    (s.newBeat f).unit = s.unit ∧ (s.newBeat f).emit = s.emit ∧ (s.newBeat f).ret = s.ret ∧ (s.newBeat f).sec = s.sec ∧
    (s.newBeat f).mgmt = s.mgmt ∧ (s.newBeat f).pwr = s.pwr ∧ (s.newBeat f).pending = s.pending := by
  simp [State.newBeat]

@[simp] theorem State.takeBeat_keeps (s : State) (b : PendBeat) :
    (s.takeBeat b).unit = s.unit ∧ (s.takeBeat b).emit = s.emit ∧ (s.takeBeat b).ret = s.ret ∧ (s.takeBeat b).sec = s.sec ∧
    (s.takeBeat b).mgmt = s.mgmt ∧ (s.takeBeat b).pwr = s.pwr ∧ (s.takeBeat b).pending = s.pending := by
  simp [State.takeBeat]

@[simp] theorem State.takeOut_keeps (s : State) (id : Nat) (c : Counter) :
    (s.takeOut id c).unit = s.unit ∧ (s.takeOut id c).free = s.free ∧ (s.takeOut id c).tick = s.tick ∧
    (s.takeOut id c).regs = s.regs ∧ (s.takeOut id c).ret = s.ret ∧ (s.takeOut id c).sec = s.sec ∧ (s.takeOut id c).ckpt = s.ckpt ∧
    (s.takeOut id c).mgmt = s.mgmt ∧ (s.takeOut id c).pwr = s.pwr ∧ (s.takeOut id c).pending = s.pending := by
  simp [State.takeOut]

@[simp] theorem State.enterWindow_keeps (s : State) (p : Nat) (w : Window) (cls : InvClass) :
    (s.enterWindow p w cls).unit = s.unit ∧ (s.enterWindow p w cls).free = s.free ∧ (s.enterWindow p w cls).tick = s.tick ∧
    (s.enterWindow p w cls).regs = s.regs ∧ (s.enterWindow p w cls).host = s.host ∧ (s.enterWindow p w cls).sess = s.sess ∧
    (s.enterWindow p w cls).fab = s.fab ∧ (s.enterWindow p w cls).dir = s.dir ∧ (s.enterWindow p w cls).att = s.att ∧
    (s.enterWindow p w cls).emit = s.emit ∧ (s.enterWindow p w cls).text = s.text ∧ (s.enterWindow p w cls).ret = s.ret ∧
    (s.enterWindow p w cls).link = s.link ∧ (s.enterWindow p w cls).part = s.part ∧ (s.enterWindow p w cls).sec = s.sec ∧
    (s.enterWindow p w cls).ckpt = s.ckpt ∧ (s.enterWindow p w cls).mgmt = s.mgmt ∧ (s.enterWindow p w cls).pwr = s.pwr ∧
    (s.enterWindow p w cls).out = s.out ∧ (s.enterWindow p w cls).pending = s.pending := by
  simp [State.enterWindow]

@[simp] theorem State.setIndex_keeps (s : State) (p : Nat) (n : Nat) (x : Index) :
    (s.setIndex p n x).unit = s.unit ∧ (s.setIndex p n x).free = s.free ∧ (s.setIndex p n x).tick = s.tick ∧
    (s.setIndex p n x).regs = s.regs ∧ (s.setIndex p n x).ctrs = s.ctrs ∧ (s.setIndex p n x).host = s.host ∧
    (s.setIndex p n x).sess = s.sess ∧ (s.setIndex p n x).fab = s.fab ∧ (s.setIndex p n x).dir = s.dir ∧
    (s.setIndex p n x).att = s.att ∧ (s.setIndex p n x).beat = s.beat ∧ (s.setIndex p n x).emit = s.emit ∧
    (s.setIndex p n x).text = s.text ∧ (s.setIndex p n x).cores = s.cores ∧ (s.setIndex p n x).link = s.link ∧
    (s.setIndex p n x).part = s.part ∧ (s.setIndex p n x).sec = s.sec ∧ (s.setIndex p n x).ckpt = s.ckpt ∧
    (s.setIndex p n x).mgmt = s.mgmt ∧ (s.setIndex p n x).pwr = s.pwr ∧ (s.setIndex p n x).out = s.out ∧
    (s.setIndex p n x).pending = s.pending := by
  exact ⟨rfl, rfl, rfl, rfl, rfl, rfl, rfl, rfl, rfl, rfl, rfl, rfl, rfl, rfl, rfl, rfl, rfl, rfl, rfl, rfl, rfl, rfl⟩

@[simp] theorem State.dropSearches_keeps (s : State) (p : Nat) (n : Nat) :
    (s.dropSearches p n).unit = s.unit ∧ (s.dropSearches p n).free = s.free ∧ (s.dropSearches p n).tick = s.tick ∧
    (s.dropSearches p n).regs = s.regs ∧ (s.dropSearches p n).ctrs = s.ctrs ∧ (s.dropSearches p n).host = s.host ∧
    (s.dropSearches p n).sess = s.sess ∧ (s.dropSearches p n).fab = s.fab ∧ (s.dropSearches p n).dir = s.dir ∧
    (s.dropSearches p n).att = s.att ∧ (s.dropSearches p n).beat = s.beat ∧ (s.dropSearches p n).emit = s.emit ∧
    (s.dropSearches p n).text = s.text ∧ (s.dropSearches p n).cores = s.cores ∧ (s.dropSearches p n).link = s.link ∧
    (s.dropSearches p n).part = s.part ∧ (s.dropSearches p n).sec = s.sec ∧ (s.dropSearches p n).ckpt = s.ckpt ∧
    (s.dropSearches p n).mgmt = s.mgmt ∧ (s.dropSearches p n).pwr = s.pwr ∧ (s.dropSearches p n).out = s.out ∧
    (s.dropSearches p n).pending = s.pending := by
  exact ⟨rfl, rfl, rfl, rfl, rfl, rfl, rfl, rfl, rfl, rfl, rfl, rfl, rfl, rfl, rfl, rfl, rfl, rfl, rfl, rfl, rfl, rfl⟩

@[simp] theorem State.ixFault_keeps (s : State) (p : Nat) (n : Nat) :
    (s.ixFault p n).unit = s.unit ∧ (s.ixFault p n).free = s.free ∧ (s.ixFault p n).tick = s.tick ∧ (s.ixFault p n).regs = s.regs ∧
    (s.ixFault p n).emit = s.emit ∧ (s.ixFault p n).sec = s.sec ∧ (s.ixFault p n).mgmt = s.mgmt ∧ (s.ixFault p n).pwr = s.pwr ∧
    (s.ixFault p n).pending = s.pending := by
  simp [State.ixFault]

@[simp] theorem State.ixSweep_keeps (s : State) (p : Nat) (n : Nat) :
    (s.ixSweep p n).unit = s.unit ∧ (s.ixSweep p n).free = s.free ∧ (s.ixSweep p n).tick = s.tick ∧ (s.ixSweep p n).regs = s.regs ∧
    (s.ixSweep p n).host = s.host ∧ (s.ixSweep p n).sess = s.sess ∧ (s.ixSweep p n).fab = s.fab ∧ (s.ixSweep p n).dir = s.dir ∧
    (s.ixSweep p n).att = s.att ∧ (s.ixSweep p n).beat = s.beat ∧ (s.ixSweep p n).emit = s.emit ∧ (s.ixSweep p n).text = s.text ∧
    (s.ixSweep p n).link = s.link ∧ (s.ixSweep p n).part = s.part ∧ (s.ixSweep p n).sec = s.sec ∧ (s.ixSweep p n).ckpt = s.ckpt ∧
    (s.ixSweep p n).mgmt = s.mgmt ∧ (s.ixSweep p n).pwr = s.pwr ∧ (s.ixSweep p n).out = s.out ∧
    (s.ixSweep p n).pending = s.pending := by
  simp [State.ixSweep]

@[simp] theorem State.programFailed_keeps (s : State) (p : Nat) (n : Nat) (serial : Nat) :
    (s.programFailed p n serial).unit = s.unit ∧ (s.programFailed p n serial).tick = s.tick ∧
    (s.programFailed p n serial).regs = s.regs ∧ (s.programFailed p n serial).sec = s.sec ∧
    (s.programFailed p n serial).mgmt = s.mgmt ∧ (s.programFailed p n serial).pwr = s.pwr ∧
    (s.programFailed p n serial).pending = s.pending := by
  simp [State.programFailed]

@[simp] theorem State.denied_keeps (s : State) (fn : Nat) :
    (s.denied fn).unit = s.unit ∧ (s.denied fn).free = s.free ∧ (s.denied fn).tick = s.tick ∧ (s.denied fn).regs = s.regs ∧
    (s.denied fn).host = s.host ∧ (s.denied fn).sess = s.sess ∧ (s.denied fn).fab = s.fab ∧ (s.denied fn).dir = s.dir ∧
    (s.denied fn).att = s.att ∧ (s.denied fn).beat = s.beat ∧ (s.denied fn).emit = s.emit ∧ (s.denied fn).text = s.text ∧
    (s.denied fn).cores = s.cores ∧ (s.denied fn).ret = s.ret ∧ (s.denied fn).link = s.link ∧ (s.denied fn).part = s.part ∧
    (s.denied fn).sec = s.sec ∧ (s.denied fn).ckpt = s.ckpt ∧ (s.denied fn).mgmt = s.mgmt ∧ (s.denied fn).pwr = s.pwr ∧
    (s.denied fn).out = s.out ∧ (s.denied fn).pending = s.pending := by
  exact ⟨rfl, rfl, rfl, rfl, rfl, rfl, rfl, rfl, rfl, rfl, rfl, rfl, rfl, rfl, rfl, rfl, rfl, rfl, rfl, rfl, rfl, rfl⟩

@[simp] theorem State.retryCommits_keeps (s : State) (qk : Nat) :
    (s.retryCommits qk).unit = s.unit ∧ (s.retryCommits qk).tick = s.tick ∧ (s.retryCommits qk).regs = s.regs ∧
    (s.retryCommits qk).text = s.text ∧ (s.retryCommits qk).ret = s.ret ∧ (s.retryCommits qk).sec = s.sec ∧
    (s.retryCommits qk).mgmt = s.mgmt ∧ (s.retryCommits qk).pwr = s.pwr ∧ (s.retryCommits qk).pending = s.pending := by
  have key : ∀ x : State, (x.unit, x.tick, x.regs, x.text, x.ret, x.sec, x.mgmt, x.pwr, x.pending) = (s.unit, s.tick, s.regs, s.text, s.ret, s.sec, s.mgmt, s.pwr, s.pending) → x.unit = s.unit ∧ x.tick = s.tick ∧ x.regs = s.regs ∧ x.text = s.text ∧ x.ret = s.ret ∧ x.sec = s.sec ∧ x.mgmt = s.mgmt ∧ x.pwr = s.pwr ∧ x.pending = s.pending := by intro x h; simpa using h
  refine key _ ?_
  unfold State.retryCommits
  refine foldl_fix (fun x : State => (x.unit, x.tick, x.regs, x.text, x.ret, x.sec, x.mgmt, x.pwr, x.pending)) _ ?_ _ _
  intro s a
  split
  · split <;> simp
  · rfl

@[simp] theorem State.admitCmd_keeps (s : State) (p : Nat) (raw : Bytes) :
    (s.admitCmd p raw).2.unit = s.unit ∧ (s.admitCmd p raw).2.free = s.free ∧ (s.admitCmd p raw).2.tick = s.tick ∧
    (s.admitCmd p raw).2.regs = s.regs ∧ (s.admitCmd p raw).2.host = s.host ∧ (s.admitCmd p raw).2.sess = s.sess ∧
    (s.admitCmd p raw).2.fab = s.fab ∧ (s.admitCmd p raw).2.dir = s.dir ∧ (s.admitCmd p raw).2.att = s.att ∧
    (s.admitCmd p raw).2.beat = s.beat ∧ (s.admitCmd p raw).2.emit = s.emit ∧ (s.admitCmd p raw).2.text = s.text ∧
    (s.admitCmd p raw).2.cores = s.cores ∧ (s.admitCmd p raw).2.ret = s.ret ∧ (s.admitCmd p raw).2.link = s.link ∧
    (s.admitCmd p raw).2.sec = s.sec ∧ (s.admitCmd p raw).2.ckpt = s.ckpt ∧ (s.admitCmd p raw).2.mgmt = s.mgmt ∧
    (s.admitCmd p raw).2.pwr = s.pwr ∧ (s.admitCmd p raw).2.out = s.out ∧ (s.admitCmd p raw).2.pending = s.pending := by
  unfold State.admitCmd; dsimp only; (repeat' split) <;> simp

@[simp] theorem State.rejectCmd_keeps (s : State) (qk : Nat) (raw : Bytes) (st : Status) :
    (s.rejectCmd qk raw st).unit = s.unit ∧ (s.rejectCmd qk raw st).free = s.free ∧ (s.rejectCmd qk raw st).tick = s.tick ∧
    (s.rejectCmd qk raw st).regs = s.regs ∧ (s.rejectCmd qk raw st).sess = s.sess ∧ (s.rejectCmd qk raw st).fab = s.fab ∧
    (s.rejectCmd qk raw st).dir = s.dir ∧ (s.rejectCmd qk raw st).att = s.att ∧ (s.rejectCmd qk raw st).beat = s.beat ∧
    (s.rejectCmd qk raw st).emit = s.emit ∧ (s.rejectCmd qk raw st).text = s.text ∧ (s.rejectCmd qk raw st).cores = s.cores ∧
    (s.rejectCmd qk raw st).ret = s.ret ∧ (s.rejectCmd qk raw st).link = s.link ∧ (s.rejectCmd qk raw st).part = s.part ∧
    (s.rejectCmd qk raw st).sec = s.sec ∧ (s.rejectCmd qk raw st).ckpt = s.ckpt ∧ (s.rejectCmd qk raw st).mgmt = s.mgmt ∧
    (s.rejectCmd qk raw st).pwr = s.pwr ∧ (s.rejectCmd qk raw st).pending = s.pending := by
  simp [State.rejectCmd]

@[simp] theorem State.cancelGens_keeps (s : State) (qk : Nat) :
    (s.cancelGens qk).unit = s.unit ∧ (s.cancelGens qk).free = s.free ∧ (s.cancelGens qk).tick = s.tick ∧
    (s.cancelGens qk).regs = s.regs ∧ (s.cancelGens qk).emit = s.emit ∧ (s.cancelGens qk).ret = s.ret ∧
    (s.cancelGens qk).sec = s.sec ∧ (s.cancelGens qk).ckpt = s.ckpt ∧ (s.cancelGens qk).mgmt = s.mgmt ∧
    (s.cancelGens qk).pwr = s.pwr ∧ (s.cancelGens qk).pending = s.pending := by
  have key : ∀ x : State, (x.unit, x.free, x.tick, x.regs, x.emit, x.ret, x.sec, x.ckpt, x.mgmt, x.pwr, x.pending) = (s.unit, s.free, s.tick, s.regs, s.emit, s.ret, s.sec, s.ckpt, s.mgmt, s.pwr, s.pending) → x.unit = s.unit ∧ x.free = s.free ∧ x.tick = s.tick ∧ x.regs = s.regs ∧ x.emit = s.emit ∧ x.ret = s.ret ∧ x.sec = s.sec ∧ x.ckpt = s.ckpt ∧ x.mgmt = s.mgmt ∧ x.pwr = s.pwr ∧ x.pending = s.pending := by intro x h; simpa using h
  refine key _ ?_
  unfold State.cancelGens
  refine foldl_fix (fun x : State => (x.unit, x.free, x.tick, x.regs, x.emit, x.ret, x.sec, x.ckpt, x.mgmt, x.pwr, x.pending)) _ ?_ _ _
  intro s a
  split
  · split <;> simp
  · split <;> simp
  · rfl

@[simp] theorem State.stopQs_keeps (s : State) (qk : Nat) :
    (s.stopQs qk).unit = s.unit ∧ (s.stopQs qk).free = s.free ∧ (s.stopQs qk).tick = s.tick ∧ (s.stopQs qk).regs = s.regs ∧
    (s.stopQs qk).emit = s.emit ∧ (s.stopQs qk).ret = s.ret ∧ (s.stopQs qk).sec = s.sec ∧ (s.stopQs qk).ckpt = s.ckpt ∧
    (s.stopQs qk).mgmt = s.mgmt ∧ (s.stopQs qk).pwr = s.pwr ∧ (s.stopQs qk).pending = s.pending := by
  simp [State.stopQs]

@[simp] theorem State.writeCtrl_keeps (s : State) (fn : Nat) (q : Nat) (v : Nat) :
    (s.writeCtrl fn q v).unit = s.unit ∧ (s.writeCtrl fn q v).free = s.free ∧ (s.writeCtrl fn q v).tick = s.tick ∧
    (s.writeCtrl fn q v).regs = s.regs ∧ (s.writeCtrl fn q v).emit = s.emit ∧ (s.writeCtrl fn q v).ret = s.ret ∧
    (s.writeCtrl fn q v).sec = s.sec ∧ (s.writeCtrl fn q v).ckpt = s.ckpt ∧ (s.writeCtrl fn q v).mgmt = s.mgmt ∧
    (s.writeCtrl fn q v).pwr = s.pwr ∧ (s.writeCtrl fn q v).pending = s.pending := by
  simp [State.writeCtrl]

@[simp] theorem State.resetFn_keeps (s : State) (fn : Nat) :
    (s.resetFn fn).unit = s.unit ∧ (s.resetFn fn).free = s.free ∧ (s.resetFn fn).tick = s.tick ∧ (s.resetFn fn).emit = s.emit ∧
    (s.resetFn fn).ret = s.ret ∧ (s.resetFn fn).sec = s.sec ∧ (s.resetFn fn).ckpt = s.ckpt ∧ (s.resetFn fn).mgmt = s.mgmt ∧
    (s.resetFn fn).pwr = s.pwr ∧ (s.resetFn fn).pending = s.pending := by
  simp [State.resetFn]

@[simp] theorem State.modPcie_keeps (s : State) (port : Nat) (f : PciePort → PciePort) :
    (s.modPcie port f).unit = s.unit ∧ (s.modPcie port f).free = s.free ∧ (s.modPcie port f).tick = s.tick ∧
    (s.modPcie port f).regs = s.regs ∧ (s.modPcie port f).ctrs = s.ctrs ∧ (s.modPcie port f).sess = s.sess ∧
    (s.modPcie port f).fab = s.fab ∧ (s.modPcie port f).dir = s.dir ∧ (s.modPcie port f).att = s.att ∧
    (s.modPcie port f).beat = s.beat ∧ (s.modPcie port f).emit = s.emit ∧ (s.modPcie port f).text = s.text ∧
    (s.modPcie port f).cores = s.cores ∧ (s.modPcie port f).ret = s.ret ∧ (s.modPcie port f).link = s.link ∧
    (s.modPcie port f).part = s.part ∧ (s.modPcie port f).sec = s.sec ∧ (s.modPcie port f).ckpt = s.ckpt ∧
    (s.modPcie port f).mgmt = s.mgmt ∧ (s.modPcie port f).pwr = s.pwr ∧ (s.modPcie port f).out = s.out ∧
    (s.modPcie port f).pending = s.pending := by
  exact ⟨rfl, rfl, rfl, rfl, rfl, rfl, rfl, rfl, rfl, rfl, rfl, rfl, rfl, rfl, rfl, rfl, rfl, rfl, rfl, rfl, rfl, rfl⟩

@[simp] theorem State.resetPort_keeps (s : State) (port : Nat) :
    (s.resetPort port).unit = s.unit ∧ (s.resetPort port).free = s.free ∧ (s.resetPort port).tick = s.tick ∧
    (s.resetPort port).emit = s.emit ∧ (s.resetPort port).ret = s.ret ∧ (s.resetPort port).sec = s.sec ∧
    (s.resetPort port).ckpt = s.ckpt ∧ (s.resetPort port).mgmt = s.mgmt ∧ (s.resetPort port).pwr = s.pwr ∧
    (s.resetPort port).pending = s.pending := by
  simp [State.resetPort]

@[simp] theorem State.setMbx_keeps (s : State) (port : Nat) (n : Nat) (m : Mailbox) :
    (s.setMbx port n m).unit = s.unit ∧ (s.setMbx port n m).free = s.free ∧ (s.setMbx port n m).tick = s.tick ∧
    (s.setMbx port n m).regs = s.regs ∧ (s.setMbx port n m).ctrs = s.ctrs ∧ (s.setMbx port n m).sess = s.sess ∧
    (s.setMbx port n m).fab = s.fab ∧ (s.setMbx port n m).dir = s.dir ∧ (s.setMbx port n m).att = s.att ∧
    (s.setMbx port n m).beat = s.beat ∧ (s.setMbx port n m).emit = s.emit ∧ (s.setMbx port n m).text = s.text ∧
    (s.setMbx port n m).cores = s.cores ∧ (s.setMbx port n m).ret = s.ret ∧ (s.setMbx port n m).link = s.link ∧
    (s.setMbx port n m).part = s.part ∧ (s.setMbx port n m).sec = s.sec ∧ (s.setMbx port n m).ckpt = s.ckpt ∧
    (s.setMbx port n m).mgmt = s.mgmt ∧ (s.setMbx port n m).pwr = s.pwr ∧ (s.setMbx port n m).out = s.out ∧
    (s.setMbx port n m).pending = s.pending := by
  exact ⟨rfl, rfl, rfl, rfl, rfl, rfl, rfl, rfl, rfl, rfl, rfl, rfl, rfl, rfl, rfl, rfl, rfl, rfl, rfl, rfl, rfl, rfl⟩

@[simp] theorem State.emptyMbx_keeps (s : State) (port : Nat) (n : Nat) (reply : List W32) (err : Bool) :
    (s.emptyMbx port n reply err).unit = s.unit ∧ (s.emptyMbx port n reply err).free = s.free ∧
    (s.emptyMbx port n reply err).tick = s.tick ∧ (s.emptyMbx port n reply err).regs = s.regs ∧
    (s.emptyMbx port n reply err).sess = s.sess ∧ (s.emptyMbx port n reply err).fab = s.fab ∧
    (s.emptyMbx port n reply err).dir = s.dir ∧ (s.emptyMbx port n reply err).att = s.att ∧
    (s.emptyMbx port n reply err).beat = s.beat ∧ (s.emptyMbx port n reply err).emit = s.emit ∧
    (s.emptyMbx port n reply err).text = s.text ∧ (s.emptyMbx port n reply err).cores = s.cores ∧
    (s.emptyMbx port n reply err).ret = s.ret ∧ (s.emptyMbx port n reply err).link = s.link ∧
    (s.emptyMbx port n reply err).part = s.part ∧ (s.emptyMbx port n reply err).sec = s.sec ∧
    (s.emptyMbx port n reply err).ckpt = s.ckpt ∧ (s.emptyMbx port n reply err).pwr = s.pwr ∧
    (s.emptyMbx port n reply err).pending = s.pending := by
  simp [State.emptyMbx]

@[simp] theorem State.ignoreMbx_keeps (s : State) (port : Nat) (n : Nat) :
    (s.ignoreMbx port n).unit = s.unit ∧ (s.ignoreMbx port n).free = s.free ∧ (s.ignoreMbx port n).tick = s.tick ∧
    (s.ignoreMbx port n).regs = s.regs ∧ (s.ignoreMbx port n).sess = s.sess ∧ (s.ignoreMbx port n).fab = s.fab ∧
    (s.ignoreMbx port n).dir = s.dir ∧ (s.ignoreMbx port n).att = s.att ∧ (s.ignoreMbx port n).beat = s.beat ∧
    (s.ignoreMbx port n).emit = s.emit ∧ (s.ignoreMbx port n).text = s.text ∧ (s.ignoreMbx port n).cores = s.cores ∧
    (s.ignoreMbx port n).ret = s.ret ∧ (s.ignoreMbx port n).link = s.link ∧ (s.ignoreMbx port n).part = s.part ∧
    (s.ignoreMbx port n).sec = s.sec ∧ (s.ignoreMbx port n).ckpt = s.ckpt ∧ (s.ignoreMbx port n).pwr = s.pwr ∧
    (s.ignoreMbx port n).pending = s.pending := by
  simp [State.ignoreMbx]

@[simp] theorem State.mbxSend_keeps (s : State) (port : Nat) (n : Nat) (len : Nat) :
    (s.mbxSend port n len).unit = s.unit ∧ (s.mbxSend port n len).free = s.free ∧ (s.mbxSend port n len).tick = s.tick ∧
    (s.mbxSend port n len).regs = s.regs ∧ (s.mbxSend port n len).sess = s.sess ∧ (s.mbxSend port n len).fab = s.fab ∧
    (s.mbxSend port n len).dir = s.dir ∧ (s.mbxSend port n len).att = s.att ∧ (s.mbxSend port n len).beat = s.beat ∧
    (s.mbxSend port n len).emit = s.emit ∧ (s.mbxSend port n len).text = s.text ∧ (s.mbxSend port n len).cores = s.cores ∧
    (s.mbxSend port n len).ret = s.ret ∧ (s.mbxSend port n len).link = s.link ∧ (s.mbxSend port n len).part = s.part ∧
    (s.mbxSend port n len).sec = s.sec ∧ (s.mbxSend port n len).ckpt = s.ckpt ∧ (s.mbxSend port n len).pwr = s.pwr ∧
    (s.mbxSend port n len).pending = s.pending := by
  simp [State.mbxSend]

@[simp] theorem State.leaseIgnored_keeps (s : State) (port : Nat) :
    (s.leaseIgnored port).unit = s.unit ∧ (s.leaseIgnored port).free = s.free ∧ (s.leaseIgnored port).tick = s.tick ∧
    (s.leaseIgnored port).regs = s.regs ∧ (s.leaseIgnored port).host = s.host ∧ (s.leaseIgnored port).sess = s.sess ∧
    (s.leaseIgnored port).fab = s.fab ∧ (s.leaseIgnored port).dir = s.dir ∧ (s.leaseIgnored port).att = s.att ∧
    (s.leaseIgnored port).beat = s.beat ∧ (s.leaseIgnored port).emit = s.emit ∧ (s.leaseIgnored port).text = s.text ∧
    (s.leaseIgnored port).cores = s.cores ∧ (s.leaseIgnored port).ret = s.ret ∧ (s.leaseIgnored port).link = s.link ∧
    (s.leaseIgnored port).part = s.part ∧ (s.leaseIgnored port).sec = s.sec ∧ (s.leaseIgnored port).ckpt = s.ckpt ∧
    (s.leaseIgnored port).mgmt = s.mgmt ∧ (s.leaseIgnored port).pwr = s.pwr ∧ (s.leaseIgnored port).out = s.out ∧
    (s.leaseIgnored port).pending = s.pending := by
  exact ⟨rfl, rfl, rfl, rfl, rfl, rfl, rfl, rfl, rfl, rfl, rfl, rfl, rfl, rfl, rfl, rfl, rfl, rfl, rfl, rfl, rfl, rfl⟩

@[simp] theorem State.leaseWrote_keeps (s : State) (v : Nat) :
    (s.leaseWrote v).unit = s.unit ∧ (s.leaseWrote v).free = s.free ∧ (s.leaseWrote v).tick = s.tick ∧
    (s.leaseWrote v).regs = s.regs ∧ (s.leaseWrote v).ctrs = s.ctrs ∧ (s.leaseWrote v).sess = s.sess ∧
    (s.leaseWrote v).fab = s.fab ∧ (s.leaseWrote v).dir = s.dir ∧ (s.leaseWrote v).att = s.att ∧ (s.leaseWrote v).beat = s.beat ∧
    (s.leaseWrote v).emit = s.emit ∧ (s.leaseWrote v).text = s.text ∧ (s.leaseWrote v).cores = s.cores ∧
    (s.leaseWrote v).ret = s.ret ∧ (s.leaseWrote v).link = s.link ∧ (s.leaseWrote v).part = s.part ∧ (s.leaseWrote v).sec = s.sec ∧
    (s.leaseWrote v).ckpt = s.ckpt ∧ (s.leaseWrote v).mgmt = s.mgmt ∧ (s.leaseWrote v).pwr = s.pwr ∧ (s.leaseWrote v).out = s.out ∧
    (s.leaseWrote v).pending = s.pending := by
  exact ⟨rfl, rfl, rfl, rfl, rfl, rfl, rfl, rfl, rfl, rfl, rfl, rfl, rfl, rfl, rfl, rfl, rfl, rfl, rfl, rfl, rfl, rfl⟩

@[simp] theorem State.countPieces_keeps (s : State) (p : Nat) (l : List PieceTok) :
    (s.countPieces p l).unit = s.unit ∧ (s.countPieces p l).free = s.free ∧ (s.countPieces p l).tick = s.tick ∧
    (s.countPieces p l).regs = s.regs ∧ (s.countPieces p l).host = s.host ∧ (s.countPieces p l).sess = s.sess ∧
    (s.countPieces p l).fab = s.fab ∧ (s.countPieces p l).dir = s.dir ∧ (s.countPieces p l).att = s.att ∧
    (s.countPieces p l).beat = s.beat ∧ (s.countPieces p l).emit = s.emit ∧ (s.countPieces p l).text = s.text ∧
    (s.countPieces p l).cores = s.cores ∧ (s.countPieces p l).ret = s.ret ∧ (s.countPieces p l).link = s.link ∧
    (s.countPieces p l).part = s.part ∧ (s.countPieces p l).sec = s.sec ∧ (s.countPieces p l).ckpt = s.ckpt ∧
    (s.countPieces p l).mgmt = s.mgmt ∧ (s.countPieces p l).pwr = s.pwr ∧ (s.countPieces p l).out = s.out ∧
    (s.countPieces p l).pending = s.pending := by
  exact ⟨rfl, rfl, rfl, rfl, rfl, rfl, rfl, rfl, rfl, rfl, rfl, rfl, rfl, rfl, rfl, rfl, rfl, rfl, rfl, rfl, rfl, rfl⟩

@[simp] theorem State.untok_keeps (s : State) (p : Nat) (handle : Nat) (off : Nat) :
    (s.untok p handle off).unit = s.unit ∧ (s.untok p handle off).free = s.free ∧ (s.untok p handle off).tick = s.tick ∧
    (s.untok p handle off).host = s.host ∧ (s.untok p handle off).sess = s.sess ∧ (s.untok p handle off).fab = s.fab ∧
    (s.untok p handle off).dir = s.dir ∧ (s.untok p handle off).att = s.att ∧ (s.untok p handle off).beat = s.beat ∧
    (s.untok p handle off).emit = s.emit ∧ (s.untok p handle off).text = s.text ∧ (s.untok p handle off).cores = s.cores ∧
    (s.untok p handle off).ret = s.ret ∧ (s.untok p handle off).link = s.link ∧ (s.untok p handle off).part = s.part ∧
    (s.untok p handle off).sec = s.sec ∧ (s.untok p handle off).ckpt = s.ckpt ∧ (s.untok p handle off).mgmt = s.mgmt ∧
    (s.untok p handle off).pwr = s.pwr ∧ (s.untok p handle off).out = s.out ∧ (s.untok p handle off).pending = s.pending := by
  simp [State.untok]

@[simp] theorem State.encodeEnds_keeps (s : State) (j : LaneJob) (t : TokImg) :
    (s.encodeEnds j t).unit = s.unit ∧ (s.encodeEnds j t).free = s.free ∧ (s.encodeEnds j t).tick = s.tick ∧
    (s.encodeEnds j t).sess = s.sess ∧ (s.encodeEnds j t).fab = s.fab ∧ (s.encodeEnds j t).dir = s.dir ∧
    (s.encodeEnds j t).att = s.att ∧ (s.encodeEnds j t).beat = s.beat ∧ (s.encodeEnds j t).emit = s.emit ∧
    (s.encodeEnds j t).text = s.text ∧ (s.encodeEnds j t).cores = s.cores ∧ (s.encodeEnds j t).ret = s.ret ∧
    (s.encodeEnds j t).link = s.link ∧ (s.encodeEnds j t).part = s.part ∧ (s.encodeEnds j t).sec = s.sec ∧
    (s.encodeEnds j t).ckpt = s.ckpt ∧ (s.encodeEnds j t).mgmt = s.mgmt ∧ (s.encodeEnds j t).pwr = s.pwr ∧
    (s.encodeEnds j t).pending = s.pending := by
  unfold State.encodeEnds; dsimp only; (repeat' split) <;> simp

@[simp] theorem State.appendEnds_keeps (s : State) (j : LaneJob) (t : TokImg) :
    (s.appendEnds j t).unit = s.unit ∧ (s.appendEnds j t).tick = s.tick ∧ (s.appendEnds j t).emit = s.emit ∧
    (s.appendEnds j t).ret = s.ret ∧ (s.appendEnds j t).sec = s.sec ∧ (s.appendEnds j t).mgmt = s.mgmt ∧
    (s.appendEnds j t).pwr = s.pwr ∧ (s.appendEnds j t).pending = s.pending := by
  rw [State.appendEnds]
  generalize tokenise t j.text = r
  obtain ⟨r1, r2⟩ := r
  cases r2 <;> simp only [State.ite_unit, State.ite_tick, State.ite_emit, State.ite_ret, State.ite_sec, State.ite_mgmt, State.ite_pwr, State.ite_pending, State.done_keeps, State.final_keeps, State.untok_keeps, State.countPieces_keeps, State.modSess_keeps, State.applyAppend_keeps, ite_self, and_self]

@[simp] theorem State.freshPart_keeps (s : State) (p : Nat) :
    (s.freshPart p).unit = s.unit ∧ (s.freshPart p).free = s.free ∧ (s.freshPart p).tick = s.tick ∧ (s.freshPart p).host = s.host ∧
    (s.freshPart p).sess = s.sess ∧ (s.freshPart p).fab = s.fab ∧ (s.freshPart p).dir = s.dir ∧ (s.freshPart p).ret = s.ret ∧
    (s.freshPart p).link = s.link ∧ (s.freshPart p).part = s.part ∧ (s.freshPart p).ckpt = s.ckpt ∧ (s.freshPart p).mgmt = s.mgmt ∧
    (s.freshPart p).pwr = s.pwr ∧ (s.freshPart p).out = s.out ∧ (s.freshPart p).pending = s.pending ∧
    (s.freshPart p).sec.fuseSvn = s.sec.fuseSvn ∧ (s.freshPart p).sec.revoked = s.sec.revoked ∧
    (s.freshPart p).sec.slots = s.sec.slots := by
  exact ⟨rfl, rfl, rfl, rfl, rfl, rfl, rfl, rfl, rfl, rfl, rfl, rfl, rfl, rfl, rfl, rfl, rfl, rfl⟩

@[simp] theorem State.createdPart_keeps (s : State) (p : Nat) (serial : Nat) :
    (s.createdPart p serial).unit = s.unit ∧ (s.createdPart p serial).tick = s.tick ∧ (s.createdPart p serial).ret = s.ret ∧
    (s.createdPart p serial).mgmt = s.mgmt ∧ (s.createdPart p serial).pwr = s.pwr ∧ (s.createdPart p serial).pending = s.pending ∧
    (s.createdPart p serial).sec.fuseSvn = s.sec.fuseSvn ∧ (s.createdPart p serial).sec.revoked = s.sec.revoked ∧
    (s.createdPart p serial).sec.slots = s.sec.slots := by
  unfold State.createdPart
  dsimp only
  split <;> simp [State.freshPart]

@[simp] theorem State.unbindFn_keeps (s : State) (fn : Nat) :
    (s.unbindFn fn).unit = s.unit ∧ (s.unbindFn fn).free = s.free ∧ (s.unbindFn fn).tick = s.tick ∧ (s.unbindFn fn).regs = s.regs ∧
    (s.unbindFn fn).emit = s.emit ∧ (s.unbindFn fn).ret = s.ret ∧ (s.unbindFn fn).sec = s.sec ∧ (s.unbindFn fn).ckpt = s.ckpt ∧
    (s.unbindFn fn).mgmt = s.mgmt ∧ (s.unbindFn fn).pwr = s.pwr ∧ (s.unbindFn fn).pending = s.pending := by
  simp [State.unbindFn]

@[simp] theorem State.clearVcs_keeps (s : State) (port : Nat) :
    (s.clearVcs port).unit = s.unit ∧ (s.clearVcs port).free = s.free ∧ (s.clearVcs port).tick = s.tick ∧
    (s.clearVcs port).regs = s.regs ∧ (s.clearVcs port).host = s.host ∧ (s.clearVcs port).sess = s.sess ∧
    (s.clearVcs port).fab = s.fab ∧ (s.clearVcs port).dir = s.dir ∧ (s.clearVcs port).beat = s.beat ∧
    (s.clearVcs port).emit = s.emit ∧ (s.clearVcs port).text = s.text ∧ (s.clearVcs port).cores = s.cores ∧
    (s.clearVcs port).ret = s.ret ∧ (s.clearVcs port).part = s.part ∧ (s.clearVcs port).sec = s.sec ∧
    (s.clearVcs port).ckpt = s.ckpt ∧ (s.clearVcs port).mgmt = s.mgmt ∧ (s.clearVcs port).pwr = s.pwr ∧
    (s.clearVcs port).out = s.out ∧ (s.clearVcs port).pending = s.pending := by
  simp [State.clearVcs]

@[simp] theorem State.unbindPort_keeps (s : State) (port : Nat) :
    (s.unbindPort port).unit = s.unit ∧ (s.unbindPort port).free = s.free ∧ (s.unbindPort port).tick = s.tick ∧
    (s.unbindPort port).regs = s.regs ∧ (s.unbindPort port).host = s.host ∧ (s.unbindPort port).sess = s.sess ∧
    (s.unbindPort port).fab = s.fab ∧ (s.unbindPort port).dir = s.dir ∧ (s.unbindPort port).beat = s.beat ∧
    (s.unbindPort port).emit = s.emit ∧ (s.unbindPort port).text = s.text ∧ (s.unbindPort port).cores = s.cores ∧
    (s.unbindPort port).ret = s.ret ∧ (s.unbindPort port).sec = s.sec ∧ (s.unbindPort port).ckpt = s.ckpt ∧
    (s.unbindPort port).mgmt = s.mgmt ∧ (s.unbindPort port).pwr = s.pwr ∧ (s.unbindPort port).out = s.out ∧
    (s.unbindPort port).pending = s.pending := by
  simp [State.unbindPort]

@[simp] theorem State.closeAll_keeps (s : State) (p : Nat) :
    (s.closeAll p).unit = s.unit ∧ (s.closeAll p).free = s.free ∧ (s.closeAll p).tick = s.tick ∧ (s.closeAll p).regs = s.regs ∧
    (s.closeAll p).emit = s.emit ∧ (s.closeAll p).ret = s.ret ∧ (s.closeAll p).sec = s.sec ∧ (s.closeAll p).ckpt = s.ckpt ∧
    (s.closeAll p).mgmt = s.mgmt ∧ (s.closeAll p).pwr = s.pwr ∧ (s.closeAll p).pending = s.pending := by
  simp [State.closeAll]

@[simp] theorem State.unloadAll_keeps (s : State) (p : Nat) :
    (s.unloadAll p).unit = s.unit ∧ (s.unloadAll p).free = s.free ∧ (s.unloadAll p).tick = s.tick ∧ (s.unloadAll p).regs = s.regs ∧
    (s.unloadAll p).ctrs = s.ctrs ∧ (s.unloadAll p).host = s.host ∧ (s.unloadAll p).sess = s.sess ∧ (s.unloadAll p).fab = s.fab ∧
    (s.unloadAll p).dir = s.dir ∧ (s.unloadAll p).att = s.att ∧ (s.unloadAll p).beat = s.beat ∧ (s.unloadAll p).ret = s.ret ∧
    (s.unloadAll p).link = s.link ∧ (s.unloadAll p).part = s.part ∧ (s.unloadAll p).sec = s.sec ∧ (s.unloadAll p).ckpt = s.ckpt ∧
    (s.unloadAll p).mgmt = s.mgmt ∧ (s.unloadAll p).pwr = s.pwr ∧ (s.unloadAll p).out = s.out ∧
    (s.unloadAll p).pending = s.pending := by
  exact ⟨rfl, rfl, rfl, rfl, rfl, rfl, rfl, rfl, rfl, rfl, rfl, rfl, rfl, rfl, rfl, rfl, rfl, rfl, rfl, rfl⟩

@[simp] theorem State.zeroCluster_keeps (s : State) (cl : Nat) :
    (s.zeroCluster cl).unit = s.unit ∧ (s.zeroCluster cl).free = s.free ∧ (s.zeroCluster cl).tick = s.tick ∧
    (s.zeroCluster cl).regs = s.regs ∧ (s.zeroCluster cl).ctrs = s.ctrs ∧ (s.zeroCluster cl).host = s.host ∧
    (s.zeroCluster cl).sess = s.sess ∧ (s.zeroCluster cl).fab = s.fab ∧ (s.zeroCluster cl).dir = s.dir ∧
    (s.zeroCluster cl).att = s.att ∧ (s.zeroCluster cl).beat = s.beat ∧ (s.zeroCluster cl).text = s.text ∧
    (s.zeroCluster cl).ret = s.ret ∧ (s.zeroCluster cl).link = s.link ∧ (s.zeroCluster cl).part = s.part ∧
    (s.zeroCluster cl).sec = s.sec ∧ (s.zeroCluster cl).ckpt = s.ckpt ∧ (s.zeroCluster cl).mgmt = s.mgmt ∧
    (s.zeroCluster cl).pwr = s.pwr ∧ (s.zeroCluster cl).out = s.out ∧ (s.zeroCluster cl).pending = s.pending := by
  exact ⟨rfl, rfl, rfl, rfl, rfl, rfl, rfl, rfl, rfl, rfl, rfl, rfl, rfl, rfl, rfl, rfl, rfl, rfl, rfl, rfl, rfl⟩

@[simp] theorem State.relist_keeps (s : State) (id : Nat) :
    (s.relist id).unit = s.unit ∧ (s.relist id).tick = s.tick ∧ (s.relist id).regs = s.regs ∧ (s.relist id).ctrs = s.ctrs ∧
    (s.relist id).host = s.host ∧ (s.relist id).fab = s.fab ∧ (s.relist id).dir = s.dir ∧ (s.relist id).att = s.att ∧
    (s.relist id).beat = s.beat ∧ (s.relist id).emit = s.emit ∧ (s.relist id).text = s.text ∧ (s.relist id).cores = s.cores ∧
    (s.relist id).ret = s.ret ∧ (s.relist id).link = s.link ∧ (s.relist id).part = s.part ∧ (s.relist id).sec = s.sec ∧
    (s.relist id).ckpt = s.ckpt ∧ (s.relist id).mgmt = s.mgmt ∧ (s.relist id).pwr = s.pwr ∧ (s.relist id).out = s.out ∧
    (s.relist id).pending = s.pending := by
  simp [State.relist]

@[simp] theorem State.rebind_keeps (s : State) (gone : List Nat) (stay : List Nat) (id : Nat) :
    (s.rebind gone stay id).unit = s.unit ∧ (s.rebind gone stay id).tick = s.tick ∧ (s.rebind gone stay id).regs = s.regs ∧
    (s.rebind gone stay id).ctrs = s.ctrs ∧ (s.rebind gone stay id).host = s.host ∧ (s.rebind gone stay id).fab = s.fab ∧
    (s.rebind gone stay id).dir = s.dir ∧ (s.rebind gone stay id).att = s.att ∧ (s.rebind gone stay id).beat = s.beat ∧
    (s.rebind gone stay id).emit = s.emit ∧ (s.rebind gone stay id).text = s.text ∧ (s.rebind gone stay id).cores = s.cores ∧
    (s.rebind gone stay id).ret = s.ret ∧ (s.rebind gone stay id).link = s.link ∧ (s.rebind gone stay id).part = s.part ∧
    (s.rebind gone stay id).sec = s.sec ∧ (s.rebind gone stay id).ckpt = s.ckpt ∧ (s.rebind gone stay id).mgmt = s.mgmt ∧
    (s.rebind gone stay id).pwr = s.pwr ∧ (s.rebind gone stay id).out = s.out ∧ (s.rebind gone stay id).pending = s.pending := by
  simp [State.rebind]

@[simp] theorem State.moveHeaders_keeps (s : State) (gone : List Nat) (stay : List Nat) (id : Nat) :
    (s.moveHeaders gone stay id).unit = s.unit ∧ (s.moveHeaders gone stay id).tick = s.tick ∧
    (s.moveHeaders gone stay id).regs = s.regs ∧ (s.moveHeaders gone stay id).ctrs = s.ctrs ∧
    (s.moveHeaders gone stay id).host = s.host ∧ (s.moveHeaders gone stay id).fab = s.fab ∧
    (s.moveHeaders gone stay id).dir = s.dir ∧ (s.moveHeaders gone stay id).att = s.att ∧
    (s.moveHeaders gone stay id).beat = s.beat ∧ (s.moveHeaders gone stay id).emit = s.emit ∧
    (s.moveHeaders gone stay id).text = s.text ∧ (s.moveHeaders gone stay id).cores = s.cores ∧
    (s.moveHeaders gone stay id).ret = s.ret ∧ (s.moveHeaders gone stay id).link = s.link ∧
    (s.moveHeaders gone stay id).part = s.part ∧ (s.moveHeaders gone stay id).sec = s.sec ∧
    (s.moveHeaders gone stay id).ckpt = s.ckpt ∧ (s.moveHeaders gone stay id).mgmt = s.mgmt ∧
    (s.moveHeaders gone stay id).pwr = s.pwr ∧ (s.moveHeaders gone stay id).out = s.out ∧
    (s.moveHeaders gone stay id).pending = s.pending := by
  simp [State.moveHeaders]

@[simp] theorem State.rebindAll_keeps (s : State) (r : RecompRec) :
    (s.rebindAll r).unit = s.unit ∧ (s.rebindAll r).tick = s.tick ∧ (s.rebindAll r).regs = s.regs ∧ (s.rebindAll r).ctrs = s.ctrs ∧
    (s.rebindAll r).host = s.host ∧ (s.rebindAll r).fab = s.fab ∧ (s.rebindAll r).dir = s.dir ∧ (s.rebindAll r).att = s.att ∧
    (s.rebindAll r).beat = s.beat ∧ (s.rebindAll r).emit = s.emit ∧ (s.rebindAll r).text = s.text ∧
    (s.rebindAll r).cores = s.cores ∧ (s.rebindAll r).ret = s.ret ∧ (s.rebindAll r).link = s.link ∧ (s.rebindAll r).part = s.part ∧
    (s.rebindAll r).sec = s.sec ∧ (s.rebindAll r).ckpt = s.ckpt ∧ (s.rebindAll r).mgmt = s.mgmt ∧ (s.rebindAll r).pwr = s.pwr ∧
    (s.rebindAll r).out = s.out ∧ (s.rebindAll r).pending = s.pending := by
  simp [State.rebindAll]

@[simp] theorem State.quiesce_keeps (s : State) (r : Recomp) :
    (s.quiesce r).unit = s.unit ∧ (s.quiesce r).free = s.free ∧ (s.quiesce r).tick = s.tick ∧ (s.quiesce r).regs = s.regs ∧
    (s.quiesce r).host = s.host ∧ (s.quiesce r).sess = s.sess ∧ (s.quiesce r).fab = s.fab ∧ (s.quiesce r).dir = s.dir ∧
    (s.quiesce r).emit = s.emit ∧ (s.quiesce r).text = s.text ∧ (s.quiesce r).ret = s.ret ∧ (s.quiesce r).link = s.link ∧
    (s.quiesce r).sec = s.sec ∧ (s.quiesce r).ckpt = s.ckpt ∧ (s.quiesce r).mgmt = s.mgmt ∧ (s.quiesce r).pwr = s.pwr ∧
    (s.quiesce r).out = s.out ∧ (s.quiesce r).pending = s.pending := by
  simp [State.quiesce]

@[simp] theorem State.cancelOn_keeps (s : State) (cores : List Nat) :
    (s.cancelOn cores).unit = s.unit ∧ (s.cancelOn cores).free = s.free ∧ (s.cancelOn cores).tick = s.tick ∧
    (s.cancelOn cores).fab = s.fab ∧ (s.cancelOn cores).dir = s.dir ∧ (s.cancelOn cores).beat = s.beat ∧
    (s.cancelOn cores).text = s.text ∧ (s.cancelOn cores).ret = s.ret ∧ (s.cancelOn cores).part = s.part ∧
    (s.cancelOn cores).sec = s.sec ∧ (s.cancelOn cores).ckpt = s.ckpt ∧ (s.cancelOn cores).mgmt = s.mgmt ∧
    (s.cancelOn cores).pwr = s.pwr ∧ (s.cancelOn cores).pending = s.pending := by
  have key : ∀ x : State, (x.unit, x.free, x.tick, x.fab, x.dir, x.beat, x.text, x.ret, x.part, x.sec, x.ckpt, x.mgmt, x.pwr, x.pending) = (s.unit, s.free, s.tick, s.fab, s.dir, s.beat, s.text, s.ret, s.part, s.sec, s.ckpt, s.mgmt, s.pwr, s.pending) → x.unit = s.unit ∧ x.free = s.free ∧ x.tick = s.tick ∧ x.fab = s.fab ∧ x.dir = s.dir ∧ x.beat = s.beat ∧ x.text = s.text ∧ x.ret = s.ret ∧ x.part = s.part ∧ x.sec = s.sec ∧ x.ckpt = s.ckpt ∧ x.mgmt = s.mgmt ∧ x.pwr = s.pwr ∧ x.pending = s.pending := by intro x h; simpa using h
  refine key _ ?_
  unfold State.cancelOn
  refine foldl_fix (fun x : State => (x.unit, x.free, x.tick, x.fab, x.dir, x.beat, x.text, x.ret, x.part, x.sec, x.ckpt, x.mgmt, x.pwr, x.pending)) _ ?_ _ _
  intro s a
  refine foldl_fix (fun x : State => (x.unit, x.free, x.tick, x.fab, x.dir, x.beat, x.text, x.ret, x.part, x.sec, x.ckpt, x.mgmt, x.pwr, x.pending)) _ ?_ _ _
  intro s b
  refine foldl_fix (fun x : State => (x.unit, x.free, x.tick, x.fab, x.dir, x.beat, x.text, x.ret, x.part, x.sec, x.ckpt, x.mgmt, x.pwr, x.pending)) _ ?_ _ _
  intro s c
  dsimp only
  split <;> simp

@[simp] theorem State.redeal_keeps (s : State) (cores : List Nat) :
    (s.redeal cores).unit = s.unit ∧ (s.redeal cores).free = s.free ∧ (s.redeal cores).tick = s.tick ∧
    (s.redeal cores).regs = s.regs ∧ (s.redeal cores).host = s.host ∧ (s.redeal cores).sess = s.sess ∧
    (s.redeal cores).fab = s.fab ∧ (s.redeal cores).dir = s.dir ∧ (s.redeal cores).beat = s.beat ∧ (s.redeal cores).emit = s.emit ∧
    (s.redeal cores).text = s.text ∧ (s.redeal cores).ret = s.ret ∧ (s.redeal cores).part = s.part ∧ (s.redeal cores).sec = s.sec ∧
    (s.redeal cores).ckpt = s.ckpt ∧ (s.redeal cores).mgmt = s.mgmt ∧ (s.redeal cores).pwr = s.pwr ∧ (s.redeal cores).out = s.out ∧
    (s.redeal cores).pending = s.pending := by
  simp [State.redeal]

@[simp] theorem State.turnMoves_keeps (s : State) (p : Nat) (gone : List Nat) :
    (s.turnMoves p gone).unit = s.unit ∧ (s.turnMoves p gone).free = s.free ∧ (s.turnMoves p gone).tick = s.tick ∧
    (s.turnMoves p gone).regs = s.regs ∧ (s.turnMoves p gone).ctrs = s.ctrs ∧ (s.turnMoves p gone).host = s.host ∧
    (s.turnMoves p gone).sess = s.sess ∧ (s.turnMoves p gone).dir = s.dir ∧ (s.turnMoves p gone).att = s.att ∧
    (s.turnMoves p gone).beat = s.beat ∧ (s.turnMoves p gone).emit = s.emit ∧ (s.turnMoves p gone).text = s.text ∧
    (s.turnMoves p gone).cores = s.cores ∧ (s.turnMoves p gone).ret = s.ret ∧ (s.turnMoves p gone).link = s.link ∧
    (s.turnMoves p gone).part = s.part ∧ (s.turnMoves p gone).sec = s.sec ∧ (s.turnMoves p gone).ckpt = s.ckpt ∧
    (s.turnMoves p gone).mgmt = s.mgmt ∧ (s.turnMoves p gone).pwr = s.pwr ∧ (s.turnMoves p gone).out = s.out ∧
    (s.turnMoves p gone).pending = s.pending := by
  exact ⟨rfl, rfl, rfl, rfl, rfl, rfl, rfl, rfl, rfl, rfl, rfl, rfl, rfl, rfl, rfl, rfl, rfl, rfl, rfl, rfl, rfl, rfl⟩

@[simp] theorem State.loadProgs_keeps (s : State) (p : Nat) (cores : List Nat) :
    (s.loadProgs p cores).unit = s.unit ∧ (s.loadProgs p cores).free = s.free ∧ (s.loadProgs p cores).tick = s.tick ∧
    (s.loadProgs p cores).regs = s.regs ∧ (s.loadProgs p cores).ctrs = s.ctrs ∧ (s.loadProgs p cores).host = s.host ∧
    (s.loadProgs p cores).sess = s.sess ∧ (s.loadProgs p cores).fab = s.fab ∧ (s.loadProgs p cores).dir = s.dir ∧
    (s.loadProgs p cores).att = s.att ∧ (s.loadProgs p cores).beat = s.beat ∧ (s.loadProgs p cores).emit = s.emit ∧
    (s.loadProgs p cores).text = s.text ∧ (s.loadProgs p cores).ret = s.ret ∧ (s.loadProgs p cores).link = s.link ∧
    (s.loadProgs p cores).part = s.part ∧ (s.loadProgs p cores).sec = s.sec ∧ (s.loadProgs p cores).ckpt = s.ckpt ∧
    (s.loadProgs p cores).mgmt = s.mgmt ∧ (s.loadProgs p cores).pwr = s.pwr ∧ (s.loadProgs p cores).out = s.out ∧
    (s.loadProgs p cores).pending = s.pending := by
  simp [State.loadProgs]

@[simp] theorem State.newRows_keeps (s : State) (p : Nat) (base : Nat) (n : Nat) :
    (s.newRows p base n).unit = s.unit ∧ (s.newRows p base n).free = s.free ∧ (s.newRows p base n).tick = s.tick ∧
    (s.newRows p base n).regs = s.regs ∧ (s.newRows p base n).host = s.host ∧ (s.newRows p base n).att = s.att ∧
    (s.newRows p base n).emit = s.emit ∧ (s.newRows p base n).text = s.text ∧ (s.newRows p base n).ret = s.ret ∧
    (s.newRows p base n).link = s.link ∧ (s.newRows p base n).sec = s.sec ∧ (s.newRows p base n).ckpt = s.ckpt ∧
    (s.newRows p base n).mgmt = s.mgmt ∧ (s.newRows p base n).pwr = s.pwr ∧ (s.newRows p base n).out = s.out ∧
    (s.newRows p base n).pending = s.pending := by
  simp [State.newRows]

@[simp] theorem State.latchStraps_keeps (s : State) (x : Straps) :
    (s.latchStraps x).unit = s.unit ∧ (s.latchStraps x).free = s.free ∧ (s.latchStraps x).tick = s.tick ∧
    (s.latchStraps x).regs = s.regs ∧ (s.latchStraps x).ctrs = s.ctrs ∧ (s.latchStraps x).host = s.host ∧
    (s.latchStraps x).sess = s.sess ∧ (s.latchStraps x).fab = s.fab ∧ (s.latchStraps x).dir = s.dir ∧
    (s.latchStraps x).att = s.att ∧ (s.latchStraps x).beat = s.beat ∧ (s.latchStraps x).emit = s.emit ∧
    (s.latchStraps x).text = s.text ∧ (s.latchStraps x).cores = s.cores ∧ (s.latchStraps x).ret = s.ret ∧
    (s.latchStraps x).link = s.link ∧ (s.latchStraps x).part = s.part ∧ (s.latchStraps x).sec = s.sec ∧
    (s.latchStraps x).ckpt = s.ckpt ∧ (s.latchStraps x).mgmt = s.mgmt ∧ (s.latchStraps x).out = s.out ∧
    (s.latchStraps x).pending = s.pending := by
  exact ⟨rfl, rfl, rfl, rfl, rfl, rfl, rfl, rfl, rfl, rfl, rfl, rfl, rfl, rfl, rfl, rfl, rfl, rfl, rfl, rfl, rfl, rfl⟩

@[simp] theorem State.safe_keeps (s : State) (st : PwrSt) :
    (s.safe st).unit = s.unit ∧ (s.safe st).free = s.free ∧ (s.safe st).tick = s.tick ∧ (s.safe st).regs = s.regs ∧
    (s.safe st).ctrs = s.ctrs ∧ (s.safe st).host = s.host ∧ (s.safe st).att = s.att ∧ (s.safe st).beat = s.beat ∧
    (s.safe st).emit = s.emit ∧ (s.safe st).text = s.text ∧ (s.safe st).cores = s.cores ∧ (s.safe st).ret = s.ret ∧
    (s.safe st).link = s.link ∧ (s.safe st).part = s.part ∧ (s.safe st).sec = s.sec ∧ (s.safe st).ckpt = s.ckpt ∧
    (s.safe st).mgmt = s.mgmt ∧ (s.safe st).pending = s.pending := by
  exact ⟨rfl, rfl, rfl, rfl, rfl, rfl, rfl, rfl, rfl, rfl, rfl, rfl, rfl, rfl, rfl, rfl, rfl, rfl⟩

@[simp] theorem State.createFullSpan_keeps (s : State) :
    s.createFullSpan.unit = s.unit ∧ s.createFullSpan.tick = s.tick ∧ s.createFullSpan.regs = s.regs ∧
    s.createFullSpan.ctrs = s.ctrs ∧ s.createFullSpan.host = s.host ∧ s.createFullSpan.sess = s.sess ∧
    s.createFullSpan.fab = s.fab ∧ s.createFullSpan.dir = s.dir ∧ s.createFullSpan.att = s.att ∧ s.createFullSpan.beat = s.beat ∧
    s.createFullSpan.emit = s.emit ∧ s.createFullSpan.text = s.text ∧ s.createFullSpan.cores = s.cores ∧
    s.createFullSpan.ret = s.ret ∧ s.createFullSpan.link = s.link ∧ s.createFullSpan.sec = s.sec ∧ s.createFullSpan.ckpt = s.ckpt ∧
    s.createFullSpan.mgmt = s.mgmt ∧ s.createFullSpan.pwr = s.pwr ∧ s.createFullSpan.out = s.out ∧
    s.createFullSpan.pending = s.pending := by
  unfold State.createFullSpan
  simp

@[simp] theorem State.startUp_keeps (s : State) (x : Straps) (bulk : Bool) (rails : Nat) :
    (s.startUp x bulk rails).unit = s.unit ∧ (s.startUp x bulk rails).free = s.free ∧ (s.startUp x bulk rails).tick = s.tick ∧
    (s.startUp x bulk rails).regs = s.regs ∧ (s.startUp x bulk rails).ctrs = s.ctrs ∧ (s.startUp x bulk rails).host = s.host ∧
    (s.startUp x bulk rails).sess = s.sess ∧ (s.startUp x bulk rails).fab = s.fab ∧ (s.startUp x bulk rails).dir = s.dir ∧
    (s.startUp x bulk rails).att = s.att ∧ (s.startUp x bulk rails).beat = s.beat ∧ (s.startUp x bulk rails).emit = s.emit ∧
    (s.startUp x bulk rails).text = s.text ∧ (s.startUp x bulk rails).cores = s.cores ∧ (s.startUp x bulk rails).ret = s.ret ∧
    (s.startUp x bulk rails).link = s.link ∧ (s.startUp x bulk rails).part = s.part ∧ (s.startUp x bulk rails).sec = s.sec ∧
    (s.startUp x bulk rails).ckpt = s.ckpt ∧ (s.startUp x bulk rails).mgmt = s.mgmt ∧ (s.startUp x bulk rails).out = s.out ∧
    (s.startUp x bulk rails).pending = s.pending := by
  exact ⟨rfl, rfl, rfl, rfl, rfl, rfl, rfl, rfl, rfl, rfl, rfl, rfl, rfl, rfl, rfl, rfl, rfl, rfl, rfl, rfl, rfl, rfl⟩

@[simp] theorem State.toRecovered_keeps (s : State) :
    s.toRecovered.unit = s.unit ∧ s.toRecovered.free = s.free ∧ s.toRecovered.tick = s.tick ∧ s.toRecovered.regs = s.regs ∧
    s.toRecovered.host = s.host ∧ s.toRecovered.sess = s.sess ∧ s.toRecovered.fab = s.fab ∧ s.toRecovered.dir = s.dir ∧
    s.toRecovered.att = s.att ∧ s.toRecovered.beat = s.beat ∧ s.toRecovered.emit = s.emit ∧ s.toRecovered.text = s.text ∧
    s.toRecovered.cores = s.cores ∧ s.toRecovered.ret = s.ret ∧ s.toRecovered.link = s.link ∧ s.toRecovered.part = s.part ∧
    s.toRecovered.sec = s.sec ∧ s.toRecovered.ckpt = s.ckpt ∧ s.toRecovered.mgmt = s.mgmt ∧ s.toRecovered.out = s.out ∧
    s.toRecovered.pending = s.pending := by
  exact ⟨rfl, rfl, rfl, rfl, rfl, rfl, rfl, rfl, rfl, rfl, rfl, rfl, rfl, rfl, rfl, rfl, rfl, rfl, rfl, rfl, rfl⟩

@[simp] theorem State.leaveRecovered_keeps (s : State) :
    s.leaveRecovered.unit = s.unit ∧ s.leaveRecovered.free = s.free ∧ s.leaveRecovered.tick = s.tick ∧
    s.leaveRecovered.regs = s.regs ∧ s.leaveRecovered.host = s.host ∧ s.leaveRecovered.att = s.att ∧
    s.leaveRecovered.beat = s.beat ∧ s.leaveRecovered.emit = s.emit ∧ s.leaveRecovered.text = s.text ∧
    s.leaveRecovered.cores = s.cores ∧ s.leaveRecovered.ret = s.ret ∧ s.leaveRecovered.link = s.link ∧
    s.leaveRecovered.part = s.part ∧ s.leaveRecovered.sec = s.sec ∧ s.leaveRecovered.ckpt = s.ckpt ∧
    s.leaveRecovered.mgmt = s.mgmt ∧ s.leaveRecovered.pending = s.pending := by
  simp [State.leaveRecovered]

@[simp] theorem State.clkPortFound_keeps (s : State) (port : Nat) :
    (s.clkPortFound port).unit = s.unit ∧ (s.clkPortFound port).free = s.free ∧ (s.clkPortFound port).tick = s.tick ∧
    (s.clkPortFound port).regs = s.regs ∧ (s.clkPortFound port).ctrs = s.ctrs ∧ (s.clkPortFound port).host = s.host ∧
    (s.clkPortFound port).sess = s.sess ∧ (s.clkPortFound port).fab = s.fab ∧ (s.clkPortFound port).dir = s.dir ∧
    (s.clkPortFound port).att = s.att ∧ (s.clkPortFound port).beat = s.beat ∧ (s.clkPortFound port).emit = s.emit ∧
    (s.clkPortFound port).text = s.text ∧ (s.clkPortFound port).cores = s.cores ∧ (s.clkPortFound port).ret = s.ret ∧
    (s.clkPortFound port).link = s.link ∧ (s.clkPortFound port).part = s.part ∧ (s.clkPortFound port).sec = s.sec ∧
    (s.clkPortFound port).ckpt = s.ckpt ∧ (s.clkPortFound port).mgmt = s.mgmt ∧ (s.clkPortFound port).out = s.out ∧
    (s.clkPortFound port).pending = s.pending := by
  simp [State.clkPortFound]

@[simp] theorem State.clkPortLost_keeps (s : State) (port : Nat) :
    (s.clkPortLost port).unit = s.unit ∧ (s.clkPortLost port).free = s.free ∧ (s.clkPortLost port).tick = s.tick ∧
    (s.clkPortLost port).regs = s.regs ∧ (s.clkPortLost port).host = s.host ∧ (s.clkPortLost port).att = s.att ∧
    (s.clkPortLost port).beat = s.beat ∧ (s.clkPortLost port).emit = s.emit ∧ (s.clkPortLost port).text = s.text ∧
    (s.clkPortLost port).cores = s.cores ∧ (s.clkPortLost port).ret = s.ret ∧ (s.clkPortLost port).link = s.link ∧
    (s.clkPortLost port).part = s.part ∧ (s.clkPortLost port).sec = s.sec ∧ (s.clkPortLost port).ckpt = s.ckpt ∧
    (s.clkPortLost port).mgmt = s.mgmt ∧ (s.clkPortLost port).pending = s.pending := by
  simp [State.clkPortLost]

@[simp] theorem State.clkReturn_keeps (s : State) :
    s.clkReturn.unit = s.unit ∧ s.clkReturn.free = s.free ∧ s.clkReturn.tick = s.tick ∧ s.clkReturn.regs = s.regs ∧
    s.clkReturn.host = s.host ∧ s.clkReturn.sess = s.sess ∧ s.clkReturn.fab = s.fab ∧ s.clkReturn.dir = s.dir ∧
    s.clkReturn.att = s.att ∧ s.clkReturn.beat = s.beat ∧ s.clkReturn.emit = s.emit ∧ s.clkReturn.text = s.text ∧
    s.clkReturn.cores = s.cores ∧ s.clkReturn.ret = s.ret ∧ s.clkReturn.link = s.link ∧ s.clkReturn.part = s.part ∧
    s.clkReturn.sec = s.sec ∧ s.clkReturn.ckpt = s.ckpt ∧ s.clkReturn.mgmt = s.mgmt ∧ s.clkReturn.out = s.out ∧
    s.clkReturn.pending = s.pending := by
  simp [State.clkReturn]

@[simp] theorem State.clkForce_keeps (s : State) :
    s.clkForce.unit = s.unit ∧ s.clkForce.free = s.free ∧ s.clkForce.tick = s.tick ∧ s.clkForce.regs = s.regs ∧
    s.clkForce.host = s.host ∧ s.clkForce.att = s.att ∧ s.clkForce.beat = s.beat ∧ s.clkForce.emit = s.emit ∧
    s.clkForce.text = s.text ∧ s.clkForce.cores = s.cores ∧ s.clkForce.ret = s.ret ∧ s.clkForce.link = s.link ∧
    s.clkForce.part = s.part ∧ s.clkForce.sec = s.sec ∧ s.clkForce.ckpt = s.ckpt ∧ s.clkForce.mgmt = s.mgmt ∧
    s.clkForce.pending = s.pending := by
  simp [State.clkForce]

@[simp] theorem State.selClk_keeps (s : State) (n : Nat) :
    (s.selClk n).unit = s.unit ∧ (s.selClk n).free = s.free ∧ (s.selClk n).tick = s.tick ∧ (s.selClk n).regs = s.regs ∧
    (s.selClk n).host = s.host ∧ (s.selClk n).att = s.att ∧ (s.selClk n).beat = s.beat ∧ (s.selClk n).emit = s.emit ∧
    (s.selClk n).text = s.text ∧ (s.selClk n).cores = s.cores ∧ (s.selClk n).ret = s.ret ∧ (s.selClk n).link = s.link ∧
    (s.selClk n).part = s.part ∧ (s.selClk n).sec = s.sec ∧ (s.selClk n).ckpt = s.ckpt ∧ (s.selClk n).mgmt = s.mgmt ∧
    (s.selClk n).pending = s.pending := by
  simp [State.selClk]

@[simp] theorem State.modSlot_keeps (s : State) (n : Nat) (f : CkSlot → CkSlot) :
    (s.modSlot n f).unit = s.unit ∧ (s.modSlot n f).free = s.free ∧ (s.modSlot n f).tick = s.tick ∧ (s.modSlot n f).regs = s.regs ∧
    (s.modSlot n f).ctrs = s.ctrs ∧ (s.modSlot n f).host = s.host ∧ (s.modSlot n f).sess = s.sess ∧ (s.modSlot n f).fab = s.fab ∧
    (s.modSlot n f).dir = s.dir ∧ (s.modSlot n f).att = s.att ∧ (s.modSlot n f).beat = s.beat ∧ (s.modSlot n f).emit = s.emit ∧
    (s.modSlot n f).text = s.text ∧ (s.modSlot n f).cores = s.cores ∧ (s.modSlot n f).ret = s.ret ∧ (s.modSlot n f).link = s.link ∧
    (s.modSlot n f).part = s.part ∧ (s.modSlot n f).sec = s.sec ∧ (s.modSlot n f).mgmt = s.mgmt ∧ (s.modSlot n f).pwr = s.pwr ∧
    (s.modSlot n f).out = s.out ∧ (s.modSlot n f).pending = s.pending := by
  exact ⟨rfl, rfl, rfl, rfl, rfl, rfl, rfl, rfl, rfl, rfl, rfl, rfl, rfl, rfl, rfl, rfl, rfl, rfl, rfl, rfl, rfl, rfl⟩

@[simp] theorem State.readManifests_keeps (s : State) :
    s.readManifests.unit = s.unit ∧ s.readManifests.free = s.free ∧ s.readManifests.tick = s.tick ∧ s.readManifests.regs = s.regs ∧
    s.readManifests.ctrs = s.ctrs ∧ s.readManifests.host = s.host ∧ s.readManifests.sess = s.sess ∧ s.readManifests.fab = s.fab ∧
    s.readManifests.dir = s.dir ∧ s.readManifests.att = s.att ∧ s.readManifests.beat = s.beat ∧ s.readManifests.emit = s.emit ∧
    s.readManifests.text = s.text ∧ s.readManifests.cores = s.cores ∧ s.readManifests.ret = s.ret ∧ s.readManifests.link = s.link ∧
    s.readManifests.part = s.part ∧ s.readManifests.sec = s.sec ∧ s.readManifests.mgmt = s.mgmt ∧ s.readManifests.pwr = s.pwr ∧
    s.readManifests.out = s.out ∧ s.readManifests.pending = s.pending := by
  simp [State.readManifests]

@[simp] theorem State.startCkpt_keeps (s : State) (slot : Nat) (content : Nat) (cmd : Nat) (armed : Bool) (now : Bool) :
    (s.startCkpt slot content cmd armed now).unit = s.unit ∧ (s.startCkpt slot content cmd armed now).free = s.free ∧
    (s.startCkpt slot content cmd armed now).tick = s.tick ∧ (s.startCkpt slot content cmd armed now).regs = s.regs ∧
    (s.startCkpt slot content cmd armed now).ctrs = s.ctrs ∧ (s.startCkpt slot content cmd armed now).host = s.host ∧
    (s.startCkpt slot content cmd armed now).sess = s.sess ∧ (s.startCkpt slot content cmd armed now).fab = s.fab ∧
    (s.startCkpt slot content cmd armed now).dir = s.dir ∧ (s.startCkpt slot content cmd armed now).att = s.att ∧
    (s.startCkpt slot content cmd armed now).beat = s.beat ∧ (s.startCkpt slot content cmd armed now).emit = s.emit ∧
    (s.startCkpt slot content cmd armed now).text = s.text ∧ (s.startCkpt slot content cmd armed now).cores = s.cores ∧
    (s.startCkpt slot content cmd armed now).ret = s.ret ∧ (s.startCkpt slot content cmd armed now).link = s.link ∧
    (s.startCkpt slot content cmd armed now).part = s.part ∧ (s.startCkpt slot content cmd armed now).sec = s.sec ∧
    (s.startCkpt slot content cmd armed now).mgmt = s.mgmt ∧ (s.startCkpt slot content cmd armed now).pwr = s.pwr ∧
    (s.startCkpt slot content cmd armed now).out = s.out ∧ (s.startCkpt slot content cmd armed now).pending = s.pending := by
  simp [State.startCkpt]

end Sys2Proof.Machine
end

