-- ==== Sys2Proof/Laws/Keeps4.lean ====
section
/-! SUPPORT. The frame of each shared operation on the state: the parts it leaves as they are (Ckpt, Host, Link, Mgmt, Moves, Registers, SessCmds). -/

namespace Sys2Proof.Machine

@[simp] theorem State.trigStart_keeps (s : State) (armed : Bool) (now : Bool) :
    (s.trigStart armed now).unit = s.unit ∧ (s.trigStart armed now).free = s.free ∧ (s.trigStart armed now).tick = s.tick ∧
    (s.trigStart armed now).regs = s.regs ∧ (s.trigStart armed now).host = s.host ∧ (s.trigStart armed now).sess = s.sess ∧
    (s.trigStart armed now).fab = s.fab ∧ (s.trigStart armed now).dir = s.dir ∧ (s.trigStart armed now).att = s.att ∧
    (s.trigStart armed now).beat = s.beat ∧ (s.trigStart armed now).emit = s.emit ∧ (s.trigStart armed now).text = s.text ∧
    (s.trigStart armed now).cores = s.cores ∧ (s.trigStart armed now).ret = s.ret ∧ (s.trigStart armed now).link = s.link ∧
    (s.trigStart armed now).part = s.part ∧ (s.trigStart armed now).sec = s.sec ∧ (s.trigStart armed now).mgmt = s.mgmt ∧
    (s.trigStart armed now).pwr = s.pwr ∧ (s.trigStart armed now).out = s.out ∧ (s.trigStart armed now).pending = s.pending := by
  unfold State.trigStart
  split <;> simp

@[simp] theorem State.trigger_keeps (s : State) :
    s.trigger.unit = s.unit ∧ s.trigger.tick = s.tick ∧ s.trigger.regs = s.regs ∧ s.trigger.emit = s.emit ∧ s.trigger.ret = s.ret ∧
    s.trigger.sec = s.sec ∧ s.trigger.mgmt = s.mgmt ∧ s.trigger.pwr = s.pwr ∧ s.trigger.pending = s.pending := by
  simp [State.trigger]

@[simp] theorem State.ckEnd_keeps (s : State) (t : CkTake) (st : Status) (r0 : Nat) (r1 : Nat) (r2 : Nat) :
    (s.ckEnd t st r0 r1 r2).unit = s.unit ∧ (s.ckEnd t st r0 r1 r2).free = s.free ∧ (s.ckEnd t st r0 r1 r2).tick = s.tick ∧
    (s.ckEnd t st r0 r1 r2).regs = s.regs ∧ (s.ckEnd t st r0 r1 r2).sess = s.sess ∧ (s.ckEnd t st r0 r1 r2).fab = s.fab ∧
    (s.ckEnd t st r0 r1 r2).dir = s.dir ∧ (s.ckEnd t st r0 r1 r2).att = s.att ∧ (s.ckEnd t st r0 r1 r2).beat = s.beat ∧
    (s.ckEnd t st r0 r1 r2).emit = s.emit ∧ (s.ckEnd t st r0 r1 r2).text = s.text ∧ (s.ckEnd t st r0 r1 r2).cores = s.cores ∧
    (s.ckEnd t st r0 r1 r2).ret = s.ret ∧ (s.ckEnd t st r0 r1 r2).link = s.link ∧ (s.ckEnd t st r0 r1 r2).part = s.part ∧
    (s.ckEnd t st r0 r1 r2).sec = s.sec ∧ (s.ckEnd t st r0 r1 r2).mgmt = s.mgmt ∧ (s.ckEnd t st r0 r1 r2).pwr = s.pwr ∧
    (s.ckEnd t st r0 r1 r2).pending = s.pending := by
  simp [State.ckEnd]

@[simp] theorem State.letReads_keeps (s : State) :
    s.letReads.unit = s.unit ∧ s.letReads.free = s.free ∧ s.letReads.tick = s.tick ∧ s.letReads.regs = s.regs ∧
    s.letReads.host = s.host ∧ s.letReads.att = s.att ∧ s.letReads.emit = s.emit ∧ s.letReads.text = s.text ∧
    s.letReads.ret = s.ret ∧ s.letReads.link = s.link ∧ s.letReads.sec = s.sec ∧ s.letReads.mgmt = s.mgmt ∧
    s.letReads.pwr = s.pwr ∧ s.letReads.out = s.out ∧ s.letReads.pending = s.pending := by
  have key : ∀ x : State, (x.unit, x.free, x.tick, x.regs, x.host, x.att, x.emit, x.text, x.ret, x.link, x.sec, x.mgmt, x.pwr, x.out, x.pending) = (s.unit, s.free, s.tick, s.regs, s.host, s.att, s.emit, s.text, s.ret, s.link, s.sec, s.mgmt, s.pwr, s.out, s.pending) → x.unit = s.unit ∧ x.free = s.free ∧ x.tick = s.tick ∧ x.regs = s.regs ∧ x.host = s.host ∧ x.att = s.att ∧ x.emit = s.emit ∧ x.text = s.text ∧ x.ret = s.ret ∧ x.link = s.link ∧ x.sec = s.sec ∧ x.mgmt = s.mgmt ∧ x.pwr = s.pwr ∧ x.out = s.out ∧ x.pending = s.pending := by intro x h; simpa using h
  refine key _ ?_
  unfold State.letReads
  refine (foldl_fix (fun x : State => (x.unit, x.free, x.tick, x.regs, x.host, x.att, x.emit, x.text, x.ret, x.link, x.sec, x.mgmt, x.pwr, x.out, x.pending)) _ ?_ _ _).trans ?_
  · intro s a
    split <;> simp
  · simp

@[simp] theorem State.restorePart_keeps (s : State) (p : Nat) (x : Part) :
    (s.restorePart p x).unit = s.unit ∧ (s.restorePart p x).tick = s.tick ∧ (s.restorePart p x).host = s.host ∧
    (s.restorePart p x).sess = s.sess ∧ (s.restorePart p x).fab = s.fab ∧ (s.restorePart p x).dir = s.dir ∧
    (s.restorePart p x).ret = s.ret ∧ (s.restorePart p x).link = s.link ∧ (s.restorePart p x).ckpt = s.ckpt ∧
    (s.restorePart p x).mgmt = s.mgmt ∧ (s.restorePart p x).pwr = s.pwr ∧ (s.restorePart p x).out = s.out ∧
    (s.restorePart p x).pending = s.pending ∧ (s.restorePart p x).sec.fuseSvn = s.sec.fuseSvn ∧
    (s.restorePart p x).sec.revoked = s.sec.revoked ∧ (s.restorePart p x).sec.slots = s.sec.slots := by
  unfold State.restorePart; dsimp only; (repeat' split) <;> simp

theorem State.restoreRec_keeps (im : CkImage) (s : State) (ix : Nat) (r : Rec) {tt : State} (ht : State.restoreRec im s ix r = some
    tt) :
    tt.unit = s.unit ∧ tt.tick = s.tick ∧ tt.regs = s.regs ∧ tt.ctrs = s.ctrs ∧ tt.host = s.host ∧ tt.sess = s.sess ∧
    tt.att = s.att ∧ tt.beat = s.beat ∧ tt.emit = s.emit ∧ tt.text = s.text ∧ tt.cores = s.cores ∧ tt.ret = s.ret ∧
    tt.link = s.link ∧ tt.part = s.part ∧ tt.sec = s.sec ∧ tt.ckpt = s.ckpt ∧ tt.mgmt = s.mgmt ∧ tt.pwr = s.pwr ∧ tt.out = s.out ∧
    tt.pending = s.pending := by
  unfold State.restoreRec at ht; dsimp only at ht; (repeat' split at ht) <;> (first | (cases ht; simp_all) | simp_all)

@[simp] theorem State.restoreKey_keeps (s : State) (ix : Nat) :
    (s.restoreKey ix).unit = s.unit ∧ (s.restoreKey ix).free = s.free ∧ (s.restoreKey ix).tick = s.tick ∧
    (s.restoreKey ix).regs = s.regs ∧ (s.restoreKey ix).host = s.host ∧ (s.restoreKey ix).att = s.att ∧
    (s.restoreKey ix).emit = s.emit ∧ (s.restoreKey ix).text = s.text ∧ (s.restoreKey ix).ret = s.ret ∧
    (s.restoreKey ix).link = s.link ∧ (s.restoreKey ix).sec = s.sec ∧ (s.restoreKey ix).ckpt = s.ckpt ∧
    (s.restoreKey ix).mgmt = s.mgmt ∧ (s.restoreKey ix).pwr = s.pwr ∧ (s.restoreKey ix).out = s.out ∧
    (s.restoreKey ix).pending = s.pending := by
  unfold State.restoreKey; dsimp only; (repeat' split) <;> simp

@[simp] theorem State.restoreEntry_keeps (s : State) (id : Nat) (x : Sess) :
    (s.restoreEntry id x).unit = s.unit ∧ (s.restoreEntry id x).tick = s.tick ∧ (s.restoreEntry id x).regs = s.regs ∧
    (s.restoreEntry id x).ctrs = s.ctrs ∧ (s.restoreEntry id x).host = s.host ∧ (s.restoreEntry id x).fab = s.fab ∧
    (s.restoreEntry id x).dir = s.dir ∧ (s.restoreEntry id x).att = s.att ∧ (s.restoreEntry id x).beat = s.beat ∧
    (s.restoreEntry id x).emit = s.emit ∧ (s.restoreEntry id x).text = s.text ∧ (s.restoreEntry id x).cores = s.cores ∧
    (s.restoreEntry id x).ret = s.ret ∧ (s.restoreEntry id x).link = s.link ∧ (s.restoreEntry id x).part = s.part ∧
    (s.restoreEntry id x).sec = s.sec ∧ (s.restoreEntry id x).ckpt = s.ckpt ∧ (s.restoreEntry id x).mgmt = s.mgmt ∧
    (s.restoreEntry id x).pwr = s.pwr ∧ (s.restoreEntry id x).out = s.out ∧ (s.restoreEntry id x).pending = s.pending := by
  unfold State.restoreEntry
  simp

theorem State.restoreBlock_keeps (im : CkImage) (x : Sess) (coat : List Nat) (s : State) (id : Nat) (b : Nat) {tt : State} (ht :
    State.restoreBlock im x coat s id b = some tt) :
    tt.unit = s.unit ∧ tt.tick = s.tick ∧ tt.regs = s.regs ∧ tt.host = s.host ∧ tt.dir = s.dir ∧ tt.att = s.att ∧
    tt.beat = s.beat ∧ tt.emit = s.emit ∧ tt.text = s.text ∧ tt.cores = s.cores ∧ tt.ret = s.ret ∧ tt.link = s.link ∧
    tt.part = s.part ∧ tt.sec = s.sec ∧ tt.ckpt = s.ckpt ∧ tt.mgmt = s.mgmt ∧ tt.pwr = s.pwr ∧ tt.out = s.out ∧
    tt.pending = s.pending := by
  unfold State.restoreBlock at ht
  split at ht
  · split at ht
    · cases ht
    · next e =>
      have k := State.readyList_keeps _ _ _ e
      cases ht
      simp [k]
  · split at ht
    · cases ht
    · next e =>
      have k := State.newBlock_keeps _ _ _ e
      cases ht
      simp [k]

@[simp] theorem State.restoreResident_keeps (im : CkImage) (s : State) (id : Nat) (x : Sess) :
    (State.restoreResident im s id x).unit = s.unit ∧ (State.restoreResident im s id x).tick = s.tick ∧
    (State.restoreResident im s id x).regs = s.regs ∧ (State.restoreResident im s id x).emit = s.emit ∧
    (State.restoreResident im s id x).ret = s.ret ∧ (State.restoreResident im s id x).sec = s.sec ∧
    (State.restoreResident im s id x).mgmt = s.mgmt ∧ (State.restoreResident im s id x).pwr = s.pwr ∧
    (State.restoreResident im s id x).pending = s.pending := by
  unfold State.restoreResident
  dsimp only
  split
  · simp
  · next s2 e =>
    have k := foldSome_fix (fun x : State => (x.unit, x.tick, x.regs, x.emit, x.ret, x.sec, x.mgmt, x.pwr, x.pending)) _ (fun s a t h => by
      have k := State.restoreBlock_keeps _ _ _ _ _ _ h
      simp [k]) _ e
    simp at k
    split <;> simp [k]

@[simp] theorem State.restoreSess_keeps (im : CkImage) (s : State) (id : Nat) (x : Sess) :
    (State.restoreSess im s id x).unit = s.unit ∧ (State.restoreSess im s id x).tick = s.tick ∧
    (State.restoreSess im s id x).regs = s.regs ∧ (State.restoreSess im s id x).emit = s.emit ∧
    (State.restoreSess im s id x).ret = s.ret ∧ (State.restoreSess im s id x).sec = s.sec ∧
    (State.restoreSess im s id x).mgmt = s.mgmt ∧ (State.restoreSess im s id x).pwr = s.pwr ∧
    (State.restoreSess im s id x).pending = s.pending := by
  unfold State.restoreSess; dsimp only; (repeat' split) <;> simp

@[simp] theorem State.restoreProg_keeps (s : State) (g : Prog) :
    (s.restoreProg g).unit = s.unit ∧ (s.restoreProg g).free = s.free ∧ (s.restoreProg g).tick = s.tick ∧
    (s.restoreProg g).regs = s.regs ∧ (s.restoreProg g).ctrs = s.ctrs ∧ (s.restoreProg g).host = s.host ∧
    (s.restoreProg g).sess = s.sess ∧ (s.restoreProg g).fab = s.fab ∧ (s.restoreProg g).dir = s.dir ∧
    (s.restoreProg g).att = s.att ∧ (s.restoreProg g).beat = s.beat ∧ (s.restoreProg g).emit = s.emit ∧
    (s.restoreProg g).text = s.text ∧ (s.restoreProg g).ret = s.ret ∧ (s.restoreProg g).link = s.link ∧
    (s.restoreProg g).part = s.part ∧ (s.restoreProg g).sec = s.sec ∧ (s.restoreProg g).ckpt = s.ckpt ∧
    (s.restoreProg g).mgmt = s.mgmt ∧ (s.restoreProg g).pwr = s.pwr ∧ (s.restoreProg g).out = s.out ∧
    (s.restoreProg g).pending = s.pending := by
  simp [State.restoreProg]

theorem State.restored_keeps (s : State) (im : CkImage) {tt : State} (ht : s.restored im = some tt) :
    tt.unit = s.unit ∧ tt.tick = s.tick ∧ tt.ret = s.ret ∧ tt.mgmt = s.mgmt ∧ tt.pwr = s.pwr ∧ tt.pending = s.pending ∧
    tt.sec.fuseSvn = s.sec.fuseSvn ∧ tt.sec.revoked = s.sec.revoked ∧ tt.sec.slots = s.sec.slots := by
  unfold State.restored at ht
  split at ht
  · cases ht
  · dsimp only at ht
    split at ht
    · cases ht
    · split at ht
      · cases ht
      · next s7 e =>
        have k := foldSome_fix (fun x : State => (x.unit, x.tick, x.ret, x.mgmt, x.pwr, x.pending, x.sec.fuseSvn, x.sec.revoked, x.sec.slots)) _ (fun s a t h => by
          have k := State.restoreRec_keeps _ _ _ _ h
          simp [k]) _ e
        simp at k
        cases ht
        simp [k]

@[simp] theorem State.dieStops_keeps (s : State) (die : Nat) :
    (s.dieStops die).unit = s.unit ∧ (s.dieStops die).free = s.free ∧ (s.dieStops die).tick = s.tick ∧
    (s.dieStops die).ret = s.ret ∧ (s.dieStops die).sec = s.sec ∧ (s.dieStops die).mgmt = s.mgmt ∧ (s.dieStops die).pwr = s.pwr ∧
    (s.dieStops die).pending = s.pending := by
  simp [State.dieStops]

@[simp] theorem State.sendHello_keeps (s : State) (port : Nat) (agreed : Nat) (ack : Bool) (st : Status) :
    (s.sendHello port agreed ack st).unit = s.unit ∧ (s.sendHello port agreed ack st).free = s.free ∧
    (s.sendHello port agreed ack st).tick = s.tick ∧ (s.sendHello port agreed ack st).regs = s.regs ∧
    (s.sendHello port agreed ack st).host = s.host ∧ (s.sendHello port agreed ack st).sess = s.sess ∧
    (s.sendHello port agreed ack st).fab = s.fab ∧ (s.sendHello port agreed ack st).dir = s.dir ∧
    (s.sendHello port agreed ack st).att = s.att ∧ (s.sendHello port agreed ack st).beat = s.beat ∧
    (s.sendHello port agreed ack st).emit = s.emit ∧ (s.sendHello port agreed ack st).text = s.text ∧
    (s.sendHello port agreed ack st).cores = s.cores ∧ (s.sendHello port agreed ack st).ret = s.ret ∧
    (s.sendHello port agreed ack st).part = s.part ∧ (s.sendHello port agreed ack st).sec = s.sec ∧
    (s.sendHello port agreed ack st).ckpt = s.ckpt ∧ (s.sendHello port agreed ack st).mgmt = s.mgmt ∧
    (s.sendHello port agreed ack st).pwr = s.pwr ∧ (s.sendHello port agreed ack st).out = s.out ∧
    (s.sendHello port agreed ack st).pending = s.pending := by
  exact ⟨rfl, rfl, rfl, rfl, rfl, rfl, rfl, rfl, rfl, rfl, rfl, rfl, rfl, rfl, rfl, rfl, rfl, rfl, rfl, rfl, rfl⟩

@[simp] theorem State.enterHello_keeps (s : State) (port : Nat) :
    (s.enterHello port).unit = s.unit ∧ (s.enterHello port).free = s.free ∧ (s.enterHello port).tick = s.tick ∧
    (s.enterHello port).regs = s.regs ∧ (s.enterHello port).host = s.host ∧ (s.enterHello port).sess = s.sess ∧
    (s.enterHello port).fab = s.fab ∧ (s.enterHello port).dir = s.dir ∧ (s.enterHello port).att = s.att ∧
    (s.enterHello port).beat = s.beat ∧ (s.enterHello port).emit = s.emit ∧ (s.enterHello port).text = s.text ∧
    (s.enterHello port).cores = s.cores ∧ (s.enterHello port).ret = s.ret ∧ (s.enterHello port).part = s.part ∧
    (s.enterHello port).sec = s.sec ∧ (s.enterHello port).ckpt = s.ckpt ∧ (s.enterHello port).mgmt = s.mgmt ∧
    (s.enterHello port).pwr = s.pwr ∧ (s.enterHello port).out = s.out ∧ (s.enterHello port).pending = s.pending := by
  exact ⟨rfl, rfl, rfl, rfl, rfl, rfl, rfl, rfl, rfl, rfl, rfl, rfl, rfl, rfl, rfl, rfl, rfl, rfl, rfl, rfl, rfl⟩

@[simp] theorem State.creditStallEnds_keeps (s : State) (m : Msg) :
    (s.creditStallEnds m).unit = s.unit ∧ (s.creditStallEnds m).free = s.free ∧ (s.creditStallEnds m).tick = s.tick ∧
    (s.creditStallEnds m).regs = s.regs ∧ (s.creditStallEnds m).ctrs = s.ctrs ∧ (s.creditStallEnds m).host = s.host ∧
    (s.creditStallEnds m).fab = s.fab ∧ (s.creditStallEnds m).dir = s.dir ∧ (s.creditStallEnds m).att = s.att ∧
    (s.creditStallEnds m).beat = s.beat ∧ (s.creditStallEnds m).emit = s.emit ∧ (s.creditStallEnds m).text = s.text ∧
    (s.creditStallEnds m).cores = s.cores ∧ (s.creditStallEnds m).ret = s.ret ∧ (s.creditStallEnds m).link = s.link ∧
    (s.creditStallEnds m).part = s.part ∧ (s.creditStallEnds m).sec = s.sec ∧ (s.creditStallEnds m).ckpt = s.ckpt ∧
    (s.creditStallEnds m).mgmt = s.mgmt ∧ (s.creditStallEnds m).pwr = s.pwr ∧ (s.creditStallEnds m).out = s.out ∧
    (s.creditStallEnds m).pending = s.pending := by
  simp [State.creditStallEnds]

@[simp] theorem State.dropSends_keeps (s : State) (port : Nat) :
    (s.dropSends port).unit = s.unit ∧ (s.dropSends port).free = s.free ∧ (s.dropSends port).tick = s.tick ∧
    (s.dropSends port).regs = s.regs ∧ (s.dropSends port).host = s.host ∧ (s.dropSends port).sess = s.sess ∧
    (s.dropSends port).dir = s.dir ∧ (s.dropSends port).att = s.att ∧ (s.dropSends port).beat = s.beat ∧
    (s.dropSends port).emit = s.emit ∧ (s.dropSends port).text = s.text ∧ (s.dropSends port).cores = s.cores ∧
    (s.dropSends port).ret = s.ret ∧ (s.dropSends port).part = s.part ∧ (s.dropSends port).sec = s.sec ∧
    (s.dropSends port).ckpt = s.ckpt ∧ (s.dropSends port).mgmt = s.mgmt ∧ (s.dropSends port).pwr = s.pwr ∧
    (s.dropSends port).out = s.out ∧ (s.dropSends port).pending = s.pending := by
  exact ⟨rfl, rfl, rfl, rfl, rfl, rfl, rfl, rfl, rfl, rfl, rfl, rfl, rfl, rfl, rfl, rfl, rfl, rfl, rfl, rfl⟩

@[simp] theorem State.portLeave_keeps (s : State) (port : Nat) :
    (s.portLeave port).unit = s.unit ∧ (s.portLeave port).free = s.free ∧ (s.portLeave port).tick = s.tick ∧
    (s.portLeave port).regs = s.regs ∧ (s.portLeave port).host = s.host ∧ (s.portLeave port).dir = s.dir ∧
    (s.portLeave port).att = s.att ∧ (s.portLeave port).beat = s.beat ∧ (s.portLeave port).emit = s.emit ∧
    (s.portLeave port).text = s.text ∧ (s.portLeave port).cores = s.cores ∧ (s.portLeave port).ret = s.ret ∧
    (s.portLeave port).part = s.part ∧ (s.portLeave port).sec = s.sec ∧ (s.portLeave port).ckpt = s.ckpt ∧
    (s.portLeave port).mgmt = s.mgmt ∧ (s.portLeave port).pwr = s.pwr ∧ (s.portLeave port).out = s.out ∧
    (s.portLeave port).pending = s.pending := by
  simp [State.portLeave]

@[simp] theorem State.portTo_keeps (s : State) (port : Nat) (st : PortSt) :
    (s.portTo port st).unit = s.unit ∧ (s.portTo port st).free = s.free ∧ (s.portTo port st).tick = s.tick ∧
    (s.portTo port st).regs = s.regs ∧ (s.portTo port st).host = s.host ∧ (s.portTo port st).dir = s.dir ∧
    (s.portTo port st).att = s.att ∧ (s.portTo port st).beat = s.beat ∧ (s.portTo port st).emit = s.emit ∧
    (s.portTo port st).text = s.text ∧ (s.portTo port st).cores = s.cores ∧ (s.portTo port st).ret = s.ret ∧
    (s.portTo port st).part = s.part ∧ (s.portTo port st).sec = s.sec ∧ (s.portTo port st).ckpt = s.ckpt ∧
    (s.portTo port st).mgmt = s.mgmt ∧ (s.portTo port st).pwr = s.pwr ∧ (s.portTo port st).out = s.out ∧
    (s.portTo port st).pending = s.pending := by
  simp [State.portTo]

@[simp] theorem State.portRestart_keeps (s : State) (port : Nat) :
    (s.portRestart port).unit = s.unit ∧ (s.portRestart port).free = s.free ∧ (s.portRestart port).tick = s.tick ∧
    (s.portRestart port).regs = s.regs ∧ (s.portRestart port).host = s.host ∧ (s.portRestart port).dir = s.dir ∧
    (s.portRestart port).att = s.att ∧ (s.portRestart port).beat = s.beat ∧ (s.portRestart port).emit = s.emit ∧
    (s.portRestart port).text = s.text ∧ (s.portRestart port).cores = s.cores ∧ (s.portRestart port).ret = s.ret ∧
    (s.portRestart port).part = s.part ∧ (s.portRestart port).sec = s.sec ∧ (s.portRestart port).ckpt = s.ckpt ∧
    (s.portRestart port).mgmt = s.mgmt ∧ (s.portRestart port).pwr = s.pwr ∧ (s.portRestart port).out = s.out ∧
    (s.portRestart port).pending = s.pending := by
  simp [State.portRestart]

@[simp] theorem State.linkRestart_keeps (s : State) (port : Nat) (value : Nat) :
    (s.linkRestart port value).unit = s.unit ∧ (s.linkRestart port value).free = s.free ∧
    (s.linkRestart port value).tick = s.tick ∧ (s.linkRestart port value).regs = s.regs ∧
    (s.linkRestart port value).host = s.host ∧ (s.linkRestart port value).dir = s.dir ∧ (s.linkRestart port value).att = s.att ∧
    (s.linkRestart port value).beat = s.beat ∧ (s.linkRestart port value).emit = s.emit ∧
    (s.linkRestart port value).text = s.text ∧ (s.linkRestart port value).cores = s.cores ∧
    (s.linkRestart port value).ret = s.ret ∧ (s.linkRestart port value).part = s.part ∧ (s.linkRestart port value).sec = s.sec ∧
    (s.linkRestart port value).ckpt = s.ckpt ∧ (s.linkRestart port value).mgmt = s.mgmt ∧ (s.linkRestart port value).pwr = s.pwr ∧
    (s.linkRestart port value).out = s.out ∧ (s.linkRestart port value).pending = s.pending := by
  simp [State.linkRestart]

@[simp] theorem State.linkEn_keeps (s : State) (port : Nat) (value : Nat) :
    (s.linkEn port value).unit = s.unit ∧ (s.linkEn port value).free = s.free ∧ (s.linkEn port value).tick = s.tick ∧
    (s.linkEn port value).regs = s.regs ∧ (s.linkEn port value).host = s.host ∧ (s.linkEn port value).att = s.att ∧
    (s.linkEn port value).beat = s.beat ∧ (s.linkEn port value).emit = s.emit ∧ (s.linkEn port value).text = s.text ∧
    (s.linkEn port value).cores = s.cores ∧ (s.linkEn port value).ret = s.ret ∧ (s.linkEn port value).part = s.part ∧
    (s.linkEn port value).sec = s.sec ∧ (s.linkEn port value).ckpt = s.ckpt ∧ (s.linkEn port value).mgmt = s.mgmt ∧
    (s.linkEn port value).pending = s.pending := by
  simp [State.linkEn]

@[simp] theorem State.linkFraming_keeps (s : State) (port : Nat) (value : Nat) :
    (s.linkFraming port value).unit = s.unit ∧ (s.linkFraming port value).free = s.free ∧
    (s.linkFraming port value).tick = s.tick ∧ (s.linkFraming port value).regs = s.regs ∧
    (s.linkFraming port value).host = s.host ∧ (s.linkFraming port value).dir = s.dir ∧ (s.linkFraming port value).att = s.att ∧
    (s.linkFraming port value).beat = s.beat ∧ (s.linkFraming port value).emit = s.emit ∧
    (s.linkFraming port value).text = s.text ∧ (s.linkFraming port value).cores = s.cores ∧
    (s.linkFraming port value).ret = s.ret ∧ (s.linkFraming port value).part = s.part ∧ (s.linkFraming port value).sec = s.sec ∧
    (s.linkFraming port value).ckpt = s.ckpt ∧ (s.linkFraming port value).mgmt = s.mgmt ∧ (s.linkFraming port value).pwr = s.pwr ∧
    (s.linkFraming port value).out = s.out ∧ (s.linkFraming port value).pending = s.pending := by
  simp [State.linkFraming]

@[simp] theorem State.sendOffer_keeps (s : State) (o : MoveOut) :
    (s.sendOffer o).unit = s.unit ∧ (s.sendOffer o).free = s.free ∧ (s.sendOffer o).tick = s.tick ∧ (s.sendOffer o).regs = s.regs ∧
    (s.sendOffer o).host = s.host ∧ (s.sendOffer o).sess = s.sess ∧ (s.sendOffer o).fab = s.fab ∧ (s.sendOffer o).dir = s.dir ∧
    (s.sendOffer o).att = s.att ∧ (s.sendOffer o).beat = s.beat ∧ (s.sendOffer o).emit = s.emit ∧ (s.sendOffer o).text = s.text ∧
    (s.sendOffer o).cores = s.cores ∧ (s.sendOffer o).ret = s.ret ∧ (s.sendOffer o).part = s.part ∧ (s.sendOffer o).sec = s.sec ∧
    (s.sendOffer o).ckpt = s.ckpt ∧ (s.sendOffer o).mgmt = s.mgmt ∧ (s.sendOffer o).pwr = s.pwr ∧ (s.sendOffer o).out = s.out ∧
    (s.sendOffer o).pending = s.pending := by
  simp [State.sendOffer]

@[simp] theorem State.portUp_keeps (s : State) (port : Nat) (cred : Nat → Nat) :
    (s.portUp port cred).unit = s.unit ∧ (s.portUp port cred).free = s.free ∧ (s.portUp port cred).tick = s.tick ∧
    (s.portUp port cred).regs = s.regs ∧ (s.portUp port cred).host = s.host ∧ (s.portUp port cred).sess = s.sess ∧
    (s.portUp port cred).fab = s.fab ∧ (s.portUp port cred).dir = s.dir ∧ (s.portUp port cred).att = s.att ∧
    (s.portUp port cred).beat = s.beat ∧ (s.portUp port cred).emit = s.emit ∧ (s.portUp port cred).text = s.text ∧
    (s.portUp port cred).cores = s.cores ∧ (s.portUp port cred).ret = s.ret ∧ (s.portUp port cred).part = s.part ∧
    (s.portUp port cred).sec = s.sec ∧ (s.portUp port cred).ckpt = s.ckpt ∧ (s.portUp port cred).mgmt = s.mgmt ∧
    (s.portUp port cred).pwr = s.pwr ∧ (s.portUp port cred).out = s.out ∧ (s.portUp port cred).pending = s.pending := by
  simp [State.portUp]

@[simp] theorem State.portRefused_keeps (s : State) (port : Nat) (code : Nat) :
    (s.portRefused port code).unit = s.unit ∧ (s.portRefused port code).free = s.free ∧ (s.portRefused port code).tick = s.tick ∧
    (s.portRefused port code).regs = s.regs ∧ (s.portRefused port code).host = s.host ∧ (s.portRefused port code).dir = s.dir ∧
    (s.portRefused port code).att = s.att ∧ (s.portRefused port code).beat = s.beat ∧ (s.portRefused port code).emit = s.emit ∧
    (s.portRefused port code).text = s.text ∧ (s.portRefused port code).cores = s.cores ∧ (s.portRefused port code).ret = s.ret ∧
    (s.portRefused port code).part = s.part ∧ (s.portRefused port code).sec = s.sec ∧ (s.portRefused port code).ckpt = s.ckpt ∧
    (s.portRefused port code).mgmt = s.mgmt ∧ (s.portRefused port code).pwr = s.pwr ∧ (s.portRefused port code).out = s.out ∧
    (s.portRefused port code).pending = s.pending := by
  simp [State.portRefused]

@[simp] theorem State.giveCredit_keeps (s : State) (port : Nat) (k : Nat) (n : Nat) :
    (s.giveCredit port k n).unit = s.unit ∧ (s.giveCredit port k n).free = s.free ∧ (s.giveCredit port k n).tick = s.tick ∧
    (s.giveCredit port k n).regs = s.regs ∧ (s.giveCredit port k n).ctrs = s.ctrs ∧ (s.giveCredit port k n).host = s.host ∧
    (s.giveCredit port k n).sess = s.sess ∧ (s.giveCredit port k n).fab = s.fab ∧ (s.giveCredit port k n).dir = s.dir ∧
    (s.giveCredit port k n).att = s.att ∧ (s.giveCredit port k n).beat = s.beat ∧ (s.giveCredit port k n).emit = s.emit ∧
    (s.giveCredit port k n).text = s.text ∧ (s.giveCredit port k n).cores = s.cores ∧ (s.giveCredit port k n).ret = s.ret ∧
    (s.giveCredit port k n).part = s.part ∧ (s.giveCredit port k n).sec = s.sec ∧ (s.giveCredit port k n).ckpt = s.ckpt ∧
    (s.giveCredit port k n).mgmt = s.mgmt ∧ (s.giveCredit port k n).pwr = s.pwr ∧ (s.giveCredit port k n).out = s.out ∧
    (s.giveCredit port k n).pending = s.pending := by
  exact ⟨rfl, rfl, rfl, rfl, rfl, rfl, rfl, rfl, rfl, rfl, rfl, rfl, rfl, rfl, rfl, rfl, rfl, rfl, rfl, rfl, rfl, rfl⟩

@[simp] theorem State.modVc_keeps (s : State) (port : Nat) (k : Nat) (f : PortVc → PortVc) :
    (s.modVc port k f).unit = s.unit ∧ (s.modVc port k f).free = s.free ∧ (s.modVc port k f).tick = s.tick ∧
    (s.modVc port k f).regs = s.regs ∧ (s.modVc port k f).ctrs = s.ctrs ∧ (s.modVc port k f).host = s.host ∧
    (s.modVc port k f).sess = s.sess ∧ (s.modVc port k f).fab = s.fab ∧ (s.modVc port k f).dir = s.dir ∧
    (s.modVc port k f).att = s.att ∧ (s.modVc port k f).beat = s.beat ∧ (s.modVc port k f).emit = s.emit ∧
    (s.modVc port k f).text = s.text ∧ (s.modVc port k f).cores = s.cores ∧ (s.modVc port k f).ret = s.ret ∧
    (s.modVc port k f).part = s.part ∧ (s.modVc port k f).sec = s.sec ∧ (s.modVc port k f).ckpt = s.ckpt ∧
    (s.modVc port k f).mgmt = s.mgmt ∧ (s.modVc port k f).pwr = s.pwr ∧ (s.modVc port k f).out = s.out ∧
    (s.modVc port k f).pending = s.pending := by
  exact ⟨rfl, rfl, rfl, rfl, rfl, rfl, rfl, rfl, rfl, rfl, rfl, rfl, rfl, rfl, rfl, rfl, rfl, rfl, rfl, rfl, rfl, rfl⟩

@[simp] theorem State.dropTrain_keeps (s : State) (port : Nat) (k : Nat) (skip : Bool) :
    (s.dropTrain port k skip).unit = s.unit ∧ (s.dropTrain port k skip).free = s.free ∧ (s.dropTrain port k skip).tick = s.tick ∧
    (s.dropTrain port k skip).regs = s.regs ∧ (s.dropTrain port k skip).ctrs = s.ctrs ∧ (s.dropTrain port k skip).host = s.host ∧
    (s.dropTrain port k skip).sess = s.sess ∧ (s.dropTrain port k skip).fab = s.fab ∧ (s.dropTrain port k skip).dir = s.dir ∧
    (s.dropTrain port k skip).att = s.att ∧ (s.dropTrain port k skip).beat = s.beat ∧ (s.dropTrain port k skip).emit = s.emit ∧
    (s.dropTrain port k skip).text = s.text ∧ (s.dropTrain port k skip).cores = s.cores ∧ (s.dropTrain port k skip).ret = s.ret ∧
    (s.dropTrain port k skip).part = s.part ∧ (s.dropTrain port k skip).sec = s.sec ∧ (s.dropTrain port k skip).ckpt = s.ckpt ∧
    (s.dropTrain port k skip).mgmt = s.mgmt ∧ (s.dropTrain port k skip).pwr = s.pwr ∧ (s.dropTrain port k skip).out = s.out ∧
    (s.dropTrain port k skip).pending = s.pending := by
  exact ⟨rfl, rfl, rfl, rfl, rfl, rfl, rfl, rfl, rfl, rfl, rfl, rfl, rfl, rfl, rfl, rfl, rfl, rfl, rfl, rfl, rfl, rfl⟩

@[simp] theorem State.deliver_keeps (s : State) (port : Nat) (k : Nat) (src : Nat) (b : Bytes) :
    (s.deliver port k src b).unit = s.unit ∧ (s.deliver port k src b).free = s.free ∧ (s.deliver port k src b).tick = s.tick ∧
    (s.deliver port k src b).regs = s.regs ∧ (s.deliver port k src b).host = s.host ∧ (s.deliver port k src b).sess = s.sess ∧
    (s.deliver port k src b).fab = s.fab ∧ (s.deliver port k src b).dir = s.dir ∧ (s.deliver port k src b).att = s.att ∧
    (s.deliver port k src b).beat = s.beat ∧ (s.deliver port k src b).emit = s.emit ∧ (s.deliver port k src b).text = s.text ∧
    (s.deliver port k src b).cores = s.cores ∧ (s.deliver port k src b).ret = s.ret ∧ (s.deliver port k src b).part = s.part ∧
    (s.deliver port k src b).sec = s.sec ∧ (s.deliver port k src b).ckpt = s.ckpt ∧ (s.deliver port k src b).mgmt = s.mgmt ∧
    (s.deliver port k src b).pwr = s.pwr ∧ (s.deliver port k src b).out = s.out ∧ (s.deliver port k src b).pending = s.pending := by
  simp [State.deliver]

@[simp] theorem State.drainTrain_keeps (s : State) (port : Nat) (k : Nat) :
    (s.drainTrain port k).unit = s.unit ∧ (s.drainTrain port k).free = s.free ∧ (s.drainTrain port k).tick = s.tick ∧
    (s.drainTrain port k).regs = s.regs ∧ (s.drainTrain port k).ctrs = s.ctrs ∧ (s.drainTrain port k).host = s.host ∧
    (s.drainTrain port k).sess = s.sess ∧ (s.drainTrain port k).fab = s.fab ∧ (s.drainTrain port k).dir = s.dir ∧
    (s.drainTrain port k).att = s.att ∧ (s.drainTrain port k).beat = s.beat ∧ (s.drainTrain port k).emit = s.emit ∧
    (s.drainTrain port k).text = s.text ∧ (s.drainTrain port k).cores = s.cores ∧ (s.drainTrain port k).ret = s.ret ∧
    (s.drainTrain port k).part = s.part ∧ (s.drainTrain port k).sec = s.sec ∧ (s.drainTrain port k).ckpt = s.ckpt ∧
    (s.drainTrain port k).mgmt = s.mgmt ∧ (s.drainTrain port k).pwr = s.pwr ∧ (s.drainTrain port k).out = s.out ∧
    (s.drainTrain port k).pending = s.pending := by
  simp [State.drainTrain]

@[simp] theorem State.rxTrain_keeps (s : State) (port : Nat) (q : RxPart) (c : Nat) (gap : Nat) :
    (s.rxTrain port q c gap).unit = s.unit ∧ (s.rxTrain port q c gap).free = s.free ∧ (s.rxTrain port q c gap).tick = s.tick ∧
    (s.rxTrain port q c gap).regs = s.regs ∧ (s.rxTrain port q c gap).host = s.host ∧ (s.rxTrain port q c gap).sess = s.sess ∧
    (s.rxTrain port q c gap).fab = s.fab ∧ (s.rxTrain port q c gap).dir = s.dir ∧ (s.rxTrain port q c gap).att = s.att ∧
    (s.rxTrain port q c gap).beat = s.beat ∧ (s.rxTrain port q c gap).emit = s.emit ∧ (s.rxTrain port q c gap).text = s.text ∧
    (s.rxTrain port q c gap).cores = s.cores ∧ (s.rxTrain port q c gap).ret = s.ret ∧ (s.rxTrain port q c gap).part = s.part ∧
    (s.rxTrain port q c gap).sec = s.sec ∧ (s.rxTrain port q c gap).ckpt = s.ckpt ∧ (s.rxTrain port q c gap).mgmt = s.mgmt ∧
    (s.rxTrain port q c gap).pwr = s.pwr ∧ (s.rxTrain port q c gap).out = s.out ∧ (s.rxTrain port q c gap).pending = s.pending := by
  simp [State.rxTrain]

@[simp] theorem State.rxStray_keeps (s : State) (port : Nat) (q : RxPart) (c : Nat) (gap : Nat) :
    (s.rxStray port q c gap).unit = s.unit ∧ (s.rxStray port q c gap).free = s.free ∧ (s.rxStray port q c gap).tick = s.tick ∧
    (s.rxStray port q c gap).regs = s.regs ∧ (s.rxStray port q c gap).host = s.host ∧ (s.rxStray port q c gap).sess = s.sess ∧
    (s.rxStray port q c gap).fab = s.fab ∧ (s.rxStray port q c gap).dir = s.dir ∧ (s.rxStray port q c gap).att = s.att ∧
    (s.rxStray port q c gap).beat = s.beat ∧ (s.rxStray port q c gap).emit = s.emit ∧ (s.rxStray port q c gap).text = s.text ∧
    (s.rxStray port q c gap).cores = s.cores ∧ (s.rxStray port q c gap).ret = s.ret ∧ (s.rxStray port q c gap).part = s.part ∧
    (s.rxStray port q c gap).sec = s.sec ∧ (s.rxStray port q c gap).ckpt = s.ckpt ∧ (s.rxStray port q c gap).mgmt = s.mgmt ∧
    (s.rxStray port q c gap).pwr = s.pwr ∧ (s.rxStray port q c gap).out = s.out ∧ (s.rxStray port q c gap).pending = s.pending := by
  simp [State.rxStray]

@[simp] theorem State.rxJoin_keeps (s : State) (port : Nat) (q : RxPart) (c : Nat) :
    (s.rxJoin port q c).unit = s.unit ∧ (s.rxJoin port q c).free = s.free ∧ (s.rxJoin port q c).tick = s.tick ∧
    (s.rxJoin port q c).regs = s.regs ∧ (s.rxJoin port q c).host = s.host ∧ (s.rxJoin port q c).sess = s.sess ∧
    (s.rxJoin port q c).fab = s.fab ∧ (s.rxJoin port q c).dir = s.dir ∧ (s.rxJoin port q c).att = s.att ∧
    (s.rxJoin port q c).beat = s.beat ∧ (s.rxJoin port q c).emit = s.emit ∧ (s.rxJoin port q c).text = s.text ∧
    (s.rxJoin port q c).cores = s.cores ∧ (s.rxJoin port q c).ret = s.ret ∧ (s.rxJoin port q c).part = s.part ∧
    (s.rxJoin port q c).sec = s.sec ∧ (s.rxJoin port q c).ckpt = s.ckpt ∧ (s.rxJoin port q c).mgmt = s.mgmt ∧
    (s.rxJoin port q c).pwr = s.pwr ∧ (s.rxJoin port q c).out = s.out ∧ (s.rxJoin port q c).pending = s.pending := by
  unfold State.rxJoin; dsimp only; (repeat' split) <;> simp

@[simp] theorem State.rxPart_keeps (s : State) (port : Nat) (q : RxPart) :
    (s.rxPart port q).unit = s.unit ∧ (s.rxPart port q).free = s.free ∧ (s.rxPart port q).tick = s.tick ∧
    (s.rxPart port q).regs = s.regs ∧ (s.rxPart port q).host = s.host ∧ (s.rxPart port q).sess = s.sess ∧
    (s.rxPart port q).fab = s.fab ∧ (s.rxPart port q).dir = s.dir ∧ (s.rxPart port q).att = s.att ∧
    (s.rxPart port q).beat = s.beat ∧ (s.rxPart port q).emit = s.emit ∧ (s.rxPart port q).text = s.text ∧
    (s.rxPart port q).cores = s.cores ∧ (s.rxPart port q).ret = s.ret ∧ (s.rxPart port q).part = s.part ∧
    (s.rxPart port q).sec = s.sec ∧ (s.rxPart port q).ckpt = s.ckpt ∧ (s.rxPart port q).mgmt = s.mgmt ∧
    (s.rxPart port q).pwr = s.pwr ∧ (s.rxPart port q).out = s.out ∧ (s.rxPart port q).pending = s.pending := by
  unfold State.rxPart; dsimp only; (repeat' split) <;> simp

@[simp] theorem State.rxEther_keeps (s : State) (port : Nat) (f : Bytes) :
    (s.rxEther port f).unit = s.unit ∧ (s.rxEther port f).free = s.free ∧ (s.rxEther port f).tick = s.tick ∧
    (s.rxEther port f).regs = s.regs ∧ (s.rxEther port f).host = s.host ∧ (s.rxEther port f).sess = s.sess ∧
    (s.rxEther port f).fab = s.fab ∧ (s.rxEther port f).dir = s.dir ∧ (s.rxEther port f).att = s.att ∧
    (s.rxEther port f).beat = s.beat ∧ (s.rxEther port f).emit = s.emit ∧ (s.rxEther port f).text = s.text ∧
    (s.rxEther port f).cores = s.cores ∧ (s.rxEther port f).ret = s.ret ∧ (s.rxEther port f).part = s.part ∧
    (s.rxEther port f).sec = s.sec ∧ (s.rxEther port f).ckpt = s.ckpt ∧ (s.rxEther port f).mgmt = s.mgmt ∧
    (s.rxEther port f).pwr = s.pwr ∧ (s.rxEther port f).out = s.out ∧ (s.rxEther port f).pending = s.pending := by
  unfold State.rxEther; dsimp only; (repeat' split) <;> simp

@[simp] theorem State.rxFlit_keeps (s : State) (port : Nat) (f : Bytes) :
    (s.rxFlit port f).unit = s.unit ∧ (s.rxFlit port f).free = s.free ∧ (s.rxFlit port f).tick = s.tick ∧
    (s.rxFlit port f).regs = s.regs ∧ (s.rxFlit port f).host = s.host ∧ (s.rxFlit port f).sess = s.sess ∧
    (s.rxFlit port f).fab = s.fab ∧ (s.rxFlit port f).dir = s.dir ∧ (s.rxFlit port f).att = s.att ∧
    (s.rxFlit port f).beat = s.beat ∧ (s.rxFlit port f).emit = s.emit ∧ (s.rxFlit port f).text = s.text ∧
    (s.rxFlit port f).cores = s.cores ∧ (s.rxFlit port f).ret = s.ret ∧ (s.rxFlit port f).part = s.part ∧
    (s.rxFlit port f).sec = s.sec ∧ (s.rxFlit port f).ckpt = s.ckpt ∧ (s.rxFlit port f).mgmt = s.mgmt ∧
    (s.rxFlit port f).pwr = s.pwr ∧ (s.rxFlit port f).out = s.out ∧ (s.rxFlit port f).pending = s.pending := by
  simp [State.rxFlit]

@[simp] theorem State.turnaround_keeps (s : State) (port : Nat) (since : Nat) (ticks : Nat) :
    (s.turnaround port since ticks).unit = s.unit ∧ (s.turnaround port since ticks).free = s.free ∧
    (s.turnaround port since ticks).tick = s.tick ∧ (s.turnaround port since ticks).ctrs = s.ctrs ∧
    (s.turnaround port since ticks).host = s.host ∧ (s.turnaround port since ticks).sess = s.sess ∧
    (s.turnaround port since ticks).fab = s.fab ∧ (s.turnaround port since ticks).dir = s.dir ∧
    (s.turnaround port since ticks).att = s.att ∧ (s.turnaround port since ticks).beat = s.beat ∧
    (s.turnaround port since ticks).emit = s.emit ∧ (s.turnaround port since ticks).text = s.text ∧
    (s.turnaround port since ticks).cores = s.cores ∧ (s.turnaround port since ticks).ret = s.ret ∧
    (s.turnaround port since ticks).link = s.link ∧ (s.turnaround port since ticks).part = s.part ∧
    (s.turnaround port since ticks).sec = s.sec ∧ (s.turnaround port since ticks).ckpt = s.ckpt ∧
    (s.turnaround port since ticks).mgmt = s.mgmt ∧ (s.turnaround port since ticks).pwr = s.pwr ∧
    (s.turnaround port since ticks).out = s.out ∧ (s.turnaround port since ticks).pending = s.pending := by
  unfold State.turnaround
  split <;> simp

@[simp] theorem State.tokenLeft_keeps (s : State) (m : Msg) :
    (s.tokenLeft m).unit = s.unit ∧ (s.tokenLeft m).free = s.free ∧ (s.tokenLeft m).tick = s.tick ∧ (s.tokenLeft m).regs = s.regs ∧
    (s.tokenLeft m).emit = s.emit ∧ (s.tokenLeft m).ret = s.ret ∧ (s.tokenLeft m).sec = s.sec ∧ (s.tokenLeft m).ckpt = s.ckpt ∧
    (s.tokenLeft m).mgmt = s.mgmt ∧ (s.tokenLeft m).pwr = s.pwr ∧ (s.tokenLeft m).pending = s.pending := by
  simp [State.tokenLeft]

@[simp] theorem State.countAnswer_keeps (s : State) (port : Nat) (m : Msg) :
    (s.countAnswer port m).unit = s.unit ∧ (s.countAnswer port m).free = s.free ∧ (s.countAnswer port m).tick = s.tick ∧
    (s.countAnswer port m).regs = s.regs ∧ (s.countAnswer port m).host = s.host ∧ (s.countAnswer port m).sess = s.sess ∧
    (s.countAnswer port m).fab = s.fab ∧ (s.countAnswer port m).dir = s.dir ∧ (s.countAnswer port m).att = s.att ∧
    (s.countAnswer port m).beat = s.beat ∧ (s.countAnswer port m).emit = s.emit ∧ (s.countAnswer port m).text = s.text ∧
    (s.countAnswer port m).cores = s.cores ∧ (s.countAnswer port m).ret = s.ret ∧ (s.countAnswer port m).link = s.link ∧
    (s.countAnswer port m).part = s.part ∧ (s.countAnswer port m).sec = s.sec ∧ (s.countAnswer port m).ckpt = s.ckpt ∧
    (s.countAnswer port m).mgmt = s.mgmt ∧ (s.countAnswer port m).pwr = s.pwr ∧ (s.countAnswer port m).out = s.out ∧
    (s.countAnswer port m).pending = s.pending := by
  unfold State.countAnswer
  split <;> simp

@[simp] theorem State.msgLeft_keeps (s : State) (port : Nat) (ticks : Nat) (m : Msg) :
    (s.msgLeft port ticks m).unit = s.unit ∧ (s.msgLeft port ticks m).free = s.free ∧ (s.msgLeft port ticks m).tick = s.tick ∧
    (s.msgLeft port ticks m).emit = s.emit ∧ (s.msgLeft port ticks m).ret = s.ret ∧ (s.msgLeft port ticks m).sec = s.sec ∧
    (s.msgLeft port ticks m).ckpt = s.ckpt ∧ (s.msgLeft port ticks m).mgmt = s.mgmt ∧ (s.msgLeft port ticks m).pwr = s.pwr ∧
    (s.msgLeft port ticks m).pending = s.pending := by
  unfold State.msgLeft
  split <;> simp

@[simp] theorem State.startFrame_keeps (s : State) (port : Nat) (k : Nat) (m : Msg) (f : NextFrame) :
    (s.startFrame port k m f).unit = s.unit ∧ (s.startFrame port k m f).free = s.free ∧ (s.startFrame port k m f).tick = s.tick ∧
    (s.startFrame port k m f).emit = s.emit ∧ (s.startFrame port k m f).ret = s.ret ∧ (s.startFrame port k m f).sec = s.sec ∧
    (s.startFrame port k m f).ckpt = s.ckpt ∧ (s.startFrame port k m f).mgmt = s.mgmt ∧ (s.startFrame port k m f).pwr = s.pwr ∧
    (s.startFrame port k m f).pending = s.pending := by
  simp [State.startFrame]

@[simp] theorem State.countGate_keeps (s : State) (port : Nat) (k : Nat) :
    (s.countGate port k).unit = s.unit ∧ (s.countGate port k).free = s.free ∧ (s.countGate port k).tick = s.tick ∧
    (s.countGate port k).regs = s.regs ∧ (s.countGate port k).host = s.host ∧ (s.countGate port k).sess = s.sess ∧
    (s.countGate port k).fab = s.fab ∧ (s.countGate port k).dir = s.dir ∧ (s.countGate port k).att = s.att ∧
    (s.countGate port k).beat = s.beat ∧ (s.countGate port k).emit = s.emit ∧ (s.countGate port k).text = s.text ∧
    (s.countGate port k).cores = s.cores ∧ (s.countGate port k).ret = s.ret ∧ (s.countGate port k).part = s.part ∧
    (s.countGate port k).sec = s.sec ∧ (s.countGate port k).ckpt = s.ckpt ∧ (s.countGate port k).mgmt = s.mgmt ∧
    (s.countGate port k).pwr = s.pwr ∧ (s.countGate port k).out = s.out ∧ (s.countGate port k).pending = s.pending := by
  unfold State.countGate
  split <;> simp

@[simp] theorem State.creditStall_keeps (s : State) (m : Msg) :
    (s.creditStall m).unit = s.unit ∧ (s.creditStall m).free = s.free ∧ (s.creditStall m).tick = s.tick ∧
    (s.creditStall m).regs = s.regs ∧ (s.creditStall m).host = s.host ∧ (s.creditStall m).fab = s.fab ∧
    (s.creditStall m).dir = s.dir ∧ (s.creditStall m).att = s.att ∧ (s.creditStall m).beat = s.beat ∧
    (s.creditStall m).emit = s.emit ∧ (s.creditStall m).text = s.text ∧ (s.creditStall m).cores = s.cores ∧
    (s.creditStall m).ret = s.ret ∧ (s.creditStall m).link = s.link ∧ (s.creditStall m).part = s.part ∧
    (s.creditStall m).sec = s.sec ∧ (s.creditStall m).ckpt = s.ckpt ∧ (s.creditStall m).mgmt = s.mgmt ∧
    (s.creditStall m).pwr = s.pwr ∧ (s.creditStall m).out = s.out ∧ (s.creditStall m).pending = s.pending := by
  simp [State.creditStall]

@[simp] theorem State.countCredit_keeps (s : State) (port : Nat) (k : Nat) :
    (s.countCredit port k).unit = s.unit ∧ (s.countCredit port k).free = s.free ∧ (s.countCredit port k).tick = s.tick ∧
    (s.countCredit port k).regs = s.regs ∧ (s.countCredit port k).host = s.host ∧ (s.countCredit port k).fab = s.fab ∧
    (s.countCredit port k).dir = s.dir ∧ (s.countCredit port k).att = s.att ∧ (s.countCredit port k).beat = s.beat ∧
    (s.countCredit port k).emit = s.emit ∧ (s.countCredit port k).text = s.text ∧ (s.countCredit port k).cores = s.cores ∧
    (s.countCredit port k).ret = s.ret ∧ (s.countCredit port k).part = s.part ∧ (s.countCredit port k).sec = s.sec ∧
    (s.countCredit port k).ckpt = s.ckpt ∧ (s.countCredit port k).mgmt = s.mgmt ∧ (s.countCredit port k).pwr = s.pwr ∧
    (s.countCredit port k).out = s.out ∧ (s.countCredit port k).pending = s.pending := by
  unfold State.countCredit; dsimp only; (repeat' split) <;> simp

@[simp] theorem State.moveAnswer_keeps (s : State) (port : Nat) (sub : Nat) (st : Status) (b : MoveBody) :
    (s.moveAnswer port sub st b).unit = s.unit ∧ (s.moveAnswer port sub st b).free = s.free ∧
    (s.moveAnswer port sub st b).tick = s.tick ∧ (s.moveAnswer port sub st b).regs = s.regs ∧
    (s.moveAnswer port sub st b).host = s.host ∧ (s.moveAnswer port sub st b).sess = s.sess ∧
    (s.moveAnswer port sub st b).fab = s.fab ∧ (s.moveAnswer port sub st b).dir = s.dir ∧
    (s.moveAnswer port sub st b).att = s.att ∧ (s.moveAnswer port sub st b).beat = s.beat ∧
    (s.moveAnswer port sub st b).emit = s.emit ∧ (s.moveAnswer port sub st b).text = s.text ∧
    (s.moveAnswer port sub st b).cores = s.cores ∧ (s.moveAnswer port sub st b).ret = s.ret ∧
    (s.moveAnswer port sub st b).part = s.part ∧ (s.moveAnswer port sub st b).sec = s.sec ∧
    (s.moveAnswer port sub st b).ckpt = s.ckpt ∧ (s.moveAnswer port sub st b).mgmt = s.mgmt ∧
    (s.moveAnswer port sub st b).pwr = s.pwr ∧ (s.moveAnswer port sub st b).out = s.out ∧
    (s.moveAnswer port sub st b).pending = s.pending := by
  simp [State.moveAnswer]

@[simp] theorem State.moveApply_keeps (s : State) (m : MoveIn) :
    (s.moveApply m).unit = s.unit ∧ (s.moveApply m).tick = s.tick ∧ (s.moveApply m).regs = s.regs ∧ (s.moveApply m).emit = s.emit ∧
    (s.moveApply m).text = s.text ∧ (s.moveApply m).ret = s.ret ∧ (s.moveApply m).sec = s.sec ∧ (s.moveApply m).mgmt = s.mgmt ∧
    (s.moveApply m).pwr = s.pwr ∧ (s.moveApply m).pending = s.pending := by
  simp [State.moveApply]

@[simp] theorem State.moveReserve_keeps (s : State) (m : MoveIn) (b : MoveBody) :
    (s.moveReserve m b).unit = s.unit ∧ (s.moveReserve m b).tick = s.tick ∧ (s.moveReserve m b).regs = s.regs ∧
    (s.moveReserve m b).emit = s.emit ∧ (s.moveReserve m b).text = s.text ∧ (s.moveReserve m b).ret = s.ret ∧
    (s.moveReserve m b).sec = s.sec ∧ (s.moveReserve m b).mgmt = s.mgmt ∧ (s.moveReserve m b).pwr = s.pwr ∧
    (s.moveReserve m b).pending = s.pending := by
  simp [State.moveReserve]

@[simp] theorem State.modOut_keeps (s : State) (id : Nat) (f : MoveOut → MoveOut) :
    (s.modOut id f).unit = s.unit ∧ (s.modOut id f).free = s.free ∧ (s.modOut id f).tick = s.tick ∧ (s.modOut id f).regs = s.regs ∧
    (s.modOut id f).ctrs = s.ctrs ∧ (s.modOut id f).host = s.host ∧ (s.modOut id f).sess = s.sess ∧ (s.modOut id f).fab = s.fab ∧
    (s.modOut id f).dir = s.dir ∧ (s.modOut id f).att = s.att ∧ (s.modOut id f).beat = s.beat ∧ (s.modOut id f).emit = s.emit ∧
    (s.modOut id f).text = s.text ∧ (s.modOut id f).cores = s.cores ∧ (s.modOut id f).ret = s.ret ∧ (s.modOut id f).part = s.part ∧
    (s.modOut id f).sec = s.sec ∧ (s.modOut id f).ckpt = s.ckpt ∧ (s.modOut id f).mgmt = s.mgmt ∧ (s.modOut id f).pwr = s.pwr ∧
    (s.modOut id f).out = s.out ∧ (s.modOut id f).pending = s.pending := by
  exact ⟨rfl, rfl, rfl, rfl, rfl, rfl, rfl, rfl, rfl, rfl, rfl, rfl, rfl, rfl, rfl, rfl, rfl, rfl, rfl, rfl, rfl, rfl⟩

@[simp] theorem State.commitExport_keeps (s : State) (o : MoveOut) :
    (s.commitExport o).unit = s.unit ∧ (s.commitExport o).free = s.free ∧ (s.commitExport o).tick = s.tick ∧
    (s.commitExport o).regs = s.regs ∧ (s.commitExport o).att = s.att ∧ (s.commitExport o).emit = s.emit ∧
    (s.commitExport o).text = s.text ∧ (s.commitExport o).ret = s.ret ∧ (s.commitExport o).sec = s.sec ∧
    (s.commitExport o).ckpt = s.ckpt ∧ (s.commitExport o).mgmt = s.mgmt ∧ (s.commitExport o).pwr = s.pwr ∧
    (s.commitExport o).pending = s.pending := by
  simp [State.commitExport]

@[simp] theorem State.sendLogs_keeps (s : State) (o : MoveOut) :
    (s.sendLogs o).unit = s.unit ∧ (s.sendLogs o).free = s.free ∧ (s.sendLogs o).tick = s.tick ∧ (s.sendLogs o).regs = s.regs ∧
    (s.sendLogs o).host = s.host ∧ (s.sendLogs o).sess = s.sess ∧ (s.sendLogs o).fab = s.fab ∧ (s.sendLogs o).dir = s.dir ∧
    (s.sendLogs o).att = s.att ∧ (s.sendLogs o).beat = s.beat ∧ (s.sendLogs o).emit = s.emit ∧ (s.sendLogs o).text = s.text ∧
    (s.sendLogs o).cores = s.cores ∧ (s.sendLogs o).ret = s.ret ∧ (s.sendLogs o).part = s.part ∧ (s.sendLogs o).sec = s.sec ∧
    (s.sendLogs o).ckpt = s.ckpt ∧ (s.sendLogs o).mgmt = s.mgmt ∧ (s.sendLogs o).pwr = s.pwr ∧ (s.sendLogs o).out = s.out ∧
    (s.sendLogs o).pending = s.pending := by
  simp [State.sendLogs]

@[simp] theorem State.sendKv_keeps (s : State) (o : MoveOut) (from_ : Nat) :
    (s.sendKv o from_).unit = s.unit ∧ (s.sendKv o from_).free = s.free ∧ (s.sendKv o from_).tick = s.tick ∧
    (s.sendKv o from_).regs = s.regs ∧ (s.sendKv o from_).dir = s.dir ∧ (s.sendKv o from_).att = s.att ∧
    (s.sendKv o from_).emit = s.emit ∧ (s.sendKv o from_).text = s.text ∧ (s.sendKv o from_).cores = s.cores ∧
    (s.sendKv o from_).ret = s.ret ∧ (s.sendKv o from_).sec = s.sec ∧ (s.sendKv o from_).ckpt = s.ckpt ∧
    (s.sendKv o from_).mgmt = s.mgmt ∧ (s.sendKv o from_).pwr = s.pwr ∧ (s.sendKv o from_).out = s.out ∧
    (s.sendKv o from_).pending = s.pending := by
  simp [State.sendKv]

@[simp] theorem State.exportEnds_keeps (s : State) (o : MoveOut) (code : Nat) :
    (s.exportEnds o code).unit = s.unit ∧ (s.exportEnds o code).free = s.free ∧ (s.exportEnds o code).tick = s.tick ∧
    (s.exportEnds o code).regs = s.regs ∧ (s.exportEnds o code).emit = s.emit ∧ (s.exportEnds o code).text = s.text ∧
    (s.exportEnds o code).ret = s.ret ∧ (s.exportEnds o code).sec = s.sec ∧ (s.exportEnds o code).mgmt = s.mgmt ∧
    (s.exportEnds o code).pwr = s.pwr ∧ (s.exportEnds o code).pending = s.pending := by
  simp [State.exportEnds]

@[simp] theorem State.blowFuses_keeps (s : State) :
    s.blowFuses.unit = s.unit ∧ s.blowFuses.free = s.free ∧ s.blowFuses.tick = s.tick ∧ s.blowFuses.regs = s.regs ∧
    s.blowFuses.ctrs = s.ctrs ∧ s.blowFuses.host = s.host ∧ s.blowFuses.sess = s.sess ∧ s.blowFuses.fab = s.fab ∧
    s.blowFuses.dir = s.dir ∧ s.blowFuses.att = s.att ∧ s.blowFuses.beat = s.beat ∧ s.blowFuses.emit = s.emit ∧
    s.blowFuses.text = s.text ∧ s.blowFuses.cores = s.cores ∧ s.blowFuses.ret = s.ret ∧ s.blowFuses.link = s.link ∧
    s.blowFuses.part = s.part ∧ s.blowFuses.ckpt = s.ckpt ∧ s.blowFuses.mgmt = s.mgmt ∧ s.blowFuses.pwr = s.pwr ∧
    s.blowFuses.out = s.out ∧ s.blowFuses.pending = s.pending := by
  unfold State.blowFuses
  simp

@[simp] theorem State.ignoreUnheard_keeps (s : State) :
    s.ignoreUnheard.unit = s.unit ∧ s.ignoreUnheard.free = s.free ∧ s.ignoreUnheard.tick = s.tick ∧ s.ignoreUnheard.regs = s.regs ∧
    s.ignoreUnheard.sess = s.sess ∧ s.ignoreUnheard.fab = s.fab ∧ s.ignoreUnheard.dir = s.dir ∧ s.ignoreUnheard.att = s.att ∧
    s.ignoreUnheard.beat = s.beat ∧ s.ignoreUnheard.emit = s.emit ∧ s.ignoreUnheard.text = s.text ∧
    s.ignoreUnheard.cores = s.cores ∧ s.ignoreUnheard.ret = s.ret ∧ s.ignoreUnheard.link = s.link ∧ s.ignoreUnheard.part = s.part ∧
    s.ignoreUnheard.sec = s.sec ∧ s.ignoreUnheard.ckpt = s.ckpt ∧ s.ignoreUnheard.pwr = s.pwr ∧
    s.ignoreUnheard.pending = s.pending := by
  simp [State.ignoreUnheard]

@[simp] theorem State.meterAll_keeps (s : State) :
    s.meterAll.unit = s.unit ∧ s.meterAll.free = s.free ∧ s.meterAll.tick = s.tick ∧ s.meterAll.regs = s.regs ∧
    s.meterAll.ctrs = s.ctrs ∧ s.meterAll.host = s.host ∧ s.meterAll.sess = s.sess ∧ s.meterAll.fab = s.fab ∧
    s.meterAll.dir = s.dir ∧ s.meterAll.att = s.att ∧ s.meterAll.beat = s.beat ∧ s.meterAll.emit = s.emit ∧
    s.meterAll.text = s.text ∧ s.meterAll.cores = s.cores ∧ s.meterAll.ret = s.ret ∧ s.meterAll.link = s.link ∧
    s.meterAll.sec = s.sec ∧ s.meterAll.ckpt = s.ckpt ∧ s.meterAll.mgmt = s.mgmt ∧ s.meterAll.pwr = s.pwr ∧
    s.meterAll.out = s.out ∧ s.meterAll.pending = s.pending := by
  simp [State.meterAll]

@[simp] theorem State.domainReset_keeps (s : State) :
    s.domainReset.unit = s.unit ∧ s.domainReset.free = s.free ∧ s.domainReset.tick = s.tick ∧ s.domainReset.regs = s.regs ∧
    s.domainReset.sess = s.sess ∧ s.domainReset.fab = s.fab ∧ s.domainReset.dir = s.dir ∧ s.domainReset.att = s.att ∧
    s.domainReset.beat = s.beat ∧ s.domainReset.emit = s.emit ∧ s.domainReset.text = s.text ∧ s.domainReset.cores = s.cores ∧
    s.domainReset.ret = s.ret ∧ s.domainReset.link = s.link ∧ s.domainReset.part = s.part ∧ s.domainReset.ckpt = s.ckpt ∧
    s.domainReset.pwr = s.pwr ∧ s.domainReset.pending = s.pending ∧ s.domainReset.sec.fuseSvn = s.sec.fuseSvn ∧
    s.domainReset.sec.revoked = s.sec.revoked ∧ s.domainReset.sec.slots = s.sec.slots := by
  simp [State.domainReset]

@[simp] theorem State.reply_keeps (s : State) (r : MReq) (st : Status) (b : Bytes) :
    (s.reply r st b).unit = s.unit ∧ (s.reply r st b).free = s.free ∧ (s.reply r st b).tick = s.tick ∧
    (s.reply r st b).regs = s.regs ∧ (s.reply r st b).sess = s.sess ∧ (s.reply r st b).fab = s.fab ∧ (s.reply r st b).dir = s.dir ∧
    (s.reply r st b).att = s.att ∧ (s.reply r st b).beat = s.beat ∧ (s.reply r st b).emit = s.emit ∧
    (s.reply r st b).text = s.text ∧ (s.reply r st b).cores = s.cores ∧ (s.reply r st b).ret = s.ret ∧
    (s.reply r st b).link = s.link ∧ (s.reply r st b).part = s.part ∧ (s.reply r st b).sec = s.sec ∧
    (s.reply r st b).ckpt = s.ckpt ∧ (s.reply r st b).pwr = s.pwr ∧ (s.reply r st b).pending = s.pending := by
  unfold State.reply
  split <;> simp

@[simp] theorem State.setSlot_keeps (s : State) (n : Nat) (w : FwSlot) :
    (s.setSlot n w).unit = s.unit ∧ (s.setSlot n w).free = s.free ∧ (s.setSlot n w).tick = s.tick ∧ (s.setSlot n w).regs = s.regs ∧
    (s.setSlot n w).ctrs = s.ctrs ∧ (s.setSlot n w).host = s.host ∧ (s.setSlot n w).sess = s.sess ∧ (s.setSlot n w).fab = s.fab ∧
    (s.setSlot n w).dir = s.dir ∧ (s.setSlot n w).att = s.att ∧ (s.setSlot n w).beat = s.beat ∧ (s.setSlot n w).emit = s.emit ∧
    (s.setSlot n w).text = s.text ∧ (s.setSlot n w).cores = s.cores ∧ (s.setSlot n w).ret = s.ret ∧ (s.setSlot n w).link = s.link ∧
    (s.setSlot n w).part = s.part ∧ (s.setSlot n w).ckpt = s.ckpt ∧ (s.setSlot n w).mgmt = s.mgmt ∧ (s.setSlot n w).pwr = s.pwr ∧
    (s.setSlot n w).out = s.out ∧ (s.setSlot n w).pending = s.pending ∧ (s.setSlot n w).sec.fuseSvn = s.sec.fuseSvn ∧
    (s.setSlot n w).sec.revoked = s.sec.revoked := by
  exact ⟨rfl, rfl, rfl, rfl, rfl, rfl, rfl, rfl, rfl, rfl, rfl, rfl, rfl, rfl, rfl, rfl, rfl, rfl, rfl, rfl, rfl, rfl, rfl, rfl⟩

@[simp] theorem State.selectDesc_keeps (s : State) (p : Nat) (v : Nat) :
    (s.selectDesc p v).unit = s.unit ∧ (s.selectDesc p v).free = s.free ∧ (s.selectDesc p v).tick = s.tick ∧
    (s.selectDesc p v).ctrs = s.ctrs ∧ (s.selectDesc p v).host = s.host ∧ (s.selectDesc p v).sess = s.sess ∧
    (s.selectDesc p v).fab = s.fab ∧ (s.selectDesc p v).dir = s.dir ∧ (s.selectDesc p v).att = s.att ∧
    (s.selectDesc p v).beat = s.beat ∧ (s.selectDesc p v).emit = s.emit ∧ (s.selectDesc p v).text = s.text ∧
    (s.selectDesc p v).cores = s.cores ∧ (s.selectDesc p v).ret = s.ret ∧ (s.selectDesc p v).link = s.link ∧
    (s.selectDesc p v).part = s.part ∧ (s.selectDesc p v).sec = s.sec ∧ (s.selectDesc p v).ckpt = s.ckpt ∧
    (s.selectDesc p v).mgmt = s.mgmt ∧ (s.selectDesc p v).pwr = s.pwr ∧ (s.selectDesc p v).out = s.out ∧
    (s.selectDesc p v).pending = s.pending := by
  exact ⟨rfl, rfl, rfl, rfl, rfl, rfl, rfl, rfl, rfl, rfl, rfl, rfl, rfl, rfl, rfl, rfl, rfl, rfl, rfl, rfl, rfl, rfl⟩

@[simp] theorem State.selectProbe_keeps (s : State) (p : Nat) (v : Nat) :
    (s.selectProbe p v).unit = s.unit ∧ (s.selectProbe p v).free = s.free ∧ (s.selectProbe p v).tick = s.tick ∧
    (s.selectProbe p v).ctrs = s.ctrs ∧ (s.selectProbe p v).host = s.host ∧ (s.selectProbe p v).sess = s.sess ∧
    (s.selectProbe p v).fab = s.fab ∧ (s.selectProbe p v).dir = s.dir ∧ (s.selectProbe p v).att = s.att ∧
    (s.selectProbe p v).beat = s.beat ∧ (s.selectProbe p v).emit = s.emit ∧ (s.selectProbe p v).text = s.text ∧
    (s.selectProbe p v).cores = s.cores ∧ (s.selectProbe p v).ret = s.ret ∧ (s.selectProbe p v).link = s.link ∧
    (s.selectProbe p v).part = s.part ∧ (s.selectProbe p v).sec = s.sec ∧ (s.selectProbe p v).ckpt = s.ckpt ∧
    (s.selectProbe p v).mgmt = s.mgmt ∧ (s.selectProbe p v).pwr = s.pwr ∧ (s.selectProbe p v).out = s.out ∧
    (s.selectProbe p v).pending = s.pending := by
  exact ⟨rfl, rfl, rfl, rfl, rfl, rfl, rfl, rfl, rfl, rfl, rfl, rfl, rfl, rfl, rfl, rfl, rfl, rfl, rfl, rfl, rfl, rfl⟩

@[simp] theorem State.selectRec_keeps (s : State) (p : Nat) (v : Nat) :
    (s.selectRec p v).unit = s.unit ∧ (s.selectRec p v).free = s.free ∧ (s.selectRec p v).tick = s.tick ∧
    (s.selectRec p v).ctrs = s.ctrs ∧ (s.selectRec p v).host = s.host ∧ (s.selectRec p v).sess = s.sess ∧
    (s.selectRec p v).fab = s.fab ∧ (s.selectRec p v).dir = s.dir ∧ (s.selectRec p v).att = s.att ∧
    (s.selectRec p v).beat = s.beat ∧ (s.selectRec p v).emit = s.emit ∧ (s.selectRec p v).text = s.text ∧
    (s.selectRec p v).cores = s.cores ∧ (s.selectRec p v).ret = s.ret ∧ (s.selectRec p v).link = s.link ∧
    (s.selectRec p v).part = s.part ∧ (s.selectRec p v).sec = s.sec ∧ (s.selectRec p v).ckpt = s.ckpt ∧
    (s.selectRec p v).mgmt = s.mgmt ∧ (s.selectRec p v).pwr = s.pwr ∧ (s.selectRec p v).out = s.out ∧
    (s.selectRec p v).pending = s.pending := by
  exact ⟨rfl, rfl, rfl, rfl, rfl, rfl, rfl, rfl, rfl, rfl, rfl, rfl, rfl, rfl, rfl, rfl, rfl, rfl, rfl, rfl, rfl, rfl⟩

@[simp] theorem State.selectHeld_keeps (s : State) (p : Nat) (v : Nat) :
    (s.selectHeld p v).unit = s.unit ∧ (s.selectHeld p v).free = s.free ∧ (s.selectHeld p v).tick = s.tick ∧
    (s.selectHeld p v).ctrs = s.ctrs ∧ (s.selectHeld p v).host = s.host ∧ (s.selectHeld p v).sess = s.sess ∧
    (s.selectHeld p v).fab = s.fab ∧ (s.selectHeld p v).dir = s.dir ∧ (s.selectHeld p v).att = s.att ∧
    (s.selectHeld p v).beat = s.beat ∧ (s.selectHeld p v).emit = s.emit ∧ (s.selectHeld p v).text = s.text ∧
    (s.selectHeld p v).cores = s.cores ∧ (s.selectHeld p v).ret = s.ret ∧ (s.selectHeld p v).link = s.link ∧
    (s.selectHeld p v).part = s.part ∧ (s.selectHeld p v).sec = s.sec ∧ (s.selectHeld p v).ckpt = s.ckpt ∧
    (s.selectHeld p v).mgmt = s.mgmt ∧ (s.selectHeld p v).pwr = s.pwr ∧ (s.selectHeld p v).out = s.out ∧
    (s.selectHeld p v).pending = s.pending := by
  unfold State.selectHeld
  split <;> simp

@[simp] theorem State.selectTok_keeps (s : State) (fn : Nat) (p : Nat) (v : Nat) :
    (s.selectTok fn p v).unit = s.unit ∧ (s.selectTok fn p v).free = s.free ∧ (s.selectTok fn p v).tick = s.tick ∧
    (s.selectTok fn p v).ctrs = s.ctrs ∧ (s.selectTok fn p v).host = s.host ∧ (s.selectTok fn p v).sess = s.sess ∧
    (s.selectTok fn p v).fab = s.fab ∧ (s.selectTok fn p v).dir = s.dir ∧ (s.selectTok fn p v).att = s.att ∧
    (s.selectTok fn p v).beat = s.beat ∧ (s.selectTok fn p v).emit = s.emit ∧ (s.selectTok fn p v).text = s.text ∧
    (s.selectTok fn p v).cores = s.cores ∧ (s.selectTok fn p v).ret = s.ret ∧ (s.selectTok fn p v).link = s.link ∧
    (s.selectTok fn p v).part = s.part ∧ (s.selectTok fn p v).sec = s.sec ∧ (s.selectTok fn p v).ckpt = s.ckpt ∧
    (s.selectTok fn p v).mgmt = s.mgmt ∧ (s.selectTok fn p v).pwr = s.pwr ∧ (s.selectTok fn p v).out = s.out ∧
    (s.selectTok fn p v).pending = s.pending := by
  unfold State.selectTok
  split <;> simp

@[simp] theorem State.clearTurn_keeps (s : State) (p : Nat) (v : Nat) :
    (s.clearTurn p v).unit = s.unit ∧ (s.clearTurn p v).free = s.free ∧ (s.clearTurn p v).tick = s.tick ∧
    (s.clearTurn p v).ctrs = s.ctrs ∧ (s.clearTurn p v).host = s.host ∧ (s.clearTurn p v).sess = s.sess ∧
    (s.clearTurn p v).fab = s.fab ∧ (s.clearTurn p v).dir = s.dir ∧ (s.clearTurn p v).att = s.att ∧
    (s.clearTurn p v).beat = s.beat ∧ (s.clearTurn p v).emit = s.emit ∧ (s.clearTurn p v).text = s.text ∧
    (s.clearTurn p v).cores = s.cores ∧ (s.clearTurn p v).ret = s.ret ∧ (s.clearTurn p v).link = s.link ∧
    (s.clearTurn p v).part = s.part ∧ (s.clearTurn p v).sec = s.sec ∧ (s.clearTurn p v).ckpt = s.ckpt ∧
    (s.clearTurn p v).mgmt = s.mgmt ∧ (s.clearTurn p v).pwr = s.pwr ∧ (s.clearTurn p v).out = s.out ∧
    (s.clearTurn p v).pending = s.pending := by
  simp [State.clearTurn]

@[simp] theorem State.writeQs_keeps (s : State) (fn : Nat) (q : Nat) (o : Nat) (v : Nat) :
    (s.writeQs fn q o v).unit = s.unit ∧ (s.writeQs fn q o v).free = s.free ∧ (s.writeQs fn q o v).tick = s.tick ∧
    (s.writeQs fn q o v).regs = s.regs ∧ (s.writeQs fn q o v).emit = s.emit ∧ (s.writeQs fn q o v).ret = s.ret ∧
    (s.writeQs fn q o v).sec = s.sec ∧ (s.writeQs fn q o v).ckpt = s.ckpt ∧ (s.writeQs fn q o v).mgmt = s.mgmt ∧
    (s.writeQs fn q o v).pwr = s.pwr ∧ (s.writeQs fn q o v).pending = s.pending := by
  simp [State.writeQs]

@[simp] theorem State.writeMbx_keeps (s : State) (port : Nat) (n : Nat) (o : Nat) (v : Nat) :
    (s.writeMbx port n o v).unit = s.unit ∧ (s.writeMbx port n o v).free = s.free ∧ (s.writeMbx port n o v).tick = s.tick ∧
    (s.writeMbx port n o v).regs = s.regs ∧ (s.writeMbx port n o v).sess = s.sess ∧ (s.writeMbx port n o v).fab = s.fab ∧
    (s.writeMbx port n o v).dir = s.dir ∧ (s.writeMbx port n o v).att = s.att ∧ (s.writeMbx port n o v).beat = s.beat ∧
    (s.writeMbx port n o v).emit = s.emit ∧ (s.writeMbx port n o v).text = s.text ∧ (s.writeMbx port n o v).cores = s.cores ∧
    (s.writeMbx port n o v).ret = s.ret ∧ (s.writeMbx port n o v).link = s.link ∧ (s.writeMbx port n o v).part = s.part ∧
    (s.writeMbx port n o v).sec = s.sec ∧ (s.writeMbx port n o v).ckpt = s.ckpt ∧ (s.writeMbx port n o v).pwr = s.pwr ∧
    (s.writeMbx port n o v).pending = s.pending := by
  simp [State.writeMbx]

@[simp] theorem State.writeMsix_keeps (s : State) (fn : Nat) (vec : Nat) (o : Nat) (v : Nat) :
    (s.writeMsix fn vec o v).unit = s.unit ∧ (s.writeMsix fn vec o v).free = s.free ∧ (s.writeMsix fn vec o v).tick = s.tick ∧
    (s.writeMsix fn vec o v).regs = s.regs ∧ (s.writeMsix fn vec o v).ctrs = s.ctrs ∧ (s.writeMsix fn vec o v).sess = s.sess ∧
    (s.writeMsix fn vec o v).fab = s.fab ∧ (s.writeMsix fn vec o v).dir = s.dir ∧ (s.writeMsix fn vec o v).att = s.att ∧
    (s.writeMsix fn vec o v).beat = s.beat ∧ (s.writeMsix fn vec o v).emit = s.emit ∧ (s.writeMsix fn vec o v).text = s.text ∧
    (s.writeMsix fn vec o v).cores = s.cores ∧ (s.writeMsix fn vec o v).ret = s.ret ∧ (s.writeMsix fn vec o v).link = s.link ∧
    (s.writeMsix fn vec o v).part = s.part ∧ (s.writeMsix fn vec o v).sec = s.sec ∧ (s.writeMsix fn vec o v).ckpt = s.ckpt ∧
    (s.writeMsix fn vec o v).mgmt = s.mgmt ∧ (s.writeMsix fn vec o v).pwr = s.pwr ∧ (s.writeMsix fn vec o v).pending = s.pending := by
  simp [State.writeMsix]

@[simp] theorem State.writeHif_keeps (s : State) (fn : Nat) (o : Nat) (v : Nat) :
    (s.writeHif fn o v).unit = s.unit ∧ (s.writeHif fn o v).free = s.free ∧ (s.writeHif fn o v).tick = s.tick ∧
    (s.writeHif fn o v).regs = s.regs ∧ (s.writeHif fn o v).emit = s.emit ∧ (s.writeHif fn o v).ret = s.ret ∧
    (s.writeHif fn o v).sec = s.sec ∧ (s.writeHif fn o v).ckpt = s.ckpt ∧ (s.writeHif fn o v).pwr = s.pwr ∧
    (s.writeHif fn o v).pending = s.pending := by
  simp [State.writeHif]

@[simp] theorem State.writeId_keeps (s : State) (fn : Nat) (o : Nat) (v : Nat) :
    (s.writeId fn o v).unit = s.unit ∧ (s.writeId fn o v).free = s.free ∧ (s.writeId fn o v).tick = s.tick ∧
    (s.writeId fn o v).ctrs = s.ctrs ∧ (s.writeId fn o v).host = s.host ∧ (s.writeId fn o v).sess = s.sess ∧
    (s.writeId fn o v).fab = s.fab ∧ (s.writeId fn o v).dir = s.dir ∧ (s.writeId fn o v).att = s.att ∧
    (s.writeId fn o v).beat = s.beat ∧ (s.writeId fn o v).emit = s.emit ∧ (s.writeId fn o v).text = s.text ∧
    (s.writeId fn o v).cores = s.cores ∧ (s.writeId fn o v).ret = s.ret ∧ (s.writeId fn o v).link = s.link ∧
    (s.writeId fn o v).part = s.part ∧ (s.writeId fn o v).sec = s.sec ∧ (s.writeId fn o v).ckpt = s.ckpt ∧
    (s.writeId fn o v).mgmt = s.mgmt ∧ (s.writeId fn o v).pwr = s.pwr ∧ (s.writeId fn o v).out = s.out ∧
    (s.writeId fn o v).pending = s.pending := by
  simp [State.writeId]

@[simp] theorem State.writeWin_keeps (s : State) (p : Nat) (fn : Nat) (v : Nat) :
    (s.writeWin p fn v).unit = s.unit ∧ (s.writeWin p fn v).free = s.free ∧ (s.writeWin p fn v).tick = s.tick ∧
    (s.writeWin p fn v).regs = s.regs ∧ (s.writeWin p fn v).host = s.host ∧ (s.writeWin p fn v).sess = s.sess ∧
    (s.writeWin p fn v).dir = s.dir ∧ (s.writeWin p fn v).att = s.att ∧ (s.writeWin p fn v).beat = s.beat ∧
    (s.writeWin p fn v).emit = s.emit ∧ (s.writeWin p fn v).text = s.text ∧ (s.writeWin p fn v).cores = s.cores ∧
    (s.writeWin p fn v).ret = s.ret ∧ (s.writeWin p fn v).link = s.link ∧ (s.writeWin p fn v).ckpt = s.ckpt ∧
    (s.writeWin p fn v).mgmt = s.mgmt ∧ (s.writeWin p fn v).pwr = s.pwr ∧ (s.writeWin p fn v).out = s.out ∧
    (s.writeWin p fn v).pending = s.pending ∧ (s.writeWin p fn v).sec.fuseSvn = s.sec.fuseSvn ∧
    (s.writeWin p fn v).sec.revoked = s.sec.revoked ∧ (s.writeWin p fn v).sec.slots = s.sec.slots := by
  unfold State.writeWin; dsimp only; (repeat' split) <;> simp

@[simp] theorem State.writeSf_keeps (s : State) (p : Nat) (fn : Nat) (o : Nat) (v : Nat) :
    (s.writeSf p fn o v).unit = s.unit ∧ (s.writeSf p fn o v).free = s.free ∧ (s.writeSf p fn o v).tick = s.tick ∧
    (s.writeSf p fn o v).host = s.host ∧ (s.writeSf p fn o v).sess = s.sess ∧ (s.writeSf p fn o v).dir = s.dir ∧
    (s.writeSf p fn o v).att = s.att ∧ (s.writeSf p fn o v).beat = s.beat ∧ (s.writeSf p fn o v).emit = s.emit ∧
    (s.writeSf p fn o v).text = s.text ∧ (s.writeSf p fn o v).cores = s.cores ∧ (s.writeSf p fn o v).ret = s.ret ∧
    (s.writeSf p fn o v).link = s.link ∧ (s.writeSf p fn o v).ckpt = s.ckpt ∧ (s.writeSf p fn o v).mgmt = s.mgmt ∧
    (s.writeSf p fn o v).pwr = s.pwr ∧ (s.writeSf p fn o v).out = s.out ∧ (s.writeSf p fn o v).pending = s.pending ∧
    (s.writeSf p fn o v).sec.fuseSvn = s.sec.fuseSvn ∧ (s.writeSf p fn o v).sec.revoked = s.sec.revoked ∧
    (s.writeSf p fn o v).sec.slots = s.sec.slots := by
  unfold State.writeSf; dsimp only; (repeat' split) <;> simp

@[simp] theorem State.writeDir_keeps (s : State) (p : Nat) (o : Nat) (v : Nat) :
    (s.writeDir p o v).unit = s.unit ∧ (s.writeDir p o v).free = s.free ∧ (s.writeDir p o v).tick = s.tick ∧
    (s.writeDir p o v).ctrs = s.ctrs ∧ (s.writeDir p o v).host = s.host ∧ (s.writeDir p o v).sess = s.sess ∧
    (s.writeDir p o v).fab = s.fab ∧ (s.writeDir p o v).dir = s.dir ∧ (s.writeDir p o v).att = s.att ∧
    (s.writeDir p o v).beat = s.beat ∧ (s.writeDir p o v).emit = s.emit ∧ (s.writeDir p o v).text = s.text ∧
    (s.writeDir p o v).cores = s.cores ∧ (s.writeDir p o v).ret = s.ret ∧ (s.writeDir p o v).link = s.link ∧
    (s.writeDir p o v).sec = s.sec ∧ (s.writeDir p o v).ckpt = s.ckpt ∧ (s.writeDir p o v).mgmt = s.mgmt ∧
    (s.writeDir p o v).pwr = s.pwr ∧ (s.writeDir p o v).out = s.out ∧ (s.writeDir p o v).pending = s.pending := by
  simp [State.writeDir]

@[simp] theorem State.modModel_keeps (s : State) (p : Nat) (m : Nat) (f : ModelEnt → ModelEnt) :
    (s.modModel p m f).unit = s.unit ∧ (s.modModel p m f).free = s.free ∧ (s.modModel p m f).tick = s.tick ∧
    (s.modModel p m f).regs = s.regs ∧ (s.modModel p m f).ctrs = s.ctrs ∧ (s.modModel p m f).host = s.host ∧
    (s.modModel p m f).sess = s.sess ∧ (s.modModel p m f).fab = s.fab ∧ (s.modModel p m f).dir = s.dir ∧
    (s.modModel p m f).beat = s.beat ∧ (s.modModel p m f).emit = s.emit ∧ (s.modModel p m f).text = s.text ∧
    (s.modModel p m f).cores = s.cores ∧ (s.modModel p m f).ret = s.ret ∧ (s.modModel p m f).link = s.link ∧
    (s.modModel p m f).part = s.part ∧ (s.modModel p m f).sec = s.sec ∧ (s.modModel p m f).ckpt = s.ckpt ∧
    (s.modModel p m f).mgmt = s.mgmt ∧ (s.modModel p m f).pwr = s.pwr ∧ (s.modModel p m f).out = s.out ∧
    (s.modModel p m f).pending = s.pending := by
  exact ⟨rfl, rfl, rfl, rfl, rfl, rfl, rfl, rfl, rfl, rfl, rfl, rfl, rfl, rfl, rfl, rfl, rfl, rfl, rfl, rfl, rfl, rfl⟩

@[simp] theorem State.writeAtt_keeps (s : State) (p : Nat) (o : Nat) (v : Nat) :
    (s.writeAtt p o v).unit = s.unit ∧ (s.writeAtt p o v).free = s.free ∧ (s.writeAtt p o v).tick = s.tick ∧
    (s.writeAtt p o v).host = s.host ∧ (s.writeAtt p o v).sess = s.sess ∧ (s.writeAtt p o v).fab = s.fab ∧
    (s.writeAtt p o v).dir = s.dir ∧ (s.writeAtt p o v).beat = s.beat ∧ (s.writeAtt p o v).emit = s.emit ∧
    (s.writeAtt p o v).text = s.text ∧ (s.writeAtt p o v).cores = s.cores ∧ (s.writeAtt p o v).ret = s.ret ∧
    (s.writeAtt p o v).link = s.link ∧ (s.writeAtt p o v).part = s.part ∧ (s.writeAtt p o v).sec = s.sec ∧
    (s.writeAtt p o v).ckpt = s.ckpt ∧ (s.writeAtt p o v).mgmt = s.mgmt ∧ (s.writeAtt p o v).pwr = s.pwr ∧
    (s.writeAtt p o v).out = s.out ∧ (s.writeAtt p o v).pending = s.pending := by
  simp [State.writeAtt]

@[simp] theorem State.writeEmit_keeps (s : State) (p : Nat) (o : Nat) (v : Nat) :
    (s.writeEmit p o v).unit = s.unit ∧ (s.writeEmit p o v).free = s.free ∧ (s.writeEmit p o v).tick = s.tick ∧
    (s.writeEmit p o v).host = s.host ∧ (s.writeEmit p o v).sess = s.sess ∧ (s.writeEmit p o v).fab = s.fab ∧
    (s.writeEmit p o v).dir = s.dir ∧ (s.writeEmit p o v).beat = s.beat ∧ (s.writeEmit p o v).emit = s.emit ∧
    (s.writeEmit p o v).text = s.text ∧ (s.writeEmit p o v).cores = s.cores ∧ (s.writeEmit p o v).ret = s.ret ∧
    (s.writeEmit p o v).link = s.link ∧ (s.writeEmit p o v).part = s.part ∧ (s.writeEmit p o v).sec = s.sec ∧
    (s.writeEmit p o v).ckpt = s.ckpt ∧ (s.writeEmit p o v).mgmt = s.mgmt ∧ (s.writeEmit p o v).pwr = s.pwr ∧
    (s.writeEmit p o v).out = s.out ∧ (s.writeEmit p o v).pending = s.pending := by
  simp [State.writeEmit]

@[simp] theorem State.writeText_keeps (s : State) (p : Nat) (o : Nat) (v : Nat) :
    (s.writeText p o v).unit = s.unit ∧ (s.writeText p o v).free = s.free ∧ (s.writeText p o v).tick = s.tick ∧
    (s.writeText p o v).host = s.host ∧ (s.writeText p o v).sess = s.sess ∧ (s.writeText p o v).fab = s.fab ∧
    (s.writeText p o v).dir = s.dir ∧ (s.writeText p o v).att = s.att ∧ (s.writeText p o v).beat = s.beat ∧
    (s.writeText p o v).emit = s.emit ∧ (s.writeText p o v).text = s.text ∧ (s.writeText p o v).cores = s.cores ∧
    (s.writeText p o v).ret = s.ret ∧ (s.writeText p o v).link = s.link ∧ (s.writeText p o v).part = s.part ∧
    (s.writeText p o v).sec = s.sec ∧ (s.writeText p o v).ckpt = s.ckpt ∧ (s.writeText p o v).mgmt = s.mgmt ∧
    (s.writeText p o v).pwr = s.pwr ∧ (s.writeText p o v).out = s.out ∧ (s.writeText p o v).pending = s.pending := by
  simp [State.writeText]

@[simp] theorem State.writeRet_keeps (s : State) (p : Nat) (fn : Nat) (o : Nat) (v : Nat) :
    (s.writeRet p fn o v).unit = s.unit ∧ (s.writeRet p fn o v).free = s.free ∧ (s.writeRet p fn o v).tick = s.tick ∧
    (s.writeRet p fn o v).host = s.host ∧ (s.writeRet p fn o v).sess = s.sess ∧ (s.writeRet p fn o v).fab = s.fab ∧
    (s.writeRet p fn o v).dir = s.dir ∧ (s.writeRet p fn o v).att = s.att ∧ (s.writeRet p fn o v).beat = s.beat ∧
    (s.writeRet p fn o v).emit = s.emit ∧ (s.writeRet p fn o v).text = s.text ∧ (s.writeRet p fn o v).cores = s.cores ∧
    (s.writeRet p fn o v).ret = s.ret ∧ (s.writeRet p fn o v).link = s.link ∧ (s.writeRet p fn o v).part = s.part ∧
    (s.writeRet p fn o v).sec = s.sec ∧ (s.writeRet p fn o v).ckpt = s.ckpt ∧ (s.writeRet p fn o v).mgmt = s.mgmt ∧
    (s.writeRet p fn o v).pwr = s.pwr ∧ (s.writeRet p fn o v).out = s.out ∧ (s.writeRet p fn o v).pending = s.pending := by
  simp [State.writeRet]

@[simp] theorem State.writeShape_keeps (s : State) (port : Nat) (v : Nat) :
    (s.writeShape port v).unit = s.unit ∧ (s.writeShape port v).free = s.free ∧ (s.writeShape port v).tick = s.tick ∧
    (s.writeShape port v).ctrs = s.ctrs ∧ (s.writeShape port v).host = s.host ∧ (s.writeShape port v).sess = s.sess ∧
    (s.writeShape port v).fab = s.fab ∧ (s.writeShape port v).dir = s.dir ∧ (s.writeShape port v).att = s.att ∧
    (s.writeShape port v).beat = s.beat ∧ (s.writeShape port v).emit = s.emit ∧ (s.writeShape port v).text = s.text ∧
    (s.writeShape port v).cores = s.cores ∧ (s.writeShape port v).ret = s.ret ∧ (s.writeShape port v).part = s.part ∧
    (s.writeShape port v).sec = s.sec ∧ (s.writeShape port v).ckpt = s.ckpt ∧ (s.writeShape port v).mgmt = s.mgmt ∧
    (s.writeShape port v).pwr = s.pwr ∧ (s.writeShape port v).out = s.out ∧ (s.writeShape port v).pending = s.pending := by
  simp [State.writeShape]

@[simp] theorem State.writePort_keeps (s : State) (n : Nat) (fn : Nat) (o : Nat) (v : Nat) :
    (s.writePort n fn o v).unit = s.unit ∧ (s.writePort n fn o v).free = s.free ∧ (s.writePort n fn o v).tick = s.tick ∧
    (s.writePort n fn o v).host = s.host ∧ (s.writePort n fn o v).att = s.att ∧ (s.writePort n fn o v).beat = s.beat ∧
    (s.writePort n fn o v).emit = s.emit ∧ (s.writePort n fn o v).text = s.text ∧ (s.writePort n fn o v).cores = s.cores ∧
    (s.writePort n fn o v).ret = s.ret ∧ (s.writePort n fn o v).part = s.part ∧ (s.writePort n fn o v).sec = s.sec ∧
    (s.writePort n fn o v).ckpt = s.ckpt ∧ (s.writePort n fn o v).mgmt = s.mgmt ∧ (s.writePort n fn o v).pending = s.pending := by
  simp [State.writePort]

@[simp] theorem State.writeBeat_keeps (s : State) (fn : Nat) (o : Nat) (v : Nat) :
    (s.writeBeat fn o v).unit = s.unit ∧ (s.writeBeat fn o v).free = s.free ∧ (s.writeBeat fn o v).tick = s.tick ∧
    (s.writeBeat fn o v).regs = s.regs ∧ (s.writeBeat fn o v).ctrs = s.ctrs ∧ (s.writeBeat fn o v).host = s.host ∧
    (s.writeBeat fn o v).sess = s.sess ∧ (s.writeBeat fn o v).fab = s.fab ∧ (s.writeBeat fn o v).dir = s.dir ∧
    (s.writeBeat fn o v).att = s.att ∧ (s.writeBeat fn o v).emit = s.emit ∧ (s.writeBeat fn o v).text = s.text ∧
    (s.writeBeat fn o v).cores = s.cores ∧ (s.writeBeat fn o v).ret = s.ret ∧ (s.writeBeat fn o v).link = s.link ∧
    (s.writeBeat fn o v).part = s.part ∧ (s.writeBeat fn o v).sec = s.sec ∧ (s.writeBeat fn o v).ckpt = s.ckpt ∧
    (s.writeBeat fn o v).mgmt = s.mgmt ∧ (s.writeBeat fn o v).pwr = s.pwr ∧ (s.writeBeat fn o v).out = s.out ∧
    (s.writeBeat fn o v).pending = s.pending := by
  simp [State.writeBeat]

@[simp] theorem State.writeSched_keeps (s : State) (p : Nat) (o : Nat) (v : Nat) :
    (s.writeSched p o v).unit = s.unit ∧ (s.writeSched p o v).free = s.free ∧ (s.writeSched p o v).tick = s.tick ∧
    (s.writeSched p o v).host = s.host ∧ (s.writeSched p o v).sess = s.sess ∧ (s.writeSched p o v).fab = s.fab ∧
    (s.writeSched p o v).dir = s.dir ∧ (s.writeSched p o v).att = s.att ∧ (s.writeSched p o v).beat = s.beat ∧
    (s.writeSched p o v).emit = s.emit ∧ (s.writeSched p o v).text = s.text ∧ (s.writeSched p o v).cores = s.cores ∧
    (s.writeSched p o v).ret = s.ret ∧ (s.writeSched p o v).link = s.link ∧ (s.writeSched p o v).part = s.part ∧
    (s.writeSched p o v).sec = s.sec ∧ (s.writeSched p o v).ckpt = s.ckpt ∧ (s.writeSched p o v).mgmt = s.mgmt ∧
    (s.writeSched p o v).pwr = s.pwr ∧ (s.writeSched p o v).out = s.out ∧ (s.writeSched p o v).pending = s.pending := by
  simp [State.writeSched]

@[simp] theorem State.writeClk_keeps (s : State) (fn : Nat) (o : Nat) (v : Nat) :
    (s.writeClk fn o v).unit = s.unit ∧ (s.writeClk fn o v).free = s.free ∧ (s.writeClk fn o v).tick = s.tick ∧
    (s.writeClk fn o v).regs = s.regs ∧ (s.writeClk fn o v).host = s.host ∧ (s.writeClk fn o v).att = s.att ∧
    (s.writeClk fn o v).beat = s.beat ∧ (s.writeClk fn o v).emit = s.emit ∧ (s.writeClk fn o v).text = s.text ∧
    (s.writeClk fn o v).cores = s.cores ∧ (s.writeClk fn o v).ret = s.ret ∧ (s.writeClk fn o v).link = s.link ∧
    (s.writeClk fn o v).part = s.part ∧ (s.writeClk fn o v).sec = s.sec ∧ (s.writeClk fn o v).ckpt = s.ckpt ∧
    (s.writeClk fn o v).mgmt = s.mgmt ∧ (s.writeClk fn o v).pending = s.pending := by
  simp [State.writeClk]

@[simp] theorem State.writeDom_keeps (s : State) (p : Nat) (o : Nat) (v : Nat) :
    (s.writeDom p o v).unit = s.unit ∧ (s.writeDom p o v).free = s.free ∧ (s.writeDom p o v).tick = s.tick ∧
    (s.writeDom p o v).regs = s.regs ∧ (s.writeDom p o v).host = s.host ∧ (s.writeDom p o v).sess = s.sess ∧
    (s.writeDom p o v).fab = s.fab ∧ (s.writeDom p o v).dir = s.dir ∧ (s.writeDom p o v).att = s.att ∧
    (s.writeDom p o v).beat = s.beat ∧ (s.writeDom p o v).emit = s.emit ∧ (s.writeDom p o v).text = s.text ∧
    (s.writeDom p o v).cores = s.cores ∧ (s.writeDom p o v).ret = s.ret ∧ (s.writeDom p o v).link = s.link ∧
    (s.writeDom p o v).sec = s.sec ∧ (s.writeDom p o v).ckpt = s.ckpt ∧ (s.writeDom p o v).mgmt = s.mgmt ∧
    (s.writeDom p o v).pwr = s.pwr ∧ (s.writeDom p o v).out = s.out ∧ (s.writeDom p o v).pending = s.pending := by
  simp [State.writeDom]

@[simp] theorem State.writePart_keeps (s : State) (p : Nat) (fn : Nat) (o : Nat) (v : Nat) :
    (s.writePart p fn o v).unit = s.unit ∧ (s.writePart p fn o v).free = s.free ∧ (s.writePart p fn o v).tick = s.tick ∧
    (s.writePart p fn o v).host = s.host ∧ (s.writePart p fn o v).sess = s.sess ∧ (s.writePart p fn o v).fab = s.fab ∧
    (s.writePart p fn o v).dir = s.dir ∧ (s.writePart p fn o v).att = s.att ∧ (s.writePart p fn o v).beat = s.beat ∧
    (s.writePart p fn o v).emit = s.emit ∧ (s.writePart p fn o v).text = s.text ∧ (s.writePart p fn o v).cores = s.cores ∧
    (s.writePart p fn o v).ret = s.ret ∧ (s.writePart p fn o v).link = s.link ∧ (s.writePart p fn o v).sec = s.sec ∧
    (s.writePart p fn o v).ckpt = s.ckpt ∧ (s.writePart p fn o v).mgmt = s.mgmt ∧ (s.writePart p fn o v).pwr = s.pwr ∧
    (s.writePart p fn o v).out = s.out ∧ (s.writePart p fn o v).pending = s.pending := by
  simp [State.writePart]

@[simp] theorem State.writeSec_keeps (s : State) (fn : Nat) (o : Nat) (v : Nat) :
    (s.writeSec fn o v).unit = s.unit ∧ (s.writeSec fn o v).free = s.free ∧ (s.writeSec fn o v).tick = s.tick ∧
    (s.writeSec fn o v).host = s.host ∧ (s.writeSec fn o v).sess = s.sess ∧ (s.writeSec fn o v).fab = s.fab ∧
    (s.writeSec fn o v).dir = s.dir ∧ (s.writeSec fn o v).att = s.att ∧ (s.writeSec fn o v).beat = s.beat ∧
    (s.writeSec fn o v).emit = s.emit ∧ (s.writeSec fn o v).text = s.text ∧ (s.writeSec fn o v).cores = s.cores ∧
    (s.writeSec fn o v).ret = s.ret ∧ (s.writeSec fn o v).link = s.link ∧ (s.writeSec fn o v).part = s.part ∧
    (s.writeSec fn o v).sec = s.sec ∧ (s.writeSec fn o v).ckpt = s.ckpt ∧ (s.writeSec fn o v).mgmt = s.mgmt ∧
    (s.writeSec fn o v).pwr = s.pwr ∧ (s.writeSec fn o v).out = s.out ∧ (s.writeSec fn o v).pending = s.pending := by
  simp [State.writeSec]

@[simp] theorem State.writeSlot_keeps (s : State) (fn : Nat) (v : Nat) :
    (s.writeSlot fn v).unit = s.unit ∧ (s.writeSlot fn v).free = s.free ∧ (s.writeSlot fn v).tick = s.tick ∧
    (s.writeSlot fn v).regs = s.regs ∧ (s.writeSlot fn v).ctrs = s.ctrs ∧ (s.writeSlot fn v).host = s.host ∧
    (s.writeSlot fn v).sess = s.sess ∧ (s.writeSlot fn v).fab = s.fab ∧ (s.writeSlot fn v).dir = s.dir ∧
    (s.writeSlot fn v).att = s.att ∧ (s.writeSlot fn v).beat = s.beat ∧ (s.writeSlot fn v).emit = s.emit ∧
    (s.writeSlot fn v).text = s.text ∧ (s.writeSlot fn v).cores = s.cores ∧ (s.writeSlot fn v).ret = s.ret ∧
    (s.writeSlot fn v).link = s.link ∧ (s.writeSlot fn v).part = s.part ∧ (s.writeSlot fn v).sec = s.sec ∧
    (s.writeSlot fn v).mgmt = s.mgmt ∧ (s.writeSlot fn v).pwr = s.pwr ∧ (s.writeSlot fn v).out = s.out ∧
    (s.writeSlot fn v).pending = s.pending := by
  simp [State.writeSlot]

@[simp] theorem State.writeCkpt_keeps (s : State) (fn : Nat) (o : Nat) (v : Nat) :
    (s.writeCkpt fn o v).unit = s.unit ∧ (s.writeCkpt fn o v).free = s.free ∧ (s.writeCkpt fn o v).tick = s.tick ∧
    (s.writeCkpt fn o v).ctrs = s.ctrs ∧ (s.writeCkpt fn o v).host = s.host ∧ (s.writeCkpt fn o v).sess = s.sess ∧
    (s.writeCkpt fn o v).fab = s.fab ∧ (s.writeCkpt fn o v).dir = s.dir ∧ (s.writeCkpt fn o v).att = s.att ∧
    (s.writeCkpt fn o v).beat = s.beat ∧ (s.writeCkpt fn o v).emit = s.emit ∧ (s.writeCkpt fn o v).text = s.text ∧
    (s.writeCkpt fn o v).cores = s.cores ∧ (s.writeCkpt fn o v).ret = s.ret ∧ (s.writeCkpt fn o v).link = s.link ∧
    (s.writeCkpt fn o v).part = s.part ∧ (s.writeCkpt fn o v).sec = s.sec ∧ (s.writeCkpt fn o v).mgmt = s.mgmt ∧
    (s.writeCkpt fn o v).pwr = s.pwr ∧ (s.writeCkpt fn o v).out = s.out ∧ (s.writeCkpt fn o v).pending = s.pending := by
  simp [State.writeCkpt]

@[simp] theorem State.coreDbg_keeps (s : State) (fn : Nat) (n : Nat) (f : Core → Core) :
    (s.coreDbg fn n f).unit = s.unit ∧ (s.coreDbg fn n f).free = s.free ∧ (s.coreDbg fn n f).tick = s.tick ∧
    (s.coreDbg fn n f).regs = s.regs ∧ (s.coreDbg fn n f).host = s.host ∧ (s.coreDbg fn n f).sess = s.sess ∧
    (s.coreDbg fn n f).fab = s.fab ∧ (s.coreDbg fn n f).dir = s.dir ∧ (s.coreDbg fn n f).att = s.att ∧
    (s.coreDbg fn n f).beat = s.beat ∧ (s.coreDbg fn n f).emit = s.emit ∧ (s.coreDbg fn n f).text = s.text ∧
    (s.coreDbg fn n f).ret = s.ret ∧ (s.coreDbg fn n f).link = s.link ∧ (s.coreDbg fn n f).part = s.part ∧
    (s.coreDbg fn n f).sec = s.sec ∧ (s.coreDbg fn n f).ckpt = s.ckpt ∧ (s.coreDbg fn n f).mgmt = s.mgmt ∧
    (s.coreDbg fn n f).pwr = s.pwr ∧ (s.coreDbg fn n f).out = s.out ∧ (s.coreDbg fn n f).pending = s.pending := by
  unfold State.coreDbg
  split <;> simp

@[simp] theorem State.writeCoreCtl_keeps (s : State) (n : Nat) (o : Nat) (v : Nat) :
    (s.writeCoreCtl n o v).unit = s.unit ∧ (s.writeCoreCtl n o v).free = s.free ∧ (s.writeCoreCtl n o v).tick = s.tick ∧
    (s.writeCoreCtl n o v).regs = s.regs ∧ (s.writeCoreCtl n o v).host = s.host ∧ (s.writeCoreCtl n o v).sess = s.sess ∧
    (s.writeCoreCtl n o v).fab = s.fab ∧ (s.writeCoreCtl n o v).dir = s.dir ∧ (s.writeCoreCtl n o v).att = s.att ∧
    (s.writeCoreCtl n o v).beat = s.beat ∧ (s.writeCoreCtl n o v).emit = s.emit ∧ (s.writeCoreCtl n o v).text = s.text ∧
    (s.writeCoreCtl n o v).ret = s.ret ∧ (s.writeCoreCtl n o v).link = s.link ∧ (s.writeCoreCtl n o v).part = s.part ∧
    (s.writeCoreCtl n o v).sec = s.sec ∧ (s.writeCoreCtl n o v).ckpt = s.ckpt ∧ (s.writeCoreCtl n o v).mgmt = s.mgmt ∧
    (s.writeCoreCtl n o v).pwr = s.pwr ∧ (s.writeCoreCtl n o v).out = s.out ∧ (s.writeCoreCtl n o v).pending = s.pending := by
  simp [State.writeCoreCtl]

@[simp] theorem State.writeCore_keeps (s : State) (fn : Nat) (n : Nat) (o : Nat) (width : Nat) (v : Nat) :
    (s.writeCore fn n o width v).unit = s.unit ∧ (s.writeCore fn n o width v).free = s.free ∧
    (s.writeCore fn n o width v).tick = s.tick ∧ (s.writeCore fn n o width v).regs = s.regs ∧
    (s.writeCore fn n o width v).host = s.host ∧ (s.writeCore fn n o width v).sess = s.sess ∧
    (s.writeCore fn n o width v).fab = s.fab ∧ (s.writeCore fn n o width v).dir = s.dir ∧
    (s.writeCore fn n o width v).att = s.att ∧ (s.writeCore fn n o width v).beat = s.beat ∧
    (s.writeCore fn n o width v).emit = s.emit ∧ (s.writeCore fn n o width v).text = s.text ∧
    (s.writeCore fn n o width v).ret = s.ret ∧ (s.writeCore fn n o width v).link = s.link ∧
    (s.writeCore fn n o width v).part = s.part ∧ (s.writeCore fn n o width v).sec = s.sec ∧
    (s.writeCore fn n o width v).ckpt = s.ckpt ∧ (s.writeCore fn n o width v).mgmt = s.mgmt ∧
    (s.writeCore fn n o width v).pwr = s.pwr ∧ (s.writeCore fn n o width v).out = s.out ∧
    (s.writeCore fn n o width v).pending = s.pending := by
  unfold State.writeCore
  split <;> simp

@[simp] theorem State.writeOwner_keeps (s : State) (fn : Nat) (p : Nat) (off : Nat) (width : Nat) (v : Nat) :
    (s.writeOwner fn p off width v).unit = s.unit ∧ (s.writeOwner fn p off width v).free = s.free ∧
    (s.writeOwner fn p off width v).tick = s.tick ∧ (s.writeOwner fn p off width v).regs = s.regs ∧
    (s.writeOwner fn p off width v).host = s.host ∧ (s.writeOwner fn p off width v).fab = s.fab ∧
    (s.writeOwner fn p off width v).dir = s.dir ∧ (s.writeOwner fn p off width v).att = s.att ∧
    (s.writeOwner fn p off width v).beat = s.beat ∧ (s.writeOwner fn p off width v).emit = s.emit ∧
    (s.writeOwner fn p off width v).text = s.text ∧ (s.writeOwner fn p off width v).cores = s.cores ∧
    (s.writeOwner fn p off width v).ret = s.ret ∧ (s.writeOwner fn p off width v).link = s.link ∧
    (s.writeOwner fn p off width v).part = s.part ∧ (s.writeOwner fn p off width v).sec = s.sec ∧
    (s.writeOwner fn p off width v).ckpt = s.ckpt ∧ (s.writeOwner fn p off width v).mgmt = s.mgmt ∧
    (s.writeOwner fn p off width v).pwr = s.pwr ∧ (s.writeOwner fn p off width v).out = s.out ∧
    (s.writeOwner fn p off width v).pending = s.pending := by
  simp [State.writeOwner]

@[simp] theorem State.writeAt_keeps (s : State) (fn : Nat) (scope : Nat) (o : Nat) (v : Nat) :
    (s.writeAt fn scope o v).unit = s.unit ∧ (s.writeAt fn scope o v).free = s.free ∧ (s.writeAt fn scope o v).tick = s.tick ∧
    (s.writeAt fn scope o v).emit = s.emit ∧ (s.writeAt fn scope o v).ret = s.ret ∧ (s.writeAt fn scope o v).pending = s.pending ∧
    (s.writeAt fn scope o v).sec.fuseSvn = s.sec.fuseSvn ∧ (s.writeAt fn scope o v).sec.revoked = s.sec.revoked ∧
    (s.writeAt fn scope o v).sec.slots = s.sec.slots := by
  unfold State.writeAt
  simp

@[simp] theorem State.busWrite_keeps (s : State) (fn : Nat) (o : Nat) (width : Nat) (v : Nat) :
    (s.busWrite fn o width v).unit = s.unit ∧ (s.busWrite fn o width v).free = s.free ∧ (s.busWrite fn o width v).tick = s.tick ∧
    (s.busWrite fn o width v).emit = s.emit ∧ (s.busWrite fn o width v).ret = s.ret ∧
    (s.busWrite fn o width v).pending = s.pending ∧ (s.busWrite fn o width v).sec.fuseSvn = s.sec.fuseSvn ∧
    (s.busWrite fn o width v).sec.revoked = s.sec.revoked ∧ (s.busWrite fn o width v).sec.slots = s.sec.slots := by
  unfold State.busWrite; dsimp only; (repeat' split) <;> simp

@[simp] theorem State.latchCtr_keeps (s : State) (c : Counter) (scope : Nat) :
    (s.latchCtr c scope).unit = s.unit ∧ (s.latchCtr c scope).free = s.free ∧ (s.latchCtr c scope).tick = s.tick ∧
    (s.latchCtr c scope).regs = s.regs ∧ (s.latchCtr c scope).ctrs = s.ctrs ∧ (s.latchCtr c scope).host = s.host ∧
    (s.latchCtr c scope).sess = s.sess ∧ (s.latchCtr c scope).fab = s.fab ∧ (s.latchCtr c scope).dir = s.dir ∧
    (s.latchCtr c scope).att = s.att ∧ (s.latchCtr c scope).beat = s.beat ∧ (s.latchCtr c scope).emit = s.emit ∧
    (s.latchCtr c scope).text = s.text ∧ (s.latchCtr c scope).cores = s.cores ∧ (s.latchCtr c scope).ret = s.ret ∧
    (s.latchCtr c scope).link = s.link ∧ (s.latchCtr c scope).part = s.part ∧ (s.latchCtr c scope).ckpt = s.ckpt ∧
    (s.latchCtr c scope).mgmt = s.mgmt ∧ (s.latchCtr c scope).pwr = s.pwr ∧ (s.latchCtr c scope).out = s.out ∧
    (s.latchCtr c scope).pending = s.pending ∧ (s.latchCtr c scope).sec.fuseSvn = s.sec.fuseSvn ∧
    (s.latchCtr c scope).sec.revoked = s.sec.revoked ∧ (s.latchCtr c scope).sec.slots = s.sec.slots := by
  exact ⟨rfl, rfl, rfl, rfl, rfl, rfl, rfl, rfl, rfl, rfl, rfl, rfl, rfl, rfl, rfl, rfl, rfl, rfl, rfl, rfl, rfl, rfl, rfl, rfl, rfl⟩

@[simp] theorem State.skipUnknown_keeps (n : Nat) (s : State) :
    (State.skipUnknown n s).unit = s.unit ∧ (State.skipUnknown n s).free = s.free ∧ (State.skipUnknown n s).tick = s.tick ∧
    (State.skipUnknown n s).regs = s.regs ∧ (State.skipUnknown n s).sess = s.sess ∧ (State.skipUnknown n s).fab = s.fab ∧
    (State.skipUnknown n s).dir = s.dir ∧ (State.skipUnknown n s).att = s.att ∧ (State.skipUnknown n s).beat = s.beat ∧
    (State.skipUnknown n s).emit = s.emit ∧ (State.skipUnknown n s).text = s.text ∧ (State.skipUnknown n s).cores = s.cores ∧
    (State.skipUnknown n s).ret = s.ret ∧ (State.skipUnknown n s).link = s.link ∧ (State.skipUnknown n s).part = s.part ∧
    (State.skipUnknown n s).sec = s.sec ∧ (State.skipUnknown n s).ckpt = s.ckpt ∧ (State.skipUnknown n s).pwr = s.pwr ∧
    (State.skipUnknown n s).pending = s.pending := by
  induction n generalizing s with
  | zero => simp [State.skipUnknown]
  | succ n ih =>
    unfold State.skipUnknown
    split
    · split
      · simp
      · simp [ih]
    · simp

@[simp] theorem State.flushCpl_keeps (s : State) (qk n : Nat) :
    (State.flushCpl s qk n).unit = s.unit ∧ (State.flushCpl s qk n).free = s.free ∧ (State.flushCpl s qk n).tick = s.tick ∧
    (State.flushCpl s qk n).regs = s.regs ∧ (State.flushCpl s qk n).sess = s.sess ∧ (State.flushCpl s qk n).fab = s.fab ∧
    (State.flushCpl s qk n).dir = s.dir ∧ (State.flushCpl s qk n).att = s.att ∧ (State.flushCpl s qk n).beat = s.beat ∧
    (State.flushCpl s qk n).emit = s.emit ∧ (State.flushCpl s qk n).text = s.text ∧ (State.flushCpl s qk n).ret = s.ret ∧
    (State.flushCpl s qk n).link = s.link ∧ (State.flushCpl s qk n).part = s.part ∧ (State.flushCpl s qk n).sec = s.sec ∧
    (State.flushCpl s qk n).ckpt = s.ckpt ∧ (State.flushCpl s qk n).mgmt = s.mgmt ∧ (State.flushCpl s qk n).pwr = s.pwr ∧
    (State.flushCpl s qk n).pending = s.pending := by
  induction n generalizing s with
  | zero => simp [State.flushCpl]
  | succ n ih =>
    unfold State.flushCpl
    dsimp only
    split
    · simp
    · split
      · simp [ih]
      · split <;> simp [ih]

@[simp] theorem State.tryVcs_keeps (s : State) (port : Nat) (l : List Nat) :
    (State.tryVcs s port l).unit = s.unit ∧ (State.tryVcs s port l).tick = s.tick ∧ (State.tryVcs s port l).emit = s.emit ∧
    (State.tryVcs s port l).ret = s.ret ∧ (State.tryVcs s port l).sec = s.sec ∧ (State.tryVcs s port l).ckpt = s.ckpt ∧
    (State.tryVcs s port l).mgmt = s.mgmt ∧ (State.tryVcs s port l).pwr = s.pwr ∧ (State.tryVcs s port l).pending = s.pending := by
  induction l generalizing s with
  | nil => simp [State.tryVcs]
  | cons k l ih =>
    unfold State.tryVcs
    split
    · exact ih s
    · dsimp only
      split
      · simp [ih]
      · split
        · simp [ih]
        · split
          · exact ih s
          · simp

theorem State.placeAll_keeps (s : State) (id : Nat) (l : List Nat) (acc : List (Nat × Nat)) {r : State × List (Nat × Nat)}
    (h : s.placeAll id l acc = some r) :
    r.1.unit = s.unit ∧ r.1.tick = s.tick ∧ r.1.regs = s.regs ∧ r.1.ctrs = s.ctrs ∧ r.1.host = s.host ∧ r.1.dir = s.dir ∧
    r.1.att = s.att ∧ r.1.emit = s.emit ∧ r.1.text = s.text ∧ r.1.cores = s.cores ∧ r.1.ret = s.ret ∧ r.1.link = s.link ∧
    r.1.sec = s.sec ∧ r.1.ckpt = s.ckpt ∧ r.1.mgmt = s.mgmt ∧ r.1.pwr = s.pwr ∧ r.1.out = s.out ∧ r.1.pending = s.pending := by
  induction l generalizing s acc with
  | nil => cases h; simp
  | cons b l ih =>
    unfold State.placeAll at h
    dsimp only at h
    split at h
    · cases h
    · have k := ih _ _ h
      simpa using k

end Sys2Proof.Machine
end

