-- ==== Sys2Proof/Laws/Tab.lean ====
section
/-! SUPPORT. Laws of sparse tables and of byte memories: what a read gives after a write, and the form they keep. -/

namespace Sys2Proof.Machine

/-! ### Reads after writes -/

@[simp] theorem tabGet?_nil {α : Type} (k : Nat) : tabGet? ([] : Tab α) k = none := rfl

@[simp] theorem tabGet?_tabSet_self {α : Type} (t : Tab α) (k : Nat) (v : α) : tabGet? (tabSet t k v) k = some v := by
  induction t with
  | nil => simp [tabSet, tabGet?]
  | cons p t ih =>
    obtain ⟨k', v'⟩ := p
    by_cases h1 : k < k'
    · simp [tabSet, h1, tabGet?]
    · by_cases h2 : k = k'
      · simp [tabSet, h2, tabGet?]
      · simp only [tabSet, h1, h2, if_false, tabGet?, ih]
        rw [if_neg (fun h => h2 h.symm)]

theorem tabGet?_tabSet_of_ne {α : Type} (t : Tab α) {k j : Nat} (h : j ≠ k) (v : α) : tabGet? (tabSet t k v) j = tabGet? t j := by
  induction t with
  | nil => simp [tabSet, tabGet?, h.symm]
  | cons p t ih =>
    obtain ⟨k', v'⟩ := p
    by_cases h1 : k < k'
    · simp [tabSet, h1, tabGet?, h.symm]
    · by_cases h2 : k = k'
      · subst h2
        simp [tabSet, tabGet?, h.symm]
      · simp only [tabSet, h1, h2, if_false, tabGet?, ih]

theorem tabGet?_tabErase {α : Type} (t : Tab α) (k j : Nat) : tabGet? (tabErase t k) j = if j = k then none else tabGet? t j := by
  induction t with
  | nil => simp [tabErase]
  | cons p t ih =>
    obtain ⟨k', v'⟩ := p
    unfold tabErase at ih ⊢
    by_cases h : k' = k
    · subst h
      simp only [List.filter_cons, bne_self_eq_false, Bool.false_eq_true, if_false, ih, tabGet?]
      by_cases hj : j = k' <;> simp [hj, eq_comm]
    · have hb : (k' != k) = true := by simp [h]
      simp only [List.filter_cons, hb, if_true, tabGet?, ih]
      by_cases hj : k' = j
      · subst hj; simp [h]
      · simp [hj]

@[simp] theorem tabGet_tabSet_self {α : Type} (d : α) (t : Tab α) (k : Nat) (v : α) : tabGet d (tabSet t k v) k = v := by
  simp [tabGet]

theorem tabGet_tabSet_of_ne {α : Type} (d : α) (t : Tab α) {k j : Nat} (h : j ≠ k) (v : α) :
    tabGet d (tabSet t k v) j = tabGet d t j := by
  simp [tabGet, tabGet?_tabSet_of_ne t h]

theorem tabGet_tabSet {α : Type} (d : α) (t : Tab α) (k j : Nat) (v : α) :
    tabGet d (tabSet t k v) j = if j = k then v else tabGet d t j := by
  by_cases h : j = k
  · subst h; simp
  · simp [h, tabGet_tabSet_of_ne d t h]

theorem tabGet_tabPut {α : Type} [DecidableEq α] (d : α) (t : Tab α) (k j : Nat) (v : α) :
    tabGet d (tabPut d t k v) j = if j = k then v else tabGet d t j := by
  unfold tabPut
  by_cases hv : v = d
  · subst hv
    simp only [if_true, tabGet, tabGet?_tabErase]
    by_cases h : j = k <;> simp [h]
  · simp only [hv, if_false, tabGet_tabSet]

@[simp] theorem tabGet_tabPut_self {α : Type} [DecidableEq α] (d : α) (t : Tab α) (k : Nat) (v : α) :
    tabGet d (tabPut d t k v) k = v := by
  simp [tabGet_tabPut]

@[simp] theorem tabGet_tabMod_self {α : Type} (d : α) (t : Tab α) (k : Nat) (f : α → α) :
    tabGet d (tabMod d t k f) k = f (tabGet d t k) := by
  simp [tabMod]

theorem tabGet_tabMod_of_ne {α : Type} (d : α) (t : Tab α) {k j : Nat} (h : j ≠ k) (f : α → α) :
    tabGet d (tabMod d t k f) j = tabGet d t j := by
  simp [tabMod, tabGet_tabSet_of_ne d t h]

/-! ### The canonical form -/

/-- Every key of a table in canonical form is above a bound. -/
theorem tabWf_cons {α : Type} (k : Nat) (v : α) (t : Tab α) :
    tabWf ((k, v) :: t) = true ↔ (∀ p ∈ t, k < p.1) ∧ tabWf t = true := by
  induction t generalizing k v with
  | nil => simp [tabWf]
  | cons q t ih =>
    obtain ⟨k', v'⟩ := q
    simp only [tabWf, Bool.and_eq_true, decide_eq_true_eq, List.mem_cons, forall_eq_or_imp]
    constructor
    · rintro ⟨h1, h2⟩
      exact ⟨⟨h1, fun p hp => Nat.lt_trans h1 (((ih k' v').mp h2).1 p hp)⟩, h2⟩
    · rintro ⟨⟨h1, _⟩, h2⟩
      exact ⟨h1, h2⟩

theorem mem_tabSet {α : Type} (t : Tab α) (k : Nat) (v : α) (p : Nat × α) (h : p ∈ tabSet t k v) : p = (k, v) ∨ p ∈ t := by
  induction t with
  | nil => simpa [tabSet] using h
  | cons q t ih =>
    obtain ⟨k', v'⟩ := q
    simp only [tabSet] at h
    split at h
    · simpa using h
    · split at h
      · rcases List.mem_cons.mp h with h | h
        · exact .inl h
        · exact .inr (List.mem_cons_of_mem _ h)
      · rcases List.mem_cons.mp h with h | h
        · exact .inr (h ▸ List.mem_cons_self)
        · rcases ih h with h | h
          · exact .inl h
          · exact .inr (List.mem_cons_of_mem _ h)

theorem tabSet_wf {α : Type} (t : Tab α) (k : Nat) (v : α) (h : tabWf t = true) : tabWf (tabSet t k v) = true := by
  induction t with
  | nil => rfl
  | cons q t ih =>
    obtain ⟨k', v'⟩ := q
    obtain ⟨ha, hb⟩ := (tabWf_cons k' v' t).mp h
    simp only [tabSet]
    split
    · rename_i hk
      refine (tabWf_cons k v _).mpr ⟨?_, h⟩
      intro p hp
      rcases List.mem_cons.mp hp with rfl | hp
      · exact hk
      · exact Nat.lt_trans hk (ha p hp)
    · split
      · rename_i hk
        subst hk
        exact (tabWf_cons k v t).mpr ⟨ha, hb⟩
      · rename_i h1 h2
        refine (tabWf_cons k' v' _).mpr ⟨?_, ih hb⟩
        intro p hp
        rcases mem_tabSet t k v p hp with rfl | hp
        · exact Nat.lt_of_le_of_ne (Nat.not_lt.mp h1) (fun e => h2 e.symm)
        · exact ha p hp

theorem filter_wf {α : Type} (t : Tab α) (f : Nat × α → Bool) (h : tabWf t = true) : tabWf (t.filter f) = true := by
  induction t with
  | nil => rfl
  | cons q t ih =>
    obtain ⟨k, v⟩ := q
    obtain ⟨ha, hb⟩ := (tabWf_cons k v t).mp h
    rw [List.filter_cons]
    split
    · exact (tabWf_cons k v _).mpr ⟨fun p hp => ha p ((List.mem_filter.mp hp).1), ih hb⟩
    · exact ih hb

theorem tabErase_wf {α : Type} (t : Tab α) (k : Nat) (h : tabWf t = true) : tabWf (tabErase t k) = true := filter_wf t _ h

theorem tabPut_wf {α : Type} [DecidableEq α] (d : α) (t : Tab α) (k : Nat) (v : α) (h : tabWf t = true) :
    tabWf (tabPut d t k v) = true := by
  unfold tabPut
  split
  · exact tabErase_wf t k h
  · exact tabSet_wf t k v h

theorem tabMod_wf {α : Type} (d : α) (t : Tab α) (k : Nat) (f : α → α) (h : tabWf t = true) : tabWf (tabMod d t k f) = true :=
  tabSet_wf t k _ h

/-! ### Byte memories -/

/-- One byte after a write: the written byte in its range, the old byte outside. -/
theorem tabGet_memWrite (m : Tab Byte) (a : Nat) (bs : Bytes) (b : Nat) :
    tabGet 0 (memWrite m a bs) b = if a ≤ b ∧ b < a + bs.length then bs.getD (b - a) 0 else tabGet 0 m b := by
  induction bs generalizing m a with
  | nil => simp only [memWrite, List.length_nil]; rw [if_neg (by omega)]
  | cons x t ih =>
    rw [memWrite, ih, tabGet_tabPut]
    by_cases h1 : b = a
    · subst h1
      rw [if_neg (by omega), if_pos rfl, if_pos (by simp)]
      simp
    · by_cases h2 : a + 1 ≤ b ∧ b < a + 1 + t.length
      · rw [if_pos h2, if_pos (by simp only [List.length_cons]; omega)]
        have : b - a = (b - (a + 1)) + 1 := by omega
        rw [this, List.getD_cons_succ]
      · rw [if_neg h2, if_neg h1, if_neg (by simp only [List.length_cons]; omega)]

@[simp] theorem memRead_length (m : Tab Byte) (a n : Nat) : (memRead m a n).length = n := by
  induction n generalizing a with
  | zero => rfl
  | succ n ih => simp [memRead, ih]

theorem memRead_getD (m : Tab Byte) (a n i : Nat) (h : i < n) : (memRead m a n).getD i 0 = tabGet 0 m (a + i) := by
  induction n generalizing a i with
  | zero => omega
  | succ n ih =>
    cases i with
    | zero => simp [memRead]
    | succ i =>
      rw [memRead, List.getD_cons_succ, ih (a + 1) i (by omega)]
      congr 1; omega

/-- Reading what has just been written. -/
theorem memRead_memWrite (m : Tab Byte) (a : Nat) (bs : Bytes) : memRead (memWrite m a bs) a bs.length = bs := by
  apply List.ext_getElem (by simp)
  intro i h1 h2
  have h := memRead_getD (memWrite m a bs) a bs.length i h2
  rw [tabGet_memWrite, if_pos (by omega)] at h
  simp only [List.getD_eq_getElem?_getD] at h
  rw [List.getElem?_eq_getElem (by simpa using h1)] at h
  rw [show a + i - a = i by omega, List.getElem?_eq_getElem h2] at h
  simpa using h

theorem tabPut_mem {α : Type} [DecidableEq α] (d : α) (t : Tab α) (k : Nat) (v : α) (p : Nat × α) (h : p ∈ tabPut d t k v) :
    p ∈ t ∨ p = (k, v) ∧ v ≠ d := by
  unfold tabPut at h
  split at h
  · exact .inl ((List.mem_filter.mp h).1)
  · rename_i hv
    rcases mem_tabSet t k v p h with h | h
    · exact .inr ⟨h, hv⟩
    · exact .inl h

/-- A write keeps the canonical form. -/
theorem memWrite_wf (m : Tab Byte) (a : Nat) (bs : Bytes) (h : Memory.wf m = true) : Memory.wf (memWrite m a bs) = true := by
  induction bs generalizing m a with
  | nil => exact h
  | cons x t ih =>
    apply ih
    simp only [Memory.wf, Bool.and_eq_true, List.all_eq_true, bne_iff_ne, ne_eq] at h ⊢
    refine ⟨tabPut_wf 0 m a x h.1, fun p hp => ?_⟩
    rcases tabPut_mem 0 m a x p hp with hp | ⟨rfl, hx⟩
    · exact h.2 p hp
    · exact hx

end Sys2Proof.Machine
end

