-- ==== Sys2Proof/Laws/Scaesh.lean ====
section
/-! SUPPORT. Laws of the Scaesh operations: contexts and registers after an update, what an instruction that issues does, what a retirement
and a store change. -/

namespace Sys2Proof.Machine

/-! ### Contexts -/

@[simp] theorem core_setCore_self (s : State) (n : Nat) (c : Core) : (s.setCore n c).core n = c := by
  simp [State.core, State.setCore]

theorem core_setCore (s : State) (n m : Nat) (c : Core) : (s.setCore n c).core m = if m = n then c else s.core m := by
  simp [State.core, State.setCore, tabGet_tabSet]

theorem ctx_setCtx (c : Core) (k j : Nat) (x : Ctx) (hk : k < 4) (hj : j < 4) :
    (c.setCtx k x).ctx j = if j = k then x else c.ctx j := by
  rcases k with _ | _ | _ | _ | k <;> rcases j with _ | _ | _ | _ | j <;> first | omega | rfl

@[simp] theorem ctx_setCtx_self (c : Core) (k : Nat) (x : Ctx) : (c.setCtx k x).ctx k = x := by
  rcases k with _ | _ | _ | k <;> rfl

@[simp] theorem setCtx_ldm (c : Core) (k : Nat) (x : Ctx) : (c.setCtx k x).ldm = c.ldm := by
  rcases k with _ | _ | _ | k <;> rfl

@[simp] theorem setCtx_stepBits (c : Core) (k : Nat) (x : Ctx) : (c.setCtx k x).stepBits = c.stepBits := by
  rcases k with _ | _ | _ | k <;> rfl

/-- What a change of a context leaves of its core. -/
theorem setCtx_rest (c : Core) (k : Nat) (x : Ctx) :
    (c.setCtx k x).ldmPage = c.ldmPage ∧ (c.setCtx k x).halt = c.halt ∧ (c.setCtx k x).faultValid = c.faultValid ∧
      (c.setCtx k x).faultCause = c.faultCause ∧ (c.setCtx k x).faultCtx = c.faultCtx ∧ (c.setCtx k x).faultProg = c.faultProg ∧
      (c.setCtx k x).faultPc = c.faultPc := by
  rcases k with _ | _ | _ | k <;> exact ⟨rfl, rfl, rfl, rfl, rfl, rfl, rfl⟩

@[simp] theorem ctxAt_setCtxAt_self (s : State) (t : Site) (c : Ctx) : (s.setCtxAt t c).ctxAt t = c := by
  simp [State.ctxAt, State.setCtxAt]

/-- One context after a change of another. -/
theorem ctxAt_setCtxAt_of_ne (s : State) {t u : Site} (ht : t.ctx < 4) (hu : u.ctx < 4) (h : u ≠ t) (c : Ctx) :
    (s.setCtxAt t c).ctxAt u = s.ctxAt u := by
  simp only [State.ctxAt, State.setCtxAt, core_setCore]
  by_cases hc : u.core = t.core
  · rw [if_pos hc, ctx_setCtx _ _ _ _ ht hu, if_neg, hc]
    intro hk
    exact h (by cases t; cases u; simp_all)
  · rw [if_neg hc]

/-! ### Issue -/

/-- What an instruction that issues does: its effect, and no check in the way. -/
theorem issue_of_issues {s : State} {t : Site} {op : Nat} {w : GWord} {sh : Shape} {v : Inv} (h : Issues s t op w sh v)
    (f : Ctx → Inv → Eff) : issue s t op w sh f = s.applyEff t (s.ctxAt t) (f (s.ctxAt t) v) := by
  obtain ⟨⟨_, h2, h3, h4, h5, h6⟩, h7, h8⟩ := h
  unfold issue
  simp only [h2, h3, h5, h6, Nat.not_le.mpr h4]
  cases hv : sh.vec <;> cases ht : sh.tag <;> simp_all

/-- A vector instruction, which its guard does not hold back, issues as soon as it is the next one. -/
theorem Runs.issues {s : State} {t : Site} {op : Nat} {w : GWord} {sh : Shape} {v : Inv} (h : Runs s t op w sh v)
    (hv : sh.vec = true) (ht : sh.tag = false) : Issues s t op w sh v :=
  ⟨h, .inl hv, fun h => by simp_all⟩

/-- A guard that is off lets a scalar instruction retire with no effect. -/
theorem issue_of_guard_off {s : State} {t : Site} {op : Nat} {w : GWord} {sh : Shape} {v : Inv} (h : Runs s t op w sh v)
    (hv : sh.vec = false) (hg : guardOn (s.ctxAt t) w = false) (f : Ctx → Inv → Eff) : issue s t op w sh f = s.passes t := by
  obtain ⟨_, h2, h3, h4, h5, h6⟩ := h
  unfold issue
  simp only [h2, h3, h5, h6, Nat.not_le.mpr h4, hv, hg]
  rfl

/-- A malformed word faults with ILLEGAL. -/
theorem issue_of_illegal {s : State} {t : Site} {op : Nat} {w : GWord} {sh : Shape} {v : Inv} (h2 : (s.ctxAt t).inv = some v)
    (h3 : s.ready t = true) (h4 : (s.ctxAt t).pc < s.codeLen v) (h5 : s.wordIs v (s.ctxAt t).pc (encodeG op w) = true)
    (h6 : wordOk t.ctx sh w = false) (f : Ctx → Inv → Eff) : issue s t op w sh f = s.raise t 1 := by
  unfold issue
  simp [h2, h3, h5, h6, Nat.not_le.mpr h4]

/-! ### Retirement -/

theorem ctr_bump (s : State) (k j : Counter) (sc sd : Nat) :
    (s.bump k sc).ctr j sd = if ctrKey j sd = ctrKey k sc then s.ctr k sc + 1 else s.ctr j sd := by
  simp only [State.bump, State.bumpBy, State.ctr, tabGet_tabPut]
  rfl

@[simp] theorem core_bump (s : State) (k : Counter) (sc n : Nat) : (s.bump k sc).core n = s.core n := rfl
@[simp] theorem ctxAt_bump (s : State) (k : Counter) (sc : Nat) (t : Site) : (s.bump k sc).ctxAt t = s.ctxAt t := rfl
@[simp] theorem ctr_setCore (s : State) (k : Counter) (sc n : Nat) (c : Core) : (s.setCore n c).ctr k sc = s.ctr k sc := rfl
@[simp] theorem ctr_setCtxAt (s : State) (k : Counter) (sc : Nat) (t : Site) (c : Ctx) : (s.setCtxAt t c).ctr k sc = s.ctr k sc := rfl

theorem core_retire (s : State) (t : Site) (n : Nat) :
    (s.retire t).core n = if n = t.core then { s.core t.core with stepBits := setBits (s.core t.core).stepBits t.ctx 1 0 }
      else s.core n := by
  simp [State.retire, core_setCore]

@[simp] theorem ctxAt_retire (s : State) (t u : Site) : (s.retire t).ctxAt u = s.ctxAt u := by
  simp only [State.ctxAt, core_retire]
  split
  · rename_i h; rw [h]; rfl
  · rfl

theorem ldm_retire (s : State) (t : Site) (n : Nat) : ((s.retire t).core n).ldm = (s.core n).ldm := by
  rw [core_retire]; split
  · rename_i h; rw [h]
  · rfl

theorem ldm_setCtxAt (s : State) (t : Site) (c : Ctx) (n : Nat) : ((s.setCtxAt t c).core n).ldm = (s.core n).ldm := by
  simp only [State.setCtxAt, core_setCore]; split
  · rename_i h; rw [h, setCtx_ldm]
  · rfl

@[simp] theorem ctxAt_retired (s : State) (t : Site) (c : Ctx) (pc : Nat) : (s.retired t c pc).ctxAt t = { c with pc := pc } := by
  simp [State.retired]

theorem ldm_retired (s : State) (t : Site) (c : Ctx) (pc n : Nat) : ((s.retired t c pc).core n).ldm = (s.core n).ldm := by
  rw [State.retired, ldm_retire, ldm_setCtxAt]

@[simp] theorem cws_retired (s : State) (t : Site) (c : Ctx) (pc : Nat) : (s.retired t c pc).cores.cws = s.cores.cws := rfl
@[simp] theorem merge_retired (s : State) (t : Site) (c : Ctx) (pc : Nat) : (s.retired t c pc).cores.merge = s.cores.merge := rfl
@[simp] theorem cwsOf_retired (s : State) (t : Site) (c : Ctx) (pc cl : Nat) : (s.retired t c pc).cwsOf cl = s.cwsOf cl := rfl

/-- A retirement touches the cores and the counters alone. -/
theorem retired_only (s : State) (t : Site) (c : Ctx) (pc : Nat) : OnlyCores s (s.retired t c pc) := rfl

end Sys2Proof.Machine
end

