-- ==== Sys2Proof/Laws/State.lean ====
section
/-! SUPPORT. What each update of a block of the state changes; what it leaves is in Keeps1. -/

namespace Sys2Proof.Machine

@[simp] theorem State.modHost_host (s : State) (f : HostIf → HostIf) : (s.modHost f).host = f s.host := rfl
@[simp] theorem State.modFab_fab (s : State) (f : Fabric → Fabric) : (s.modFab f).fab = f s.fab := rfl
@[simp] theorem State.modDir_dir (s : State) (f : Directory → Directory) : (s.modDir f).dir = f s.dir := rfl
@[simp] theorem State.modAtt_att (s : State) (f : Attention → Attention) : (s.modAtt f).att = f s.att := rfl
@[simp] theorem State.modBeat_beat (s : State) (f : BeatUnit → BeatUnit) : (s.modBeat f).beat = f s.beat := rfl
@[simp] theorem State.modEmit_emit (s : State) (f : EmitUnit → EmitUnit) : (s.modEmit f).emit = f s.emit := rfl
@[simp] theorem State.modText_text (s : State) (f : TextUnit → TextUnit) : (s.modText f).text = f s.text := rfl
@[simp] theorem State.modCores_cores (s : State) (f : Cores → Cores) : (s.modCores f).cores = f s.cores := rfl
@[simp] theorem State.modRet_ret (s : State) (f : Retrieval → Retrieval) : (s.modRet f).ret = f s.ret := rfl
@[simp] theorem State.modLink_link (s : State) (f : Link → Link) : (s.modLink f).link = f s.link := rfl
@[simp] theorem State.modPartU_part (s : State) (f : PartUnit → PartUnit) : (s.modPartU f).part = f s.part := rfl
@[simp] theorem State.modCkpt_ckpt (s : State) (f : Ckpt → Ckpt) : (s.modCkpt f).ckpt = f s.ckpt := rfl
@[simp] theorem State.modMgmt_mgmt (s : State) (f : Mgmt → Mgmt) : (s.modMgmt f).mgmt = f s.mgmt := rfl
@[simp] theorem State.modPwr_pwr (s : State) (f : Power → Power) : (s.modPwr f).pwr = f s.pwr := rfl
@[simp] theorem State.emitOut_out (s : State) (x : Out) : (s.emitOut x).out = x :: s.out := rfl
@[simp] theorem State.draw_free (s : State) : s.draw.free = s.free + 1 := rfl
@[simp] theorem State.pass_tick (s : State) (n : Nat) : (s.pass n).tick = s.tick + n := rfl
@[simp] theorem State.modPart_part (s : State) (p : Nat) (f : Part → Part) :
    (s.modPart p f).part = { s.part with parts := tabMod {} s.part.parts p f } := rfl
@[simp] theorem State.modQs_host (s : State) (qk : Nat) (f : QueueSet → QueueSet) :
    (s.modQs qk f).host = { s.host with qs := tabMod {} s.host.qs qk f } := rfl
@[simp] theorem State.modPort_link (s : State) (p : Nat) (f : Port → Port) :
    (s.modPort p f).link = { s.link with ports := tabMod {} s.link.ports p f } := rfl
@[simp] theorem State.setCore_cores (s : State) (n : Nat) (c : Core) :
    (s.setCore n c).cores = { s.cores with core := tabSet s.cores.core n c } := rfl
@[simp] theorem State.setBlk_fab (s : State) (b : Nat) (k : KvBlk) :
    (s.setBlk b k).fab = { s.fab with kv := tabSet s.fab.kv b k } := rfl
@[simp] theorem State.modReq_att (s : State) (id : Nat) (f : QReq → QReq) : (s.modReq id f).att =
    { s.att with reqs := listMod (fun r => r.id == id) f s.att.reqs } := rfl
@[simp] theorem State.modModel_att (s : State) (p m : Nat) (f : ModelEnt → ModelEnt) : (s.modModel p m f).att =
    { s.att with models := tabPut {} s.att.models (p * 256 + m) (f (tabGet {} s.att.models (p * 256 + m))) } := rfl
@[simp] theorem State.modWin_beat (s : State) (p : Nat) (f : PWin → PWin) : (s.modWin p f).beat =
    { s.beat with wins := tabMod {} s.beat.wins p f } := rfl
@[simp] theorem State.modRoster_beat (s : State) (p : Nat) (f : Roster → Roster) : (s.modRoster p f).beat =
    { s.beat with rosters := tabMod {} s.beat.rosters p f } := rfl
@[simp] theorem State.modSlot_ckpt (s : State) (n : Nat) (f : CkSlot → CkSlot) : (s.modSlot n f).ckpt =
    { s.ckpt with slots := tabMod {} s.ckpt.slots n f } := rfl
@[simp] theorem State.setRec_dir (s : State) (ix : Nat) (r : Rec) : (s.setRec ix r).dir =
    { s.dir with recs := tabPut {} s.dir.recs ix r } := rfl
@[simp] theorem State.modWalk_dir (s : State) (id : Nat) (f : Walk → Walk) : (s.modWalk id f).dir =
    { s.dir with walks := listMod (fun w => w.sess == id) f s.dir.walks } := rfl
@[simp] theorem State.modPub_dir (s : State) (n : Nat) (f : Pub → Pub) : (s.modPub n f).dir =
    { s.dir with pubs := listMod (fun q => q.serial == n) f s.dir.pubs } := rfl
@[simp] theorem State.putRetire_dir (s : State) (r q : Retire) : (s.putRetire r q).dir =
    { s.dir with retires := s.dir.retires.map (fun o => if o = r then q else o) } := rfl
@[simp] theorem State.setMbx_host (s : State) (port n : Nat) (m : Mailbox) : (s.setMbx port n m).host =
    { s.host with mbx := tabPut {} s.host.mbx (port * 64 + n) m } := rfl
@[simp] theorem State.start_host (s : State) (n : Nat) : (s.start n).host =
    { s.host with cmds := listMod (fun c => c.serial == n) (fun c => { c with started := true, fresh := true }) s.host.cmds } := rfl
@[simp] theorem State.settle_host (s : State) (n : Nat) : (s.settle n).host =
    { s.host with cmds := listMod (fun c => c.serial == n) (fun c => { c with fresh := false }) s.host.cmds } := rfl
@[simp] theorem State.modIn_link (s : State) (id : Nat) (f : MoveIn → MoveIn) : (s.modIn id f).link =
    { s.link with ins := listMod (fun m => m.sess == id) f s.link.ins } := rfl
@[simp] theorem State.modOut_link (s : State) (id : Nat) (f : MoveOut → MoveOut) : (s.modOut id f).link =
    { s.link with outs := listMod (fun o => o.sess == id) f s.link.outs } := rfl
@[simp] theorem State.modVc_link (s : State) (port k : Nat) (f : PortVc → PortVc) : (s.modVc port k f).link =
    { s.link with ports := tabMod {} s.link.ports port (fun p => p.setVc k (f (p.vc k))) } := rfl
@[simp] theorem State.setReq_fab (s : State) (f g : FReq) : (s.setReq f g).fab =
    { s.fab with float := s.fab.float.map (fun x => if x = f then g else x) } := rfl
@[simp] theorem State.setReg_regs (s : State) (r : Reg) (scope v : Nat) : (s.setReg r scope v).regs =
    tabPut r.reset s.regs (regKey r scope) v := rfl
@[simp] theorem State.setSess_sess (s : State) (id : Nat) (x : Sess) : (s.setSess id x).sess = tabPut {} s.sess id x := rfl
@[simp] theorem State.setIndex_ret (s : State) (p n : Nat) (x : Index) : (s.setIndex p n x).ret =
    { s.ret with ixs := tabPut {} s.ret.ixs (p * 256 + n) x } := rfl
@[simp] theorem State.modCall_cores (s : State) (id : Nat) (f : Call → Call) : (s.modCall id f).cores =
    { s.cores with calls := listMod (fun c => c.id == id) f s.cores.calls } := rfl

end Sys2Proof.Machine
end

