-- ==== Sys2Proof/Laws/Ops.lean ====
section
/-! SUPPORT. What the shared operations give: a read after a write of each table of the state, the FINAL of a command, and what a command
row does through the operation it is written with. -/

namespace Sys2Proof.Machine

/-! ### Reads after writes -/

theorem State.reg_setReg (s : State) (r r2 : Reg) (p q v : Nat) :
    (s.setReg r p v).reg r2 q = if regKey r2 q = regKey r p then (if v = r.reset then r2.reset else v) else s.reg r2 q := by
  simp only [State.setReg, State.reg, tabPut, tabGet]
  by_cases hv : v = r.reset
  · rw [if_pos hv, tabGet?_tabErase]
    by_cases hk : regKey r2 q = regKey r p
    · simp [hk, hv]
    · simp [hk]
  · rw [if_neg hv]
    by_cases hk : regKey r2 q = regKey r p
    · simp [hk, hv]
    · simp [hk, tabGet?_tabSet_of_ne _ hk]

@[simp] theorem State.reg_setReg_self (s : State) (r : Reg) (p v : Nat) : (s.setReg r p v).reg r p = v := by
  simp only [State.reg_setReg, if_true]
  split
  · next h => exact h.symm
  · rfl

theorem State.reg_setReg_of_ne (s : State) {r r2 : Reg} {p q : Nat} (h : regKey r2 q ≠ regKey r p) (v : Nat) :
    (s.setReg r p v).reg r2 q = s.reg r2 q := by
  rw [State.reg_setReg, if_neg h]

/-- Two registers of one scope have keys of their own. -/
theorem regKey_ne {r r2 : Reg} (p : Nat) (h : r2.num ≠ r.num) : regKey r2 p ≠ regKey r p := by
  unfold regKey
  omega

@[simp] theorem State.ctr_bump_self (s : State) (c : Counter) (k : Nat) : (s.bump c k).ctr c k = s.ctr c k + 1 := by
  simp [ctr_bump]

@[simp] theorem State.getSess_setSess_self (s : State) (id : Nat) (x : Sess) : (s.setSess id x).getSess id = x := by
  simp [State.getSess, State.setSess]

theorem State.getSess_setSess (s : State) (id k : Nat) (x : Sess) : (s.setSess id x).getSess k = if k = id then x else s.getSess k := by
  simp [State.getSess, State.setSess, tabGet_tabPut]

@[simp] theorem State.getSess_modSess_self (s : State) (id : Nat) (f : Sess → Sess) : (s.modSess id f).getSess id = f (s.getSess id) := by
  simp [State.modSess]

theorem State.getSess_modSess (s : State) (id k : Nat) (f : Sess → Sess) :
    (s.modSess id f).getSess k = if k = id then f (s.getSess id) else s.getSess k := by
  simp [State.modSess, State.getSess_setSess]

theorem State.getSess_upd (s : State) (id k : Nat) (f : Sess → Sess) : (s.upd id f).getSess k =
    if k = id then { f (s.getSess id) with seq := ((s.getSess id).seq + 2) % 65536 } else s.getSess k := by
  simp [State.upd, State.getSess_modSess]

@[simp] theorem State.getSess_upd_self (s : State) (id : Nat) (f : Sess → Sess) :
    (s.upd id f).getSess id = { f (s.getSess id) with seq := ((s.getSess id).seq + 2) % 65536 } := by
  simp [State.getSess_upd]

/-- A session's handle is the only one of its entry that passes the check of R28. -/
theorem State.handle?_some {s : State} {p h id : Nat} (e : s.handle? p h = some id) :
    id = hId h ∧ inRange (s.getPart p) id = true ∧ (s.getSess id).gen = hGen h ∧ (s.getSess id).st ≠ .free ∧ h < 2 ^ 28 := by
  unfold State.handle? at e
  dsimp only at e
  split at e
  · next c =>
    cases e
    simp only [Bool.and_eq_true, beq_iff_eq, bne_iff_ne, ne_eq, decide_eq_true_eq] at c
    exact ⟨rfl, c.1.1.1, c.1.1.2, c.1.2, c.2⟩
  · cases e

@[simp] theorem State.getPart_modPart_self (s : State) (p : Nat) (f : Part → Part) : (s.modPart p f).getPart p = f (s.getPart p) := by
  simp [State.getPart, State.modPart]

theorem State.getPart_modPart_of_ne (s : State) {p q : Nat} (h : q ≠ p) (f : Part → Part) : (s.modPart p f).getPart q = s.getPart q := by
  simp [State.getPart, State.modPart, tabGet_tabMod_of_ne _ _ h]

@[simp] theorem State.qs_modQs_self (s : State) (qk : Nat) (f : QueueSet → QueueSet) : (s.modQs qk f).qs qk = f (s.qs qk) := by
  simp [State.qs, State.modQs]

theorem State.qs_modQs_of_ne (s : State) {qk k : Nat} (h : k ≠ qk) (f : QueueSet → QueueSet) : (s.modQs qk f).qs k = s.qs k := by
  simp [State.qs, State.modQs, tabGet_tabMod_of_ne _ _ h]

@[simp] theorem State.port_modPort_self (s : State) (p : Nat) (f : Port → Port) : (s.modPort p f).port p = f (s.port p) := by
  simp [State.port, State.modPort]

theorem State.port_modPort_of_ne (s : State) {p q : Nat} (h : q ≠ p) (f : Port → Port) : (s.modPort p f).port q = s.port q := by
  simp [State.port, State.modPort, tabGet_tabMod_of_ne _ _ h]

@[simp] theorem State.dirRec_setRec_self (s : State) (ix : Nat) (r : Rec) : (s.setRec ix r).dirRec ix = r := by
  simp [State.dirRec, State.setRec]

theorem State.dirRec_setRec (s : State) (ix k : Nat) (r : Rec) : (s.setRec ix r).dirRec k = if k = ix then r else s.dirRec k := by
  simp [State.dirRec, State.setRec, tabGet_tabPut]

@[simp] theorem State.blk_setBlk_self (s : State) (b : Nat) (k : KvBlk) : (s.setBlk b k).blk b = k := by
  simp [State.blk, State.setBlk]

theorem State.blk_setBlk_of_ne (s : State) {b c : Nat} (h : c ≠ b) (k : KvBlk) : (s.setBlk b k).blk c = s.blk c := by
  simp [State.blk, State.setBlk, tabGet_tabSet_of_ne _ _ h]

@[simp] theorem State.roster_modRoster_self (s : State) (p : Nat) (f : Roster → Roster) : (s.modRoster p f).roster p = f (s.roster p) := by
  simp [State.roster, State.modRoster]

@[simp] theorem State.ckSlot_modSlot_self (s : State) (n : Nat) (f : CkSlot → CkSlot) : (s.modSlot n f).ckSlot n = f (s.ckSlot n) := by
  simp [State.ckSlot, State.modSlot, State.modCkpt]

/-! ### The FINAL of a command (12_host_interface R325 to R331) -/

/-- A vector's message adds to what the device sent, or sets a pending bit. -/
theorem State.fireVec_out (s : State) (fn vec : Nat) : ∀ o ∈ s.out, o ∈ (s.fireVec fn vec).out := by
  intro o h
  unfold State.fireVec
  dsimp only
  split
  · exact h
  · exact List.mem_cons_of_mem _ h

theorem State.fireVec_cmds (s : State) (fn vec : Nat) : (s.fireVec fn vec).host.cmds = s.host.cmds := by
  unfold State.fireVec
  dsimp only
  split <;> rfl

theorem State.signalCpl_cmds (s : State) (qk : Nat) : (s.signalCpl qk).host.cmds = s.host.cmds := by
  unfold State.signalCpl
  dsimp only
  split
  · rw [State.fireVec_cmds]; rfl
  · rfl

theorem State.signalCpl_out (s : State) (qk : Nat) : ∀ o ∈ s.out, o ∈ (s.signalCpl qk).out := by
  intro o h
  unfold State.signalCpl
  dsimp only
  split
  · exact State.fireVec_out _ _ _ _ h
  · exact h

theorem State.postCpl_cmds (s : State) (qk : Nat) (c : Cpl) : (s.postCpl qk c).host.cmds = s.host.cmds := by
  unfold State.postCpl
  dsimp only
  by_cases h : (s.qs qk).en = true
  · rw [if_pos h, State.signalCpl_cmds]; rfl
  · rw [if_neg h]

/-- The entry an enabled queue set's ring takes (R328). -/
theorem State.postCpl_out (s : State) (qk : Nat) (c : Cpl) (h : (s.qs qk).en = true) :
    Out.cpl qk (s.qs qk).cplTail { c with cmdHead := (s.qs qk).cmdHead, phase := (s.qs qk).cplPhase } ∈ (s.postCpl qk c).out := by
  unfold State.postCpl
  dsimp only
  rw [if_pos h]
  exact State.signalCpl_out _ _ _ (List.mem_cons_self ..)

/-- A command that received its FINAL is no longer in flight (R325). -/
theorem State.cmd?_final (s : State) (n : Nat) (st : Status) (h a b c : Nat) : (s.final n st h a b c).cmd? n = none := by
  unfold State.final
  split
  · assumption
  · simp only [State.cmd?, State.postCpl_cmds]
    simp

/-- The FINAL entry of a command in flight (R325, R326). -/
theorem State.final_out (s : State) (n : Nat) (st : Status) (h a b d : Nat) (c : Cmd) (e : s.cmd? n = some c)
    (en : (s.qs c.qk).en = true) :
    Out.cpl c.qk (s.qs c.qk).cplTail { kind := 0, status := st, cmdHead := (s.qs c.qk).cmdHead, cid := c.cid, handle := h, res0 := a, res1 := b,
                                       res2 := d, phase := (s.qs c.qk).cplPhase } ∈ (s.final n st h a b d).out := by
  unfold State.final
  rw [e]
  have k : ∀ s0 : State, s0 = (if c.fresh && st.refuses then s.bump .hifRejected (c.qk / 64) else s) → s0.host = s.host := by
    rintro _ rfl
    split <;> rfl
  have q : ∀ s0 : State, s0.host = s.host → s0.qs c.qk = s.qs c.qk := by
    intro s0 h
    unfold State.qs
    rw [h]
  dsimp only
  rw [← q _ (k _ rfl)] at en ⊢
  exact State.postCpl_out _ _ _ en

/-! ### What a row does -/

/-- A row written with `whenUp` always goes on. -/
theorem whenUp_next (s t : State) (f : State → State) : whenUp s f = .next t ↔ t = if s.up = true then f s else s := by
  unfold whenUp
  constructor
  · intro h; cases h; rfl
  · rintro rfl; rfl

/-- What a row's effect keeps, the row keeps. -/
theorem whenUp_fix {γ : Type} (P : State → γ) (f : State → State) (h : ∀ s, P (f s) = P s) {s t : State} (e : whenUp s f = .next t) :
    P t = P s := by
  rw [whenUp_next] at e
  subst e
  split
  · exact h s
  · rfl

theorem withBound_fix {γ : Type} (P : State → γ) (f : State → State) (h : ∀ s, P (f s) = P s) (d : ∀ s n, P (s.denied n) = P s)
    {s t : State} {fn : Nat} (e : withBound s fn f = .next t) : P t = P s := by
  refine whenUp_fix P _ ?_ e
  intro s
  split
  · exact h s
  · exact d s fn

theorem partWrite_fix {γ : Type} (P : State → γ) (f : State → Nat → State) (h : ∀ s p, P (f s p) = P s)
    (d : ∀ s n, P (s.denied n) = P s) {s t : State} {fn o : Nat} (e : partWrite s fn o f = .next t) : P t = P s := by
  refine whenUp_fix P _ ?_ e
  intro s
  split
  · exact h s _
  · exact d s fn
  · rfl

theorem withCmd_fix {γ : Type} (P : State → γ) (f : State → Cmd → State) (h : ∀ s c, P (f s c) = P s)
    (b : ∀ s n, P (State.start s n) = P s) (g : ∀ s n, P (State.settle s n) = P s) {s t : State} {qk op : Nat} (e : withCmd s qk op f = .next t) : P t = P s := by
  refine whenUp_fix P _ ?_ e
  intro s
  split
  · split
    · exact (g _ _).trans ((h _ _).trans (b s _))
    · rfl
  · rfl

theorem withSess_fix {γ : Type} (P : State → γ) (f : State → Cmd → Nat → State) (h : ∀ s c id, P (f s c id) = P s)
    (b : ∀ s n, P (State.start s n) = P s) (g : ∀ s n, P (State.settle s n) = P s) (d : ∀ s n st, P (State.done s n st) = P s)
    {s t : State} {qk op : Nat}
    (e : withSess s qk op f = .next t) : P t = P s := by
  refine whenUp_fix P _ ?_ e
  intro s
  split
  · rfl
  · split
    · rfl
    · split
      · exact (g _ _).trans ((d _ _ _).trans (b s _))
      · exact (g _ _).trans ((h _ _ _).trans (b s _))

theorem serve_fix {γ : Type} (P : State → γ) (f : State → MReq → State) (h : ∀ s r, P (f s r) = P s)
    (k : ∀ s n, P (State.skipUnknown n s) = P s) (d : ∀ s r st b, P (State.reply s r st b) = P s) {s t : State} {svc op : Nat}
    (e : serve s svc op f = .next t) : P t = P s := by
  refine whenUp_fix P _ ?_ e
  intro s
  dsimp only
  split
  · rfl
  · split
    · exact k s _
    · split
      · exact k s _
      · split
        · exact (d _ _ _ _).trans (k s _)
        · exact (h _ _).trans (k s _)

/-- A row that starts the first command of its queue set, when that command names this opcode (R323). -/
theorem withCmd_next {s : State} {qk op : Nat} {c : Cmd} (h : Next s qk op c) (f : State → Cmd → State) :
    withCmd s qk op f = .next ((f (s.start c.serial) c).settle c.serial) := by
  simp [withCmd, whenUp, h.up, h.first, h.code]

/-- … and a session of its own partition. -/
theorem withSess_next {s : State} {qk op : Nat} {c : Cmd} {id : Nat} (h : NextSess s qk op c id) (f : State → Cmd → Nat → State) :
    withSess s qk op f = .next ((f (s.start c.serial) c id).settle c.serial) := by
  simp [withSess, whenUp, h.up, h.first, h.code, h.names]

/-- The service row of the request the hawk serves next (17_management R442). -/
theorem serve_next {s : State} {svc op : Nat} {r : MReq} (h : Asks s svc op r) (k : svcKnown svc op = true) (f : State → MReq → State) :
    serve s svc op f = .next (f s r) := by
  have e : State.skipUnknown maxReqs s = s := by
    have : ∀ n, State.skipUnknown n s = s := by
      intro n
      cases n with
      | zero => rfl
      | succ n => simp [State.skipUnknown, h.next, h.names, k]
    exact this _
  simp [serve, whenUp, h.up, h.hawk, e, h.next, h.names, h.allowed]

/-! ### Scaesh effects -/

/-- Every state an effect leaves meets a property. -/
def Eff.leaves (P : State → Prop) : Eff → Prop
  | .next _ s => P s
  | .jump _ s _ => P s
  | .hold _ s => P s
  | .stay => True
  | .fault _ => True
  | .faultIn s _ => P s
  | .stop s _ => P s

/-- What a checked operand's effect keeps. -/
theorem withLoc_leaves (P : State → Prop) (l : Except Nat Loc) (f : Loc → Eff) (h : ∀ x, (f x).leaves P) : (withLoc l f).leaves P := by
  cases l with
  | error c => exact trivial
  | ok x => exact h x

/-- What a gated effect keeps. -/
theorem gated_leaves (P : State → Prop) (s : State) (v : Inv) (dies : List Nat) (est : Nat) (e : Eff) (h : e.leaves P) :
    (gated s v dies est e).leaves P := by
  unfold gated
  split
  · exact trivial
  · split
    · exact h
    · exact trivial

/-- What the effect, the retirement, a fault and the end of an invocation keep, an instruction keeps. -/
theorem issue_fix {γ : Type} (P : State → γ) (s : State) (t : Site) (op : Nat) (w : GWord) (sh : Shape) (f : Ctx → Inv → Eff)
    (h : ∀ c v, (f c v).leaves (fun u => P u = P s)) (a : ∀ u c, P (State.setCtxAt u t c) = P u) (b : ∀ u, P (State.retire u t) = P u)
    (r : ∀ u n, P (State.raise u t n) = P u) (z : ∀ u st n, P (State.endInv u t st n) = P u) : P (issue s t op w sh f) = P s := by
  have go : ∀ c e, Eff.leaves (fun u => P u = P s) e → P (s.applyEff t c e) = P s := by
    intro c e he
    cases e with
    | next c' u => exact ((b _).trans (a _ _)).trans he
    | jump c' u pc => exact ((b _).trans (a _ _)).trans he
    | hold c' u => exact (a _ _).trans he
    | stay => rfl
    | fault n => exact r s n
    | faultIn u n => exact (r u n).trans he
    | stop u st => exact ((z _ _ _).trans (b _)).trans he
  unfold issue
  dsimp only
  split
  · rfl
  · split
    · rfl
    · split
      · exact r s 2
      · split
        · split
          · exact r s 1
          · rfl
        · split
          · exact r s 1
          · split
            · exact go _ _ rfl
            · split
              · rfl
              · exact go _ _ (h _ _)

end Sys2Proof.Machine
end

