-- ==== Sys2Proof/Laws/Places.lean ====
section
/-! SUPPORT. What a chosen address gives: it lies in its region and, where the region has room, apart from every range in use
(03_state_fabric R58, R495). -/

namespace Sys2Proof.Machine

theorem mem_listInsertBack {α : Type} (lt : α → α → Bool) (a x : α) (l : List α) :
    x ∈ listSort.listInsertBack lt a l ↔ x = a ∨ x ∈ l := by
  induction l with
  | nil => simp [listSort.listInsertBack]
  | cons y t ih =>
    unfold listSort.listInsertBack
    split
    · simp only [List.mem_cons, ih, or_left_comm]
    · simp only [List.mem_cons]

theorem mem_listSort {α : Type} (lt : α → α → Bool) (x : α) (l : List α) : x ∈ listSort lt l ↔ x ∈ l := by
  induction l with
  | nil => simp [listSort]
  | cons y t ih => simp [listSort, mem_listInsertBack, ih]

/-- A list sorted by its numbers. -/
abbrev Rising (l : List (Nat × Nat)) : Prop := l.Pairwise (fun a b => a.1 ≤ b.1)

theorem insertBack_rising (a : Nat × Nat) (l : List (Nat × Nat)) (h : Rising l) :
    Rising (listSort.listInsertBack (fun (a b : Nat × Nat) => decide (a.1 < b.1)) a l) := by
  induction l with
  | nil => simp [listSort.listInsertBack]
  | cons y t ih =>
    obtain ⟨hy, ht⟩ := List.pairwise_cons.mp h
    unfold listSort.listInsertBack
    split
    · next c =>
      refine List.pairwise_cons.mpr ⟨fun b hb => ?_, ih ht⟩
      rcases (mem_listInsertBack _ _ _ _).mp hb with rfl | hb
      · exact Nat.le_of_lt (of_decide_eq_true c)
      · exact hy b hb
    · next c =>
      have c : a.1 ≤ y.1 := by simpa using c
      refine List.pairwise_cons.mpr ⟨fun b hb => ?_, h⟩
      rcases List.mem_cons.mp hb with rfl | hb
      · exact c
      · exact Nat.le_trans c (hy b hb)

theorem listSort_rising (l : List (Nat × Nat)) : Rising (listSort (fun (a b : Nat × Nat) => decide (a.1 < b.1)) l) := by
  induction l with
  | nil => exact List.Pairwise.nil
  | cons y t ih => exact insertBack_rising y _ ih

/-- A gap that holds something lies within the region, and apart from every range it was taken from. -/
theorem gaps_apart (hi lo : Nat) (l : List (Nat × Nat)) (h : Rising l) (g : Nat × Nat) (hg : g ∈ gaps hi lo l) (hp : 0 < g.2) :
    lo ≤ g.1 ∧ g.1 + g.2 ≤ hi ∧ ∀ r ∈ l, g.1 + g.2 ≤ r.1 ∨ r.1 + r.2 ≤ g.1 := by
  induction l generalizing lo with
  | nil =>
    obtain rfl : g = (lo, hi - lo) := by simpa [gaps] using hg
    dsimp only at hp ⊢
    refine ⟨Nat.le_refl _, by omega, fun r hr => nomatch hr⟩
  | cons a t ih =>
    obtain ⟨ha, ht⟩ := List.pairwise_cons.mp h
    rcases List.mem_cons.mp hg with rfl | hg
    · dsimp only at hp ⊢
      refine ⟨Nat.le_refl _, by omega, fun r hr => .inl ?_⟩
      have k : a.1 ≤ r.1 := by
        rcases List.mem_cons.mp hr with rfl | hr
        · exact Nat.le_refl _
        · exact ha r hr
      omega
    · obtain ⟨h1, h2, h3⟩ := ih (max lo (a.1 + a.2)) ht hg
      refine ⟨by omega, h2, fun r hr => ?_⟩
      rcases List.mem_cons.mp hr with rfl | hr
      · exact .inr (by omega)
      · exact h3 r hr

theorem sumOf_cons {α : Type} (f : α → Nat) (a : α) (l : List α) : sumOf f (a :: l) = f a + sumOf f l := by
  have k : ∀ (l : List α) (n : Nat), l.foldl (fun n x => n + f x) n = n + l.foldl (fun n x => n + f x) 0 := by
    intro l
    induction l with
    | nil => intro n; rfl
    | cons x t ih => intro n; rw [List.foldl_cons, List.foldl_cons, ih, ih (0 + f x)]; omega
  unfold sumOf
  rw [List.foldl_cons, k]
  omega

/-- A place lies in one of the free ranges. -/
theorem placeNo_in (n k : Nat) (l : List (Nat × Nat)) (h : k < placesIn n l) :
    ∃ g ∈ l, g.1 ≤ placeNo n k l ∧ placeNo n k l + n ≤ g.1 + g.2 := by
  induction l generalizing k with
  | nil => exact absurd h (Nat.not_lt_zero _)
  | cons a t ih =>
    simp only [placesIn, sumOf_cons] at h
    unfold placeNo
    split
    · exact ⟨a, List.mem_cons_self .., by omega, by omega⟩
    · obtain ⟨g, hg, h1, h2⟩ := ih (k - (a.2 + 1 - n)) (by unfold placesIn; omega)
      exact ⟨g, List.mem_cons_of_mem _ hg, h1, h2⟩

/-- A chosen address lies in its region. -/
theorem freeAddr_in (used : List (Nat × Nat)) (lo hi n k : Nat) (hn : 0 < n) (h : lo + n ≤ hi) :
    lo ≤ freeAddr used lo hi n k ∧ freeAddr used lo hi n k + n ≤ hi := by
  unfold freeAddr
  dsimp only
  split
  · next hp =>
    obtain ⟨g, hg, h1, h2⟩ := placeNo_in n _ _ (Nat.mod_lt k hp)
    obtain ⟨h3, h4, _⟩ := gaps_apart hi lo _ (listSort_rising used) g hg (by omega)
    omega
  · have := Nat.mod_lt k (show 0 < hi - lo + 1 - n by omega)
    omega

/-- Where some free range is long enough, a chosen address shares nothing with a range in use. -/
theorem freeAddr_apart (used : List (Nat × Nat)) (lo hi n k : Nat) (hn : 0 < n)
    (room : 0 < placesIn n (gaps hi lo (listSort (fun (a b : Nat × Nat) => decide (a.1 < b.1)) used))) :
    ∀ r ∈ used, freeAddr used lo hi n k + n ≤ r.1 ∨ r.1 + r.2 ≤ freeAddr used lo hi n k := by
  intro r hr
  unfold freeAddr
  dsimp only
  rw [if_pos room]
  obtain ⟨g, hg, h1, h2⟩ := placeNo_in n _ _ (Nat.mod_lt k room)
  obtain ⟨_, _, h3⟩ := gaps_apart hi lo _ (listSort_rising used) g hg (by omega)
  have := h3 r ((mem_listSort _ _ _).mpr hr)
  omega

end Sys2Proof.Machine
end

