-- ==== Sys2Proof/Machine/Cipher.lean ====
section
/-! DEFINITION. What leaves the package, as the security engine enciphers it: working keys (15_security R393), tweaks of the parked-state
region, the windows, the index region and native flits (R395 to R397), checkpoint shards and manifests (16_checkpoint R422, R423). The
ciphers are the standards' (Config.xts, Config.gcm); no command of the model reads a ciphertext back. -/

namespace Sys2Proof.Machine

/-! ### Working keys (R393) -/

/-- NIST SP 800-108 in counter mode with HMAC-SHA-256: a number of 32-byte blocks of key material for a label and a context. PRESUMED: 100 (the
counter and the length are the standard's 32-bit big-endian fields, a zero byte between label and context). -/
def kdf (key : Bytes) (label : String) (context : Bytes) (blocks : Nat) : Bytes :=
  (List.range blocks).flatMap (fun i => hmacSha256 key (natBe 4 (i + 1) ++ ascii label ++ [0] ++ context ++ natBe 4 (256 * blocks)))

/-- BOOT_NONCE: 128 bits drawn at each module reset. -/
def State.bootNonce (s : State) : Nat := Config.pick s.sec.bootNonce % 2 ^ 128

/-- K_PARK: tier 2 and tier 3. -/
def State.kPark (s : State) : Bytes := kdf Config.usk "YK park" (natLe 16 s.bootNonce) 2

/-- K_INDEX: the index region. -/
def kIndex : Bytes := kdf Config.usk "YK index" [] 2

/-- K_LINK of a port: the two ports' INSTANCE values, numerically lower first. -/
def State.kLink (s : State) (port : Nat) : Bytes :=
  let a := s.linkInst
  let b := (s.port port).peerInst
  kdf Config.kgk "YK link" (natLe 4 (min a b) ++ natLe 4 (max a b)) 2

/-- K_CKPT of a checkpoint's NONCE. -/
def kCkpt (nonce : Nat) : Bytes := kdf Config.kgk "YK ckpt" (natLe 16 nonce) 1

/-! ### Tweaks (R395 to R397) -/

/-- T of a 4 KiB unit of the parked-state region. -/
def parkTweak (part epoch unit : Nat) : Nat := unit % 2 ^ 40 + part * 2 ^ 48 + 2 * 2 ^ 52 + epoch * 2 ^ 64

/-- T of a 4 KiB unit of a tier-3 window. -/
def winTweak (part win epoch unit : Nat) : Nat := unit % 2 ^ 40 + win * 2 ^ 40 + part * 2 ^ 48 + 3 * 2 ^ 52 + epoch * 2 ^ 64

/-- T of a 4 KiB unit of the index region. -/
def indexTweak (part unit : Nat) : Nat := unit % 2 ^ 40 + part * 2 ^ 48 + 2 ^ 54

/-- T of a native flit: its extended sequence on its VC since UP, the sender's INSTANCE and port, the VC. -/
def flitTweak (eseq inst port vc : Nat) : Nat := eseq % 2 ^ 64 + inst * 2 ^ 64 + port * 2 ^ 96 + vc * 2 ^ 100

/-- One 4 KiB data unit as it stands in tier 2. -/
def State.sealPark (s : State) (part unit : Nat) (data : Bytes) : Bytes := Config.xts s.kPark (parkTweak part (s.getPart part).epoch unit) data

/-- One 4 KiB data unit as it stands in a tier-3 window. -/
def State.sealWin (s : State) (part win unit : Nat) (data : Bytes) : Bytes :=
  Config.xts s.kPark (winTweak part win (tabGet 0 s.sec.winEpoch win) unit) data

/-- One 4 KiB data unit as it stands in the index region. -/
def sealIndex (part unit : Nat) (data : Bytes) : Bytes := Config.xts kIndex (indexTweak part unit) data

/-- A flit of a port that is UP as it stands on the wire (13_cunis_link R348): the header in clear, the payload under K_LINK. -/
def State.sealFlit (s : State) (port vc eseq : Nat) (f : Bytes) : Bytes :=
  f.take 8 ++ Config.xts (s.kLink port) (flitTweak eseq s.linkInst port vc) (f.drop 8)

/-! ### Checkpoint shards and manifests (16_checkpoint R422, R423) -/

/-- A record of a shard: its 16-byte header, then its LEN bytes. DESIGN CHOICE: 100 (TYPE holds the KIND of its shard; R422 names no values). -/
def ckRecord (type number : Nat) (body : Bytes) : Bytes :=
  natLe 2 type ++ natLe 2 0 ++ natLe 4 number ++ natLe 4 body.length ++ natLe 4 0 ++ body

/-- A shard before it is enciphered: KIND, PART, INDEX, OFFSET in the slot, plaintext. -/
structure Shard where
  kind : Nat
  part : Nat
  index : Nat
  offset : Nat
  plain : Bytes
  deriving DecidableEq, Repr

/-- The stored bytes of a shard: the plaintext with the 16-byte tag. -/
def Shard.len (h : Shard) : Nat := h.plain.length + 16

/-- Bytes 0 to 31 of a shard-table entry: the additional authenticated data. -/
def Shard.entryHead (h : Shard) : Bytes :=
  natLe 1 h.kind ++ natLe 1 h.part ++ natLe 2 0 ++ natLe 4 h.index ++ natLe 8 h.offset ++ natLe 4 h.len ++ List.replicate 12 0

/-- The IV of a shard. -/
def Shard.iv (h : Shard) : Bytes := natLe 1 h.kind ++ natLe 1 h.part ++ natLe 4 h.index ++ List.replicate 6 0

/-- A shard as it is stored. -/
def Shard.stored (nonce : Nat) (h : Shard) : Bytes := Config.gcm (kCkpt nonce) h.iv h.entryHead h.plain

/-- A shard-table entry. -/
def Shard.entry (nonce : Nat) (h : Shard) : Bytes := h.entryHead ++ sha256 (h.stored nonce)

/-- NONCE of a checkpoint: 128 bits drawn for it. -/
def CkImage.nonceVal (im : CkImage) : Nat := Config.pick im.nonce % 2 ^ 128

/-- The clear header of a checkpoint's manifest, bytes 0 to 127. -/
def State.manHeader (s : State) (im : CkImage) (shards : Nat) : Bytes :=
  natLe 1 1 ++ natLe 1 im.content ++ natLe 1 (b2n im.composable) ++ natLe 1 0 ++ natLe 4 Config.keyGroup.toNat ++
    natLe 8 Config.serial.toNat ++ natLe 6 im.beat ++ natLe 2 0 ++ natLe 4 im.tick ++ natLe 4 im.serial ++ natLe 16 im.nonceVal ++
    natLe 4 shards ++ natLe 4 s.idPart ++ natLe 4 idVersion ++ List.replicate 68 0

/-- A manifest: the header, the shard table under K_CKPT with its tag, the digest over all of it. -/
def State.manifest (s : State) (im : CkImage) (l : List Shard) : Bytes :=
  let h := s.manHeader im l.length
  let b := h ++ Config.gcm (kCkpt im.nonceVal) (0xFF :: List.replicate 11 0) h (l.flatMap (Shard.entry im.nonceVal))
  b ++ sha256 b

/-- A session's TOKLOG record: its log entries in order (R422, 02_sessions R47). -/
def tokRecord (handle : Nat) (log : List LogTok) : Bytes := ckRecord 2 handle (log.flatMap (fun t => natLe 4 t.word))

end Sys2Proof.Machine
end

