-- ==== Sys2Proof/Tests/Slice0.lean ====
section
/-! SUPPORT. This model's own tests: an ill-formed command for each check of WellFormed, the published check values of the
checksums and ciphers, and for every obligation with premises states and operands that meet them together. -/

set_option Elab.async false

namespace Sys2Proof.Tests
open Sys2Proof Sys2Proof.Machine

abbrev MInv := Sys2Proof.Machine.Inv

/-- A context on site (core 0, context 0). -/
def t0 : Site := ⟨0, 0⟩

/-- An invocation of a customer program. -/
def inv0 : MInv := { id := 1, part := 0, prog := 32, ver := 1, cls := .bulk, gate := .bulk }

/-- An image of `n` instructions that need 16 KiB and more of both memories, all of them one word. -/
def img (n w : Nat) : Bytes :=
  natLe 8 0 ++ natLe 4 (8 * n) ++ natLe 4 0 ++ natLe 4 0x8000 ++ natLe 4 0x8000 ++ List.replicate 168 0 ++ natLe 8 w

/-- A running module whose core 0 has a context running invocation `v` at the first instruction, the word `w` with opcode `op`. -/
def runs (v : MInv) (c : Ctx) (op : Nat) (w : GWord) : State :=
  { pwr := { st := .running }
    cores := { core := [(0, { ctx0 := { c with st := .running, inv := some v } })]
               progs := [{ part := 0, id := 32, ver := 1, img := img 1 (encodeG op w), ldmBase := 0x28000, cwsBase := 0x500000,
                           imemBase := 0, live := true }] } }

/-- A check that implies the premise. -/
def runsB (s : State) (t : Site) (op : Nat) (w : GWord) (sh : Shape) (v : MInv) : Bool :=
  s.up && decide ((s.ctxAt t).inv = some v) && s.ready t && decide ((s.ctxAt t).pc < s.codeLen v) &&
    s.wordIs v (s.ctxAt t).pc (encodeG op w) && wordOk t.ctx sh w

theorem runs_of {s : State} {t : Site} {op : Nat} {w : GWord} {sh : Shape} {v : MInv} (h : runsB s t op w sh v = true) :
    Runs s t op w sh v := by
  simp only [runsB, Bool.and_eq_true, decide_eq_true_eq] at h
  exact ⟨h.1.1.1.1.1, h.1.1.1.1.2, h.1.1.1.2, h.1.1.2, h.1.2, h.2⟩

/-- A check that implies the premise. -/
def issuesB (s : State) (t : Site) (op : Nat) (w : GWord) (sh : Shape) (v : MInv) : Bool :=
  runsB s t op w sh v && (sh.vec || guardOn (s.ctxAt t) w) && (!sh.tag || !(s.ctxAt t).tagBusy (w.f % 16))

theorem issues_of {s : State} {t : Site} {op : Nat} {w : GWord} {sh : Shape} {v : MInv} (h : issuesB s t op w sh v = true) :
    Issues s t op w sh v := by
  simp only [issuesB, Bool.and_eq_true, Bool.or_eq_true, Bool.not_eq_true'] at h
  exact ⟨runs_of h.1.1, h.1.2, fun ht => h.2.resolve_left (by simp [ht])⟩

theorem ok_of {ε α : Type} {x : Except ε α} {a : α} (h : x.toOption = some a) : x = .ok a := by
  cases x <;> simp_all [Except.toOption]

/-- The error of a result. -/
def errOf {ε α : Type} : Except ε α → Option ε
  | .ok _ => none
  | .error e => some e

theorem error_of {ε α : Type} {x : Except ε α} {e : ε} (h : errOf x = some e) : x = .error e := by
  cases x <;> simp_all [errOf]

/-- A context with scalar registers set. -/
def cx (l : List (Nat × Nat)) : Ctx := { x := l.map (fun e => (e.1, BitVec.ofNat 64 e.2)) }

/-- A model of two layers. -/
def mdl : ModelEnt := { layers := 2, qheads := 2, kvheads := 1, headDim := 32, vocab := 1000, valid := true }

/-- A session of one block whose first five positions are written. -/
def ses (d : Desc) : Sess :=
  { st := .running, gen := 1, home := 0, length := 5, pend := 3, pages := [d], marks := [(0, 5), (1, 5)] }

/-- A block at a tier and cluster. -/
def blk (tier cl : Nat) : Desc := { valid := true, tier := tier, cluster := cl, fill := 5 }

/-- … in partition 0, which has cluster 0, model 0 and session 7. -/
def inPart (d : Desc) (s : State) : State :=
  { s with part := { parts := [(0, { st := .active, clusters := [0], groupBase := 0, groups := 1, rows := 10, t2Quota := 1000 })]
                     ports := [(2, 0)], doms := [(3, { part := 0 })] }
           sess := [(7, ses d)], att := { s.att with models := [(0, mdl)] } }

/-- The handle of session 7. -/
def h7 : Nat := 2 ^ 20 + 7

/-- A byte string of `n` bytes given place by place. -/
def mkB (n : Nat) (f : Nat → Nat) : Bytes := (List.range n).map (fun i => byte (f i))

theorem mkB_length (n : Nat) (f : Nat → Nat) : (mkB n f).length = n := by simp [mkB]

theorem mkB_slice (n : Nat) (f : Nat → Nat) (i k : Nat) :
    slice (mkB n f) i k = (List.range' i (min k (n - i))).map (fun i => byte (f i)) := by
  apply List.ext_getElem
  · simp [slice, mkB]
  · intro j h1 h2; simp [slice, mkB, List.getElem_range']

theorem mkB_field (n : Nat) (f : Nat → Nat) (i k : Nat) :
    field (mkB n f) i k = leNat ((List.range' i (min k (n - i))).map (fun i => byte (f i))) := by rw [field, mkB_slice]

theorem mkB_byte (n : Nat) (f : Nat → Nat) (i : Nat) : byteAt (mkB n f) i = if i < n then (byte (f i)).toNat else 0 := by
  unfold byteAt mkB
  by_cases h : i < n <;> simp [h]

theorem fit_eq {n : Nat} {b : Bytes} (h : b.length = n) : fit 0 n b = b := by subst h; simp [fit]

theorem tab_at {α : Type} (k : Nat) {k' : Nat} {g : α} (h : k' = k) : tabGet? [(k, g)] k' = some g := by
  subst h; simp [tabGet?]

/-- A stencil set of five tokens and two states, which class 0 joins; its checks and its sections (07_sampling_and_stencils R177). -/
def stenF (i : Nat) : Nat :=
  if i < 64 then [1, 0, 0, 0, 5, 0, 0, 0, 2, 0, 0, 0, 1, 0, 0, 0, 1, 0, 0, 0, 2, 0, 0, 0, 0, 0, 0, 0, 4, 0, 0, 0, 0, 0, 0, 0, 0, 0,
    0, 0, 0, 0, 0, 0, 0, 0, 0, 0, 0, 0, 0, 0, 0, 0, 0, 0, 0, 0, 0, 0, 133, 95, 183, 186].getD i 0
  else if i = 8192 then 0x1F else if i = 12296 then 1 else if i = 12308 then 1 else if i = 12312 then 1 else if i = 16388 then 1 else 0

/-- The image of that set. -/
def sten : Bytes := mkB 16400 stenF

theorem sten_ok : stencilOk sten = true := by
  simp only [stencilOk, stencilOuts, stencilTrans, stencilRec, stencilClass, maskBit, stencilHdr, sten, mkB_field, mkB_byte, mkB_slice,
    mkB_length]
  decide +kernel

theorem sten_next : stencilNext sten 0 0 = some 1 := by
  simp only [stencilNext, stencilOuts, stencilTrans, stencilRec, stencilClass, stencilHdr, sten, mkB_field]
  decide +kernel

/-- That set, loaded. -/
def stenSet : StencilSet := { img := sten, pages := 5 }

theorem sten_next_at {k t : Nat} (hk : k = 0) (ht : t = 0) : stencilNext stenSet.img k t = some 1 := by
  rw [hk, ht]; simp only [stenSet, sten_next]

/-- A tokeniser image of one token, the byte 65 (08_text_unit R203, R204). -/
def tokF (i : Nat) : Nat :=
  if i < 64 then (natLe 4 1 ++ natLe 4 1 ++ natLe 4 0 ++ natLe 4 1024 ++ natLe 4 0 ++ natLe 4 1 ++ natLe 4 (1 + 2 ^ 16 + 2 ^ 25) ++
    natLe 4 1 ++ natLe 28 0 ++ natLe 4 2434446528).map BitVec.toNat |>.getD i 0
  else if 24576 ≤ i ∧ i < 25600 then (if 24836 ≤ i ∧ i < 24840 then 0 else 255)
  else if i = 28675 then 1 else if i = 28684 then 2 else if i = 32768 then 65 else 0

/-- That image. -/
def tokV : Bytes := mkB 45056 tokF

theorem tokV_ok : tokOk tokV 1 = true := by
  simp only [tokOk, tokHdrOk, TokImg.lengthOk, TokImg.merges, TokImg.merge, TokImg.find, TokImg.str, TokImg.special, TokImg.strEnt, openTok, tokSecs, tokHdr, TokHdr.mhSlots, tokV, mkB_field, mkB_byte, mkB_slice, mkB_length]
  decide +kernel

/-- The same bytes with a vocabulary of two: the second token is a control token. -/
def toki : Bytes := mkB 45056 (fun i => if i = 4 then 2 else tokF i)

theorem toki_vocab : (openTok toki).h.vocab = 2 := by
  simp only [openTok, tokHdr, toki, mkB_field]
  decide +kernel

theorem toki_special : (openTok toki).special 0 = false ∧ (openTok toki).special 1 = true := by
  simp only [TokImg.special, TokImg.strEnt, openTok, tokSecs, tokHdr, toki, mkB_field, mkB_byte]
  decide +kernel

theorem toki_str : (openTok toki).str 0 = [65] := by
  simp only [TokImg.str, TokImg.strEnt, openTok, tokSecs, tokHdr, toki, mkB_field, mkB_byte, mkB_slice]
  decide +kernel

theorem toki_at {k : Nat} (h : k = 0) :
    (openTok toki).special k = false ∧ (openTok toki).str k = [65] ∧ (openTok toki).str k ≠ [] := by
  subst h; rw [toki_str]; exact ⟨toki_special.1, rfl, by decide⟩

theorem toki_loc {s : State} {v : MInv} {b : Bool} {a : Word} {k : Nat} {l : Loc} (h : k = 0)
    (hl : s.spaceLoc v b a 1 1 false = .ok l) : s.spaceLoc v b a ((openTok toki).str k).length 1 false = .ok l := by
  rw [(toki_at h).2.1]; exact hl

/-- Core 0's data memory. -/
def withLdm (m : Tab Byte) (s : State) : State :=
  { s with cores := { s.cores with core := s.cores.core.map (fun e => (e.1, { e.2 with ldm := m })) } }


/-! ### Host commands -/

/-- The bytes of a command with an opcode, on session 7, with fields (place, bytes, value) in their order. -/
def raw (op : Nat) (l : List (Nat × Nat × Nat)) : Bytes :=
  l.foldl (fun b e => putSlice b e.1 (natLe e.2.1 e.2.2)) (natLe 8 (op + 256) ++ natLe 56 h7)

/-- The command with these bytes on queue set 0 of function 1, which is bound to partition 0. -/
def cm (op : Nat) (l : List (Nat × Nat × Nat)) : Cmd := { serial := 1, qk := 64, part := 0, raw := raw op l }

/-- A running module whose partition 0 has functions 1 and 2, cluster 0, model 0 and session 7, with that command waiting. -/
def asks (c : Cmd) (x : Sess) : State :=
  let s := inPart {} {}
  { s with part := { s.part with fns := [(1, 0), (2, 0)] }, sess := [(7, x)]
           host := { qs := [(64, { en := true, cmdLog2 := 4, cplLog2 := 4, emitLog2 := 4 })], cmds := [c], serial := 2 } }

/-- A check that implies the premise. -/
def nextB (s : State) (qk op : Nat) (c : Cmd) : Bool :=
  s.up && decide (s.firstCmd qk = some c) && decide (byteAt c.raw 0 = op) && decide (s.cmd? c.serial = some c)

theorem next_of {s : State} {qk op : Nat} {c : Cmd} (h : nextB s qk op c = true) : Next s qk op c := by
  simp only [nextB, Bool.and_eq_true, decide_eq_true_eq] at h
  exact ⟨h.1.1.1, h.1.1.2, h.1.2, h.2⟩

theorem sess_of {s : State} {qk op : Nat} {c : Cmd} {id : Nat}
    (h : (nextB s qk op c && decide (s.handle? c.part (field c.raw 8 4) = some id)) = true) : NextSess s qk op c id := by
  rw [Bool.and_eq_true, decide_eq_true_eq] at h
  exact ⟨next_of h.1, h.2⟩

/-- An entry in a state, without positions. -/
def fresh (st : SState) : Sess := { st := st, gen := 1 }

theorem sten_fit {n : Nat} (h : n = 16400) : stencilOk (fit 0 n sten) = true := by
  rw [fit_eq (show sten.length = n from (mkB_length _ _).trans h.symm)]; exact sten_ok

theorem tok_fit {n v : Nat} (h : n = 45056) (hv : v = 1) : tokOk (fit 0 n tokV) v = true := by
  rw [fit_eq (show tokV.length = n from (mkB_length _ _).trans h.symm), hv]; exact tokV_ok

/-- A sampler profile of 64 bytes (07_sampling_and_stencils R183). -/
def profB : Bytes := natLe 4 (1 + 2 ^ 16) ++ natLe 4 0 ++ natLe 4 0x3F800000 ++ natLe 48 0 ++ natLe 4 1171891697

/-- A stop set of one string (08_text_unit R214). -/
def stopB : Bytes := natLe 8 (1 + 2 ^ 8) ++ natLe 8 1 ++ natLe 44 0 ++ natLe 4 3214923892 ++ [66]

/-- An unsigned program image of one instruction and one entry, to be called, of bulk class (09_scaesh_model R234). -/
def progB (num crc : Nat) : Bytes :=
  [1, 1, 0, 0, byte num, 1, 0, 0] ++ natLe 52 8 ++ natLe 4 crc ++ natLe 8 (0x0D * 2 ^ 16) ++ natLe 128 0

/-- That image, loaded. -/
def prog1 : Prog := { part := 0, id := 32, ver := 1, img := progB 32 1770056804, ldmBase := 0x28000, cwsBase := 0x500000, imemBase := 0x6000, live := true }

/-- A check that implies the premise. -/
def asksB (s : State) (svc op : Nat) (r : MReq) : Bool :=
  s.up && s.hawkUp && decide (s.nextReq = some r) && decide (r.svc = svc ∧ r.op = op) && svcAllowed svc op r.path

theorem asks_of {s : State} {svc op : Nat} {r : MReq} (h : asksB s svc op r = true) : Asks s svc op r := by
  simp only [asksB, Bool.and_eq_true, decide_eq_true_eq] at h
  exact ⟨h.1.1.1.1, h.1.1.1.2, h.1.1.2, h.1.2, h.2⟩

/-! ### Well-formedness -/

theorem test_wf_refuses_queue_set :
    (∀ i ∈ ([.sessOpen 2176, .sessAppend 2176 [], .sessGenerate 2176, .sessPark 2176, .sessStrip 2176, .sessResume 2176, .sessHint 2176, .sessCancel 2176, .sessClose 2176, .sessExport 2176, .dirPublish 2176, .dirRetire 2176] : List Instr), i.wf = false) ∧
    (∀ i ∈ ([.dirRetireDomain 2176, .stencilLoad 2176 [], .stencilUnload 2176, .sampLoad 2176 [], .sampUnload 2176, .stopLoad 2176 [], .stopUnload 2176, .tokLoad 2176 [], .tokUnload 2176, .tokEncode 2176 [], .progLoad 2176 [], .progUnload 2176] : List Instr), i.wf = false) ∧
    (∀ i ∈ ([.progCall 2176, .progCancel 2176, .indexCreate 2176 [], .indexWrite 2176 [], .search 2176 [], .indexCompact 2176, .indexDrop 2176, .partCreate 2176 [], .partDestroy 2176, .partRecompose 2176 [], .partBind 2176, .domBind 2176] : List Instr), i.wf = false) ∧
    (∀ i ∈ ([.domUnbind 2176, .meterReport 2176, .ckptTake 2176, .ckptRestore 2176 0 0, .cmdFetch 2176 (List.replicate 64 0) [], .qsWorkDrained 2176, .msixCoalesceTimer 2176 false] : List Instr), i.wf = false) := by decide +kernel

theorem test_wf_refuses_function :
    (∀ i ∈ ([.cmdDoorbell 34 0 0 0, .cplDoorbell 34 0 0 0, .emitDoorbell 34 0 0 0, .qsEnable 34 0 0, .qsDisable 34 0 0, .flr 34, .mbxGo 34 0 0, .returnClk 34, .forceFb 34, .linkClkselWrite 34 0, .linkRestart 34 0 0, .linkEn 34 0 0] : List Instr), i.wf = false) ∧
    (∀ i ∈ ([.linkFraming 34 0 0, .resync 34, .beatNowRead 34, .coreDbgHalt 34 0 0, .coreDbgStep 34 0 0, .coreFaultClear 34 0 0, .coreWindowWrite 34 0 0 0 0, .ownerByteWrite 34 0 0 0, .sfPlSelWrite 34 0, .sfProbeSelWrite 34 0, .dirRecSelWrite 34 0, .textHeldSelWrite 34 0] : List Instr), i.wf = false) ∧
    (∀ i ∈ ([.sessTokSelWrite 34 0, .attTurnClr 34 0, .regWrite 34 0 0 0] : List Instr), i.wf = false) := by decide +kernel

theorem test_wf_refuses_page :
    (∀ i ∈ ([.cmdDoorbell 0 256 0 0, .cplDoorbell 0 256 0 0, .emitDoorbell 0 256 0 0] : List Instr), i.wf = false) := by decide +kernel

theorem test_wf_refuses_slot :
    (∀ i ∈ ([.cmdFetch 0 [0] []] : List Instr), i.wf = false) := by decide +kernel

theorem test_wf_refuses_loads :
    (∀ i ∈ ([.cmdFetch 0 (List.replicate 64 0) [(7, [0])], .beatTick0 [(7, [0])]] : List Instr), i.wf = false) := by decide +kernel

theorem test_wf_refuses_queue :
    (∀ i ∈ ([.qsEnable 0 64 0, .qsDisable 0 64 0] : List Instr), i.wf = false) := by decide +kernel

theorem test_wf_refuses_host_port :
    (∀ i ∈ ([.pcieLinkDown 2, .perstAssert 2, .perstDeassert 2, .claim 2, .renew 2, .release 2, .mgmtDomainReset 2 0] : List Instr), i.wf = false) := by decide +kernel

theorem test_wf_refuses_mailbox :
    (∀ i ∈ ([.mbxGo 0 64 0] : List Instr), i.wf = false) := by decide +kernel

theorem test_wf_refuses_straps :
    (∀ i ∈ ([.inputUp ⟨8, false, false⟩, .modResetN 0 ⟨8, false, false⟩, .moduleReset ⟨8, false, false⟩, .clockLossRecovery ⟨8, false, false⟩] : List Instr), i.wf = false) := by decide +kernel

theorem test_wf_refuses_port :
    (∀ i ∈ ([.cdrLockLost 16, .phyUp 16, .phyDown 16, .hello 16, .helloResend 16, .linkRestart 0 16 0, .linkEn 0 16 0, .linkFraming 0 16 0, .rxFrame 16 0 false [], .credit 16, .creditSend 16 0, .egressFrame 16] : List Instr), i.wf = false) ∧
    (∀ i ∈ ([.beat 16, .qSubmit 16 0, .kvAppend 16, .logits 16, .kvRead 16, .moveOffer 16, .moveAccept 16, .moveRefuse 16, .moveLog 16, .moveLogged 16, .moveKv 16, .moveDone 16] : List Instr), i.wf = false) ∧
    (∀ i ∈ ([.moveAck 16, .moveAbandon 16, .cdrLockGained 16] : List Instr), i.wf = false) := by decide +kernel

theorem test_wf_refuses_channel :
    (∀ i ∈ ([.creditSend 0 4, .qSubmit 0 4] : List Instr), i.wf = false) := by decide +kernel

theorem test_wf_refuses_partition :
    (∀ i ∈ ([.roster 16, .prefillWindowOpen 16, .bulkWindowOpen 16, .dirSearchSlot 16 false, .lookupTailSlot 16 false, .publishSlot 16, .retireSlot 16, .dirRebuildSlot 16, .faultScanEntry 16, .scraperReclaimT0 16, .scraperReclaimT1 16, .scraperCommit 16] : List Instr), i.wf = false) ∧
    (∀ i ∈ ([.primerQueueRevive 16, .floatUnit 16 0, .floatSwitch 16, .indexCommit 16 0 0, .compactCellSwitch 16 0 false] : List Instr), i.wf = false) := by decide +kernel

theorem test_wf_refuses_session :
    (∀ i ∈ ([.stallTimeout 1048576, .carryLimit 1048576, .learn 1048576, .stencilFetch 1048576, .kvDataSend 1048576, .rankedResult 1048576, .mirrorFlush 1048576 0 0 [], .toklogRemirror 1048576] : List Instr), i.wf = false) := by decide +kernel

theorem test_wf_refuses_cluster :
    (∀ i ∈ ([.deal 32, .laneTokenise 32, .chainStep 32] : List Instr), i.wf = false) := by decide +kernel

theorem test_wf_refuses_core :
    (∀ i ∈ ([.decodeItem 256 .ok false, .prefillUnit 256 false .ok, .mergeContinuation 256, .callInvocation 256 0, .watchdog 256 0, .tagComplete 256 0 0, .coreDbgHalt 0 256 0, .coreDbgStep 0 256 0, .coreFaultClear 0 256 0, .coreWindowWrite 0 256 0 0 0] : List Instr), i.wf = false) := by decide +kernel

theorem test_wf_refuses_context :
    (∀ i ∈ ([.callInvocation 0 4, .watchdog 0 4, .tagComplete 0 4 0] : List Instr), i.wf = false) := by decide +kernel

theorem test_wf_refuses_tag :
    (∀ i ∈ ([.tagComplete 0 0 16] : List Instr), i.wf = false) := by decide +kernel

theorem test_wf_refuses_site :
    (∀ i ∈ ([.add ⟨0, 4⟩ {}, .sub ⟨0, 4⟩ {}, .mul ⟨0, 4⟩ {}, .mulhu ⟨0, 4⟩ {}, .and ⟨0, 4⟩ {}, .or ⟨0, 4⟩ {}, .xor ⟨0, 4⟩ {}, .shl ⟨0, 4⟩ {}, .shr ⟨0, 4⟩ {}, .sra ⟨0, 4⟩ {}, .min ⟨0, 4⟩ {}, .max ⟨0, 4⟩ {}] : List Instr), i.wf = false) ∧
    (∀ i ∈ ([.minu ⟨0, 4⟩ {}, .maxu ⟨0, 4⟩ {}, .slt ⟨0, 4⟩ {}, .sltu ⟨0, 4⟩ {}, .addi ⟨0, 4⟩ {}, .andi ⟨0, 4⟩ {}, .ori ⟨0, 4⟩ {}, .xori ⟨0, 4⟩ {}, .shli ⟨0, 4⟩ {}, .shri ⟨0, 4⟩ {}, .srai ⟨0, 4⟩ {}, .slti ⟨0, 4⟩ {}] : List Instr), i.wf = false) ∧
    (∀ i ∈ ([.li ⟨0, 4⟩ {}, .divu ⟨0, 4⟩ {}, .remu ⟨0, 4⟩ {}, .clz ⟨0, 4⟩ {}, .popc ⟨0, 4⟩ {}, .crc ⟨0, 4⟩ {}, .insh ⟨0, 4⟩ {}, .beq ⟨0, 4⟩ {}, .bne ⟨0, 4⟩ {}, .blt ⟨0, 4⟩ {}, .bge ⟨0, 4⟩ {}, .bltu ⟨0, 4⟩ {}] : List Instr), i.wf = false) ∧
    (∀ i ∈ ([.bgeu ⟨0, 4⟩ {}, .jal ⟨0, 4⟩ {}, .jr ⟨0, 4⟩ {}, .endInv ⟨0, 4⟩ {}, .nop ⟨0, 4⟩ {}, .ld ⟨0, 4⟩ {}, .st ⟨0, 4⟩ {}, .cld ⟨0, 4⟩ {}, .cst ⟨0, 4⟩ {}, .cadd ⟨0, 4⟩ {}, .ccas ⟨0, 4⟩ {}, .rds ⟨0, 4⟩ {}] : List Instr), i.wf = false) ∧
    (∀ i ∈ ([.vadd ⟨0, 4⟩ {}, .vsub ⟨0, 4⟩ {}, .vmul ⟨0, 4⟩ {}, .vfma ⟨0, 4⟩ {}, .vmax ⟨0, 4⟩ {}, .vmin ⟨0, 4⟩ {}, .vexp ⟨0, 4⟩ {}, .vlog ⟨0, 4⟩ {}, .vrcp ⟨0, 4⟩ {}, .vcvt ⟨0, 4⟩ {}, .vrmax ⟨0, 4⟩ {}, .vrsum ⟨0, 4⟩ {}] : List Instr), i.wf = false) ∧
    (∀ i ∈ ([.vscl ⟨0, 4⟩ {}, .vsel ⟨0, 4⟩ {}, .vld ⟨0, 4⟩ {}, .vst ⟨0, 4⟩ {}, .vcld ⟨0, 4⟩ {}, .vcst ⟨0, 4⟩ {}, .vget ⟨0, 4⟩ {}, .vput ⟨0, 4⟩ {}, .vspl ⟨0, 4⟩ {}, .vbit ⟨0, 4⟩ {}, .pand ⟨0, 4⟩ {}, .por ⟨0, 4⟩ {}] : List Instr), i.wf = false) ∧
    (∀ i ∈ ([.pxor ⟨0, 4⟩ {}, .pnot ⟨0, 4⟩ {}, .pcmp ⟨0, 4⟩ {}, .pfx ⟨0, 4⟩ {}, .pcnt ⟨0, 4⟩ {}, .bind ⟨0, 4⟩ {}, .unbind ⟨0, 4⟩ {}, .bdesc ⟨0, 4⟩ {} .ok, .bsess ⟨0, 4⟩ {}, .bld ⟨0, 4⟩ {} .ok, .bst ⟨0, 4⟩ {} .ok, .aqk ⟨0, 4⟩ {} .ok] : List Instr), i.wf = false) ∧
    (∀ i ∈ ([.asmx ⟨0, 4⟩ {}, .apv ⟨0, 4⟩ {} .ok, .amrg ⟨0, 4⟩ {}, .afin ⟨0, 4⟩ {}, .apost ⟨0, 4⟩ {}, .aout ⟨0, 4⟩ {}, .atz ⟨0, 4⟩ {}, .atld ⟨0, 4⟩ {}, .atst ⟨0, 4⟩ {}, .skey ⟨0, 4⟩ {}, .ssort ⟨0, 4⟩ {}, .smerge ⟨0, 4⟩ {}] : List Instr), i.wf = false) ∧
    (∀ i ∈ ([.sstage ⟨0, 4⟩ {}, .scnt ⟨0, 4⟩ {}, .estn ⟨0, 4⟩ {}, .ephx ⟨0, 4⟩ {}, .ecmt ⟨0, 4⟩ {}, .edtk ⟨0, 4⟩ {}, .eseam ⟨0, 4⟩ {}, .enext ⟨0, 4⟩ {}, .dsrch ⟨0, 4⟩ {}, .hrd ⟨0, 4⟩ {} [], .hwr ⟨0, 4⟩ {}, .msend ⟨0, 4⟩ {}] : List Instr), i.wf = false) ∧
    (∀ i ∈ ([.mrecv ⟨0, 4⟩ {}, .mpoll ⟨0, 4⟩ {}, .lsend ⟨0, 4⟩ {}, .dbell ⟨0, 4⟩ {}, .twait ⟨0, 4⟩ {}, .tpoll ⟨0, 4⟩ {}, .fencec ⟨0, 4⟩ {}, .fenced ⟨0, 4⟩ {}, .barc ⟨0, 4⟩ {}, .barp ⟨0, 4⟩ {}, .wbeat ⟨0, 4⟩ {}, .wwin ⟨0, 4⟩ {}] : List Instr), i.wf = false) ∧
    (∀ i ∈ ([.wleft ⟨0, 4⟩ {}, .gdecl ⟨0, 4⟩ {}] : List Instr), i.wf = false) := by decide +kernel

theorem test_wf_refuses_word :
    (∀ i ∈ ([.add ⟨0, 0⟩ { f := 256 }, .sub ⟨0, 0⟩ { f := 256 }, .mul ⟨0, 0⟩ { f := 256 }, .mulhu ⟨0, 0⟩ { f := 256 }, .and ⟨0, 0⟩ { f := 256 }, .or ⟨0, 0⟩ { f := 256 }, .xor ⟨0, 0⟩ { f := 256 }, .shl ⟨0, 0⟩ { f := 256 }, .shr ⟨0, 0⟩ { f := 256 }, .sra ⟨0, 0⟩ { f := 256 }, .min ⟨0, 0⟩ { f := 256 }, .max ⟨0, 0⟩ { f := 256 }] : List Instr), i.wf = false) ∧
    (∀ i ∈ ([.minu ⟨0, 0⟩ { f := 256 }, .maxu ⟨0, 0⟩ { f := 256 }, .slt ⟨0, 0⟩ { f := 256 }, .sltu ⟨0, 0⟩ { f := 256 }, .addi ⟨0, 0⟩ { f := 256 }, .andi ⟨0, 0⟩ { f := 256 }, .ori ⟨0, 0⟩ { f := 256 }, .xori ⟨0, 0⟩ { f := 256 }, .shli ⟨0, 0⟩ { f := 256 }, .shri ⟨0, 0⟩ { f := 256 }, .srai ⟨0, 0⟩ { f := 256 }, .slti ⟨0, 0⟩ { f := 256 }] : List Instr), i.wf = false) ∧
    (∀ i ∈ ([.li ⟨0, 0⟩ { f := 256 }, .divu ⟨0, 0⟩ { f := 256 }, .remu ⟨0, 0⟩ { f := 256 }, .clz ⟨0, 0⟩ { f := 256 }, .popc ⟨0, 0⟩ { f := 256 }, .crc ⟨0, 0⟩ { f := 256 }, .insh ⟨0, 0⟩ { f := 256 }, .beq ⟨0, 0⟩ { f := 256 }, .bne ⟨0, 0⟩ { f := 256 }, .blt ⟨0, 0⟩ { f := 256 }, .bge ⟨0, 0⟩ { f := 256 }, .bltu ⟨0, 0⟩ { f := 256 }] : List Instr), i.wf = false) ∧
    (∀ i ∈ ([.bgeu ⟨0, 0⟩ { f := 256 }, .jal ⟨0, 0⟩ { f := 256 }, .jr ⟨0, 0⟩ { f := 256 }, .endInv ⟨0, 0⟩ { f := 256 }, .nop ⟨0, 0⟩ { f := 256 }, .ld ⟨0, 0⟩ { f := 256 }, .st ⟨0, 0⟩ { f := 256 }, .cld ⟨0, 0⟩ { f := 256 }, .cst ⟨0, 0⟩ { f := 256 }, .cadd ⟨0, 0⟩ { f := 256 }, .ccas ⟨0, 0⟩ { f := 256 }, .rds ⟨0, 0⟩ { f := 256 }] : List Instr), i.wf = false) ∧
    (∀ i ∈ ([.vadd ⟨0, 0⟩ { f := 256 }, .vsub ⟨0, 0⟩ { f := 256 }, .vmul ⟨0, 0⟩ { f := 256 }, .vfma ⟨0, 0⟩ { f := 256 }, .vmax ⟨0, 0⟩ { f := 256 }, .vmin ⟨0, 0⟩ { f := 256 }, .vexp ⟨0, 0⟩ { f := 256 }, .vlog ⟨0, 0⟩ { f := 256 }, .vrcp ⟨0, 0⟩ { f := 256 }, .vcvt ⟨0, 0⟩ { f := 256 }, .vrmax ⟨0, 0⟩ { f := 256 }, .vrsum ⟨0, 0⟩ { f := 256 }] : List Instr), i.wf = false) ∧
    (∀ i ∈ ([.vscl ⟨0, 0⟩ { f := 256 }, .vsel ⟨0, 0⟩ { f := 256 }, .vld ⟨0, 0⟩ { f := 256 }, .vst ⟨0, 0⟩ { f := 256 }, .vcld ⟨0, 0⟩ { f := 256 }, .vcst ⟨0, 0⟩ { f := 256 }, .vget ⟨0, 0⟩ { f := 256 }, .vput ⟨0, 0⟩ { f := 256 }, .vspl ⟨0, 0⟩ { f := 256 }, .vbit ⟨0, 0⟩ { f := 256 }, .pand ⟨0, 0⟩ { f := 256 }, .por ⟨0, 0⟩ { f := 256 }] : List Instr), i.wf = false) ∧
    (∀ i ∈ ([.pxor ⟨0, 0⟩ { f := 256 }, .pnot ⟨0, 0⟩ { f := 256 }, .pcmp ⟨0, 0⟩ { f := 256 }, .pfx ⟨0, 0⟩ { f := 256 }, .pcnt ⟨0, 0⟩ { f := 256 }, .bind ⟨0, 0⟩ { f := 256 }, .unbind ⟨0, 0⟩ { f := 256 }, .bdesc ⟨0, 0⟩ { f := 256 } .ok, .bsess ⟨0, 0⟩ { f := 256 }, .bld ⟨0, 0⟩ { f := 256 } .ok, .bst ⟨0, 0⟩ { f := 256 } .ok, .aqk ⟨0, 0⟩ { f := 256 } .ok] : List Instr), i.wf = false) ∧
    (∀ i ∈ ([.asmx ⟨0, 0⟩ { f := 256 }, .apv ⟨0, 0⟩ { f := 256 } .ok, .amrg ⟨0, 0⟩ { f := 256 }, .afin ⟨0, 0⟩ { f := 256 }, .apost ⟨0, 0⟩ { f := 256 }, .aout ⟨0, 0⟩ { f := 256 }, .atz ⟨0, 0⟩ { f := 256 }, .atld ⟨0, 0⟩ { f := 256 }, .atst ⟨0, 0⟩ { f := 256 }, .skey ⟨0, 0⟩ { f := 256 }, .ssort ⟨0, 0⟩ { f := 256 }, .smerge ⟨0, 0⟩ { f := 256 }] : List Instr), i.wf = false) ∧
    (∀ i ∈ ([.sstage ⟨0, 0⟩ { f := 256 }, .scnt ⟨0, 0⟩ { f := 256 }, .estn ⟨0, 0⟩ { f := 256 }, .ephx ⟨0, 0⟩ { f := 256 }, .ecmt ⟨0, 0⟩ { f := 256 }, .edtk ⟨0, 0⟩ { f := 256 }, .eseam ⟨0, 0⟩ { f := 256 }, .enext ⟨0, 0⟩ { f := 256 }, .dsrch ⟨0, 0⟩ { f := 256 }, .hrd ⟨0, 0⟩ { f := 256 } [], .hwr ⟨0, 0⟩ { f := 256 }, .msend ⟨0, 0⟩ { f := 256 }] : List Instr), i.wf = false) ∧
    (∀ i ∈ ([.mrecv ⟨0, 0⟩ { f := 256 }, .mpoll ⟨0, 0⟩ { f := 256 }, .lsend ⟨0, 0⟩ { f := 256 }, .dbell ⟨0, 0⟩ { f := 256 }, .twait ⟨0, 0⟩ { f := 256 }, .tpoll ⟨0, 0⟩ { f := 256 }, .fencec ⟨0, 0⟩ { f := 256 }, .fenced ⟨0, 0⟩ { f := 256 }, .barc ⟨0, 0⟩ { f := 256 }, .barp ⟨0, 0⟩ { f := 256 }, .wbeat ⟨0, 0⟩ { f := 256 }, .wwin ⟨0, 0⟩ { f := 256 }] : List Instr), i.wf = false) ∧
    (∀ i ∈ ([.wleft ⟨0, 0⟩ { f := 256 }, .gdecl ⟨0, 0⟩ { f := 256 }] : List Instr), i.wf = false) := by decide +kernel

theorem test_wf_refuses_check :
    (∀ i ∈ ([.floatUnit 0 5, .indexCommit 0 0 3] : List Instr), i.wf = false) := by decide +kernel

theorem test_wf_refuses_copy :
    (∀ i ∈ ([.mirrorFlush 0 3 0 [0]] : List Instr), i.wf = false) := by decide +kernel

theorem test_wf_refuses_flash_channel :
    (∀ i ∈ ([.searchChannelScan 0 32 [] false, .flashChannelLost 32] : List Instr), i.wf = false) := by decide +kernel

theorem test_wf_refuses_index :
    (∀ i ∈ ([.indexCommit 0 256 0, .compactCellSwitch 0 256 false] : List Instr), i.wf = false) := by decide +kernel

theorem test_wf_refuses_copies :
    (∀ i ∈ ([.ckptCut [(7, 3)]] : List Instr), i.wf = false) := by decide +kernel

theorem test_wf_refuses_die :
    (∀ i ∈ ([.computeDieLost 4] : List Instr), i.wf = false) := by decide +kernel

theorem test_wf_site_and_word_fields :
    siteOk ⟨256, 0⟩ = false ∧ siteOk ⟨0, 4⟩ = false ∧ siteOk ⟨255, 3⟩ = true ∧
    (∀ w ∈ ([{ pg := 8 }, { d := 32 }, { a := 32 }, { b := 32 }, { c := 32 }, { f := 256 }, { i := 2 ^ 24 }] : List GWord), w.ok = false) ∧
    GWord.ok { pg := 7, pgn := true, d := 31, a := 31, b := 31, c := 31, f := 255, i := 2 ^ 24 - 1 } = true := by decide +kernel

/-! ### Published check values -/

/-- "123456789". -/
def digits : Bytes := [49, 50, 51, 52, 53, 54, 55, 56, 57]

theorem test_checksums : crc32c digits = 0xE3069283 ∧ crc32 digits = 0xCBF43926 ∧ crc16 digits = 0x29B1 := by decide +kernel

theorem test_sha256_abc : beNat (sha256 [97, 98, 99]) =
    0xBA7816BF8F01CFEA414140DE5DAE2223B00361A396177A9CB410FF61F20015AD := by decide +kernel

theorem test_philox_zero : philox 0 0 0 0 0 0 = (0x6627E8D5, 0xE169C58D, 0xBC57AC4C, 0x9B00DBD8) := by decide +kernel

/-- The worked example of 15_security R397. -/
theorem test_window_tweak : natLe 16 (winTweak 3 5 2 (0x12345000 / 4096)) =
    [0x45, 0x23, 0x01, 0, 0, 0x05, 0x33, 0, 2, 0, 0, 0, 0, 0, 0, 0] := by decide

/-! ### Witnesses -/

/-- A request of one row of one group. -/
def req1 : QReq :=
  { id := 9, part := 0, port := 2, vc := 1, handle := h7, pos := 0, layer := 0, chunk := 1, qFmt := 0, wantLse := true, data := [],
    groups := [(0, 1)] }

/-- … with the request in flight. -/
def inReq (s : State) : State := inPart (blk 0 0) { s with att := { s.att with reqs := [req1] } }

/-- A step whose emit path has candidate 17. -/
def emit17 : InStep := { emit := { cands := [(17, 0#32)] } }

/-- … with a stencil set, a tokeniser image, a stop set and a step whose emit path has a candidate. -/
def inEmit (s : State) : State :=
  let s := inPart (blk 0 0) s
  { s with emit := { sets := [(5, stenSet)] }, text := { toks := [(0, toki)], stops := [(4, [[66]])] }
           sess := [(7, { ses (blk 0 0) with step := some emit17 })] }

/-- A CALL with a buffer of 64 bytes. -/
def call1 : Call := { id := 5, serial := 1, qk := 0, part := 0, prog := 32, cores := [0], bufAddr := 0x1000, bufLen := 64 }

/-- … with that CALL open. -/
def inCall (s : State) : State := { s with cores := { s.cores with calls := [call1] } }

/-- A core message. -/
def msg1 : CoreMsg := { core := 3, inv := 2, prog := 32, part := 0, data := [] }

/-- … with the message in channel 15 of core 0, context 0. -/
def inChan (s : State) : State := { s with cores := { s.cores with chans := [(15, [msg1])] } }

/-- … on two cores of one cluster. -/
def inCall2 (s : State) : State := { s with cores := { s.cores with calls := [{ call1 with cores := [0, 1] }] } }

/-- … in a window. -/
def inWin (w : Window) (s : State) : State := { s with beat := { s.beat with wins := [(0, { win := w })] } }

/-- … with an empty image in place of the stencil set. -/
def noSten (s : State) : State := { s with emit := { sets := [(5, { img := [], pages := 0 })] } }

/-- A running module whose function 1 is bound to partition 0 and has queue set 0 set so. -/
def rings (q : QueueSet) : State :=
  { part := { parts := [(0, { st := .active, clusters := [0], groups := 1 })], fns := [(1, 0)] }, host := { qs := [(64, q)] } }

/-- An enabled queue set with rings of two. -/
def qs1 : QueueSet := { en := true, cmdLog2 := 1, cplLog2 := 1, emitLog2 := 1 }

/-- Function 0 asks before the module's reset ends. -/
def early : State := { host := { qs := [(0, { qs1 with cmdHead := 1 }), (128, { qs1 with cmdHead := 1 })], inReset := true } }

/-- … with an open session in entry 0. -/
def full0 (s : State) : State := { s with sess := [(0, fresh .hot), (7, fresh .hot)] }

/-- … with no session entries in partition 0. -/
def noEntries (s : State) : State :=
  { s with part := { s.part with parts := [(0, { st := .active, clusters := [0], groupBase := 1, groups := 0 })] } }

/-- … with a held generate of another command. -/
def alsoHeld (s : State) : State := { s with host := { s.host with cmds := s.host.cmds ++ [{ cm 3 [] with serial := 0, started := true }] } }

/-- … with set, profile and stop set 5 and a tokeniser image of model 1 loaded. -/
def loaded (s : State) : State :=
  { s with emit := { sets := [(5, stenSet)], profs := [(5, {})] }, text := { toks := [(1, toki)], stops := [(5, [[66]])] } }

/-- … with a vocabulary of one token for model 1. -/
def vocab1 (s : State) : State := { s with att := { models := [(0, mdl), (1, { mdl with vocab := 1 })] } }

/-- … without a cluster. -/
def noCl (s : State) : State := { s with part := { s.part with parts := [(0, { st := .active, groups := 1 })] } }

/-- A lane job of session 7: one byte. -/
def job (encode : Bool) : LaneJob := { serial := 1, encode := encode, part := 0, model := 1, handle := h7, text := [65] }

/-- … with that job in the lane of cluster 0, and an image without a table entry. -/
def inLane (encode : Bool) (s : State) : State := { s with text := { toks := [(1, [])], lanes := [(0, [job encode])] } }

/-- … confidential. -/
def conf (s : State) : State :=
  { s with part := { s.part with parts := [(0, { st := .active, clusters := [0], groups := 1, conf := true })] } }

/-- … with a live image under number 32. -/
def live32 (s : State) : State := { s with cores := { s.cores with progs := [prog1] } }

/-- A running module with a command waiting, session 7 and this directory. -/
def dirSt (x : Sess) (d : Directory) : State :=
  let s := asks (cm 0x10 []) x
  { s with dir := d, part := { s.part with doms := [(3, { part := 0, learn := true })] } }

/-- A session of domain 3. -/
def dom3 (st : SState) : Sess := { fresh st with domain := 3 }

/-- A search slot of domain 3 and model 0. -/
def slot (dom chain : Nat) : Slot := { domain := dom, model := 0, parent := 0, chain := chain, ix := 100 }

/-- A full row 5, of another domain. -/
def fullRow : Tab Slot := (List.range 64).map (fun i => (320 + i, slot 4 15))

/-- A lookup of session 7. -/
def walk (keys : List Nat) : Walk := { sess := 7, serial := 1, resume := false, n := 129, chain := 0, keys := keys, laneChain := 0 }

/-- A publish of one block of session 7. -/
def pub (step : PubStep) : Pub :=
  { sess := 7, serial := 1, part := 0, domain := 3, model := 0, d := 1, step := step, chains := [5], ixs := [9] }

/-- A log of 64 appended tokens. -/
def log64 : List LogTok := List.replicate 64 { tok := 1, src := 0 }

/-- … with record 639 valid. -/
def rec639 (s : State) : State := { s with dir := { recs := [(639, { st := .valid })] } }

/-- A KV_APPEND message of one position of session 7. -/
def kvm (pos layer ver kvIn : Nat) : Msg :=
  { vc := 1, type := 5, body := natLe 4 h7 ++ natLe 4 pos ++ [byte layer, byte ver, 1, byte kvIn], data := List.replicate 128 0 }

/-- A running module whose port 2 has this message at the head of a virtual channel, and whose session 7 is this one. -/
def inbox (x : Sess) (m : Msg) : State :=
  let s := asks (cm 0x10 []) x
  let v : PortVc := { inbox := [m] }
  { s with part := { s.part with parts := [(0, { st := .active, clusters := [0], groups := 1, pool := 1 })] }
           link := { ports := [(2, { st := .up, ver := 0x11, feat := 31, peerFeat := 31,
                                     vc0 := if m.vc = 0 then v else {}, vc1 := if m.vc = 1 then v else {},
                                     vc2 := if m.vc = 2 then v else {}, vc3 := if m.vc = 3 then v else {} })] } }

/-- A HOT session of five positions, the sixth written at layer 0 or not. -/
def kvs (m0 : Nat) : Sess := { ses (blk 0 0) with st := .hot, marks := [(0, m0), (1, 5)] }

/-- A KV_READ message of `n` positions from position 0 of session 7. -/
def kvr (n : Nat) : Msg := { vc := 2, type := 3, body := natLe 4 0 ++ natLe 4 h7 ++ natLe 4 0 ++ [0, byte n, 2, 0] }

/-- A Q_SUBMIT message of one position of session 7 at layer 0. -/
def qm (pos ver : Nat) : Msg :=
  { vc := 1, type := 4, body := natLe 4 h7 ++ natLe 4 pos ++ [0, byte ver, 1, 0, 0], data := List.replicate 128 0 }

/-- A RUNNING session in a step at position 4. -/
def stp (e : InStep) : Sess := { ses (blk 0 0) with pend := 0, step := some { e with position := 4 }, open? := some { serial := 1, qk := 64 }, maxnew := 2 }

/-- A dealt request with this item in a queue of core 0. -/
def deals (r : QReq) (pre : Bool) (it : AttItem) : State :=
  let s := inbox (stp {}) (qm 4 1)
  { s with att := { models := [(0, mdl)], reqs := [r], decodeQ := if pre then [] else [(0, [it])], prefillQ := if pre then [(0, [it])] else [] } }

/-- A LOGITS message of four FP32 logits for the step at position 4. -/
def lgm (ver : Nat) : Msg :=
  { vc := 1, type := 7, body := natLe 4 h7 ++ natLe 4 4 ++ [byte ver, 1, 0, 1] ++ natLe 4 0 ++ natLe 4 4 ++ natLe 4 4, data := List.replicate 16 0 }

/-- … with a vocabulary of four tokens. -/
def vocab4 (s : State) : State := { s with att := { s.att with models := [(0, { mdl with vocab := 4 })] } }

/-- A step's emit path whose logits have all come. -/
def come (cands : List (Nat × W32)) : InStep := { position := 4, emit := { complete := true, cands := cands } }

/-- A running module with session 7 and one float request. -/
def flt (x : Sess) (f : FReq) : State := { asks (cm 0x10 []) x with fab := { float := [f] } }

/-- A request on block 0 of session 7. -/
def freq (k : FKind) : FReq := { queue := .c, kind := k, beat := 0, part := 0, sess := 7, block := 0 }

/-- A place in tier 1 of cluster 0. -/
def pl1 : Place := { tier := 1, cluster := 0, base := 0, hdrT := true, hdr := 0 }

/-- … while a prefill window is open. -/
def inPrefill (s : State) : State := { s with beat := { none_ := false, wins := [(0, { win := .prefill })] } }

theorem moveDst_park {s : State} {f : FReq} {d : Desc} (hk : f.kind = .park)
    (h1 : ¬((d.tier = 0 ∧ (!d.hdrT) = true) ∧ s.t1Free d.cluster < (s.moveModel f).hdrBytes))
    (h2 : (s.moveModel f).t2Bytes ≤ s.t2Free f.part ∧ (!s.isN) = true) : s.moveDst f d = some (s.parkAt (s.moveModel f) d.cluster 2 0) := by
  unfold State.moveDst
  simp only [hk]
  rw [if_neg h1, if_pos h2]

/-- An index image of 64 dimensions and one cell, for domain 3: minimum 0, step 1 (11_flash_retrieval R295). -/
def ixB : Bytes := mkB 832 (fun i =>
  if i < 12 then [1, 5, 0, 0, 64, 0, 3, 0, 1, 0, 0, 0].getD i 0
  else if 60 ≤ i ∧ i < 64 then (1192482216 / 256 ^ (i - 60)) % 256
  else if 320 ≤ i ∧ i < 576 then (if i % 4 = 2 then 0x80 else if i % 4 = 3 then 0x3F else 0) else 0)

/-- … with room for indexes. -/
def ixRoom (s : State) : State :=
  { s with part := { s.part with parts := [(0, { st := .active, clusters := [0], groups := 1, ixQuota := 1 })] } }

/-- … with index 5 so. -/
def ixIs (x : Index) (s : State) : State := { ixRoom s with ret := { ixs := [(5, x)] } }

/-- An index of one cell. -/
def ix5 (st : IxState) : Index := { st := st, dim := 64, domain := 3, cells := 1, img := ixB }

/-- A record that COMMIT_SEQ does not cover yet. -/
def pend1 (last : Bool) : IxPend :=
  { serial := 1, seq := 1, first := true, last := last, op := 1, rec_ := { id := 8, attr := 0, seq := 1, cell := 0, ord := 0, page := 0, sq := 0, code := [] } }

/-- A search of index 5. -/
def srch (ch : List Nat) : Search :=
  { serial := 1, qk := 64, part := 0, ix := 5, num := 0, k := 1, rerank := 1, fmask := 0, fvalue := 0, outAddr := 0, query := [], snap := 0, cells := [0], channels := ch }

/-- … with a search of index 5 in progress. -/
def searched (s : State) : State := { s with ret := { s.ret with searches := [srch []] } }

/-- … on a ZV9620-N. -/
def orderN (s : State) : State := { s with unit := { s.unit with order := .n } }

/-- … composable. -/
def composable (s : State) : State := { s with part := { s.part with composable := true } }

/-- … while a partition is being created. -/
def creating (s : State) : State := { s with part := { s.part with creating := some (1, 1) } }

/-- … with partition 1 being created: its beat is armed or not, it is confidential or not. -/
def part1 (armed conf : Bool) (s : State) : State :=
  { s with part := { s.part with parts := [(1, { st := .creating, conf := conf })], creating := some (1, 1), armed := armed }
           beat := { s.beat with none_ := false } }

/-- … with partition 0 small, and beats running. -/
def small0 (s : State) : State :=
  { s with part := { s.part with parts := [(0, { st := .active, clusters := [0], groups := 1 })] }, beat := { s.beat with none_ := false } }

/-- … with partition 1 idle, and bound to nothing. -/
def idle1 (s : State) : State := { s with part := { s.part with composable := true, parts := [(0, { st := .active }), (1, { st := .active, clusters := [1, 8] })] } }

/-- … being destroyed. -/
def destroy1 (s : State) : State :=
  { s with part := { parts := [(1, { st := .destroying, clusters := [1] })], destroying := some (1, 1) } }

/-- … with function 33 and port 7 bound to partition 1. -/
def bound1 (s : State) : State := { idle1 s with part := { (idle1 s).part with fns := [(1, 0), (33, 1)], ports := [(7, 1)] } }

/-- … with domains 1 to 5 granted, domain 3 bound. -/
def doms (s : State) : State :=
  { s with part := { s.part with parts := [(0, { st := .active, clusters := [0], groups := 1, domBase := 1, domCount := 5,
                                                   comps := [{ num := 1, startMs := 0 }] })] } }

/-- A recomposition of partition 0 from clusters 0 and 1 to cluster 1. -/
def rec1 : RecompRec := { part := 0, clusters := [1], t2Quota := 0, ixQuota := 0, pool := 0 }

/-- … in progress. -/
def recomp (st : RecompStage) : Recomp := { serial := 1, recs := [rec1], stage := st }

/-- A running module with that recomposition in progress; tick 0 has come or not. -/
def recs (st : RecompStage) (armed : Bool) (x : Sess) : State :=
  let s := asks (cm 0x52 []) x
  { s with part := { s.part with composable := true, parts := [(0, { st := .active, clusters := [0, 1], groups := 1 })], recomp := some (recomp st), armed := armed }
           beat := { none_ := false } }

/-- A checkpoint being taken. -/
def tak (now : Bool) (im : Option CkImage) : CkTake := { slot := 0, serial := 1, content := 1, cmd := 1, now := now, image := im }

/-- … with this checkpoint engine. -/
def ckp (c : Ckpt) (s : State) : State := { s with ckpt := c }

/-- Both slots enabled. -/
def slots2 : Tab CkSlot := [(0, { en := true, sizeMib := 64 }), (1, { en := true, sizeMib := 64, addr := 2 ^ 30 })]

/-- A checkpoint of an empty module. -/
def im1 : CkImage := { serial := 1, content := 1 }

/-- … whose slot is large enough for what it takes. -/
def written (s : State) : State :=
  { s with ckpt := { take := some (tak true (some im1)), slots := [(0, { en := true, sizeMib := 4 + (im1.written (Config.pick 0)).2.1 })] } }

/-- … with no session, and checkpoints 2 and 1 in slots A and B. -/
def held2 (s : State) : State :=
  { s with sess := [], ckpt := { slots := slots2, store := [(0, { im1 with serial := 2 }), (2 ^ 18, im1)] } }

/-- … being restored. -/
def restoring (x : Option CkRestore) (s : State) : State := { held2 s with ckpt := { (held2 s).ckpt with restore := x } }

/-- A checkpoint with one session. -/
def im7 (st : SState) : CkImage := { im1 with sess := [(7, fresh st)] }

/-- A module whose port 2 is this one. -/
def prt (p : Port) (s : State) : State := { s with link := { s.link with ports := [(2, p)] } }

/-- A port with these messages received, or to be sent, on virtual channel 0. -/
def vc0In (l : List Msg) (p : Port) : Port := { p with phyUp := true, vc0 := { inbox := l } }

/-- A HELLO of version 1.1 and 2.0's layout. -/
def hello (ver agreed ack bv : Nat) : Msg := { vc := 0, type := 0, body := [1, byte ver, byte agreed, byte (ack + 2), byte bv] ++ List.replicate 27 0 }

/-- A flit of channel 0 (13_cunis_link R347) whose first four bytes are these. -/
def flt0 (h d : Bytes) : Bytes := h ++ [0, 0] ++ natLe 2 (crc16 (h ++ [0, 0])) ++ fit 0 248 d

/-- A header of 32 bytes of body (R349). -/
def hdr (ty : Nat) : Bytes := [byte ty, 0, 0, 0, 32, 0, 0, 0, 0, 0, 0, 0] ++ natLe 4 (crc32c [byte ty, 0, 0, 0, 32, 0, 0, 0, 0, 0, 0, 0])

/-- A message with nothing set. -/
def msg (vc ty : Nat) : Msg := { vc := vc, type := ty, body := List.replicate 32 0 }

/-- A native port on which MOVE is in use, with these messages received on virtual channel 3. -/
def mvp (l : List Msg) : Port := { st := .up, phyUp := true, framing := true, ver := 0x11, feat := 2, peerFeat := 2, vc3 := { inbox := l } }

/-- A module with session 7 whose port 2 is such a port, with these moves in progress. -/
def mvs (x : Sess) (l : List Msg) (o : List MoveOut) (i : List MoveIn) : State :=
  let s := asks (cm 0x0A [(32, 1, 2)]) x
  { s with part := { s.part with parts := [(0, { st := .active, clusters := [0], groups := 1, pool := 1 })] }
           link := { ports := [(2, mvp l)], outs := o, ins := i } }

/-- A MOVE message about session 7. -/
def mvm (sub total : Nat) (data : Bytes) : Msg := moveMsg { sub := sub, src := h7, dst := h7, total := total } data

/-- The import of session 7. -/
def mi (applied : Bool) : MoveIn := { sess := 7, port := 2, keyGroup := 0, inst := 0, srcHandle := h7, total := 5, kvLen := 5, applied := applied }

/-- The export of session 7. -/
def mo (ph : MovePhase) : MoveOut := { sess := 7, serial := 1, port := 2, dst := h7, phase := ph, prev := .hot, len := 5 }

/-- A hawk that is up and has one request over Pupoac. -/
def hawk (svc op : Nat) (b : Bytes) : State := { mgmt := { ready := true, pup := [{ svc := svc, op := op, seq := 1, payload := b }] } }

/-- That request. -/
def hreq (svc op : Nat) (b : Bytes) : MReq := { path := .pupoac 1, svc := svc, op := op, payload := b }

/-- A hawk that is up and has one request in mailbox `n` of port A. -/
def hmbx (svc op n : Nat) : State :=
  { mgmt := { ready := true }, host := { mbx := [(n, { go := true, len := 2, data := [BitVec.ofNat 32 (svc + 256 * op)] })] } }

/-- That request. -/
def mreq (svc op n : Nat) : MReq := { path := .mailbox 0 n 0, svc := svc, op := op, payload := [] }

/-- A report of a request over Pupoac, with the ticket a READ asks for. -/
def rep (fn : Nat) (ready : Bool) : Attest :=
  { ticket := Config.reqField 4 2 0 [] % 2 ^ 32, fn := fn, mgmt := true, kind := 0, part := 0, nonce := [], ready := ready }

/-- … waiting, or signed. -/
def reps (l : List Attest) (s : State) : State := { s with sec := { s.sec with attests := l } }

theorem reps_find (fn : Nat) (r : Bool) (s : State) :
    List.find? (fun (a : Attest) => a.ticket == Config.reqField 4 2 0 [] % 2 ^ 32) (reps [rep fn r] s).sec.attests = some (rep fn r) := by
  simp [reps, rep]

/-- One open and fifteen closed compositions. -/
def comps16 : List CompRec := { num := 1, startMs := 0 } :: List.replicate 15 { num := 1, startMs := 0, endMs := some 0 }

/-- The partition a METER or ATTEST_START request names has one open and fifteen closed compositions. -/
def named (svc op fld : Nat) (s : State) : State :=
  { s with part := { parts := [(Config.reqField svc op fld [] % 16, { st := .active, comps := comps16 })] } }

theorem named_part (svc op fld : Nat) (s : State) : (named svc op fld s).getPart (Config.reqField svc op fld [] % 16) =
    { st := .active, comps := comps16 } := by
  simp [named, State.getPart, tabGet, tabGet?]

theorem comp_none (k : Nat) : ({} : Part).comp? k = none := by
  unfold Part.comp?
  split <;> rfl

theorem named_comp (s : State) : ((named 5 1 0 s).getPart (Config.reqField 5 1 0 [] % 16)).comp? (Config.reqField 5 1 1 [] % 16) =
    some { num := 1, startMs := 0, endMs := if Config.reqField 5 1 1 [] % 16 = 0 then none else some 0 } := by
  rw [named_part]
  have h : Config.reqField 5 1 1 [] % 16 < 16 := Nat.mod_lt _ (by decide)
  generalize Config.reqField 5 1 1 [] % 16 = n at h
  revert n
  decide

theorem named_exists (s : State) : (named 4 1 1 s).partExists (Config.reqField 4 1 1 [] % 16) = true := by
  unfold State.partExists
  rw [named_part]
  rfl

/-- A hawk with a firmware image in staging. -/
def stag (g : Staging) (s : State) : State := { s with mgmt := { s.mgmt with staging := some g } }

/-- A signature block of a version, filled up with zeros, as an image of its own. -/
def sigImg (svn : Nat) : Staging := { size := sigLen, got := sigLen, data := [(0, 1), (1, 1), (4, byte svn)] }

theorem sha256_length (b : Bytes) : (sha256 b).length = 32 := by
  simp only [sha256, natBe, List.length_reverse]
  rfl

/-- A request of INFO over Pupoac, without its tag. -/
def dgBody : Bytes := [1, 1, 1, 0, 0, 0, 0, 0, 1, 0, 0, 0, 0, 0, 0, 0] ++ natLe 8 Config.serial.toNat ++ List.replicate 8 0

/-- … with it. -/
def dgram : Bytes := dgBody ++ hmacSha256 Config.mgmtKey dgBody

theorem dgram_length : dgram.length = 64 := by
  simp only [dgram, List.length_append, hmacSha256, sha256_length]; rfl

/-- A module whose hawk is up. -/
def hk : State := { mgmt := { ready := true } }

theorem le_8 {n : Nat} (h : n < 2 ^ 64) : leNat (natLe 8 n) = n := by
  simp only [natLe, leNat, byte, BitVec.toNat_ofNat]; omega

theorem dgram_ok : hk.pupOk dgram = true := by
  have hl := dgram_length
  have hd : dgram.drop 32 = hmacSha256 Config.mgmtKey dgBody := rfl
  have ht : dgram.take 32 = dgBody := rfl
  have hs : field dgram 16 8 = Config.serial.toNat :=
    (show field dgram 16 8 = leNat (natLe 8 Config.serial.toNat) from rfl).trans (le_8 Config.serial.isLt)
  have h4 : field dgram 4 4 = 0 := rfl
  have h0 : byteAt dgram 0 = 1 := rfl
  have h8 : field dgram 8 8 = 1 := rfl
  have hq : hk.sec.seqHw = 0 := rfl
  unfold State.pupOk
  dsimp only
  rw [hl, h4, h0, hs, h8, hq, hd, ht]
  generalize Config.serial.toNat = n
  generalize hmacSha256 Config.mgmtKey dgBody = b
  simp

/-- A module in this power state. -/
def pw (p : Power) : State := { pwr := p }

/-- … with session 7 PARKED. -/
def away (s : State) : State := { s with sess := s.sess.map (fun p => (p.1, { p.2 with st := .parked })) }

/-- … whose barrier is broken. -/
def broken1 (s : State) : State := { s with cores := { s.cores with calls := [{ call1 with broken := true }] } }

/-- The words of an entry with this one first, and its CRC (02_sessions R32) wrong by a bit or not. -/
def words8 (w0 bad : Nat) : List Nat :=
  let l : List Nat := [w0, 0, 0, 0, 0, 0, 0]
  l ++ [(crc32c (l.flatMap (natLe 8)) + bad) * 2 ^ 32]

/-- A CALL's invocation queued on context 3 of core 0, for a live image or, of program 31, without one. -/
def queued (v : MInv) : State :=
  { cores := { core := [(0, { ctx3 := { queue := [v] } })], calls := [call1], progs := [prog1] } }

/-- … in partition 0's decode window. -/
def inDecode (s : State) : State := { s with beat := { none_ := false, wins := [(0, { win := .decode })] } }

/-- A session whose list of pages does not cover its LENGTH. -/
def short : Sess := { ses (blk 0 0) with st := .hot, length := 6, marks := [(0, 6), (1, 6)] }

/-- … whose stencil set is loaded, its mask not in the cache. -/
def uncached (s : State) : State :=
  { s with emit := { s.emit with sets := [(5, stenSet)] }, sess := s.sess.map (fun p => (p.1, { p.2 with stencilSet := 5 })) }

/-- … with core 5's emit context halted. -/
def halted (s : State) : State := { s with cores := { core := [(5, { halt := 15 })] } }

/-- A checkpoint whose session's entry is not one of version 1. -/
def imBad (st : SState) (v : Nat) : CkImage := { im1 with sess := [(7, { fresh st with ver := v })] }

/-- … of which one block is still to be read. -/
def reading : CkTake := { tak true (some im1) with reads := [{ part := 0, model := 0, blk := 1 }] }

/-- … and was lost. -/
def unread : CkTake := { tak true (some im1) with lost := true }

theorem test_witness_ScalarAluWritesItsResult :
    (∃ (s : Machine.State) (t : Site) (w : GWord) (v : MInv),
      Issues s t 0 w { d := Use.x, a := Use.x, b := Use.x } v) ∧
    (∃ (s : Machine.State) (t : Site) (w : GWord) (v : MInv),
      Issues s t 1 w { d := Use.x, a := Use.x, b := Use.x } v) ∧
    (∃ (s : Machine.State) (t : Site) (w : GWord) (v : MInv),
      Issues s t 2 w { d := Use.x, a := Use.x, b := Use.x } v) ∧
    (∃ (s : Machine.State) (t : Site) (w : GWord) (v : MInv),
      Issues s t 3 w { d := Use.x, a := Use.x, b := Use.x } v) ∧
    (∃ (s : Machine.State) (t : Site) (w : GWord) (v : MInv),
      Issues s t 4 w { d := Use.x, a := Use.x, b := Use.x } v) ∧
    (∃ (s : Machine.State) (t : Site) (w : GWord) (v : MInv),
      Issues s t 5 w { d := Use.x, a := Use.x, b := Use.x } v) ∧
    (∃ (s : Machine.State) (t : Site) (w : GWord) (v : MInv),
      Issues s t 6 w { d := Use.x, a := Use.x, b := Use.x } v) ∧
    (∃ (s : Machine.State) (t : Site) (w : GWord) (v : MInv),
      Issues s t 7 w { d := Use.x, a := Use.x, b := Use.x } v) ∧
    (∃ (s : Machine.State) (t : Site) (w : GWord) (v : MInv),
      Issues s t 8 w { d := Use.x, a := Use.x, b := Use.x } v) ∧
    (∃ (s : Machine.State) (t : Site) (w : GWord) (v : MInv),
      Issues s t 9 w { d := Use.x, a := Use.x, b := Use.x } v) ∧
    (∃ (s : Machine.State) (t : Site) (w : GWord) (v : MInv),
      Issues s t 10 w { d := Use.x, a := Use.x, b := Use.x } v) ∧
    (∃ (s : Machine.State) (t : Site) (w : GWord) (v : MInv),
      Issues s t 11 w { d := Use.x, a := Use.x, b := Use.x } v) ∧
    (∃ (s : Machine.State) (t : Site) (w : GWord) (v : MInv),
      Issues s t 12 w { d := Use.x, a := Use.x, b := Use.x } v) ∧
    (∃ (s : Machine.State) (t : Site) (w : GWord) (v : MInv),
      Issues s t 13 w { d := Use.x, a := Use.x, b := Use.x } v) ∧
    (∃ (s : Machine.State) (t : Site) (w : GWord) (v : MInv),
      Issues s t 14 w { d := Use.x, a := Use.x, b := Use.x } v) ∧
    (∃ (s : Machine.State) (t : Site) (w : GWord) (v : MInv),
      Issues s t 15 w { d := Use.x, a := Use.x, b := Use.x } v) ∧
    (∃ (s : Machine.State) (t : Site) (w : GWord) (v : MInv),
      Issues s t 25 w { d := Use.x, a := Use.x, b := Use.x } v) ∧
    (∃ (s : Machine.State) (t : Site) (w : GWord) (v : MInv),
      Issues s t 26 w { d := Use.x, a := Use.x, b := Use.x } v) ∧
    (∃ (s : Machine.State) (t : Site) (w : GWord) (v : MInv),
      Issues s t 29 w { d := Use.x, a := Use.x, b := Use.x } v) ∧
    (∃ (s : Machine.State) (t : Site) (w : GWord) (v : MInv),
      Issues s t 16 w { d := Use.x, a := Use.x, i := 16777215 } v) ∧
    (∃ (s : Machine.State) (t : Site) (w : GWord) (v : MInv),
      Issues s t 17 w { d := Use.x, a := Use.x, i := 16777215 } v) ∧
    (∃ (s : Machine.State) (t : Site) (w : GWord) (v : MInv),
      Issues s t 18 w { d := Use.x, a := Use.x, i := 16777215 } v) ∧
    (∃ (s : Machine.State) (t : Site) (w : GWord) (v : MInv),
      Issues s t 19 w { d := Use.x, a := Use.x, i := 16777215 } v) ∧
    (∃ (s : Machine.State) (t : Site) (w : GWord) (v : MInv),
      Issues s t 23 w { d := Use.x, a := Use.x, i := 16777215 } v) ∧
    (∃ (s : Machine.State) (t : Site) (w : GWord) (v : MInv),
      Issues s t 30 w { d := Use.x, a := Use.x, i := 16777215 } v) ∧
    (∃ (s : Machine.State) (t : Site) (w : GWord) (v : MInv),
      Issues s t 20 w { d := Use.x, a := Use.x, i := 63 } v) ∧
    (∃ (s : Machine.State) (t : Site) (w : GWord) (v : MInv),
      Issues s t 21 w { d := Use.x, a := Use.x, i := 63 } v) ∧
    (∃ (s : Machine.State) (t : Site) (w : GWord) (v : MInv),
      Issues s t 22 w { d := Use.x, a := Use.x, i := 63 } v) ∧
    (∃ (s : Machine.State) (t : Site) (w : GWord) (v : MInv),
      Issues s t 24 w { d := Use.x, a := Use.x, b := Use.x, c := Use.x, f := 255, i := 16777215 } v) ∧
    (∃ (s : Machine.State) (t : Site) (w : GWord) (v : MInv),
      Issues s t 27 w { d := Use.x, a := Use.x } v) ∧
    (∃ (s : Machine.State) (t : Site) (w : GWord) (v : MInv),
      Issues s t 28 w { d := Use.x, a := Use.x } v) :=
  ⟨⟨(runs inv0 {} 0 { d := 3, a := 1, b := 2 }), t0, { d := 3, a := 1, b := 2 }, inv0, issues_of (by decide)⟩,
   ⟨(runs inv0 {} 1 { d := 3, a := 1, b := 2 }), t0, { d := 3, a := 1, b := 2 }, inv0, issues_of (by decide)⟩,
   ⟨(runs inv0 {} 2 { d := 3, a := 1, b := 2 }), t0, { d := 3, a := 1, b := 2 }, inv0, issues_of (by decide)⟩,
   ⟨(runs inv0 {} 3 { d := 3, a := 1, b := 2 }), t0, { d := 3, a := 1, b := 2 }, inv0, issues_of (by decide)⟩,
   ⟨(runs inv0 {} 4 { d := 3, a := 1, b := 2 }), t0, { d := 3, a := 1, b := 2 }, inv0, issues_of (by decide)⟩,
   ⟨(runs inv0 {} 5 { d := 3, a := 1, b := 2 }), t0, { d := 3, a := 1, b := 2 }, inv0, issues_of (by decide)⟩,
   ⟨(runs inv0 {} 6 { d := 3, a := 1, b := 2 }), t0, { d := 3, a := 1, b := 2 }, inv0, issues_of (by decide)⟩,
   ⟨(runs inv0 {} 7 { d := 3, a := 1, b := 2 }), t0, { d := 3, a := 1, b := 2 }, inv0, issues_of (by decide)⟩,
   ⟨(runs inv0 {} 8 { d := 3, a := 1, b := 2 }), t0, { d := 3, a := 1, b := 2 }, inv0, issues_of (by decide)⟩,
   ⟨(runs inv0 {} 9 { d := 3, a := 1, b := 2 }), t0, { d := 3, a := 1, b := 2 }, inv0, issues_of (by decide)⟩,
   ⟨(runs inv0 {} 10 { d := 3, a := 1, b := 2 }), t0, { d := 3, a := 1, b := 2 }, inv0, issues_of (by decide)⟩,
   ⟨(runs inv0 {} 11 { d := 3, a := 1, b := 2 }), t0, { d := 3, a := 1, b := 2 }, inv0, issues_of (by decide)⟩,
   ⟨(runs inv0 {} 12 { d := 3, a := 1, b := 2 }), t0, { d := 3, a := 1, b := 2 }, inv0, issues_of (by decide)⟩,
   ⟨(runs inv0 {} 13 { d := 3, a := 1, b := 2 }), t0, { d := 3, a := 1, b := 2 }, inv0, issues_of (by decide)⟩,
   ⟨(runs inv0 {} 14 { d := 3, a := 1, b := 2 }), t0, { d := 3, a := 1, b := 2 }, inv0, issues_of (by decide)⟩,
   ⟨(runs inv0 {} 15 { d := 3, a := 1, b := 2 }), t0, { d := 3, a := 1, b := 2 }, inv0, issues_of (by decide)⟩,
   ⟨(runs inv0 {} 25 { d := 3, a := 1, b := 2 }), t0, { d := 3, a := 1, b := 2 }, inv0, issues_of (by decide)⟩,
   ⟨(runs inv0 {} 26 { d := 3, a := 1, b := 2 }), t0, { d := 3, a := 1, b := 2 }, inv0, issues_of (by decide)⟩,
   ⟨(runs inv0 {} 29 { d := 3, a := 1, b := 2 }), t0, { d := 3, a := 1, b := 2 }, inv0, issues_of (by decide)⟩,
   ⟨(runs inv0 {} 16 { d := 3, a := 1 }), t0, { d := 3, a := 1 }, inv0, issues_of (by decide)⟩,
   ⟨(runs inv0 {} 17 { d := 3, a := 1 }), t0, { d := 3, a := 1 }, inv0, issues_of (by decide)⟩,
   ⟨(runs inv0 {} 18 { d := 3, a := 1 }), t0, { d := 3, a := 1 }, inv0, issues_of (by decide)⟩,
   ⟨(runs inv0 {} 19 { d := 3, a := 1 }), t0, { d := 3, a := 1 }, inv0, issues_of (by decide)⟩,
   ⟨(runs inv0 {} 23 { d := 3, a := 1 }), t0, { d := 3, a := 1 }, inv0, issues_of (by decide)⟩,
   ⟨(runs inv0 {} 30 { d := 3, a := 1 }), t0, { d := 3, a := 1 }, inv0, issues_of (by decide)⟩,
   ⟨(runs inv0 {} 20 { d := 3, a := 1 }), t0, { d := 3, a := 1 }, inv0, issues_of (by decide)⟩,
   ⟨(runs inv0 {} 21 { d := 3, a := 1 }), t0, { d := 3, a := 1 }, inv0, issues_of (by decide)⟩,
   ⟨(runs inv0 {} 22 { d := 3, a := 1 }), t0, { d := 3, a := 1 }, inv0, issues_of (by decide)⟩,
   ⟨(runs inv0 {} 24 { d := 3, a := 1, b := 2, c := 4 }), t0, { d := 3, a := 1, b := 2, c := 4 }, inv0, issues_of (by decide)⟩,
   ⟨(runs inv0 {} 27 { d := 3, a := 1 }), t0, { d := 3, a := 1 }, inv0, issues_of (by decide)⟩,
   ⟨(runs inv0 {} 28 { d := 3, a := 1 }), t0, { d := 3, a := 1 }, inv0, issues_of (by decide)⟩⟩

theorem test_witness_BranchesSetThePc :
    (∃ (s : Machine.State) (t : Site) (w : GWord) (v : MInv),
      Issues s t 32 w { a := Use.x, b := Use.x, i := 8191 } v ∧ ¬(s.ctxAt t).rx w.a = (s.ctxAt t).rx w.b) ∧
    (∃ (s : Machine.State) (t : Site) (w : GWord) (v : MInv),
      Issues s t 32 w { a := Use.x, b := Use.x, i := 8191 } v ∧ (s.ctxAt t).rx w.a = (s.ctxAt t).rx w.b ∧ w.i < s.codeLen v) ∧
    (∃ (s : Machine.State) (t : Site) (w : GWord) (v : MInv),
      Issues s t 32 w { a := Use.x, b := Use.x, i := 8191 } v ∧ (s.ctxAt t).rx w.a = (s.ctxAt t).rx w.b ∧ s.codeLen v ≤ w.i) ∧
    (∃ (s : Machine.State) (t : Site) (w : GWord) (v : MInv),
      Issues s t 33 w { a := Use.x, b := Use.x, i := 8191 } v ∧ ¬(s.ctxAt t).rx w.a ≠ (s.ctxAt t).rx w.b) ∧
    (∃ (s : Machine.State) (t : Site) (w : GWord) (v : MInv),
      Issues s t 33 w { a := Use.x, b := Use.x, i := 8191 } v ∧ (s.ctxAt t).rx w.a ≠ (s.ctxAt t).rx w.b ∧ w.i < s.codeLen v) ∧
    (∃ (s : Machine.State) (t : Site) (w : GWord) (v : MInv),
      Issues s t 33 w { a := Use.x, b := Use.x, i := 8191 } v ∧ (s.ctxAt t).rx w.a ≠ (s.ctxAt t).rx w.b ∧ s.codeLen v ≤ w.i) ∧
    (∃ (s : Machine.State) (t : Site) (w : GWord) (v : MInv),
      Issues s t 34 w { a := Use.x, b := Use.x, i := 8191 } v ∧ ¬BitVec.toInt ((s.ctxAt t).rx w.a) < BitVec.toInt ((s.ctxAt t).rx w.b)) ∧
    (∃ (s : Machine.State) (t : Site) (w : GWord) (v : MInv),
      Issues s t 34 w { a := Use.x, b := Use.x, i := 8191 } v ∧ BitVec.toInt ((s.ctxAt t).rx w.a) < BitVec.toInt ((s.ctxAt t).rx w.b) ∧ w.i < s.codeLen v) ∧
    (∃ (s : Machine.State) (t : Site) (w : GWord) (v : MInv),
      Issues s t 34 w { a := Use.x, b := Use.x, i := 8191 } v ∧ BitVec.toInt ((s.ctxAt t).rx w.a) < BitVec.toInt ((s.ctxAt t).rx w.b) ∧ s.codeLen v ≤ w.i) ∧
    (∃ (s : Machine.State) (t : Site) (w : GWord) (v : MInv),
      Issues s t 35 w { a := Use.x, b := Use.x, i := 8191 } v ∧ ¬BitVec.toInt ((s.ctxAt t).rx w.b) ≤ BitVec.toInt ((s.ctxAt t).rx w.a)) ∧
    (∃ (s : Machine.State) (t : Site) (w : GWord) (v : MInv),
      Issues s t 35 w { a := Use.x, b := Use.x, i := 8191 } v ∧ BitVec.toInt ((s.ctxAt t).rx w.b) ≤ BitVec.toInt ((s.ctxAt t).rx w.a) ∧ w.i < s.codeLen v) ∧
    (∃ (s : Machine.State) (t : Site) (w : GWord) (v : MInv),
      Issues s t 35 w { a := Use.x, b := Use.x, i := 8191 } v ∧ BitVec.toInt ((s.ctxAt t).rx w.b) ≤ BitVec.toInt ((s.ctxAt t).rx w.a) ∧ s.codeLen v ≤ w.i) ∧
    (∃ (s : Machine.State) (t : Site) (w : GWord) (v : MInv),
      Issues s t 36 w { a := Use.x, b := Use.x, i := 8191 } v ∧ ¬BitVec.toNat ((s.ctxAt t).rx w.a) < BitVec.toNat ((s.ctxAt t).rx w.b)) ∧
    (∃ (s : Machine.State) (t : Site) (w : GWord) (v : MInv),
      Issues s t 36 w { a := Use.x, b := Use.x, i := 8191 } v ∧ BitVec.toNat ((s.ctxAt t).rx w.a) < BitVec.toNat ((s.ctxAt t).rx w.b) ∧ w.i < s.codeLen v) ∧
    (∃ (s : Machine.State) (t : Site) (w : GWord) (v : MInv),
      Issues s t 36 w { a := Use.x, b := Use.x, i := 8191 } v ∧ BitVec.toNat ((s.ctxAt t).rx w.a) < BitVec.toNat ((s.ctxAt t).rx w.b) ∧ s.codeLen v ≤ w.i) ∧
    (∃ (s : Machine.State) (t : Site) (w : GWord) (v : MInv),
      Issues s t 37 w { a := Use.x, b := Use.x, i := 8191 } v ∧ ¬BitVec.toNat ((s.ctxAt t).rx w.b) ≤ BitVec.toNat ((s.ctxAt t).rx w.a)) ∧
    (∃ (s : Machine.State) (t : Site) (w : GWord) (v : MInv),
      Issues s t 37 w { a := Use.x, b := Use.x, i := 8191 } v ∧ BitVec.toNat ((s.ctxAt t).rx w.b) ≤ BitVec.toNat ((s.ctxAt t).rx w.a) ∧ w.i < s.codeLen v) ∧
    (∃ (s : Machine.State) (t : Site) (w : GWord) (v : MInv),
      Issues s t 37 w { a := Use.x, b := Use.x, i := 8191 } v ∧ BitVec.toNat ((s.ctxAt t).rx w.b) ≤ BitVec.toNat ((s.ctxAt t).rx w.a) ∧ s.codeLen v ≤ w.i) ∧
    (∃ (s : Machine.State) (t : Site) (w : GWord) (v : MInv),
      Issues s t 38 w { d := Use.x, i := 8191 } v ∧ w.i < s.codeLen v) ∧
    (∃ (s : Machine.State) (t : Site) (w : GWord) (v : MInv),
      Issues s t 38 w { d := Use.x, i := 8191 } v ∧ s.codeLen v ≤ w.i) ∧
    (∃ (s : Machine.State) (t : Site) (w : GWord) (v : MInv),
      Issues s t 39 w { a := Use.x } v ∧ BitVec.toNat ((s.ctxAt t).rx w.a) < s.codeLen v) ∧
    (∃ (s : Machine.State) (t : Site) (w : GWord) (v : MInv),
      Issues s t 39 w { a := Use.x } v ∧ s.codeLen v ≤ BitVec.toNat ((s.ctxAt t).rx w.a)) ∧
    (∃ (s : Machine.State) (t : Site) (w : GWord) (v : MInv),
      Issues s t 41 w { } v) :=
  ⟨⟨(runs inv0 (cx [(1, 3), (2, 5)]) 32 { a := 1, b := 2 }), t0, { a := 1, b := 2 }, inv0, issues_of (by decide), by decide +kernel⟩,
   ⟨(runs inv0 (cx [(1, 5), (2, 5)]) 32 { a := 1, b := 2 }), t0, { a := 1, b := 2 }, inv0, issues_of (by decide), by decide +kernel⟩,
   ⟨(runs inv0 (cx [(1, 5), (2, 5)]) 32 { a := 1, b := 2, i := 7 }), t0, { a := 1, b := 2, i := 7 }, inv0, issues_of (by decide), by decide +kernel⟩,
   ⟨(runs inv0 (cx [(1, 5), (2, 5)]) 33 { a := 1, b := 2 }), t0, { a := 1, b := 2 }, inv0, issues_of (by decide), by decide +kernel⟩,
   ⟨(runs inv0 (cx [(1, 3), (2, 5)]) 33 { a := 1, b := 2 }), t0, { a := 1, b := 2 }, inv0, issues_of (by decide), by decide +kernel⟩,
   ⟨(runs inv0 (cx [(1, 3), (2, 5)]) 33 { a := 1, b := 2, i := 7 }), t0, { a := 1, b := 2, i := 7 }, inv0, issues_of (by decide), by decide +kernel⟩,
   ⟨(runs inv0 (cx [(1, 5), (2, 3)]) 34 { a := 1, b := 2 }), t0, { a := 1, b := 2 }, inv0, issues_of (by decide), by decide +kernel⟩,
   ⟨(runs inv0 (cx [(1, 3), (2, 5)]) 34 { a := 1, b := 2 }), t0, { a := 1, b := 2 }, inv0, issues_of (by decide), by decide +kernel⟩,
   ⟨(runs inv0 (cx [(1, 3), (2, 5)]) 34 { a := 1, b := 2, i := 7 }), t0, { a := 1, b := 2, i := 7 }, inv0, issues_of (by decide), by decide +kernel⟩,
   ⟨(runs inv0 (cx [(1, 3), (2, 5)]) 35 { a := 1, b := 2 }), t0, { a := 1, b := 2 }, inv0, issues_of (by decide), by decide +kernel⟩,
   ⟨(runs inv0 (cx [(1, 5), (2, 3)]) 35 { a := 1, b := 2 }), t0, { a := 1, b := 2 }, inv0, issues_of (by decide), by decide +kernel⟩,
   ⟨(runs inv0 (cx [(1, 5), (2, 3)]) 35 { a := 1, b := 2, i := 7 }), t0, { a := 1, b := 2, i := 7 }, inv0, issues_of (by decide), by decide +kernel⟩,
   ⟨(runs inv0 (cx [(1, 5), (2, 3)]) 36 { a := 1, b := 2 }), t0, { a := 1, b := 2 }, inv0, issues_of (by decide), by decide +kernel⟩,
   ⟨(runs inv0 (cx [(1, 3), (2, 5)]) 36 { a := 1, b := 2 }), t0, { a := 1, b := 2 }, inv0, issues_of (by decide), by decide +kernel⟩,
   ⟨(runs inv0 (cx [(1, 3), (2, 5)]) 36 { a := 1, b := 2, i := 7 }), t0, { a := 1, b := 2, i := 7 }, inv0, issues_of (by decide), by decide +kernel⟩,
   ⟨(runs inv0 (cx [(1, 3), (2, 5)]) 37 { a := 1, b := 2 }), t0, { a := 1, b := 2 }, inv0, issues_of (by decide), by decide +kernel⟩,
   ⟨(runs inv0 (cx [(1, 5), (2, 3)]) 37 { a := 1, b := 2 }), t0, { a := 1, b := 2 }, inv0, issues_of (by decide), by decide +kernel⟩,
   ⟨(runs inv0 (cx [(1, 5), (2, 3)]) 37 { a := 1, b := 2, i := 7 }), t0, { a := 1, b := 2, i := 7 }, inv0, issues_of (by decide), by decide +kernel⟩,
   ⟨(runs inv0 {} 38 { d := 3 }), t0, { d := 3 }, inv0, issues_of (by decide), by decide +kernel⟩,
   ⟨(runs inv0 {} 38 { d := 3, i := 7 }), t0, { d := 3, i := 7 }, inv0, issues_of (by decide), by decide +kernel⟩,
   ⟨(runs inv0 (cx [(1, 0)]) 39 { a := 1 }), t0, { a := 1 }, inv0, issues_of (by decide), by decide +kernel⟩,
   ⟨(runs inv0 (cx [(1, 9)]) 39 { a := 1 }), t0, { a := 1 }, inv0, issues_of (by decide), by decide +kernel⟩,
   ⟨(runs inv0 {} 41 {}), t0, {}, inv0, issues_of (by decide)⟩⟩

theorem test_witness_EndEndsTheInvocation :
    (∃ (s : Machine.State) (t : Site) (w : GWord) (v : MInv),
      Issues s t 40 w { } v ∧ v.event = 0) :=
  ⟨(runs inv0 {} 40 {}), t0, {}, inv0, issues_of (by decide), by decide +kernel⟩

theorem test_witness_ScalarMemoryInstructions :
    (∃ (s : Machine.State) (t : Site) (w : GWord) (v : MInv) (a : Nat),
      Issues s t 48 w { d := Use.x, a := Use.x, i := 16777215 } v ∧ s.ldmLoc v ((s.ctxAt t).rx w.a + BitVec.signExtend 64 (BitVec.ofNat 24 w.i)) 8 8 = Except.ok (Loc.ldm a)) ∧
    (∃ (s : Machine.State) (t : Site) (w : GWord) (v : MInv) (a : Nat),
      Issues s t 50 w { d := Use.x, a := Use.x, i := 16777215 } v ∧ s.cwsLoc v ((s.ctxAt t).rx w.a + BitVec.signExtend 64 (BitVec.ofNat 24 w.i)) 8 8 true = Except.ok (Loc.cws a)) ∧
    (∃ (s : Machine.State) (t : Site) (w : GWord) (v : MInv) (a : Nat),
      Issues s t 50 w { d := Use.x, a := Use.x, i := 16777215 } v ∧ s.cwsLoc v ((s.ctxAt t).rx w.a + BitVec.signExtend 64 (BitVec.ofNat 24 w.i)) 8 8 true = Except.ok (Loc.ref a)) ∧
    (∃ (s : Machine.State) (t : Site) (w : GWord) (v : MInv),
      Issues s t 54 w { d := Use.x, i := 255, ok := decide (w.i < 12) } v) ∧
    (∃ (align : Nat),
      0 < align) ∧
    (∃ (align : Nat),
      align = 1 ∨ align = 8 ∨ align = 256) ∧
    (∃ (s : Machine.State) (t : Site) (w : GWord) (v : MInv),
      Issues s t 48 w { d := Use.x, a := Use.x, i := 16777215 } v ∧ s.ldmLoc v (addrOf (s.ctxAt t) w) 8 8 = Except.error 3) ∧
    (∃ (s : Machine.State) (t : Site) (w : GWord) (v : MInv),
      Issues s t 49 w { a := Use.x, b := Use.x, i := 16777215 } v ∧ s.ldmLoc v (addrOf (s.ctxAt t) w) 8 8 = Except.error 3) ∧
    (∃ (s : Machine.State) (t : Site) (w : GWord) (v : MInv),
      Issues s t 50 w { d := Use.x, a := Use.x, i := 16777215 } v ∧ s.cwsLoc v (addrOf (s.ctxAt t) w) 8 8 true = Except.error 4) ∧
    (∃ (s : Machine.State) (t : Site) (w : GWord) (v : MInv),
      Issues s t 51 w { a := Use.x, b := Use.x, i := 16777215 } v ∧ s.cwsLoc v (addrOf (s.ctxAt t) w) 8 8 false = Except.error 4) ∧
    (∃ (s : Machine.State) (t : Site) (w : GWord) (v : MInv),
      Issues s t 52 w { d := Use.x, a := Use.x, b := Use.x, i := 16777215 } v ∧ s.cwsLoc v (addrOf (s.ctxAt t) w) 8 8 false = Except.error 4) ∧
    (∃ (s : Machine.State) (t : Site) (w : GWord) (v : MInv),
      Issues s t 53 w { d := Use.x, a := Use.x, b := Use.x, c := Use.x, i := 16777215 } v ∧ s.cwsLoc v (addrOf (s.ctxAt t) w) 8 8 false = Except.error 4) ∧
    (∃ (s : Machine.State) (t : Site) (w : GWord) (v : MInv) (a : Nat),
      t.ctx < 4 ∧ Issues s t 49 w { a := Use.x, b := Use.x, i := 16777215 } v ∧ s.ldmLoc v (addrOf (s.ctxAt t) w) 8 8 = Except.ok (Loc.ldm a)) ∧
    (∃ (s : Machine.State) (t : Site) (w : GWord) (v : MInv) (a : Nat),
      t.ctx < 4 ∧ Issues s t 51 w { a := Use.x, b := Use.x, i := 16777215 } v ∧ s.cwsLoc v (addrOf (s.ctxAt t) w) 8 8 false = Except.ok (Loc.cws a)) ∧
    (∃ (s : Machine.State) (t : Site) (w : GWord) (v : MInv) (a : Nat),
      t.ctx < 4 ∧ Issues s t 52 w { d := Use.x, a := Use.x, b := Use.x, i := 16777215 } v ∧ s.cwsLoc v (addrOf (s.ctxAt t) w) 8 8 false = Except.ok (Loc.cws a)) ∧
    (∃ (s : Machine.State) (t : Site) (w : GWord) (v : MInv) (a : Nat),
      t.ctx < 4 ∧ Issues s t 53 w { d := Use.x, a := Use.x, b := Use.x, c := Use.x, i := 16777215 } v ∧ s.cwsLoc v (addrOf (s.ctxAt t) w) 8 8 false = Except.ok (Loc.cws a) ∧ cwsWord s (t.core / 8) a = (s.ctxAt t).rx w.c) ∧
    (∃ (s : Machine.State) (t : Site) (w : GWord) (v : MInv) (a : Nat),
      t.ctx < 4 ∧ Issues s t 53 w { d := Use.x, a := Use.x, b := Use.x, c := Use.x, i := 16777215 } v ∧ s.cwsLoc v (addrOf (s.ctxAt t) w) 8 8 false = Except.ok (Loc.cws a) ∧ cwsWord s (t.core / 8) a ≠ (s.ctxAt t).rx w.c) :=
  ⟨⟨(runs inv0 (cx [(1, 0x28000)]) 48 { d := 3, a := 1 }), t0, { d := 3, a := 1 }, inv0, 0x28000, issues_of (by decide), ok_of (by decide +kernel)⟩,
   ⟨(runs inv0 (cx [(1, 0)]) 50 { d := 3, a := 1 }), t0, { d := 3, a := 1 }, inv0, 0x500000, issues_of (by decide), ok_of (by decide +kernel)⟩,
   ⟨(runs inv0 (cx [(1, 2 ^ 63 + 16)]) 50 { d := 3, a := 1 }), t0, { d := 3, a := 1 }, inv0, 16, issues_of (by decide), ok_of (by decide +kernel)⟩,
   ⟨(runs inv0 {} 54 { d := 3, i := 11 }), t0, { d := 3, i := 11 }, inv0, issues_of (by decide)⟩,
   ⟨1, by decide +kernel⟩,
   ⟨8, by decide +kernel⟩,
   ⟨(runs inv0 (cx [(1, 4)]) 48 { d := 3, a := 1 }), t0, { d := 3, a := 1 }, inv0, issues_of (by decide), error_of (by decide +kernel)⟩,
   ⟨(runs inv0 (cx [(1, 4)]) 49 { a := 1, b := 2 }), t0, { a := 1, b := 2 }, inv0, issues_of (by decide), error_of (by decide +kernel)⟩,
   ⟨(runs inv0 (cx [(1, 4)]) 50 { d := 3, a := 1 }), t0, { d := 3, a := 1 }, inv0, issues_of (by decide), error_of (by decide +kernel)⟩,
   ⟨(runs inv0 (cx [(1, 4)]) 51 { a := 1, b := 2 }), t0, { a := 1, b := 2 }, inv0, issues_of (by decide), error_of (by decide +kernel)⟩,
   ⟨(runs inv0 (cx [(1, 4)]) 52 { d := 3, a := 1, b := 2 }), t0, { d := 3, a := 1, b := 2 }, inv0, issues_of (by decide), error_of (by decide +kernel)⟩,
   ⟨(runs inv0 (cx [(1, 4)]) 53 { d := 3, a := 1, b := 2, c := 4 }), t0, { d := 3, a := 1, b := 2, c := 4 }, inv0, issues_of (by decide), error_of (by decide +kernel)⟩,
   ⟨(runs inv0 (cx [(1, 0x2FFF8)]) 49 { a := 1, b := 2 }), t0, { a := 1, b := 2 }, inv0, 0x2FFF8, by decide +kernel, issues_of (by decide), ok_of (by decide +kernel)⟩,
   ⟨(runs inv0 (cx [(1, 0x7FF8)]) 51 { a := 1, b := 2 }), t0, { a := 1, b := 2 }, inv0, 0x507FF8, by decide +kernel, issues_of (by decide), ok_of (by decide +kernel)⟩,
   ⟨(runs inv0 (cx [(1, 8)]) 52 { d := 3, a := 1, b := 2 }), t0, { d := 3, a := 1, b := 2 }, inv0, 0x500008, by decide +kernel, issues_of (by decide), ok_of (by decide +kernel)⟩,
   ⟨(runs inv0 (cx [(1, 8), (4, 0)]) 53 { d := 3, a := 1, b := 2, c := 4 }), t0, { d := 3, a := 1, b := 2, c := 4 }, inv0, 0x500008, by decide +kernel, issues_of (by decide), ok_of (by decide +kernel), by decide +kernel⟩,
   ⟨(runs inv0 (cx [(1, 8), (4, 1)]) 53 { d := 3, a := 1, b := 2, c := 4 }), t0, { d := 3, a := 1, b := 2, c := 4 }, inv0, 0x500008, by decide +kernel, issues_of (by decide), ok_of (by decide +kernel), by decide +kernel⟩⟩

theorem test_witness_VectorArithmeticOnLanes :
    (∃ (s : Machine.State) (t : Site) (w : GWord) (v : MInv),
      Runs s t 64 w (vecShape w Use.v Use.v Use.none) v) ∧
    (∃ (s : Machine.State) (t : Site) (w : GWord) (v : MInv),
      Runs s t 65 w (vecShape w Use.v Use.v Use.none) v) ∧
    (∃ (s : Machine.State) (t : Site) (w : GWord) (v : MInv),
      Runs s t 66 w (vecShape w Use.v Use.v Use.none) v) ∧
    (∃ (s : Machine.State) (t : Site) (w : GWord) (v : MInv),
      Runs s t 67 w (vecShape w Use.v Use.v Use.v) v) ∧
    (∃ (s : Machine.State) (t : Site) (w : GWord) (v : MInv),
      Runs s t 68 w (vecShape w Use.v Use.v Use.none) v) ∧
    (∃ (s : Machine.State) (t : Site) (w : GWord) (v : MInv),
      Runs s t 69 w (vecShape w Use.v Use.v Use.none) v) ∧
    (∃ (s : Machine.State) (t : Site) (w : GWord) (v : MInv),
      Runs s t 70 w (vecShape w Use.v Use.none Use.none) v) ∧
    (∃ (s : Machine.State) (t : Site) (w : GWord) (v : MInv),
      Runs s t 71 w (vecShape w Use.v Use.none Use.none) v) ∧
    (∃ (s : Machine.State) (t : Site) (w : GWord) (v : MInv),
      Runs s t 72 w (vecShape w Use.v Use.none Use.none) v) ∧
    (∃ (s : Machine.State) (t : Site) (w : GWord) (v : MInv),
      Runs s t 73 w { d := Use.v, a := Use.v, f := 255, vec := true, ok := decide (w.f % 16 < 4) && decide (w.f / 16 < 4) } v) ∧
    (∃ (s : Machine.State) (t : Site) (w : GWord) (v : MInv),
      Runs s t 74 w (vecShape w Use.v Use.none Use.none) v ∧ activeElems (s.ctxAt t) w (w.f % 16) (elemBytes (w.f % 16)) = []) ∧
    (∃ (s : Machine.State) (t : Site) (w : GWord) (v : MInv) (e : W32) (l : List W32),
      Runs s t 74 w (vecShape w Use.v Use.none Use.none) v ∧ activeElems (s.ctxAt t) w (w.f % 16) (elemBytes (w.f % 16)) = e :: l) ∧
    (∃ (s : Machine.State) (t : Site) (w : GWord) (v : MInv),
      Runs s t 75 w (vecShape w Use.v Use.none Use.none) v ∧ activeElems (s.ctxAt t) w (w.f % 16) (elemBytes (w.f % 16)) = []) ∧
    (∃ (s : Machine.State) (t : Site) (w : GWord) (v : MInv) (e : W32) (l : List W32),
      Runs s t 75 w (vecShape w Use.v Use.none Use.none) v ∧ activeElems (s.ctxAt t) w (w.f % 16) (elemBytes (w.f % 16)) = e :: l) ∧
    (∃ (s : Machine.State) (t : Site) (w : GWord) (v : MInv),
      Runs s t 76 w (vecShape w Use.v Use.x Use.none) v) ∧
    (∃ (s : Machine.State) (t : Site) (w : GWord) (v : MInv),
      Runs s t 77 w (vecShape w Use.v Use.v Use.p) v) :=
  ⟨⟨(runs inv0 {} 64 { d := 3, a := 1, b := 2, f := 3 }), t0, { d := 3, a := 1, b := 2, f := 3 }, inv0, runs_of (by decide)⟩,
   ⟨(runs inv0 {} 65 { d := 3, a := 1, b := 2, f := 3 }), t0, { d := 3, a := 1, b := 2, f := 3 }, inv0, runs_of (by decide)⟩,
   ⟨(runs inv0 {} 66 { d := 3, a := 1, b := 2, f := 3 }), t0, { d := 3, a := 1, b := 2, f := 3 }, inv0, runs_of (by decide)⟩,
   ⟨(runs inv0 {} 67 { d := 3, a := 1, b := 2, c := 3, f := 3 }), t0, { d := 3, a := 1, b := 2, c := 3, f := 3 }, inv0, runs_of (by decide)⟩,
   ⟨(runs inv0 {} 68 { d := 3, a := 1, b := 2, f := 3 }), t0, { d := 3, a := 1, b := 2, f := 3 }, inv0, runs_of (by decide)⟩,
   ⟨(runs inv0 {} 69 { d := 3, a := 1, b := 2, f := 3 }), t0, { d := 3, a := 1, b := 2, f := 3 }, inv0, runs_of (by decide)⟩,
   ⟨(runs inv0 {} 70 { d := 3, a := 1, f := 3 }), t0, { d := 3, a := 1, f := 3 }, inv0, runs_of (by decide)⟩,
   ⟨(runs inv0 {} 71 { d := 3, a := 1, f := 3 }), t0, { d := 3, a := 1, f := 3 }, inv0, runs_of (by decide)⟩,
   ⟨(runs inv0 {} 72 { d := 3, a := 1, f := 3 }), t0, { d := 3, a := 1, f := 3 }, inv0, runs_of (by decide)⟩,
   ⟨(runs inv0 {} 73 { d := 3, a := 1, f := 1 }), t0, { d := 3, a := 1, f := 1 }, inv0, runs_of (by decide)⟩,
   ⟨(runs inv0 ({ p := [(1, 0#256)] }) 74 { d := 3, a := 1, f := 3, pg := 1 }), t0, { d := 3, a := 1, f := 3, pg := 1 }, inv0, runs_of (by decide), by decide +kernel⟩,
   ⟨(runs inv0 ({ p := [(1, 1#256)], v := [(1, 0#2048)] }) 74 { d := 3, a := 1, f := 2, pg := 1 }), t0, { d := 3, a := 1, f := 2, pg := 1 }, inv0, 0#32, [], runs_of (by decide), by decide +kernel⟩,
   ⟨(runs inv0 ({ p := [(1, 0#256)] }) 75 { d := 3, a := 1, f := 3, pg := 1 }), t0, { d := 3, a := 1, f := 3, pg := 1 }, inv0, runs_of (by decide), by decide +kernel⟩,
   ⟨(runs inv0 ({ p := [(1, 1#256)], v := [(1, 0#2048)] }) 75 { d := 3, a := 1, f := 2, pg := 1 }), t0, { d := 3, a := 1, f := 2, pg := 1 }, inv0, 0#32, [], runs_of (by decide), by decide +kernel⟩,
   ⟨(runs inv0 {} 76 { d := 3, a := 1, b := 2, f := 3 }), t0, { d := 3, a := 1, b := 2, f := 3 }, inv0, runs_of (by decide)⟩,
   ⟨(runs inv0 {} 77 { d := 3, a := 1, b := 2, c := 1, f := 3 }), t0, { d := 3, a := 1, b := 2, c := 1, f := 3 }, inv0, runs_of (by decide)⟩⟩

theorem test_witness_GuardMasksLanes :
    (∃ (sz : Nat) (i : Nat),
      (sz = 1 ∨ sz = 2 ∨ sz = 4) ∧ i < 256 / sz) :=
  ⟨4, 63, by decide +kernel⟩

theorem test_witness_VectorMovesAndMemory :
    (∃ (s : Machine.State) (t : Site) (w : GWord) (v : MInv) (a : Nat),
      Runs s t 80 w { d := Use.v, a := Use.x, i := 16777215, vec := true } v ∧ s.ldmLoc v (addrOf (s.ctxAt t) w) 256 256 = Except.ok (Loc.ldm a)) ∧
    (∃ (s : Machine.State) (t : Site) (w : GWord) (v : MInv) (a : Nat),
      Runs s t 81 w { d := Use.v, a := Use.x, i := 16777215, vec := true } v ∧ s.ldmLoc v (addrOf (s.ctxAt t) w) 256 256 = Except.ok (Loc.ldm a)) ∧
    (∃ (s : Machine.State) (t : Site) (w : GWord) (v : MInv) (a : Nat),
      Runs s t 82 w { d := Use.v, a := Use.x, i := 16777215, vec := true } v ∧ s.cwsLoc v (addrOf (s.ctxAt t) w) 256 256 true = Except.ok (Loc.cws a)) ∧
    (∃ (s : Machine.State) (t : Site) (w : GWord) (v : MInv) (a : Nat),
      Runs s t 82 w { d := Use.v, a := Use.x, i := 16777215, vec := true } v ∧ s.cwsLoc v (addrOf (s.ctxAt t) w) 256 256 true = Except.ok (Loc.ref a)) ∧
    (∃ (s : Machine.State) (t : Site) (w : GWord) (v : MInv) (a : Nat),
      Runs s t 83 w { d := Use.v, a := Use.x, i := 16777215, vec := true } v ∧ s.cwsLoc v (addrOf (s.ctxAt t) w) 256 256 false = Except.ok (Loc.cws a)) ∧
    (∃ (s : Machine.State) (t : Site) (w : GWord) (v : MInv),
      Runs s t 80 w { d := Use.v, a := Use.x, i := 16777215, vec := true } v ∧ s.ldmLoc v (addrOf (s.ctxAt t) w) 256 256 = Except.error 3) ∧
    (∃ (s : Machine.State) (t : Site) (w : GWord) (v : MInv),
      Runs s t 81 w { d := Use.v, a := Use.x, i := 16777215, vec := true } v ∧ s.ldmLoc v (addrOf (s.ctxAt t) w) 256 256 = Except.error 3) ∧
    (∃ (s : Machine.State) (t : Site) (w : GWord) (v : MInv),
      Runs s t 82 w { d := Use.v, a := Use.x, i := 16777215, vec := true } v ∧ s.cwsLoc v (addrOf (s.ctxAt t) w) 256 256 true = Except.error 4) ∧
    (∃ (s : Machine.State) (t : Site) (w : GWord) (v : MInv),
      Runs s t 83 w { d := Use.v, a := Use.x, i := 16777215, vec := true } v ∧ s.cwsLoc v (addrOf (s.ctxAt t) w) 256 256 false = Except.error 4) ∧
    (∃ (s : Machine.State) (t : Site) (w : GWord) (v : MInv),
      Runs s t 84 w { d := Use.x, a := Use.v, i := 63, vec := true } v) ∧
    (∃ (s : Machine.State) (t : Site) (w : GWord) (v : MInv),
      Runs s t 85 w { d := Use.v, a := Use.x, i := 63, vec := true } v) ∧
    (∃ (s : Machine.State) (t : Site) (w : GWord) (v : MInv),
      Runs s t 86 w { d := Use.v, a := Use.x, vec := true } v) ∧
    (∃ (s : Machine.State) (t : Site) (w : GWord) (v : MInv),
      Runs s t 87 w { d := Use.v, a := Use.v, b := Use.v, f := 3, vec := true } v) :=
  ⟨⟨(runs inv0 (cx [(1, 0x28000)]) 80 { d := 3, a := 1 }), t0, { d := 3, a := 1 }, inv0, 0x28000, runs_of (by decide), ok_of (by decide +kernel)⟩,
   ⟨(runs inv0 (cx [(1, 0x28000)]) 81 { d := 3, a := 1 }), t0, { d := 3, a := 1 }, inv0, 0x28000, runs_of (by decide), ok_of (by decide +kernel)⟩,
   ⟨(runs inv0 (cx [(1, 0)]) 82 { d := 3, a := 1 }), t0, { d := 3, a := 1 }, inv0, 0x500000, runs_of (by decide), ok_of (by decide +kernel)⟩,
   ⟨(runs inv0 (cx [(1, 2 ^ 63 + 256)]) 82 { d := 3, a := 1 }), t0, { d := 3, a := 1 }, inv0, 256, runs_of (by decide), ok_of (by decide +kernel)⟩,
   ⟨(runs inv0 (cx [(1, 0)]) 83 { d := 3, a := 1 }), t0, { d := 3, a := 1 }, inv0, 0x500000, runs_of (by decide), ok_of (by decide +kernel)⟩,
   ⟨(runs inv0 (cx [(1, 4)]) 80 { d := 3, a := 1 }), t0, { d := 3, a := 1 }, inv0, runs_of (by decide), error_of (by decide +kernel)⟩,
   ⟨(runs inv0 (cx [(1, 4)]) 81 { d := 3, a := 1 }), t0, { d := 3, a := 1 }, inv0, runs_of (by decide), error_of (by decide +kernel)⟩,
   ⟨(runs inv0 (cx [(1, 4)]) 82 { d := 3, a := 1 }), t0, { d := 3, a := 1 }, inv0, runs_of (by decide), error_of (by decide +kernel)⟩,
   ⟨(runs inv0 (cx [(1, 4)]) 83 { d := 3, a := 1 }), t0, { d := 3, a := 1 }, inv0, runs_of (by decide), error_of (by decide +kernel)⟩,
   ⟨(runs inv0 {} 84 { d := 3, a := 1, i := 63 }), t0, { d := 3, a := 1, i := 63 }, inv0, runs_of (by decide)⟩,
   ⟨(runs inv0 {} 85 { d := 3, a := 1, i := 63 }), t0, { d := 3, a := 1, i := 63 }, inv0, runs_of (by decide)⟩,
   ⟨(runs inv0 {} 86 { d := 3, a := 1 }), t0, { d := 3, a := 1 }, inv0, runs_of (by decide)⟩,
   ⟨(runs inv0 {} 87 { d := 3, a := 1, b := 2 }), t0, { d := 3, a := 1, b := 2 }, inv0, runs_of (by decide)⟩⟩

theorem test_witness_PredicatesTakeTheirResult :
    (∃ (s : Machine.State) (t : Site) (w : GWord) (v : MInv),
      Issues s t 96 w { d := Use.p, a := Use.p, b := Use.p } v) ∧
    (∃ (s : Machine.State) (t : Site) (w : GWord) (v : MInv),
      Issues s t 97 w { d := Use.p, a := Use.p, b := Use.p } v) ∧
    (∃ (s : Machine.State) (t : Site) (w : GWord) (v : MInv),
      Issues s t 98 w { d := Use.p, a := Use.p, b := Use.p } v) ∧
    (∃ (s : Machine.State) (t : Site) (w : GWord) (v : MInv),
      Issues s t 99 w { d := Use.p, a := Use.p } v) ∧
    (∃ (s : Machine.State) (t : Site) (w : GWord) (v : MInv),
      Issues s t 100 w { d := Use.p, a := Use.v, b := Use.v, f := 127, ok := decide (w.f % 16 < 4) && decide (w.f / 16 < 6) } v) ∧
    (∃ (s : Machine.State) (t : Site) (w : GWord) (v : MInv),
      Issues s t 101 w { d := Use.p, i := 511, ok := decide (w.i ≤ 256) } v) ∧
    (∃ (s : Machine.State) (t : Site) (w : GWord) (v : MInv),
      Issues s t 102 w { d := Use.x, a := Use.p } v) :=
  ⟨⟨(runs inv0 {} 96 { d := 3, a := 1, b := 2 }), t0, { d := 3, a := 1, b := 2 }, inv0, issues_of (by decide)⟩,
   ⟨(runs inv0 {} 97 { d := 3, a := 1, b := 2 }), t0, { d := 3, a := 1, b := 2 }, inv0, issues_of (by decide)⟩,
   ⟨(runs inv0 {} 98 { d := 3, a := 1, b := 2 }), t0, { d := 3, a := 1, b := 2 }, inv0, issues_of (by decide)⟩,
   ⟨(runs inv0 {} 99 { d := 3, a := 1 }), t0, { d := 3, a := 1 }, inv0, issues_of (by decide)⟩,
   ⟨(runs inv0 {} 100 { d := 3, a := 1, b := 2 }), t0, { d := 3, a := 1, b := 2 }, inv0, issues_of (by decide)⟩,
   ⟨(runs inv0 {} 101 { d := 3, i := 256 }), t0, { d := 3, i := 256 }, inv0, issues_of (by decide)⟩,
   ⟨(runs inv0 {} 102 { d := 3, a := 1 }), t0, { d := 3, a := 1 }, inv0, issues_of (by decide)⟩⟩

theorem test_witness_RegistersAndRetirement :
    (∃ (r : Nat),
      r ≠ 0) ∧
    (∃ (t : Site) (t2 : Site),
      t.ctx < 4 ∧ t2.ctx < 4 ∧ t2 ≠ t) ∧
    (∃ (t : Site) (n : Nat),
      t.ctx < 4 ∧ n ≠ t.core) ∧
    (∃ (t : Site) (k : Nat),
      t.ctx < 4 ∧ k ≠ t.ctx) ∧
    (∃ (t : Site) (k : Counter) (sc : Nat),
      t.ctx < 4 ∧ ctrKey k sc ≠ ctrKey Counter.coreRetired t.core) :=
  ⟨⟨31, by decide +kernel⟩,
   ⟨⟨0, 1⟩, ⟨0, 2⟩, by decide +kernel⟩,
   ⟨t0, 1, by decide +kernel⟩,
   ⟨t0, 3, by decide +kernel⟩,
   ⟨t0, .coreRetired, 1, by decide +kernel⟩⟩

theorem test_witness_GuardOffHasNoEffect :
    (∃ (s : Machine.State) (t : Site) (w : GWord) (v : MInv),
      Runs s t 49 w { a := Use.x, b := Use.x, i := 16777215 } v ∧ (BitVec.getLsbD ((s.ctxAt t).rp w.pg) 0 ^^ w.pgn) = false) ∧
    (∃ (s : Machine.State) (t : Site) (w : GWord) (v : MInv),
      Runs s t 48 w { d := Use.x, a := Use.x, i := 16777215 } v ∧ (BitVec.getLsbD ((s.ctxAt t).rp w.pg) 0 ^^ w.pgn) = false) ∧
    (∃ (s : Machine.State) (t : Site) (w : GWord) (v : MInv),
      Runs s t 0 w { d := Use.x, a := Use.x, b := Use.x } v ∧ (BitVec.getLsbD ((s.ctxAt t).rp w.pg) 0 ^^ w.pgn) = false) ∧
    (∃ (s : Machine.State) (t : Site) (w : GWord) (v : MInv),
      Runs s t 32 w { a := Use.x, b := Use.x, i := 8191 } v ∧ (BitVec.getLsbD ((s.ctxAt t).rp w.pg) 0 ^^ w.pgn) = false) ∧
    (∃ (s : Machine.State) (t : Site) (w : GWord) (v : MInv),
      Runs s t 40 w { } v ∧ (BitVec.getLsbD ((s.ctxAt t).rp w.pg) 0 ^^ w.pgn) = false) ∧
    (∃ (s : Machine.State) (t : Site) (w : GWord) (v : MInv),
      Runs s t 96 w { d := Use.p, a := Use.p, b := Use.p } v ∧ (BitVec.getLsbD ((s.ctxAt t).rp w.pg) 0 ^^ w.pgn) = false) ∧
    (∃ (s : Machine.State) (t : Site) (w : GWord) (v : MInv),
      Runs s t 112 w { d := Use.h, a := Use.x } v ∧ (BitVec.getLsbD ((s.ctxAt t).rp w.pg) 0 ^^ w.pgn) = false) ∧
    (∃ (s : Machine.State) (t : Site) (w : GWord) (v : MInv),
      Runs s t 145 w { a := Use.x, f := 31, tag := true } v ∧ (BitVec.getLsbD ((s.ctxAt t).rp w.pg) 0 ^^ w.pgn) = false) ∧
    (∃ (s : Machine.State) (t : Site) (w : GWord) (v : MInv),
      Runs s t 196 w { a := Use.x, f := 15, tag := true } v ∧ (BitVec.getLsbD ((s.ctxAt t).rp w.pg) 0 ^^ w.pgn) = false) ∧
    (∃ (s : Machine.State) (t : Site) (w : GWord) (v : MInv),
      Runs s t 214 w { } v ∧ (BitVec.getLsbD ((s.ctxAt t).rp w.pg) 0 ^^ w.pgn) = false) :=
  ⟨⟨(runs inv0 ({ p := [(7, 0#256)] }) 49 { a := 1, b := 2, pg := 7 }), t0, { a := 1, b := 2, pg := 7 }, inv0, runs_of (by decide), by decide +kernel⟩,
   ⟨(runs inv0 ({ p := [(7, 0#256)] }) 48 { d := 3, a := 1, pg := 7 }), t0, { d := 3, a := 1, pg := 7 }, inv0, runs_of (by decide), by decide +kernel⟩,
   ⟨(runs inv0 ({ p := [(7, 0#256)] }) 0 { d := 3, a := 1, b := 2, pg := 7 }), t0, { d := 3, a := 1, b := 2, pg := 7 }, inv0, runs_of (by decide), by decide +kernel⟩,
   ⟨(runs inv0 ({ p := [(7, 0#256)] }) 32 { a := 1, b := 2, pg := 7 }), t0, { a := 1, b := 2, pg := 7 }, inv0, runs_of (by decide), by decide +kernel⟩,
   ⟨(runs inv0 ({ p := [(7, 0#256)] }) 40 { pg := 7 }), t0, { pg := 7 }, inv0, runs_of (by decide), by decide +kernel⟩,
   ⟨(runs inv0 ({ p := [(7, 0#256)] }) 96 { d := 3, a := 1, b := 2, pg := 7 }), t0, { d := 3, a := 1, b := 2, pg := 7 }, inv0, runs_of (by decide), by decide +kernel⟩,
   ⟨(runs inv0 ({ p := [(7, 0#256)] }) 112 { d := 1, a := 1, pg := 7 }), t0, { d := 1, a := 1, pg := 7 }, inv0, runs_of (by decide), by decide +kernel⟩,
   ⟨(runs inv0 ({ p := [(7, 0#256)] }) 145 { a := 1, pg := 7 }), t0, { a := 1, pg := 7 }, inv0, runs_of (by decide), by decide +kernel⟩,
   ⟨(runs inv0 ({ p := [(7, 0#256)] }) 196 { a := 1, pg := 7 }), t0, { a := 1, pg := 7 }, inv0, runs_of (by decide), by decide +kernel⟩,
   ⟨(runs inv0 ({ p := [(7, 0#256)] }) 214 { pg := 7 }), t0, { pg := 7 }, inv0, runs_of (by decide), by decide +kernel⟩⟩

theorem test_witness_IllegalWordFaults :
    (∃ (s : Machine.State) (t : Site) (w : GWord) (v : MInv),
      s.up = true ∧ (s.ctxAt t).inv = some v ∧ s.ready t = true ∧ (s.ctxAt t).pc < s.codeLen v ∧ s.wordIs v (s.ctxAt t).pc (encodeG 0 w) = true ∧ wordOk t.ctx { d := Use.x, a := Use.x, b := Use.x } w = false) ∧
    (∃ (s : Machine.State) (t : Site) (w : GWord) (v : MInv),
      s.up = true ∧ (s.ctxAt t).inv = some v ∧ s.ready t = true ∧ (s.ctxAt t).pc < s.codeLen v ∧ s.wordIs v (s.ctxAt t).pc (encodeG 49 w) = true ∧ wordOk t.ctx { a := Use.x, b := Use.x, i := 16777215 } w = false) ∧
    (∃ (s : Machine.State) (t : Site) (w : GWord) (v : MInv),
      s.up = true ∧ (s.ctxAt t).inv = some v ∧ s.ready t = true ∧ (s.ctxAt t).pc < s.codeLen v ∧ s.wordIs v (s.ctxAt t).pc (encodeG 64 w) = true ∧ wordOk t.ctx (vecShape w Use.v Use.v Use.none) w = false) ∧
    (∃ (s : Machine.State) (t : Site) (w : GWord) (v : MInv),
      s.up = true ∧ (s.ctxAt t).inv = some v ∧ s.ready t = true ∧ (s.ctxAt t).pc < s.codeLen v ∧ s.wordIs v (s.ctxAt t).pc (encodeG 101 w) = true ∧ wordOk t.ctx { d := Use.p, i := 511, ok := decide (w.i ≤ 256) } w = false) ∧
    (∃ (s : Machine.State) (t : Site) (v : MInv),
      t.ctx < 4 ∧ (s.ctxAt t).inv = some v ∧ v.event = 0 ∧ (s.core t.core).faultValid = false) ∧
    (∃ (s : Machine.State) (t : Site) (v : MInv),
      t.ctx < 4 ∧ (s.ctxAt t).inv = some v ∧ v.event = 0 ∧ (s.core t.core).faultValid = true) :=
  ⟨⟨(runs inv0 {} 0 { d := 3, a := 1, b := 2, f := 1 }), t0, { d := 3, a := 1, b := 2, f := 1 }, inv0, by decide +kernel⟩,
   ⟨(runs inv0 {} 49 { a := 1, b := 2, c := 1 }), t0, { a := 1, b := 2, c := 1 }, inv0, by decide +kernel⟩,
   ⟨(runs inv0 {} 64 { d := 3, a := 1, b := 2, f := 240 }), t0, { d := 3, a := 1, b := 2, f := 240 }, inv0, by decide +kernel⟩,
   ⟨(runs inv0 {} 101 { d := 3, i := 257 }), t0, { d := 3, i := 257 }, inv0, by decide +kernel⟩,
   ⟨(runs inv0 {} 0 {}), t0, inv0, by decide +kernel⟩,
   ⟨{ runs inv0 {} 0 {} with cores := { core := [(0, { ctx0 := { st := .running, inv := some inv0 }, faultValid := true })] } }, t0, inv0, by decide +kernel⟩⟩

theorem test_witness_SlotsAndBlockSummaries :
    (∃ (s : Machine.State) (t : Site) (w : GWord) (v : MInv) (id : Nat),
      Issues s t 112 w { d := Use.h, a := Use.x } v ∧ s.handle? v.part (BitVec.toNat ((s.ctxAt t).rx w.a)) = some id) ∧
    (∃ (s : Machine.State) (t : Site) (w : GWord) (v : MInv),
      Issues s t 112 w { d := Use.h, a := Use.x } v ∧ s.handle? v.part (BitVec.toNat ((s.ctxAt t).rx w.a)) = none) ∧
    (∃ (s : Machine.State) (t : Site) (w : GWord) (v : MInv),
      Issues s t 113 w { d := Use.h } v) ∧
    (∃ (s : Machine.State) (t : Site) (w : GWord) (v : MInv),
      Issues s t 114 w { d := Use.x, a := Use.x, f := 48 } v ∧ (s.ctxAt t).slot (w.f / 16) = none) ∧
    (∃ (s : Machine.State) (t : Site) (w : GWord) (v : MInv) (h : Nat) (chk : PageCheck),
      Issues s t 114 w { d := Use.x, a := Use.x, f := 48 } v ∧ (s.ctxAt t).slot (w.f / 16) = some h ∧ s.walkFault (hId h) (BitVec.toNat ((s.ctxAt t).rx w.a)) chk = none ∧ (s.locate ((s.getSess (hId h)).desc (BitVec.toNat ((s.ctxAt t).rx w.a)))).tier < 4 ∧ (s.locate ((s.getSess (hId h)).desc (BitVec.toNat ((s.ctxAt t).rx w.a)))).cluster < 32 ∧ (s.locate ((s.getSess (hId h)).desc (BitVec.toNat ((s.ctxAt t).rx w.a)))).fill < 128 ∧ (s.locate ((s.getSess (hId h)).desc (BitVec.toNat ((s.ctxAt t).rx w.a)))).valid = false) ∧
    (∃ (s : Machine.State) (t : Site) (w : GWord) (v : MInv) (h : Nat) (chk : PageCheck),
      Issues s t 114 w { d := Use.x, a := Use.x, f := 48 } v ∧ (s.ctxAt t).slot (w.f / 16) = some h ∧ s.walkFault (hId h) (BitVec.toNat ((s.ctxAt t).rx w.a)) chk = none ∧ (s.locate ((s.getSess (hId h)).desc (BitVec.toNat ((s.ctxAt t).rx w.a)))).tier < 4 ∧ (s.locate ((s.getSess (hId h)).desc (BitVec.toNat ((s.ctxAt t).rx w.a)))).cluster < 32 ∧ (s.locate ((s.getSess (hId h)).desc (BitVec.toNat ((s.ctxAt t).rx w.a)))).fill < 128 ∧ (s.locate ((s.getSess (hId h)).desc (BitVec.toNat ((s.ctxAt t).rx w.a)))).valid = true) ∧
    (∃ (s : Machine.State) (t : Site) (w : GWord) (v : MInv) (h : Nat) (chk : PageCheck),
      Issues s t 114 w { d := Use.x, a := Use.x, f := 48 } v ∧ (s.ctxAt t).slot (w.f / 16) = some h ∧ ((s.getSess (hId h)).desc (BitVec.toNat ((s.ctxAt t).rx w.a))).valid = true ∧ chk ≠ PageCheck.ok ∧ (chk = PageCheck.record → ((s.getSess (hId h)).desc (BitVec.toNat ((s.ctxAt t).rx w.a))).shared = true)) ∧
    (∃ (s : Machine.State) (t : Site) (w : GWord) (v : MInv),
      Issues s t 115 w { d := Use.x, f := 48, i := 7 } v ∧ (s.ctxAt t).slot (w.f / 16) = none) ∧
    (∃ (s : Machine.State) (t : Site) (w : GWord) (v : MInv) (h : Nat),
      Issues s t 115 w { d := Use.x, f := 48, i := 7 } v ∧ (s.ctxAt t).slot (w.f / 16) = some h) :=
  ⟨⟨(inPart (blk 0 0) (runs inv0 (cx [(1, h7)]) 112 { d := 1, a := 1 })), t0, { d := 1, a := 1 }, inv0, 7, issues_of (by decide), by decide +kernel⟩,
   ⟨(inPart (blk 0 0) (runs inv0 (cx [(1, 7)]) 112 { d := 1, a := 1 })), t0, { d := 1, a := 1 }, inv0, issues_of (by decide), by decide +kernel⟩,
   ⟨(runs inv0 {} 113 { d := 1 }), t0, { d := 1 }, inv0, issues_of (by decide)⟩,
   ⟨(runs inv0 {} 114 { d := 3, a := 1 }), t0, { d := 3, a := 1 }, inv0, issues_of (by decide), by decide +kernel⟩,
   ⟨(inPart (blk 0 0) (runs inv0 ({ x := [(1, 9#64)], h := [(0, h7)] }) 114 { d := 3, a := 1 })), t0, { d := 3, a := 1 }, inv0, h7, .ok, issues_of (by decide), by decide +kernel⟩,
   ⟨(inPart (blk 0 0) (runs inv0 ({ x := [(1, 0#64)], h := [(0, h7)] }) 114 { d := 3, a := 1 })), t0, { d := 3, a := 1 }, inv0, h7, .ok, issues_of (by decide), by decide +kernel⟩,
   ⟨(inPart (blk 0 0) (runs inv0 ({ x := [(1, 0#64)], h := [(0, h7)] }) 114 { d := 3, a := 1 })), t0, { d := 3, a := 1 }, inv0, h7, .desc, issues_of (by decide), by decide +kernel⟩,
   ⟨(runs inv0 {} 115 { d := 3 }), t0, { d := 3 }, inv0, issues_of (by decide), by decide +kernel⟩,
   ⟨(inPart (blk 0 0) (runs inv0 ({ h := [(0, h7)] }) 115 { d := 3, i := 7 })), t0, { d := 3, i := 7 }, inv0, h7, issues_of (by decide), by decide +kernel⟩⟩

theorem test_witness_BlockCopiesCompleteTheirTag :
    (∃ (s : Machine.State) (t : Site) (w : GWord) (v : MInv) (h : Nat) (l : Loc),
      Issues s t 116 w { d := Use.x, a := Use.x, b := Use.x, f := 127, tag := true } v ∧ (s.ctxAt t).slot (w.f / 16 % 4) = some h ∧ BitVec.toNat ((s.ctxAt t).rx w.b) < 2 ^ 29 ∧ bits (BitVec.toNat ((s.ctxAt t).rx w.b)) 27 2 < 2 ∧ 1 ≤ bits (BitVec.toNat ((s.ctxAt t).rx w.b)) 20 7 ∧ bits (BitVec.toNat ((s.ctxAt t).rx w.b)) 14 6 + bits (BitVec.toNat ((s.ctxAt t).rx w.b)) 20 7 ≤ 64 ∧ s.spaceLoc v (bitAt w.f 6) ((s.ctxAt t).rx w.d) (bits (BitVec.toNat ((s.ctxAt t).rx w.b)) 20 7 * (s.model (s.getSess (hId h)).part (s.getSess (hId h)).model).rowBytes) 1 false = Except.ok l ∧ v.cls = InvClass.control) ∧
    (∃ (s : Machine.State) (t : Site) (w : GWord) (v : MInv) (h : Nat) (l : Loc) (chk : PageCheck) (s1 : Machine.State),
      Issues s t 116 w { d := Use.x, a := Use.x, b := Use.x, f := 127, tag := true } v ∧ (s.ctxAt t).slot (w.f / 16 % 4) = some h ∧ BitVec.toNat ((s.ctxAt t).rx w.b) < 2 ^ 29 ∧ bits (BitVec.toNat ((s.ctxAt t).rx w.b)) 27 2 < 2 ∧ 1 ≤ bits (BitVec.toNat ((s.ctxAt t).rx w.b)) 20 7 ∧ bits (BitVec.toNat ((s.ctxAt t).rx w.b)) 14 6 + bits (BitVec.toNat ((s.ctxAt t).rx w.b)) 20 7 ≤ 64 ∧ s.spaceLoc v (bitAt w.f 6) ((s.ctxAt t).rx w.d) (bits (BitVec.toNat ((s.ctxAt t).rx w.b)) 20 7 * (s.model (s.getSess (hId h)).part (s.getSess (hId h)).model).rowBytes) 1 false = Except.ok l ∧ v.cls ≠ InvClass.control ∧ s.gateOpen v [dieOf (t.core / 8)] (estTicks (bits (BitVec.toNat ((s.ctxAt t).rx w.b)) 20 7 * (s.model (s.getSess (hId h)).part (s.getSess (hId h)).model).rowBytes) (tierRate (s.locate ((s.getSess (hId h)).desc (BitVec.toNat ((s.ctxAt t).rx w.a)))).tier)) = true ∧ s.checkFault (hId h) (BitVec.toNat ((s.ctxAt t).rx w.a)) chk = some s1) ∧
    (∃ (s : Machine.State) (t : Site) (w : GWord) (v : MInv) (h : Nat) (l : Loc) (chk : PageCheck),
      Issues s t 116 w { d := Use.x, a := Use.x, b := Use.x, f := 127, tag := true } v ∧ (s.ctxAt t).slot (w.f / 16 % 4) = some h ∧ BitVec.toNat ((s.ctxAt t).rx w.b) < 2 ^ 29 ∧ bits (BitVec.toNat ((s.ctxAt t).rx w.b)) 27 2 < 2 ∧ 1 ≤ bits (BitVec.toNat ((s.ctxAt t).rx w.b)) 20 7 ∧ bits (BitVec.toNat ((s.ctxAt t).rx w.b)) 14 6 + bits (BitVec.toNat ((s.ctxAt t).rx w.b)) 20 7 ≤ 64 ∧ s.spaceLoc v (bitAt w.f 6) ((s.ctxAt t).rx w.d) (bits (BitVec.toNat ((s.ctxAt t).rx w.b)) 20 7 * (s.model (s.getSess (hId h)).part (s.getSess (hId h)).model).rowBytes) 1 false = Except.ok l ∧ v.cls ≠ InvClass.control ∧ s.gateOpen v [dieOf (t.core / 8)] (estTicks (bits (BitVec.toNat ((s.ctxAt t).rx w.b)) 20 7 * (s.model (s.getSess (hId h)).part (s.getSess (hId h)).model).rowBytes) (tierRate (s.locate ((s.getSess (hId h)).desc (BitVec.toNat ((s.ctxAt t).rx w.a)))).tier)) = true ∧ s.walkFault (hId h) (BitVec.toNat ((s.ctxAt t).rx w.a)) chk = none ∧ (s.getSess (hId h)).st.resides = false) ∧
    (∃ (s : Machine.State) (t : Site) (w : GWord) (v : MInv) (h : Nat) (l : Loc) (chk : PageCheck),
      Issues s t 116 w { d := Use.x, a := Use.x, b := Use.x, f := 127, tag := true } v ∧ (s.ctxAt t).slot (w.f / 16 % 4) = some h ∧ BitVec.toNat ((s.ctxAt t).rx w.b) < 2 ^ 29 ∧ bits (BitVec.toNat ((s.ctxAt t).rx w.b)) 27 2 < 2 ∧ 1 ≤ bits (BitVec.toNat ((s.ctxAt t).rx w.b)) 20 7 ∧ bits (BitVec.toNat ((s.ctxAt t).rx w.b)) 14 6 + bits (BitVec.toNat ((s.ctxAt t).rx w.b)) 20 7 ≤ 64 ∧ s.spaceLoc v (bitAt w.f 6) ((s.ctxAt t).rx w.d) (bits (BitVec.toNat ((s.ctxAt t).rx w.b)) 20 7 * (s.model (s.getSess (hId h)).part (s.getSess (hId h)).model).rowBytes) 1 false = Except.ok l ∧ v.cls ≠ InvClass.control ∧ s.gateOpen v [dieOf (t.core / 8)] (estTicks (bits (BitVec.toNat ((s.ctxAt t).rx w.b)) 20 7 * (s.model (s.getSess (hId h)).part (s.getSess (hId h)).model).rowBytes) (tierRate (s.locate ((s.getSess (hId h)).desc (BitVec.toNat ((s.ctxAt t).rx w.a)))).tier)) = true ∧ s.walkFault (hId h) (BitVec.toNat ((s.ctxAt t).rx w.a)) chk = none ∧ (s.getSess (hId h)).st.resides = true ∧ (s.locate ((s.getSess (hId h)).desc (BitVec.toNat ((s.ctxAt t).rx w.a)))).valid = false) ∧
    (∃ (s : Machine.State) (t : Site) (w : GWord) (v : MInv) (h : Nat) (l : Loc) (chk : PageCheck),
      Issues s t 116 w { d := Use.x, a := Use.x, b := Use.x, f := 127, tag := true } v ∧ (s.ctxAt t).slot (w.f / 16 % 4) = some h ∧ BitVec.toNat ((s.ctxAt t).rx w.b) < 2 ^ 29 ∧ bits (BitVec.toNat ((s.ctxAt t).rx w.b)) 27 2 < 2 ∧ 1 ≤ bits (BitVec.toNat ((s.ctxAt t).rx w.b)) 20 7 ∧ bits (BitVec.toNat ((s.ctxAt t).rx w.b)) 14 6 + bits (BitVec.toNat ((s.ctxAt t).rx w.b)) 20 7 ≤ 64 ∧ s.spaceLoc v (bitAt w.f 6) ((s.ctxAt t).rx w.d) (bits (BitVec.toNat ((s.ctxAt t).rx w.b)) 20 7 * (s.model (s.getSess (hId h)).part (s.getSess (hId h)).model).rowBytes) 1 false = Except.ok l ∧ v.cls ≠ InvClass.control ∧ s.gateOpen v [dieOf (t.core / 8)] (estTicks (bits (BitVec.toNat ((s.ctxAt t).rx w.b)) 20 7 * (s.model (s.getSess (hId h)).part (s.getSess (hId h)).model).rowBytes) (tierRate (s.locate ((s.getSess (hId h)).desc (BitVec.toNat ((s.ctxAt t).rx w.a)))).tier)) = true ∧ s.walkFault (hId h) (BitVec.toNat ((s.ctxAt t).rx w.a)) chk = none ∧ (s.getSess (hId h)).st.resides = true ∧ (s.locate ((s.getSess (hId h)).desc (BitVec.toNat ((s.ctxAt t).rx w.a)))).valid = true ∧ (s.locate ((s.getSess (hId h)).desc (BitVec.toNat ((s.ctxAt t).rx w.a)))).cluster ≠ t.core / 8) ∧
    (∃ (s : Machine.State) (t : Site) (w : GWord) (v : MInv) (h : Nat) (l : Loc) (chk : PageCheck),
      Issues s t 116 w { d := Use.x, a := Use.x, b := Use.x, f := 127, tag := true } v ∧ (s.ctxAt t).slot (w.f / 16 % 4) = some h ∧ BitVec.toNat ((s.ctxAt t).rx w.b) < 2 ^ 29 ∧ bits (BitVec.toNat ((s.ctxAt t).rx w.b)) 27 2 < 2 ∧ 1 ≤ bits (BitVec.toNat ((s.ctxAt t).rx w.b)) 20 7 ∧ bits (BitVec.toNat ((s.ctxAt t).rx w.b)) 14 6 + bits (BitVec.toNat ((s.ctxAt t).rx w.b)) 20 7 ≤ 64 ∧ s.spaceLoc v (bitAt w.f 6) ((s.ctxAt t).rx w.d) (bits (BitVec.toNat ((s.ctxAt t).rx w.b)) 20 7 * (s.model (s.getSess (hId h)).part (s.getSess (hId h)).model).rowBytes) 1 false = Except.ok l ∧ v.cls ≠ InvClass.control ∧ s.gateOpen v [dieOf (t.core / 8)] (estTicks (bits (BitVec.toNat ((s.ctxAt t).rx w.b)) 20 7 * (s.model (s.getSess (hId h)).part (s.getSess (hId h)).model).rowBytes) (tierRate (s.locate ((s.getSess (hId h)).desc (BitVec.toNat ((s.ctxAt t).rx w.a)))).tier)) = true ∧ s.walkFault (hId h) (BitVec.toNat ((s.ctxAt t).rx w.a)) chk = none ∧ (s.getSess (hId h)).st.resides = true ∧ (s.locate ((s.getSess (hId h)).desc (BitVec.toNat ((s.ctxAt t).rx w.a)))).valid = true ∧ (s.locate ((s.getSess (hId h)).desc (BitVec.toNat ((s.ctxAt t).rx w.a)))).cluster = t.core / 8 ∧ 2 ≤ (s.locate ((s.getSess (hId h)).desc (BitVec.toNat ((s.ctxAt t).rx w.a)))).tier) ∧
    (∃ (s : Machine.State) (t : Site) (w : GWord) (v : MInv) (h : Nat) (l : Loc) (chk : PageCheck),
      Issues s t 116 w { d := Use.x, a := Use.x, b := Use.x, f := 127, tag := true } v ∧ (s.ctxAt t).slot (w.f / 16 % 4) = some h ∧ BitVec.toNat ((s.ctxAt t).rx w.b) < 2 ^ 29 ∧ bits (BitVec.toNat ((s.ctxAt t).rx w.b)) 27 2 < 2 ∧ 1 ≤ bits (BitVec.toNat ((s.ctxAt t).rx w.b)) 20 7 ∧ bits (BitVec.toNat ((s.ctxAt t).rx w.b)) 14 6 + bits (BitVec.toNat ((s.ctxAt t).rx w.b)) 20 7 ≤ 64 ∧ s.spaceLoc v (bitAt w.f 6) ((s.ctxAt t).rx w.d) (bits (BitVec.toNat ((s.ctxAt t).rx w.b)) 20 7 * (s.model (s.getSess (hId h)).part (s.getSess (hId h)).model).rowBytes) 1 false = Except.ok l ∧ v.cls ≠ InvClass.control ∧ s.gateOpen v [dieOf (t.core / 8)] (estTicks (bits (BitVec.toNat ((s.ctxAt t).rx w.b)) 20 7 * (s.model (s.getSess (hId h)).part (s.getSess (hId h)).model).rowBytes) (tierRate (s.locate ((s.getSess (hId h)).desc (BitVec.toNat ((s.ctxAt t).rx w.a)))).tier)) = true ∧ s.walkFault (hId h) (BitVec.toNat ((s.ctxAt t).rx w.a)) chk = none ∧ (s.getSess (hId h)).st.resides = true ∧ (s.locate ((s.getSess (hId h)).desc (BitVec.toNat ((s.ctxAt t).rx w.a)))).valid = true ∧ (s.locate ((s.getSess (hId h)).desc (BitVec.toNat ((s.ctxAt t).rx w.a)))).cluster = t.core / 8 ∧ (s.locate ((s.getSess (hId h)).desc (BitVec.toNat ((s.ctxAt t).rx w.a)))).tier < 2 ∧ (s.getSess (hId h)).loadable (BitVec.toNat ((s.ctxAt t).rx w.a)) (bits (BitVec.toNat ((s.ctxAt t).rx w.b)) 0 8) < 64 * BitVec.toNat ((s.ctxAt t).rx w.a) + bits (BitVec.toNat ((s.ctxAt t).rx w.b)) 14 6 + bits (BitVec.toNat ((s.ctxAt t).rx w.b)) 20 7) ∧
    (∃ (s : Machine.State) (t : Site) (w : GWord) (v : MInv) (h : Nat) (l : Loc) (chk : PageCheck),
      Issues s t 116 w { d := Use.x, a := Use.x, b := Use.x, f := 127, tag := true } v ∧ (s.ctxAt t).slot (w.f / 16 % 4) = some h ∧ BitVec.toNat ((s.ctxAt t).rx w.b) < 2 ^ 29 ∧ bits (BitVec.toNat ((s.ctxAt t).rx w.b)) 27 2 < 2 ∧ 1 ≤ bits (BitVec.toNat ((s.ctxAt t).rx w.b)) 20 7 ∧ bits (BitVec.toNat ((s.ctxAt t).rx w.b)) 14 6 + bits (BitVec.toNat ((s.ctxAt t).rx w.b)) 20 7 ≤ 64 ∧ s.spaceLoc v (bitAt w.f 6) ((s.ctxAt t).rx w.d) (bits (BitVec.toNat ((s.ctxAt t).rx w.b)) 20 7 * (s.model (s.getSess (hId h)).part (s.getSess (hId h)).model).rowBytes) 1 false = Except.ok l ∧ v.cls ≠ InvClass.control ∧ s.gateOpen v [dieOf (t.core / 8)] (estTicks (bits (BitVec.toNat ((s.ctxAt t).rx w.b)) 20 7 * (s.model (s.getSess (hId h)).part (s.getSess (hId h)).model).rowBytes) (tierRate (s.locate ((s.getSess (hId h)).desc (BitVec.toNat ((s.ctxAt t).rx w.a)))).tier)) = true ∧ s.walkFault (hId h) (BitVec.toNat ((s.ctxAt t).rx w.a)) chk = none ∧ (s.getSess (hId h)).st.resides = true ∧ (s.locate ((s.getSess (hId h)).desc (BitVec.toNat ((s.ctxAt t).rx w.a)))).valid = true ∧ (s.locate ((s.getSess (hId h)).desc (BitVec.toNat ((s.ctxAt t).rx w.a)))).cluster = t.core / 8 ∧ (s.locate ((s.getSess (hId h)).desc (BitVec.toNat ((s.ctxAt t).rx w.a)))).tier < 2 ∧ 64 * BitVec.toNat ((s.ctxAt t).rx w.a) + bits (BitVec.toNat ((s.ctxAt t).rx w.b)) 14 6 + bits (BitVec.toNat ((s.ctxAt t).rx w.b)) 20 7 ≤ (s.getSess (hId h)).loadable (BitVec.toNat ((s.ctxAt t).rx w.a)) (bits (BitVec.toNat ((s.ctxAt t).rx w.b)) 0 8) ∧ bits (BitVec.toNat ((s.ctxAt t).rx w.b)) 0 8 < (s.model (s.getSess (hId h)).part (s.getSess (hId h)).model).layers ∧ bits (BitVec.toNat ((s.ctxAt t).rx w.b)) 8 6 < (s.model (s.getSess (hId h)).part (s.getSess (hId h)).model).kvheads) ∧
    (∃ (s : Machine.State) (t : Site) (w : GWord) (v : MInv) (h : Nat) (l : Loc) (chk : PageCheck) (s1 : Machine.State),
      let m := s.model (s.getSess (hId h)).part (s.getSess (hId h)).model
      let k : KvMsg := { port := bstPort, vc := 0, handle := h, pos := ((s.ctxAt t).rx w.a).toNat, layer := bits ((s.ctxAt t).rx w.b).toNat 0 8, bodyVer := 1, count := bits ((s.ctxAt t).rx w.b).toNat 8 7, kvIn := bits ((s.ctxAt t).rx w.b).toNat 15 2, data := [] }
      Issues s t 117 w { a := Use.x, b := Use.x, c := Use.x, f := 127, tag := true } v ∧ (s.ctxAt t).slot (w.f / 16 % 4) = some h ∧
        ((s.ctxAt t).rx w.b).toNat < 2 ^ 17 ∧ k.kvIn < 2 ∧
        s.spaceLoc v (bitAt w.f 6) ((s.ctxAt t).rx w.c) (k.dataLen m) 1 false = Except.ok l ∧ v.cls ≠ InvClass.control ∧
        s.gateOpen v [dieOf (t.core / 8), dieOf (s.locate ((s.getSess (hId h)).desc (k.pos / 64))).cluster]
          (estTicks (k.dataLen m) (tierRate (s.locate ((s.getSess (hId h)).desc (k.pos / 64))).tier)) = true ∧ s.checkFault (hId h) (k.pos / 64) chk = some s1) ∧
    (∃ (s : Machine.State) (t : Site) (w : GWord) (v : MInv) (h : Nat) (l : Loc) (chk : PageCheck) (id : Nat),
      let m := s.model (s.getSess (hId h)).part (s.getSess (hId h)).model
      let k : KvMsg := { port := bstPort, vc := 0, handle := h, pos := ((s.ctxAt t).rx w.a).toNat, layer := bits ((s.ctxAt t).rx w.b).toNat 0 8, bodyVer := 1, count := bits ((s.ctxAt t).rx w.b).toNat 8 7, kvIn := bits ((s.ctxAt t).rx w.b).toNat 15 2, data := [] }
      Issues s t 117 w { a := Use.x, b := Use.x, c := Use.x, f := 127, tag := true } v ∧ (s.ctxAt t).slot (w.f / 16 % 4) = some h ∧
        ((s.ctxAt t).rx w.b).toNat < 2 ^ 17 ∧ k.kvIn < 2 ∧
        s.spaceLoc v (bitAt w.f 6) ((s.ctxAt t).rx w.c) (k.dataLen m) 1 false = Except.ok l ∧ v.cls ≠ InvClass.control ∧
        s.gateOpen v [dieOf (t.core / 8), dieOf (s.locate ((s.getSess (hId h)).desc (k.pos / 64))).cluster]
          (estTicks (k.dataLen m) (tierRate (s.locate ((s.getSess (hId h)).desc (k.pos / 64))).tier)) = true ∧ s.walkFault (hId h) (k.pos / 64) chk = none ∧
        s.kvCheck v.part false { k with data := s.locRead t.core l (k.dataLen m) } = Except.ok id) ∧
    (∃ (s : Machine.State) (t : Site) (w : GWord) (v : MInv) (h : Nat) (l : Loc) (chk : PageCheck) (e : Status),
      let m := s.model (s.getSess (hId h)).part (s.getSess (hId h)).model
      let k : KvMsg := { port := bstPort, vc := 0, handle := h, pos := ((s.ctxAt t).rx w.a).toNat, layer := bits ((s.ctxAt t).rx w.b).toNat 0 8, bodyVer := 1, count := bits ((s.ctxAt t).rx w.b).toNat 8 7, kvIn := bits ((s.ctxAt t).rx w.b).toNat 15 2, data := [] }
      Issues s t 117 w { a := Use.x, b := Use.x, c := Use.x, f := 127, tag := true } v ∧ (s.ctxAt t).slot (w.f / 16 % 4) = some h ∧
        ((s.ctxAt t).rx w.b).toNat < 2 ^ 17 ∧ k.kvIn < 2 ∧
        s.spaceLoc v (bitAt w.f 6) ((s.ctxAt t).rx w.c) (k.dataLen m) 1 false = Except.ok l ∧ v.cls ≠ InvClass.control ∧
        s.gateOpen v [dieOf (t.core / 8), dieOf (s.locate ((s.getSess (hId h)).desc (k.pos / 64))).cluster]
          (estTicks (k.dataLen m) (tierRate (s.locate ((s.getSess (hId h)).desc (k.pos / 64))).tier)) = true ∧ s.walkFault (hId h) (k.pos / 64) chk = none ∧
        s.kvCheck v.part false { k with data := s.locRead t.core l (k.dataLen m) } = Except.error e) :=
  ⟨⟨(inPart (blk 0 0) (runs { inv0 with cls := .control } ({ x := [(1, 0#64), (2, 1048576#64), (3, 163840#64)], h := [(0, h7)] }) 116 { d := 3, a := 1, b := 2 })), t0, { d := 3, a := 1, b := 2 }, { inv0 with cls := .control }, h7, .ldm 0x28000, issues_of (by decide), by decide +kernel, by decide +kernel, by decide +kernel, by decide +kernel, by decide +kernel, ok_of (by decide +kernel), by decide +kernel⟩,
   ⟨(inPart (blk 0 0) (runs inv0 ({ x := [(1, 0#64), (2, 1048576#64), (3, 163840#64)], h := [(0, h7)] }) 116 { d := 3, a := 1, b := 2 })), t0, { d := 3, a := 1, b := 2 }, inv0, h7, .ldm 0x28000, .desc, (State.pageFault (inPart (blk 0 0) (runs inv0 ({ x := [(1, 0#64), (2, 1048576#64), (3, 163840#64)], h := [(0, h7)] }) 116 { d := 3, a := 1, b := 2 })) 7 0 .desc), issues_of (by decide), by decide +kernel, by decide +kernel, by decide +kernel, by decide +kernel, by decide +kernel, ok_of (by decide +kernel), by decide +kernel⟩,
   ⟨(away <| inPart (blk 0 0) (runs inv0 ({ x := [(1, 0#64), (2, 1048576#64), (3, 163840#64)], h := [(0, h7)] }) 116 { d := 3, a := 1, b := 2 })), t0, { d := 3, a := 1, b := 2 }, inv0, h7, .ldm 0x28000, .ok, issues_of (by decide), by decide +kernel, by decide +kernel, by decide +kernel, by decide +kernel, by decide +kernel, ok_of (by decide +kernel), by decide +kernel⟩,
   ⟨(inPart (blk 0 0) (runs inv0 ({ x := [(1, 9#64), (2, 1048576#64), (3, 163840#64)], h := [(0, h7)] }) 116 { d := 3, a := 1, b := 2 })), t0, { d := 3, a := 1, b := 2 }, inv0, h7, .ldm 0x28000, .ok, issues_of (by decide), by decide +kernel, by decide +kernel, by decide +kernel, by decide +kernel, by decide +kernel, ok_of (by decide +kernel), by decide +kernel⟩,
   ⟨(inPart (blk 0 1) (runs inv0 ({ x := [(1, 0#64), (2, 1048576#64), (3, 163840#64)], h := [(0, h7)] }) 116 { d := 3, a := 1, b := 2 })), t0, { d := 3, a := 1, b := 2 }, inv0, h7, .ldm 0x28000, .ok, issues_of (by decide), by decide +kernel, by decide +kernel, by decide +kernel, by decide +kernel, by decide +kernel, ok_of (by decide +kernel), by decide +kernel⟩,
   ⟨(inPart (blk 2 0) (runs inv0 ({ x := [(1, 0#64), (2, 1048576#64), (3, 163840#64)], h := [(0, h7)] }) 116 { d := 3, a := 1, b := 2 })), t0, { d := 3, a := 1, b := 2 }, inv0, h7, .ldm 0x28000, .ok, issues_of (by decide), by decide +kernel, by decide +kernel, by decide +kernel, by decide +kernel, by decide +kernel, ok_of (by decide +kernel), by decide +kernel⟩,
   ⟨(inPart (blk 0 0) (runs inv0 ({ x := [(1, 0#64), (2, 1130496#64), (3, 163840#64)], h := [(0, h7)] }) 116 { d := 3, a := 1, b := 2 })), t0, { d := 3, a := 1, b := 2 }, inv0, h7, .ldm 0x28000, .ok, issues_of (by decide), by decide +kernel, by decide +kernel, by decide +kernel, by decide +kernel, by decide +kernel, ok_of (by decide +kernel), by decide +kernel⟩,
   ⟨(inPart (blk 1 0) (runs inv0 ({ x := [(1, 0#64), (2, 1114113#64), (3, 163840#64)], h := [(0, h7)] }) 116 { d := 3, a := 1, b := 2 })), t0, { d := 3, a := 1, b := 2 }, inv0, h7, .ldm 0x28000, .ok, issues_of (by decide), by decide +kernel, by decide +kernel, by decide +kernel, by decide +kernel, by decide +kernel, ok_of (by decide +kernel), by decide +kernel⟩,
   ⟨(inPart (blk 0 0) (runs inv0 ({ x := [(1, 5#64), (2, 256#64), (4, 163840#64)], h := [(0, h7)] }) 117 { a := 1, b := 2, c := 4 })), t0, { a := 1, b := 2, c := 4 }, inv0, h7, .ldm 0x28000, .desc, (State.pageFault (inPart (blk 0 0) (runs inv0 ({ x := [(1, 5#64), (2, 256#64), (4, 163840#64)], h := [(0, h7)] }) 117 { a := 1, b := 2, c := 4 })) 7 0 .desc), issues_of (by decide), by decide, by decide, by decide, ok_of (by decide), by decide, by decide +kernel, rfl⟩,
   ⟨(inPart (blk 0 0) (runs inv0 ({ x := [(1, 5#64), (2, 256#64), (4, 163840#64)], h := [(0, h7)] }) 117 { a := 1, b := 2, c := 4 })), t0, { a := 1, b := 2, c := 4 }, inv0, h7, .ldm 0x28000, .ok, 7, issues_of (by decide), by decide, by decide, by decide, ok_of (by decide), by decide, by decide +kernel, by decide +kernel, ok_of (by decide +kernel)⟩,
   ⟨(inPart (blk 0 0) (runs inv0 ({ x := [(1, 5#64), (2, 261#64), (4, 163840#64)], h := [(0, h7)] }) 117 { a := 1, b := 2, c := 4 })), t0, { a := 1, b := 2, c := 4 }, inv0, h7, .ldm 0x28000, .ok, .formatInvalid, issues_of (by decide), by decide, by decide, by decide, ok_of (by decide), by decide, by decide +kernel, by decide +kernel, error_of (by decide +kernel)⟩⟩

theorem test_witness_AttentionTilesFollowTheirInstruction :
    (∃ (s : Machine.State) (t : Site) (w : GWord) (v : MInv) (h : Nat) (l : Loc) (o : OpWord) (chk : PageCheck),
      Issues s t 128 w { d := Use.t, a := Use.x, b := Use.x, c := Use.x, f := 31, tag := true } v ∧ opWord (BitVec.toNat ((s.ctxAt t).rx w.c)) = some o ∧ (s.ctxAt t).slot o.slot = some h ∧ (s.ctxAt t).tileBusy w.d = false ∧ v.cls ≠ InvClass.control ∧ s.gateOpen v [dieOf (t.core / 8)] (estTicks (64 * (s.model (s.getSess (hId h)).part (s.getSess (hId h)).model).kvheads * (s.model (s.getSess (hId h)).part (s.getSess (hId h)).model).rowBytes) (tierRate (s.locate ((s.getSess (hId h)).desc (BitVec.toNat ((s.ctxAt t).rx w.b)))).tier)) = true ∧ s.walkFault (hId h) (BitVec.toNat ((s.ctxAt t).rx w.b)) chk = none ∧ s.spaceLoc v (bitAt w.f 4) ((s.ctxAt t).rx w.a) ((o.rows * (s.model (s.getSess (hId h)).part (s.getSess (hId h)).model).headDim * if o.qfmt = 0 then 2 else 1) + if o.qfmt = 0 then 0 else 4 * o.rows) 1 true = Except.ok l ∧ (s.getSess (hId h)).st.resides = false) ∧
    (∃ (s : Machine.State) (t : Site) (w : GWord) (v : MInv) (h : Nat) (l : Loc) (o : OpWord) (chk : PageCheck),
      Issues s t 128 w { d := Use.t, a := Use.x, b := Use.x, c := Use.x, f := 31, tag := true } v ∧ opWord (BitVec.toNat ((s.ctxAt t).rx w.c)) = some o ∧ (s.ctxAt t).slot o.slot = some h ∧ (s.ctxAt t).tileBusy w.d = false ∧ v.cls ≠ InvClass.control ∧ s.gateOpen v [dieOf (t.core / 8)] (estTicks (64 * (s.model (s.getSess (hId h)).part (s.getSess (hId h)).model).kvheads * (s.model (s.getSess (hId h)).part (s.getSess (hId h)).model).rowBytes) (tierRate (s.locate ((s.getSess (hId h)).desc (BitVec.toNat ((s.ctxAt t).rx w.b)))).tier)) = true ∧ s.walkFault (hId h) (BitVec.toNat ((s.ctxAt t).rx w.b)) chk = none ∧ s.spaceLoc v (bitAt w.f 4) ((s.ctxAt t).rx w.a) ((o.rows * (s.model (s.getSess (hId h)).part (s.getSess (hId h)).model).headDim * if o.qfmt = 0 then 2 else 1) + if o.qfmt = 0 then 0 else 4 * o.rows) 1 true = Except.ok l ∧ (s.getSess (hId h)).st.resides = true ∧ (s.locate ((s.getSess (hId h)).desc (BitVec.toNat ((s.ctxAt t).rx w.b)))).valid = false) ∧
    (∃ (s : Machine.State) (t : Site) (w : GWord) (v : MInv) (h : Nat) (l : Loc) (o : OpWord) (chk : PageCheck),
      Issues s t 128 w { d := Use.t, a := Use.x, b := Use.x, c := Use.x, f := 31, tag := true } v ∧ opWord (BitVec.toNat ((s.ctxAt t).rx w.c)) = some o ∧ (s.ctxAt t).slot o.slot = some h ∧ (s.ctxAt t).tileBusy w.d = false ∧ v.cls ≠ InvClass.control ∧ s.gateOpen v [dieOf (t.core / 8)] (estTicks (64 * (s.model (s.getSess (hId h)).part (s.getSess (hId h)).model).kvheads * (s.model (s.getSess (hId h)).part (s.getSess (hId h)).model).rowBytes) (tierRate (s.locate ((s.getSess (hId h)).desc (BitVec.toNat ((s.ctxAt t).rx w.b)))).tier)) = true ∧ s.walkFault (hId h) (BitVec.toNat ((s.ctxAt t).rx w.b)) chk = none ∧ s.spaceLoc v (bitAt w.f 4) ((s.ctxAt t).rx w.a) ((o.rows * (s.model (s.getSess (hId h)).part (s.getSess (hId h)).model).headDim * if o.qfmt = 0 then 2 else 1) + if o.qfmt = 0 then 0 else 4 * o.rows) 1 true = Except.ok l ∧ (s.getSess (hId h)).st.resides = true ∧ (s.locate ((s.getSess (hId h)).desc (BitVec.toNat ((s.ctxAt t).rx w.b)))).valid = true ∧ (s.locate ((s.getSess (hId h)).desc (BitVec.toNat ((s.ctxAt t).rx w.b)))).cluster ≠ t.core / 8) ∧
    (∃ (s : Machine.State) (t : Site) (w : GWord) (v : MInv) (h : Nat) (l : Loc) (o : OpWord) (chk : PageCheck),
      Issues s t 128 w { d := Use.t, a := Use.x, b := Use.x, c := Use.x, f := 31, tag := true } v ∧ opWord (BitVec.toNat ((s.ctxAt t).rx w.c)) = some o ∧ (s.ctxAt t).slot o.slot = some h ∧ (s.ctxAt t).tileBusy w.d = false ∧ v.cls ≠ InvClass.control ∧ s.gateOpen v [dieOf (t.core / 8)] (estTicks (64 * (s.model (s.getSess (hId h)).part (s.getSess (hId h)).model).kvheads * (s.model (s.getSess (hId h)).part (s.getSess (hId h)).model).rowBytes) (tierRate (s.locate ((s.getSess (hId h)).desc (BitVec.toNat ((s.ctxAt t).rx w.b)))).tier)) = true ∧ s.walkFault (hId h) (BitVec.toNat ((s.ctxAt t).rx w.b)) chk = none ∧ s.spaceLoc v (bitAt w.f 4) ((s.ctxAt t).rx w.a) ((o.rows * (s.model (s.getSess (hId h)).part (s.getSess (hId h)).model).headDim * if o.qfmt = 0 then 2 else 1) + if o.qfmt = 0 then 0 else 4 * o.rows) 1 true = Except.ok l ∧ (s.getSess (hId h)).st.resides = true ∧ (s.locate ((s.getSess (hId h)).desc (BitVec.toNat ((s.ctxAt t).rx w.b)))).valid = true ∧ (s.locate ((s.getSess (hId h)).desc (BitVec.toNat ((s.ctxAt t).rx w.b)))).cluster = t.core / 8 ∧ 2 ≤ (s.locate ((s.getSess (hId h)).desc (BitVec.toNat ((s.ctxAt t).rx w.b)))).tier) ∧
    (∃ (s : Machine.State) (t : Site) (w : GWord) (v : MInv) (h : Nat) (l : Loc) (o : OpWord) (chk : PageCheck),
      Issues s t 128 w { d := Use.t, a := Use.x, b := Use.x, c := Use.x, f := 31, tag := true } v ∧ opWord (BitVec.toNat ((s.ctxAt t).rx w.c)) = some o ∧ (s.ctxAt t).slot o.slot = some h ∧ (s.ctxAt t).tileBusy w.d = false ∧ v.cls ≠ InvClass.control ∧ s.gateOpen v [dieOf (t.core / 8)] (estTicks (64 * (s.model (s.getSess (hId h)).part (s.getSess (hId h)).model).kvheads * (s.model (s.getSess (hId h)).part (s.getSess (hId h)).model).rowBytes) (tierRate (s.locate ((s.getSess (hId h)).desc (BitVec.toNat ((s.ctxAt t).rx w.b)))).tier)) = true ∧ s.walkFault (hId h) (BitVec.toNat ((s.ctxAt t).rx w.b)) chk = none ∧ s.spaceLoc v (bitAt w.f 4) ((s.ctxAt t).rx w.a) ((o.rows * (s.model (s.getSess (hId h)).part (s.getSess (hId h)).model).headDim * if o.qfmt = 0 then 2 else 1) + if o.qfmt = 0 then 0 else 4 * o.rows) 1 true = Except.ok l ∧ (s.getSess (hId h)).st.resides = true ∧ (s.locate ((s.getSess (hId h)).desc (BitVec.toNat ((s.ctxAt t).rx w.b)))).valid = true ∧ (s.locate ((s.getSess (hId h)).desc (BitVec.toNat ((s.ctxAt t).rx w.b)))).cluster = t.core / 8 ∧ (s.locate ((s.getSess (hId h)).desc (BitVec.toNat ((s.ctxAt t).rx w.b)))).tier < 2) ∧
    (∃ (s : Machine.State) (t : Site) (w : GWord) (v : MInv),
      Issues s t 129 w { d := Use.t, a := Use.v, b := Use.v, c := Use.v } v ∧ (s.ctxAt t).tileBusy w.d = false ∧ w.a ≠ w.b ∧ w.b ≠ w.c ∧ w.a ≠ w.c) ∧
    (∃ (s : Machine.State) (t : Site) (w : GWord) (v : MInv) (h : Nat) (l : Loc) (o : OpWord) (chk : PageCheck),
      Issues s t 130 w { d := Use.t, a := Use.x, b := Use.x, c := Use.x, f := 31, i := 31, tag := true } v ∧ opWord (BitVec.toNat ((s.ctxAt t).rx w.c)) = some o ∧ (s.ctxAt t).slot o.slot = some h ∧ (s.ctxAt t).tileBusy w.d = false ∧ v.cls ≠ InvClass.control ∧ s.gateOpen v [dieOf (t.core / 8)] (estTicks (64 * (s.model (s.getSess (hId h)).part (s.getSess (hId h)).model).kvheads * (s.model (s.getSess (hId h)).part (s.getSess (hId h)).model).rowBytes) (tierRate (s.locate ((s.getSess (hId h)).desc (BitVec.toNat ((s.ctxAt t).rx w.b)))).tier)) = true ∧ s.walkFault (hId h) (BitVec.toNat ((s.ctxAt t).rx w.b)) chk = none ∧ s.storeLoc v (bitAt w.f 4) ((s.ctxAt t).rx w.a) (4 * o.rows * (s.model (s.getSess (hId h)).part (s.getSess (hId h)).model).headDim) = Except.ok l) ∧
    (∃ (s : Machine.State) (t : Site) (w : GWord) (v : MInv),
      Issues s t 135 w { d := Use.t } v ∧ (s.ctxAt t).tileBusy w.d = false) ∧
    (∃ (s : Machine.State) (t : Site) (w : GWord) (v : MInv) (a : Nat),
      Issues s t 136 w { d := Use.t, a := Use.x } v ∧ (s.ctxAt t).tileBusy w.d = false ∧ s.ldmLoc v ((s.ctxAt t).rx w.a) 16384 1 = Except.ok (Loc.ldm a)) ∧
    (∃ (s : Machine.State) (t : Site) (w : GWord) (v : MInv) (a : Nat),
      t.ctx < 4 ∧ Issues s t 137 w { d := Use.t, a := Use.x } v ∧ (s.ctxAt t).tileBusy w.d = false ∧ s.ldmLoc v ((s.ctxAt t).rx w.a) 16384 1 = Except.ok (Loc.ldm a)) ∧
    (∃ (s : Machine.State) (t : Site) (w : GWord) (v : MInv),
      Issues s t 129 w { d := Use.t, a := Use.v, b := Use.v, c := Use.v } v ∧ (s.ctxAt t).tileBusy w.d = true) ∧
    (∃ (s : Machine.State) (t : Site) (w : GWord) (v : MInv),
      Issues s t 135 w { d := Use.t } v ∧ (s.ctxAt t).tileBusy w.d = true) ∧
    (∃ (s : Machine.State) (t : Site) (w : GWord) (v : MInv),
      Issues s t 136 w { d := Use.t, a := Use.x } v ∧ (s.ctxAt t).tileBusy w.d = true) ∧
    (∃ (s : Machine.State) (t : Site) (w : GWord) (v : MInv),
      Issues s t 137 w { d := Use.t, a := Use.x } v ∧ (s.ctxAt t).tileBusy w.d = true) :=
  ⟨⟨(away <| inPart (blk 0 0) (runs inv0 ({ x := [(1, 163840#64), (2, 0#64), (4, 1024#64)], h := [(0, h7)] }) 128 { d := 1, a := 1, b := 2, c := 4 })), t0, { d := 1, a := 1, b := 2, c := 4 }, inv0, h7, .ldm 0x28000, { slot := 0, layer := 0, rows := 1, row0 := 0, qpos := 0, qfmt := 0 }, .ok, issues_of (by decide), by decide +kernel, by decide +kernel, by decide +kernel, by decide +kernel, by decide +kernel, by decide +kernel, ok_of (by decide +kernel), by decide +kernel⟩,
   ⟨(inPart (blk 0 0) (runs inv0 ({ x := [(1, 163840#64), (2, 9#64), (4, 1024#64)], h := [(0, h7)] }) 128 { d := 1, a := 1, b := 2, c := 4 })), t0, { d := 1, a := 1, b := 2, c := 4 }, inv0, h7, .ldm 0x28000, { slot := 0, layer := 0, rows := 1, row0 := 0, qpos := 0, qfmt := 0 }, .ok, issues_of (by decide), by decide +kernel, by decide +kernel, by decide +kernel, by decide +kernel, by decide +kernel, by decide +kernel, ok_of (by decide +kernel), by decide +kernel⟩,
   ⟨(inPart (blk 0 1) (runs inv0 ({ x := [(1, 163840#64), (2, 0#64), (4, 1024#64)], h := [(0, h7)] }) 128 { d := 1, a := 1, b := 2, c := 4 })), t0, { d := 1, a := 1, b := 2, c := 4 }, inv0, h7, .ldm 0x28000, { slot := 0, layer := 0, rows := 1, row0 := 0, qpos := 0, qfmt := 0 }, .ok, issues_of (by decide), by decide +kernel, by decide +kernel, by decide +kernel, by decide +kernel, by decide +kernel, by decide +kernel, ok_of (by decide +kernel), by decide +kernel⟩,
   ⟨(inPart (blk 2 0) (runs inv0 ({ x := [(1, 163840#64), (2, 0#64), (4, 1024#64)], h := [(0, h7)] }) 128 { d := 1, a := 1, b := 2, c := 4 })), t0, { d := 1, a := 1, b := 2, c := 4 }, inv0, h7, .ldm 0x28000, { slot := 0, layer := 0, rows := 1, row0 := 0, qpos := 0, qfmt := 0 }, .ok, issues_of (by decide), by decide +kernel, by decide +kernel, by decide +kernel, by decide +kernel, by decide +kernel, by decide +kernel, ok_of (by decide +kernel), by decide +kernel⟩,
   ⟨(inPart (blk 0 0) (runs inv0 ({ x := [(1, 163840#64), (2, 0#64), (4, 1028#64)], h := [(0, h7)] }) 128 { d := 1, a := 1, b := 2, c := 4 })), t0, { d := 1, a := 1, b := 2, c := 4 }, inv0, h7, .ldm 0x28000, { slot := 0, layer := 1, rows := 1, row0 := 0, qpos := 0, qfmt := 0 }, .ok, issues_of (by decide), by decide +kernel, by decide +kernel, by decide +kernel, by decide +kernel, by decide +kernel, by decide +kernel, ok_of (by decide +kernel), by decide +kernel⟩,
   ⟨(runs inv0 {} 129 { d := 1, a := 1, b := 2, c := 3 }), t0, { d := 1, a := 1, b := 2, c := 3 }, inv0, issues_of (by decide), by decide +kernel⟩,
   ⟨(inPart (blk 0 0) (runs inv0 ({ x := [(1, 163840#64), (2, 0#64), (4, 1024#64)], h := [(0, h7)] }) 130 { d := 1, a := 1, b := 2, c := 4 })), t0, { d := 1, a := 1, b := 2, c := 4 }, inv0, h7, .ldm 0x28000, { slot := 0, layer := 0, rows := 1, row0 := 0, qpos := 0, qfmt := 0 }, .ok, issues_of (by decide), by decide +kernel, by decide +kernel, by decide +kernel, by decide +kernel, by decide +kernel, by decide +kernel, ok_of (by decide +kernel)⟩,
   ⟨(runs inv0 {} 135 { d := 1 }), t0, { d := 1 }, inv0, issues_of (by decide), by decide +kernel⟩,
   ⟨(runs inv0 (cx [(1, 0x28000)]) 136 { d := 1, a := 1 }), t0, { d := 1, a := 1 }, inv0, 0x28000, issues_of (by decide), by decide +kernel, ok_of (by decide +kernel)⟩,
   ⟨(runs inv0 (cx [(1, 0x28000)]) 137 { d := 1, a := 1 }), t0, { d := 1, a := 1 }, inv0, 0x28000, by decide +kernel, issues_of (by decide), by decide +kernel, ok_of (by decide +kernel)⟩,
   ⟨(runs inv0 ({ ops := [{ tag := 1, value := 0, engine := 1, tile := some 1 }], x := [(1, 0x28000#64)] }) 129 { d := 1, a := 1, b := 2, c := 3 }), t0, { d := 1, a := 1, b := 2, c := 3 }, inv0, issues_of (by decide), by decide +kernel⟩,
   ⟨(runs inv0 ({ ops := [{ tag := 1, value := 0, engine := 1, tile := some 1 }], x := [(1, 0x28000#64)] }) 135 { d := 1 }), t0, { d := 1 }, inv0, issues_of (by decide), by decide +kernel⟩,
   ⟨(runs inv0 ({ ops := [{ tag := 1, value := 0, engine := 1, tile := some 1 }], x := [(1, 0x28000#64)] }) 136 { d := 1, a := 1 }), t0, { d := 1, a := 1 }, inv0, issues_of (by decide), by decide +kernel⟩,
   ⟨(runs inv0 ({ ops := [{ tag := 1, value := 0, engine := 1, tile := some 1 }], x := [(1, 0x28000#64)] }) 137 { d := 1, a := 1 }), t0, { d := 1, a := 1 }, inv0, issues_of (by decide), by decide +kernel⟩⟩

theorem test_witness_PartialsMergeAndReturn :
    (∃ (s : Machine.State) (t : Site) (w : GWord) (v : MInv) (rows : Nat) (hd : Nat) (ac : Bool) (bc : Bool) (la : Loc) (lb : Loc),
      Issues s t 131 w { a := Use.x, b := Use.x, c := Use.x } v ∧ mergeWord (BitVec.toNat ((s.ctxAt t).rx w.c)) = some (rows, hd, ac, bc) ∧ s.spaceLoc v ac ((s.ctxAt t).rx w.a) (recLen rows hd) 1 true = Except.ok la ∧ s.spaceLoc v bc ((s.ctxAt t).rx w.b) (recLen rows hd) 1 true = Except.ok lb) ∧
    (∃ (s : Machine.State) (t : Site) (w : GWord) (v : MInv) (rows : Nat) (hd : Nat) (ac : Bool) (bc : Bool) (la : Loc) (lb : Loc),
      Issues s t 132 w { a := Use.x, b := Use.x, c := Use.x } v ∧ mergeWord (BitVec.toNat ((s.ctxAt t).rx w.c)) = some (rows, hd, ac, bc) ∧ s.spaceLoc v ac ((s.ctxAt t).rx w.a) (recLen rows hd) 1 true = Except.ok la ∧ s.storeLoc v bc ((s.ctxAt t).rx w.b) (2 * rows * hd + (256 * ((BitVec.toNat ((s.ctxAt t).rx w.b) + 2 * rows * hd + 255) / 256) - (BitVec.toNat ((s.ctxAt t).rx w.b) + 2 * rows * hd)) + 4 * rows) = Except.ok lb) ∧
    (∃ (s : Machine.State) (t : Site) (w : GWord) (v : MInv) (rows : Nat) (hd : Nat) (ac : Bool) (bc : Bool) (l : Loc) (r : QReq),
      Issues s t 133 w { d := Use.x, a := Use.x, b := Use.x, c := Use.x, f := 15, tag := true } v ∧ mergeWord (BitVec.toNat ((s.ctxAt t).rx w.c)) = some (rows, hd, ac, bc) ∧ (v.event = 1 ∨ v.event = 2) ∧ v.req = BitVec.toNat ((s.ctxAt t).rx w.b) ∧ v.cover ≠ 0 ∧ (ac = true ∨ BitVec.toNat ((s.ctxAt t).rx w.a) / 2 ^ 63 ≠ 0) ∧ s.req? v.req = some r ∧ s.cwsLoc v ((s.ctxAt t).rx w.a) (recLen rows hd) 1 true = Except.ok l) ∧
    (∃ (s : Machine.State) (t : Site) (w : GWord) (v : MInv),
      Issues s t 133 w { d := Use.x, a := Use.x, b := Use.x, c := Use.x, f := 15, tag := true } v ∧ (v.event ≠ 1 ∧ v.event ≠ 2 ∨ v.req ≠ BitVec.toNat ((s.ctxAt t).rx w.b))) ∧
    (∃ (s : Machine.State) (t : Site) (w : GWord) (v : MInv) (r : QReq),
      Issues s t 134 w { a := Use.x, b := Use.x, c := Use.x } v ∧ s.req? v.req = some r ∧ v.granted = true ∧ v.answered = false ∧ v.req = BitVec.toNat ((s.ctxAt t).rx w.b) ∧ BitVec.toNat ((s.ctxAt t).rx w.c) % 256 ≠ 0) ∧
    (∃ (s : Machine.State) (t : Site) (w : GWord) (v : MInv) (r : QReq) (l : Loc),
      Issues s t 134 w { a := Use.x, b := Use.x, c := Use.x } v ∧ s.req? v.req = some r ∧ v.granted = true ∧ v.answered = false ∧ v.req = BitVec.toNat ((s.ctxAt t).rx w.b) ∧ BitVec.toNat ((s.ctxAt t).rx w.c) % 256 = 0 ∧ s.cwsLoc v ((s.ctxAt t).rx w.a) (2 * (groupRows r v.row * (s.model r.part (s.getSess (hId r.handle)).model).qheads) * (s.model r.part (s.getSess (hId r.handle)).model).headDim + (256 * ((BitVec.toNat ((s.ctxAt t).rx w.a) + 2 * (groupRows r v.row * (s.model r.part (s.getSess (hId r.handle)).model).qheads) * (s.model r.part (s.getSess (hId r.handle)).model).headDim + 255) / 256) - (BitVec.toNat ((s.ctxAt t).rx w.a) + 2 * (groupRows r v.row * (s.model r.part (s.getSess (hId r.handle)).model).qheads) * (s.model r.part (s.getSess (hId r.handle)).model).headDim)) + 4 * (groupRows r v.row * (s.model r.part (s.getSess (hId r.handle)).model).qheads)) 1 true = Except.ok l) ∧
    (∃ (s : Machine.State) (t : Site) (w : GWord) (v : MInv),
      Issues s t 134 w { a := Use.x, b := Use.x, c := Use.x } v ∧ (v.granted = false ∨ v.answered = true)) :=
  ⟨⟨(runs inv0 (cx [(1, 0x28000), (2, 0x2A000), (4, 524289)]) 131 { a := 1, b := 2, c := 4 }), t0, { a := 1, b := 2, c := 4 }, inv0, 1, 32, false, false, .ldm 0x28000, .ldm 0x2A000, issues_of (by decide), by decide +kernel, ok_of (by decide +kernel), ok_of (by decide +kernel)⟩,
   ⟨(runs inv0 (cx [(1, 0x28000), (2, 0x2A000), (4, 524289)]) 132 { a := 1, b := 2, c := 4 }), t0, { a := 1, b := 2, c := 4 }, inv0, 1, 32, false, false, .ldm 0x28000, .ldm 0x2A000, issues_of (by decide), by decide +kernel, ok_of (by decide +kernel), ok_of (by decide +kernel)⟩,
   ⟨(inReq (runs { inv0 with event := 1, req := 9, granted := true } (cx [(1, 0), (2, 9), (4, 8912897)]) 133 { d := 3, a := 1, b := 2, c := 4 })), t0, { d := 3, a := 1, b := 2, c := 4 }, { inv0 with event := 1, req := 9, granted := true }, 1, 32, true, false, .cws 0x500000, req1, issues_of (by decide), by decide +kernel, by decide +kernel, by decide +kernel, by decide +kernel, by decide +kernel, by decide +kernel, ok_of (by decide +kernel)⟩,
   ⟨(runs inv0 (cx [(2, 9)]) 133 { d := 3, a := 1, b := 2, c := 4 }), t0, { d := 3, a := 1, b := 2, c := 4 }, inv0, issues_of (by decide), by decide +kernel⟩,
   ⟨(inReq (runs { inv0 with event := 1, req := 9, granted := true } (cx [(1, 0), (2, 9), (4, 1)]) 134 { a := 1, b := 2, c := 4 })), t0, { a := 1, b := 2, c := 4 }, { inv0 with event := 1, req := 9, granted := true }, req1, issues_of (by decide), by decide +kernel⟩,
   ⟨(inReq (runs { inv0 with event := 1, req := 9, granted := true } (cx [(1, 0), (2, 9), (4, 0)]) 134 { a := 1, b := 2, c := 4 })), t0, { a := 1, b := 2, c := 4 }, { inv0 with event := 1, req := 9, granted := true }, req1, .cws 0x500000, issues_of (by decide), by decide +kernel, by decide +kernel, by decide +kernel, by decide +kernel, by decide +kernel, ok_of (by decide +kernel)⟩,
   ⟨(runs inv0 {} 134 { a := 1, b := 2, c := 4 }), t0, { a := 1, b := 2, c := 4 }, inv0, issues_of (by decide), by decide +kernel⟩⟩

theorem test_witness_SortInstructionsRankEntries :
    (∃ (s : Machine.State) (t : Site) (w : GWord) (v : MInv) (l : Loc),
      Issues s t 145 w { a := Use.x, f := 31, tag := true } v ∧ s.sortLoc v w ((s.ctxAt t).rx w.a) = Except.ok l) ∧
    (∃ (s : Machine.State) (t : Site) (w : GWord) (v : MInv) (la : Loc) (lb : Loc),
      Issues s t 146 w { a := Use.x, b := Use.x, f := 31, tag := true } v ∧ s.sortLoc v w ((s.ctxAt t).rx w.a) = Except.ok la ∧ s.sortLoc v w ((s.ctxAt t).rx w.b) = Except.ok lb) ∧
    (∃ (s : Machine.State) (t : Site) (w : GWord) (v : MInv) (l : Loc),
      Issues s t 147 w { a := Use.x, f := 31, i := 255, tag := true, ok := decide (1 ≤ bits w.i 3 4) && decide (bits w.i 3 4 ≤ 8) } v ∧ s.sortLoc v w ((s.ctxAt t).rx w.a) = Except.ok l) ∧
    (∃ (s : Machine.State) (t : Site) (w : GWord) (v : MInv) (ld : Loc) (la : Loc) (lb : Loc),
      Issues s t 144 w { d := Use.x, a := Use.x, b := Use.x, c := Use.x, f := 31, i := 511, tag := true, ok := decide (1 ≤ w.i) && decide (w.i ≤ 256) } v ∧ BitVec.toNat ((s.ctxAt t).rx w.c) + w.i - 1 ≤ 262143 ∧ s.sortLoc v w ((s.ctxAt t).rx w.d) = Except.ok ld ∧ s.spaceLoc v (bitAt w.f 4) ((s.ctxAt t).rx w.a) (4 * w.i) 1 false = Except.ok la ∧ s.spaceLoc v (bitAt w.f 4) ((s.ctxAt t).rx w.b) ((w.i + 7) / 8) 1 false = Except.ok lb) ∧
    (∃ (s : Machine.State) (t : Site) (w : GWord) (v : MInv) (l : Loc),
      Issues s t 148 w { d := Use.x, a := Use.x, f := 16 } v ∧ s.sortLoc v w ((s.ctxAt t).rx w.a) = Except.ok l) :=
  ⟨⟨(runs inv0 (cx [(1, 0x28000)]) 145 { a := 1 }), t0, { a := 1 }, inv0, .ldm 0x28000, issues_of (by decide), ok_of (by decide +kernel)⟩,
   ⟨(runs inv0 (cx [(1, 0x28000), (2, 0x29000)]) 146 { a := 1, b := 2 }), t0, { a := 1, b := 2 }, inv0, .ldm 0x28000, .ldm 0x29000, issues_of (by decide), ok_of (by decide +kernel), ok_of (by decide +kernel)⟩,
   ⟨(runs inv0 (cx [(1, 0x28000)]) 147 { a := 1, i := 8 }), t0, { a := 1, i := 8 }, inv0, .ldm 0x28000, issues_of (by decide), ok_of (by decide +kernel)⟩,
   ⟨(runs inv0 (cx [(3, 0x28000), (1, 0x29000), (2, 0x2A000), (4, 262136)]) 144 { d := 3, a := 1, b := 2, c := 4, i := 8 }), t0, { d := 3, a := 1, b := 2, c := 4, i := 8 }, inv0, .ldm 0x28000, .ldm 0x29000, .ldm 0x2A000, issues_of (by decide), by decide +kernel, ok_of (by decide +kernel), ok_of (by decide +kernel), ok_of (by decide +kernel)⟩,
   ⟨(runs inv0 (cx [(1, 0x28000)]) 148 { d := 3, a := 1 }), t0, { d := 3, a := 1 }, inv0, .ldm 0x28000, issues_of (by decide), ok_of (by decide +kernel)⟩⟩

theorem test_witness_EmitInstructionsReachTheEmitPath :
    (∃ (s : Machine.State) (t : Site) (w : GWord) (v : MInv) (lp : Loc) (e : EstnBlock),
      Issues s t 160 w { d := Use.x, a := Use.x, b := Use.x, c := Use.x, f := 31, tag := true } v ∧ s.spaceLoc v (bitAt w.f 4) ((s.ctxAt t).rx w.c) 32 1 false = Except.ok lp ∧ estnBlock (s.locRead t.core lp 32) = some e ∧ (s.prof? v.part e.profile = none ∨ e.set ≠ 0 ∧ s.set? v.part e.set = none ∨ (s.model v.part e.model).vocab = 0 ∨ e.count = 0 ∨ 65536 < e.count ∨ 262144 < e.base + e.count)) ∧
    (∃ (s : Machine.State) (t : Site) (w : GWord) (v : MInv) (lp : Loc) (e : EstnBlock) (pr : Profile) (ly : Loc) (ll : Loc) (lm : Loc),
      Issues s t 160 w { d := Use.x, a := Use.x, b := Use.x, c := Use.x, f := 31, tag := true } v ∧ s.spaceLoc v (bitAt w.f 4) ((s.ctxAt t).rx w.c) 32 1 false = Except.ok lp ∧ estnBlock (s.locRead t.core lp 32) = some e ∧ s.prof? v.part e.profile = some pr ∧ (e.set = 0 ∨ (s.set? v.part e.set).isSome = true) ∧ (s.model v.part e.model).vocab ≠ 0 ∧ e.count ≠ 0 ∧ e.count ≤ 65536 ∧ e.base + e.count ≤ 262144 ∧ s.spaceLoc v (bitAt w.f 4) ((s.ctxAt t).rx w.d) (4 * e.count) 1 false = Except.ok ly ∧ s.spaceLoc v (bitAt w.f 4) ((s.ctxAt t).rx w.a) ((if e.fmt = 0 then 2 else 4) * e.count) 1 false = Except.ok ll ∧ s.spaceLoc v (bitAt w.f 4) ((s.ctxAt t).rx w.b) ((e.count + 7) / 8) 1 false = Except.ok lm) ∧
    (∃ (s : Machine.State) (t : Site) (w : GWord) (v : MInv),
      Issues s t 161 w { d := Use.x, a := Use.x, b := Use.x, c := Use.x, f := 1 } v) ∧
    (∃ (s : Machine.State) (t : Site) (w : GWord) (v : MInv),
      Issues s t 162 w { a := Use.x } v ∧ (v.event ≠ 4 ∨ v.ecmt = true)) ∧
    (∃ (s : Machine.State) (t : Site) (w : GWord) (v : MInv) (st : InStep),
      Issues s t 162 w { a := Use.x } v ∧ v.event = 4 ∧ v.ecmt = false ∧ (s.getSess v.sess).step = some st ∧ (st.emit.cands.any fun (e : Nat × W32) => e.fst == BitVec.toNat ((s.ctxAt t).rx w.a)) = true) ∧
    (∃ (s : Machine.State) (t : Site) (w : GWord) (v : MInv) (st : InStep),
      Issues s t 162 w { a := Use.x } v ∧ v.event = 4 ∧ v.ecmt = false ∧ (s.getSess v.sess).step = some st ∧ (st.emit.cands.any fun (e : Nat × W32) => e.fst == BitVec.toNat ((s.ctxAt t).rx w.a)) = false) ∧
    (∃ (s : Machine.State) (t : Site) (w : GWord) (v : MInv),
      Issues s t 163 w { d := Use.x, a := Use.x, b := Use.x, c := Use.x, f := 16 } v ∧ (255 ≤ BitVec.toNat ((s.ctxAt t).rx w.b) ∨ s.tok? v.part (BitVec.toNat ((s.ctxAt t).rx w.b)) = none)) ∧
    (∃ (s : Machine.State) (t : Site) (w : GWord) (v : MInv) (g : TokImg),
      Issues s t 163 w { d := Use.x, a := Use.x, b := Use.x, c := Use.x, f := 16 } v ∧ BitVec.toNat ((s.ctxAt t).rx w.b) < 255 ∧ s.tok? v.part (BitVec.toNat ((s.ctxAt t).rx w.b)) = some g ∧ g.h.vocab ≤ BitVec.toNat ((s.ctxAt t).rx w.a)) ∧
    (∃ (s : Machine.State) (t : Site) (w : GWord) (v : MInv) (g : TokImg),
      Issues s t 163 w { d := Use.x, a := Use.x, b := Use.x, c := Use.x, f := 16 } v ∧ BitVec.toNat ((s.ctxAt t).rx w.b) < 255 ∧ s.tok? v.part (BitVec.toNat ((s.ctxAt t).rx w.b)) = some g ∧ BitVec.toNat ((s.ctxAt t).rx w.a) < g.h.vocab ∧ g.special (BitVec.toNat ((s.ctxAt t).rx w.a)) = true) ∧
    (∃ (s : Machine.State) (t : Site) (w : GWord) (v : MInv) (g : TokImg) (l : Loc),
      Issues s t 163 w { d := Use.x, a := Use.x, b := Use.x, c := Use.x, f := 16 } v ∧ BitVec.toNat ((s.ctxAt t).rx w.b) < 255 ∧ s.tok? v.part (BitVec.toNat ((s.ctxAt t).rx w.b)) = some g ∧ BitVec.toNat ((s.ctxAt t).rx w.a) < g.h.vocab ∧ g.special (BitVec.toNat ((s.ctxAt t).rx w.a)) = false ∧ g.str (BitVec.toNat ((s.ctxAt t).rx w.a)) ≠ [] ∧ s.spaceLoc v (bitAt w.f 4) ((s.ctxAt t).rx w.c) (List.length (g.str (BitVec.toNat ((s.ctxAt t).rx w.a)))) 1 false = Except.ok l) ∧
    (∃ (s : Machine.State) (t : Site) (w : GWord) (v : MInv) (lb : Loc) (ln : Loc),
      Issues s t 164 w { d := Use.x, a := Use.x, b := Use.x, c := Use.x, f := 16, i := 255, ok := decide (w.i ≤ 128) } v ∧ BitVec.toNat ((s.ctxAt t).rx w.b) < 2 ^ 17 ∧ s.spaceLoc v (bitAt w.f 4) ((s.ctxAt t).rx w.a) 256 256 false = Except.ok lb ∧ s.spaceLoc v (bitAt w.f 4) ((s.ctxAt t).rx w.c) w.i 1 false = Except.ok ln ∧ (BitVec.toNat ((s.ctxAt t).rx w.b) % 2 ^ 16 = 0 ∨ tabGet? s.text.stops (v.part * 65536 + BitVec.toNat ((s.ctxAt t).rx w.b) % 2 ^ 16) = none ∨ 63 < byteAt (s.locRead t.core lb 256) 0)) ∧
    (∃ (s : Machine.State) (t : Site) (w : GWord) (v : MInv) (lb : Loc) (ln : Loc) (stops : List Bytes),
      Issues s t 164 w { d := Use.x, a := Use.x, b := Use.x, c := Use.x, f := 16, i := 255, ok := decide (w.i ≤ 128) } v ∧ BitVec.toNat ((s.ctxAt t).rx w.b) < 2 ^ 17 ∧ s.spaceLoc v (bitAt w.f 4) ((s.ctxAt t).rx w.a) 256 256 false = Except.ok lb ∧ s.spaceLoc v (bitAt w.f 4) ((s.ctxAt t).rx w.c) w.i 1 false = Except.ok ln ∧ BitVec.toNat ((s.ctxAt t).rx w.b) % 2 ^ 16 ≠ 0 ∧ tabGet? s.text.stops (v.part * 65536 + BitVec.toNat ((s.ctxAt t).rx w.b) % 2 ^ 16) = some stops ∧ byteAt (s.locRead t.core lb 256) 0 ≤ 63) ∧
    (∃ (s : Machine.State) (t : Site) (w : GWord) (v : MInv),
      Issues s t 165 w { d := Use.x, a := Use.x, b := Use.x, c := Use.x } v ∧ (65536 ≤ BitVec.toNat ((s.ctxAt t).rx w.c) ∨ s.set? v.part (BitVec.toNat ((s.ctxAt t).rx w.c)) = none)) ∧
    (∃ (s : Machine.State) (t : Site) (w : GWord) (v : MInv) (g : StencilSet) (n : Nat),
      Issues s t 165 w { d := Use.x, a := Use.x, b := Use.x, c := Use.x } v ∧ BitVec.toNat ((s.ctxAt t).rx w.c) < 65536 ∧ s.set? v.part (BitVec.toNat ((s.ctxAt t).rx w.c)) = some g ∧ stencilNext g.img (BitVec.toNat ((s.ctxAt t).rx w.a)) (BitVec.toNat ((s.ctxAt t).rx w.b)) = some n) ∧
    (∃ (s : Machine.State) (t : Site) (w : GWord) (v : MInv) (g : StencilSet),
      Issues s t 165 w { d := Use.x, a := Use.x, b := Use.x, c := Use.x } v ∧ BitVec.toNat ((s.ctxAt t).rx w.c) < 65536 ∧ s.set? v.part (BitVec.toNat ((s.ctxAt t).rx w.c)) = some g ∧ stencilNext g.img (BitVec.toNat ((s.ctxAt t).rx w.a)) (BitVec.toNat ((s.ctxAt t).rx w.b)) = none) :=
  ⟨⟨(inEmit (runs inv0 (cx [(1, 0x28000), (2, 0x29000), (3, 0x2A000), (4, 0x2B000)]) 160 { d := 3, a := 1, b := 2, c := 4 })), t0, { d := 3, a := 1, b := 2, c := 4 }, inv0, .ldm 0x2B000, { set := 0, profile := 0, state := 0, model := 0, fmt := 0, base := 0, count := 0 }, issues_of (by decide), ok_of (by decide +kernel), by decide +kernel⟩,
   ⟨(withLdm [(0x2B010, 8#8)] <| inEmit (runs inv0 (cx [(1, 0x28000), (2, 0x29000), (3, 0x2A000), (4, 0x2B000)]) 160 { d := 3, a := 1, b := 2, c := 4 })), t0, { d := 3, a := 1, b := 2, c := 4 }, inv0, .ldm 0x2B000, { set := 0, profile := 0, state := 0, model := 0, fmt := 0, base := 0, count := 8 }, profile0, .ldm 0x2A000, .ldm 0x28000, .ldm 0x29000, issues_of (by decide), ok_of (by decide +kernel), by decide +kernel, by decide +kernel, by decide +kernel, by decide +kernel, by decide +kernel, by decide +kernel, by decide +kernel, ok_of (by decide +kernel), ok_of (by decide +kernel), ok_of (by decide +kernel)⟩,
   ⟨(runs inv0 {} 161 { d := 3, a := 1, b := 2, c := 4 }), t0, { d := 3, a := 1, b := 2, c := 4 }, inv0, issues_of (by decide)⟩,
   ⟨(runs inv0 {} 162 { a := 1 }), t0, { a := 1 }, inv0, issues_of (by decide), by decide +kernel⟩,
   ⟨(inEmit (runs { inv0 with event := 4, sess := 7 } (cx [(1, 17)]) 162 { a := 1 })), t0, { a := 1 }, { inv0 with event := 4, sess := 7 }, emit17, issues_of (by decide), by decide +kernel⟩,
   ⟨(inEmit (runs { inv0 with event := 4, sess := 7 } (cx [(1, 16)]) 162 { a := 1 })), t0, { a := 1 }, { inv0 with event := 4, sess := 7 }, emit17, issues_of (by decide), by decide +kernel⟩,
   ⟨(inEmit (runs inv0 (cx [(2, 255)]) 163 { d := 3, a := 1, b := 2, c := 4 })), t0, { d := 3, a := 1, b := 2, c := 4 }, inv0, issues_of (by decide), by decide +kernel⟩,
   ⟨(inEmit (runs inv0 (cx [(1, 2), (2, 0)]) 163 { d := 3, a := 1, b := 2, c := 4 })), t0, { d := 3, a := 1, b := 2, c := 4 }, inv0, openTok toki, issues_of (by decide), by decide, congrArg (Option.map openTok) (tab_at 0 (by decide)), Nat.le_trans (Nat.le_of_eq toki_vocab) (by decide)⟩,
   ⟨(inEmit (runs inv0 (cx [(1, 1), (2, 0)]) 163 { d := 3, a := 1, b := 2, c := 4 })), t0, { d := 3, a := 1, b := 2, c := 4 }, inv0, openTok toki, issues_of (by decide), by decide, congrArg (Option.map openTok) (tab_at 0 (by decide)), Nat.lt_of_lt_of_eq (by decide) toki_vocab.symm, toki_special.2⟩,
   ⟨(inEmit (runs inv0 (cx [(1, 0), (2, 0), (4, 0x28000)]) 163 { d := 3, a := 1, b := 2, c := 4 })), t0, { d := 3, a := 1, b := 2, c := 4 }, inv0, openTok toki, .ldm 0x28000, issues_of (by decide), by decide, congrArg (Option.map openTok) (tab_at 0 (by decide)), Nat.lt_of_lt_of_eq (by decide) toki_vocab.symm, (toki_at (by decide)).1, (toki_at (by decide)).2.2, toki_loc (by decide) (ok_of (by decide))⟩,
   ⟨(inEmit (runs inv0 (cx [(1, 0x28000), (2, 0), (4, 0x29000)]) 164 { d := 3, a := 1, b := 2, c := 4, i := 1 })), t0, { d := 3, a := 1, b := 2, c := 4, i := 1 }, inv0, .ldm 0x28000, .ldm 0x29000, issues_of (by decide), by decide +kernel, ok_of (by decide +kernel), ok_of (by decide +kernel), by decide +kernel⟩,
   ⟨(inEmit (runs inv0 (cx [(1, 0x28000), (2, 4), (4, 0x29000)]) 164 { d := 3, a := 1, b := 2, c := 4, i := 1 })), t0, { d := 3, a := 1, b := 2, c := 4, i := 1 }, inv0, .ldm 0x28000, .ldm 0x29000, [[66]], issues_of (by decide), by decide +kernel, ok_of (by decide +kernel), ok_of (by decide +kernel), by decide +kernel⟩,
   ⟨(inEmit (runs inv0 (cx [(4, 65536)]) 165 { d := 3, a := 1, b := 2, c := 4 })), t0, { d := 3, a := 1, b := 2, c := 4 }, inv0, issues_of (by decide), by decide +kernel⟩,
   ⟨(inEmit (runs inv0 (cx [(4, 5), (1, 0), (2, 0)]) 165 { d := 3, a := 1, b := 2, c := 4 })), t0, { d := 3, a := 1, b := 2, c := 4 }, inv0, stenSet, 1, issues_of (by decide), by decide, tab_at 5 (by decide), sten_next_at (by decide) (by decide)⟩,
   ⟨(noSten (inEmit (runs inv0 (cx [(4, 5), (1, 1), (2, 0)]) 165 { d := 3, a := 1, b := 2, c := 4 }))), t0, { d := 3, a := 1, b := 2, c := 4 }, inv0, { img := [], pages := 0 }, issues_of (by decide), by decide, by decide, by decide⟩⟩

theorem test_witness_SearchAndHostDma :
    (∃ (s : Machine.State) (t : Site) (w : GWord) (v : MInv) (la : Loc) (lb : Loc) (k : DirKey),
      Issues s t 176 w { a := Use.x, b := Use.x, f := 15, tag := true } v ∧ s.ldmLoc v ((s.ctxAt t).rx w.a) 32 1 = Except.ok la ∧ s.ldmLoc v ((s.ctxAt t).rx w.b) 16 1 = Except.ok lb ∧ dirKey (s.locRead t.core la 32) = some k ∧ (k.domain = 0 ∨ s.domBound v.part k.domain = false)) ∧
    (∃ (s : Machine.State) (t : Site) (w : GWord) (v : MInv) (la : Loc) (lb : Loc) (k : DirKey),
      Issues s t 176 w { a := Use.x, b := Use.x, f := 15, tag := true } v ∧ s.ldmLoc v ((s.ctxAt t).rx w.a) 32 1 = Except.ok la ∧ s.ldmLoc v ((s.ctxAt t).rx w.b) 16 1 = Except.ok lb ∧ dirKey (s.locRead t.core la 32) = some k ∧ k.domain ≠ 0 ∧ s.domBound v.part k.domain = true ∧ bitAt k.select 3 = false ∧ (s.getPart v.part).rows ≤ k.row) ∧
    (∃ (s : Machine.State) (t : Site) (w : GWord) (v : MInv) (la : Loc) (lb : Loc) (k : DirKey),
      Issues s t 176 w { a := Use.x, b := Use.x, f := 15, tag := true } v ∧ s.ldmLoc v ((s.ctxAt t).rx w.a) 32 1 = Except.ok la ∧ s.ldmLoc v ((s.ctxAt t).rx w.b) 16 1 = Except.ok lb ∧ dirKey (s.locRead t.core la 32) = some k ∧ k.domain ≠ 0 ∧ s.domBound v.part k.domain = true ∧ (bitAt k.select 3 = true ∨ k.row < (s.getPart v.part).rows)) ∧
    (∃ (s : Machine.State) (t : Site) (w : GWord) (v : MInv) (addr : Nat) (n : Nat) (qk : Nat),
      Issues s t 177 w { a := Use.x, b := Use.x, c := Use.x, f := 31, tag := true } v ∧ v.cls ≠ InvClass.control ∧ s.callBuf v = some (addr, n, qk) ∧ n < BitVec.toNat ((s.ctxAt t).rx w.b) + BitVec.toNat ((s.ctxAt t).rx w.c)) ∧
    (∃ (s : Machine.State) (t : Site) (w : GWord) (v : MInv) (l : Loc) (addr : Nat) (n : Nat) (qk : Nat) (data : Bytes),
      Issues s t 177 w { a := Use.x, b := Use.x, c := Use.x, f := 31, tag := true } v ∧ v.cls ≠ InvClass.control ∧ s.callBuf v = some (addr, n, qk) ∧ BitVec.toNat ((s.ctxAt t).rx w.b) + BitVec.toNat ((s.ctxAt t).rx w.c) ≤ n ∧ s.spaceLoc v (bitAt w.f 4) ((s.ctxAt t).rx w.a) (BitVec.toNat ((s.ctxAt t).rx w.c)) 1 false = Except.ok l ∧ s.gateOpen v [dieOf (t.core / 8)] (estTicks (BitVec.toNat ((s.ctxAt t).rx w.c)) 6000) = true ∧ List.length data = BitVec.toNat ((s.ctxAt t).rx w.c)) ∧
    (∃ (s : Machine.State) (t : Site) (w : GWord) (v : MInv) (addr : Nat) (n : Nat) (qk : Nat),
      Issues s t 178 w { a := Use.x, b := Use.x, c := Use.x, f := 31, tag := true } v ∧ v.cls ≠ InvClass.control ∧ s.callBuf v = some (addr, n, qk) ∧ n < BitVec.toNat ((s.ctxAt t).rx w.b) + BitVec.toNat ((s.ctxAt t).rx w.c)) ∧
    (∃ (s : Machine.State) (t : Site) (w : GWord) (v : MInv) (l : Loc) (addr : Nat) (n : Nat) (qk : Nat),
      Issues s t 178 w { a := Use.x, b := Use.x, c := Use.x, f := 31, tag := true } v ∧ v.cls ≠ InvClass.control ∧ s.callBuf v = some (addr, n, qk) ∧ BitVec.toNat ((s.ctxAt t).rx w.b) + BitVec.toNat ((s.ctxAt t).rx w.c) ≤ n ∧ s.spaceLoc v (bitAt w.f 4) ((s.ctxAt t).rx w.a) (BitVec.toNat ((s.ctxAt t).rx w.c)) 1 false = Except.ok l ∧ s.gateOpen v [dieOf (t.core / 8)] (estTicks (BitVec.toNat ((s.ctxAt t).rx w.c)) 6000) = true) ∧
    (∃ (s : Machine.State) (t : Site) (w : GWord) (v : MInv),
      Issues s t 177 w { a := Use.x, b := Use.x, c := Use.x, f := 31, tag := true } v ∧ v.cls = InvClass.control) ∧
    (∃ (s : Machine.State) (t : Site) (w : GWord) (v : MInv),
      Issues s t 177 w { a := Use.x, b := Use.x, c := Use.x, f := 31, tag := true } v ∧ v.cls ≠ InvClass.control ∧ v.event ≠ 0) ∧
    (∃ (s : Machine.State) (t : Site) (w : GWord) (v : MInv),
      Issues s t 178 w { a := Use.x, b := Use.x, c := Use.x, f := 31, tag := true } v ∧ v.cls = InvClass.control) ∧
    (∃ (s : Machine.State) (t : Site) (w : GWord) (v : MInv),
      Issues s t 178 w { a := Use.x, b := Use.x, c := Use.x, f := 31, tag := true } v ∧ v.cls ≠ InvClass.control ∧ v.event ≠ 0) :=
  ⟨⟨(inPart (blk 0 0) (runs inv0 (cx [(1, 0x28000), (2, 0x29000)]) 176 { a := 1, b := 2 })), t0, { a := 1, b := 2 }, inv0, .ldm 0x28000, .ldm 0x29000, { domain := 0, model := 0, select := 0, parent := 0, row := 0, chain := 0 }, issues_of (by decide), ok_of (by decide +kernel), ok_of (by decide +kernel), by decide +kernel⟩,
   ⟨(withLdm [(0x28000, 3#8), (0x28008, 10#8)] <| inPart (blk 0 0) (runs inv0 (cx [(1, 0x28000), (2, 0x29000)]) 176 { a := 1, b := 2 })), t0, { a := 1, b := 2 }, inv0, .ldm 0x28000, .ldm 0x29000, { domain := 3, model := 0, select := 0, parent := 0, row := 10, chain := 0 }, issues_of (by decide), ok_of (by decide +kernel), ok_of (by decide +kernel), by decide +kernel⟩,
   ⟨(withLdm [(0x28000, 3#8), (0x28008, 9#8)] <| inPart (blk 0 0) (runs inv0 (cx [(1, 0x28000), (2, 0x29000)]) 176 { a := 1, b := 2 })), t0, { a := 1, b := 2 }, inv0, .ldm 0x28000, .ldm 0x29000, { domain := 3, model := 0, select := 0, parent := 0, row := 9, chain := 0 }, issues_of (by decide), ok_of (by decide +kernel), ok_of (by decide +kernel), by decide +kernel⟩,
   ⟨(inCall (runs { inv0 with call := 5 } (cx [(2, 60), (4, 5)]) 177 { a := 1, b := 2, c := 4 })), t0, { a := 1, b := 2, c := 4 }, { inv0 with call := 5 }, 0x1000, 64, 0, issues_of (by decide), by decide +kernel⟩,
   ⟨(inCall (runs { inv0 with call := 5 } (cx [(1, 0x28000), (2, 60), (4, 4)]) 177 { a := 1, b := 2, c := 4 })), t0, { a := 1, b := 2, c := 4 }, { inv0 with call := 5 }, .ldm 0x28000, 0x1000, 64, 0, [1, 2, 3, 4], issues_of (by decide), by decide +kernel, by decide +kernel, by decide +kernel, ok_of (by decide +kernel), by decide +kernel⟩,
   ⟨(inCall (runs { inv0 with call := 5 } (cx [(2, 60), (4, 5)]) 178 { a := 1, b := 2, c := 4 })), t0, { a := 1, b := 2, c := 4 }, { inv0 with call := 5 }, 0x1000, 64, 0, issues_of (by decide), by decide +kernel⟩,
   ⟨(inCall (runs { inv0 with call := 5 } (cx [(1, 0x28000), (2, 60), (4, 4)]) 178 { a := 1, b := 2, c := 4 })), t0, { a := 1, b := 2, c := 4 }, { inv0 with call := 5 }, .ldm 0x28000, 0x1000, 64, 0, issues_of (by decide), by decide +kernel, by decide +kernel, by decide +kernel, ok_of (by decide +kernel), by decide +kernel⟩,
   ⟨(runs { inv0 with cls := .control } {} 177 { a := 1, b := 2, c := 4 }), t0, { a := 1, b := 2, c := 4 }, { inv0 with cls := .control }, issues_of (by decide), by decide +kernel⟩,
   ⟨(runs { inv0 with event := 1 } {} 177 { a := 1, b := 2, c := 4 }), t0, { a := 1, b := 2, c := 4 }, { inv0 with event := 1 }, issues_of (by decide), by decide +kernel⟩,
   ⟨(runs { inv0 with cls := .control } {} 178 { a := 1, b := 2, c := 4 }), t0, { a := 1, b := 2, c := 4 }, { inv0 with cls := .control }, issues_of (by decide), by decide +kernel⟩,
   ⟨(runs { inv0 with event := 1 } {} 178 { a := 1, b := 2, c := 4 }), t0, { a := 1, b := 2, c := 4 }, { inv0 with event := 1 }, issues_of (by decide), by decide +kernel⟩⟩

theorem test_witness_MessagesAndDoorbells :
    (∃ (s : Machine.State) (t : Site) (w : GWord) (v : MInv) (l : Loc),
      Issues s t 192 w { a := Use.x, b := Use.x, f := 15, i := 15, tag := true } v ∧ s.ldmLoc v ((s.ctxAt t).rx w.b) 64 1 = Except.ok l ∧ (s.coresOf v.part).contains (BitVec.toNat ((s.ctxAt t).rx w.a)) = false) ∧
    (∃ (s : Machine.State) (t : Site) (w : GWord) (v : MInv) (l : Loc),
      Issues s t 192 w { a := Use.x, b := Use.x, f := 15, i := 15, tag := true } v ∧ s.ldmLoc v ((s.ctxAt t).rx w.b) 64 1 = Except.ok l ∧ (s.coresOf v.part).contains (BitVec.toNat ((s.ctxAt t).rx w.a)) = true ∧ (s.chan (BitVec.toNat ((s.ctxAt t).rx w.a) * 64 + t.ctx * 16 + w.i)).length < 8 ∧ (s.cores.sends.any fun (d : PendSend) => d.chan == BitVec.toNat ((s.ctxAt t).rx w.a) * 64 + t.ctx * 16 + w.i) = false) ∧
    (∃ (s : Machine.State) (t : Site) (w : GWord) (v : MInv) (l : Loc),
      Issues s t 193 w { d := Use.x, a := Use.x, i := 15 } v ∧ s.ldmLoc v ((s.ctxAt t).rx w.a) 64 1 = Except.ok l ∧ s.chan (t.core * 64 + t.ctx * 16 + w.i) = []) ∧
    (∃ (s : Machine.State) (t : Site) (w : GWord) (v : MInv) (l : Loc) (m : CoreMsg) (rest : List CoreMsg),
      Issues s t 193 w { d := Use.x, a := Use.x, i := 15 } v ∧ s.ldmLoc v ((s.ctxAt t).rx w.a) 64 1 = Except.ok l ∧ s.chan (t.core * 64 + t.ctx * 16 + w.i) = m :: rest ∧ (s.cores.sends.any fun (d : PendSend) => d.chan == t.core * 64 + t.ctx * 16 + w.i) = false) ∧
    (∃ (s : Machine.State) (t : Site) (w : GWord) (v : MInv) (l : Loc),
      Issues s t 194 w { d := Use.x, a := Use.x, i := 15 } v ∧ s.ldmLoc v ((s.ctxAt t).rx w.a) 64 1 = Except.ok l ∧ s.chan (t.core * 64 + t.ctx * 16 + w.i) = []) ∧
    (∃ (s : Machine.State) (t : Site) (w : GWord) (v : MInv) (l : Loc) (m : CoreMsg) (rest : List CoreMsg),
      Issues s t 194 w { d := Use.x, a := Use.x, i := 15 } v ∧ s.ldmLoc v ((s.ctxAt t).rx w.a) 64 1 = Except.ok l ∧ s.chan (t.core * 64 + t.ctx * 16 + w.i) = m :: rest ∧ (s.cores.sends.any fun (d : PendSend) => d.chan == t.core * 64 + t.ctx * 16 + w.i) = false) ∧
    (∃ (s : Machine.State) (t : Site) (w : GWord) (v : MInv),
      Issues s t 195 w { a := Use.x, b := Use.x, c := Use.x, f := 15, tag := true } v ∧ v.cls = InvClass.control) ∧
    (∃ (s : Machine.State) (t : Site) (w : GWord) (v : MInv),
      Issues s t 195 w { a := Use.x, b := Use.x, c := Use.x, f := 15, tag := true } v ∧ v.cls ≠ InvClass.control ∧ (BitVec.toNat ((s.ctxAt t).rx w.b) = 0 ∨ 4096 < BitVec.toNat ((s.ctxAt t).rx w.b) ∨ s.sendPort v ((s.ctxAt t).rx w.c) = none)) ∧
    (∃ (s : Machine.State) (t : Site) (w : GWord) (v : MInv) (port : Nat) (l : Loc),
      Issues s t 195 w { a := Use.x, b := Use.x, c := Use.x, f := 15, tag := true } v ∧ v.cls ≠ InvClass.control ∧ 1 ≤ BitVec.toNat ((s.ctxAt t).rx w.b) ∧ BitVec.toNat ((s.ctxAt t).rx w.b) ≤ 4096 ∧ s.sendPort v ((s.ctxAt t).rx w.c) = some port ∧ s.ldmLoc v ((s.ctxAt t).rx w.a) (BitVec.toNat ((s.ctxAt t).rx w.b)) 1 = Except.ok l ∧ s.gateOpen v [dieOf (t.core / 8)] (estTicks (BitVec.toNat ((s.ctxAt t).rx w.b)) 10000) = true) ∧
    (∃ (s : Machine.State) (t : Site) (w : GWord) (v : MInv),
      Issues s t 196 w { a := Use.x, f := 15, tag := true } v ∧ v.event ≠ 0) ∧
    (∃ (s : Machine.State) (t : Site) (w : GWord) (v : MInv) (addr : Nat) (n : Nat) (qk : Nat),
      Issues s t 196 w { a := Use.x, f := 15, tag := true } v ∧ s.callBuf v = some (addr, n, qk)) :=
  ⟨⟨(inPart (blk 0 0) (runs inv0 (cx [(1, 8), (2, 0x29000)]) 192 { a := 1, b := 2, i := 15 })), t0, { a := 1, b := 2, i := 15 }, inv0, .ldm 0x29000, issues_of (by decide), ok_of (by decide +kernel), by decide +kernel⟩,
   ⟨(inPart (blk 0 0) (runs inv0 (cx [(1, 3), (2, 0x29000)]) 192 { a := 1, b := 2, i := 15 })), t0, { a := 1, b := 2, i := 15 }, inv0, .ldm 0x29000, issues_of (by decide), ok_of (by decide +kernel), by decide +kernel⟩,
   ⟨(runs inv0 (cx [(1, 0x29000)]) 193 { d := 3, a := 1, i := 15 }), t0, { d := 3, a := 1, i := 15 }, inv0, .ldm 0x29000, issues_of (by decide), ok_of (by decide +kernel), by decide +kernel⟩,
   ⟨(inChan (runs inv0 (cx [(1, 0x29000)]) 193 { d := 3, a := 1, i := 15 })), t0, { d := 3, a := 1, i := 15 }, inv0, .ldm 0x29000, msg1, [], issues_of (by decide), ok_of (by decide +kernel), by decide +kernel⟩,
   ⟨(runs inv0 (cx [(1, 0x29000)]) 194 { d := 3, a := 1, i := 15 }), t0, { d := 3, a := 1, i := 15 }, inv0, .ldm 0x29000, issues_of (by decide), ok_of (by decide +kernel), by decide +kernel⟩,
   ⟨(inChan (runs inv0 (cx [(1, 0x29000)]) 194 { d := 3, a := 1, i := 15 })), t0, { d := 3, a := 1, i := 15 }, inv0, .ldm 0x29000, msg1, [], issues_of (by decide), ok_of (by decide +kernel), by decide +kernel⟩,
   ⟨(runs { inv0 with cls := .control } {} 195 { a := 1, b := 2, c := 4 }), t0, { a := 1, b := 2, c := 4 }, { inv0 with cls := .control }, issues_of (by decide), by decide +kernel⟩,
   ⟨(runs inv0 (cx [(2, 4097)]) 195 { a := 1, b := 2, c := 4 }), t0, { a := 1, b := 2, c := 4 }, inv0, issues_of (by decide), by decide +kernel⟩,
   ⟨(inPart (blk 0 0) (runs inv0 (cx [(1, 0x28000), (2, 4096), (4, 2)]) 195 { a := 1, b := 2, c := 4 })), t0, { a := 1, b := 2, c := 4 }, inv0, 2, .ldm 0x28000, issues_of (by decide), by decide +kernel, by decide +kernel, by decide +kernel, by decide +kernel, ok_of (by decide +kernel), by decide +kernel⟩,
   ⟨(runs { inv0 with event := 1 } {} 196 { a := 1 }), t0, { a := 1 }, { inv0 with event := 1 }, issues_of (by decide), by decide +kernel⟩,
   ⟨(inCall (runs { inv0 with call := 5 } {} 196 { a := 1 })), t0, { a := 1 }, { inv0 with call := 5 }, 0x1000, 64, 0, issues_of (by decide), by decide +kernel⟩⟩

theorem test_witness_TagsFencesBarriersAndWindows :
    (∃ (s : Machine.State) (t : Site) (w : GWord) (v : MInv),
      Issues s t 208 w { d := Use.x, f := 15 } v ∧ ((s.ctxAt t).ops.any fun (o : TagOp) => o.tag == w.f) = true) ∧
    (∃ (s : Machine.State) (t : Site) (w : GWord) (v : MInv),
      Issues s t 208 w { d := Use.x, f := 15 } v ∧ ((s.ctxAt t).ops.any fun (o : TagOp) => o.tag == w.f) = false) ∧
    (∃ (s : Machine.State) (t : Site) (w : GWord) (v : MInv),
      Issues s t 209 w { d := Use.x, f := 15 } v ∧ ((s.ctxAt t).ops.any fun (o : TagOp) => o.tag == w.f) = true) ∧
    (∃ (s : Machine.State) (t : Site) (w : GWord) (v : MInv),
      Issues s t 209 w { d := Use.x, f := 15 } v ∧ ((s.ctxAt t).ops.any fun (o : TagOp) => o.tag == w.f) = false) ∧
    (∃ (s : Machine.State) (core : Nat) (ctx : Nat) (tag : Nat) (o : TagOp) (rest : List TagOp),
      ctx < 4 ∧ s.up = true ∧ (s.ctxAt { core := core, ctx := ctx }).ops = o :: rest ∧ o.tag = tag ∧ s.markOpen o.mark = false) ∧
    (∃ (s : Machine.State) (t : Site) (w : GWord) (v : MInv),
      Issues s t 210 w { } v) ∧
    (∃ (s : Machine.State) (t : Site) (w : GWord) (v : MInv),
      Issues s t 211 w { } v ∧ ((s.ctxAt t).ops.any fun (o : TagOp) => o.engine == 3) = true) ∧
    (∃ (s : Machine.State) (t : Site) (w : GWord) (v : MInv),
      Issues s t 211 w { } v ∧ ((s.ctxAt t).ops.any fun (o : TagOp) => o.engine == 3) = false) ∧
    (∃ (s : Machine.State) (t : Site) (w : GWord) (v : MInv) (call : Call),
      t.ctx < 4 ∧ tabWf s.cores.core = true ∧ Issues s t 212 w { i := 7 } v ∧ v.event = 0 ∧ List.find? (fun (k : Call) => k.id == v.call) s.cores.calls = some call ∧ (s.ctxAt t).ops = [] ∧ call.broken = true) ∧
    (∃ (s : Machine.State) (t : Site) (w : GWord) (v : MInv) (call : Call),
      t.ctx < 4 ∧ tabWf s.cores.core = true ∧ Issues s t 212 w { i := 7 } v ∧ v.event = 0 ∧ List.find? (fun (k : Call) => k.id == v.call) s.cores.calls = some call ∧ (s.ctxAt t).ops = [] ∧ call.broken = false ∧ (List.filter (fun (k : Nat) => false || k / 8 == t.core / 8) call.cores).length ≤ (List.filter (fun (p : Site) => p != t && (s.ctxAt p).st == CtxSt.waitBar false w.i && (false || p.core / 8 == t.core / 8)) (s.barPeers v)).length + 1) ∧
    (∃ (s : Machine.State) (t : Site) (w : GWord) (v : MInv) (call : Call),
      t.ctx < 4 ∧ tabWf s.cores.core = true ∧ Issues s t 212 w { i := 7 } v ∧ v.event = 0 ∧ List.find? (fun (k : Call) => k.id == v.call) s.cores.calls = some call ∧ (s.ctxAt t).ops = [] ∧ call.broken = false ∧ (List.filter (fun (p : Site) => p != t && (s.ctxAt p).st == CtxSt.waitBar false w.i && (false || p.core / 8 == t.core / 8)) (s.barPeers v)).length + 1 < (List.filter (fun (k : Nat) => false || k / 8 == t.core / 8) call.cores).length) ∧
    (∃ (s : Machine.State) (t : Site) (w : GWord) (v : MInv) (call : Call),
      t.ctx < 4 ∧ tabWf s.cores.core = true ∧ Issues s t 213 w { i := 7 } v ∧ v.event = 0 ∧ List.find? (fun (k : Call) => k.id == v.call) s.cores.calls = some call ∧ (s.ctxAt t).ops = [] ∧ call.broken = true) ∧
    (∃ (s : Machine.State) (t : Site) (w : GWord) (v : MInv) (call : Call),
      t.ctx < 4 ∧ tabWf s.cores.core = true ∧ Issues s t 213 w { i := 7 } v ∧ v.event = 0 ∧ List.find? (fun (k : Call) => k.id == v.call) s.cores.calls = some call ∧ (s.ctxAt t).ops = [] ∧ call.broken = false ∧ (List.filter (fun (k : Nat) => true || k / 8 == t.core / 8) call.cores).length ≤ (List.filter (fun (p : Site) => p != t && (s.ctxAt p).st == CtxSt.waitBar true w.i && (true || p.core / 8 == t.core / 8)) (s.barPeers v)).length + 1) ∧
    (∃ (s : Machine.State) (t : Site) (w : GWord) (v : MInv) (call : Call),
      t.ctx < 4 ∧ tabWf s.cores.core = true ∧ Issues s t 213 w { i := 7 } v ∧ v.event = 0 ∧ List.find? (fun (k : Call) => k.id == v.call) s.cores.calls = some call ∧ (s.ctxAt t).ops = [] ∧ call.broken = false ∧ (List.filter (fun (p : Site) => p != t && (s.ctxAt p).st == CtxSt.waitBar true w.i && (true || p.core / 8 == t.core / 8)) (s.barPeers v)).length + 1 < (List.filter (fun (k : Nat) => true || k / 8 == t.core / 8) call.cores).length) ∧
    (∃ (s : Machine.State) (t : Site) (w : GWord) (v : MInv),
      t.ctx < 4 ∧ Issues s t 214 w { } v) ∧
    (∃ (s : Machine.State) (t : Site) (w : GWord) (v : MInv),
      t.ctx < 4 ∧ Issues s t 215 w { i := 3, ok := decide (w.i < 3) } v ∧ w.i = 0 ∧ (s.pwin v.part).win = Window.decode) ∧
    (∃ (s : Machine.State) (t : Site) (w : GWord) (v : MInv),
      t.ctx < 4 ∧ Issues s t 215 w { i := 3, ok := decide (w.i < 3) } v ∧ w.i = 0 ∧ (s.pwin v.part).win ≠ Window.decode) ∧
    (∃ (s : Machine.State) (t : Site) (w : GWord) (v : MInv),
      t.ctx < 4 ∧ Issues s t 215 w { i := 3, ok := decide (w.i < 3) } v ∧ w.i = 1 ∧ (s.pwin v.part).win = Window.prefill) ∧
    (∃ (s : Machine.State) (t : Site) (w : GWord) (v : MInv),
      t.ctx < 4 ∧ Issues s t 215 w { i := 3, ok := decide (w.i < 3) } v ∧ w.i = 1 ∧ (s.pwin v.part).win ≠ Window.prefill) ∧
    (∃ (s : Machine.State) (t : Site) (w : GWord) (v : MInv),
      t.ctx < 4 ∧ Issues s t 215 w { i := 3, ok := decide (w.i < 3) } v ∧ w.i = 2 ∧ (s.pwin v.part).win = Window.bulk) ∧
    (∃ (s : Machine.State) (t : Site) (w : GWord) (v : MInv),
      t.ctx < 4 ∧ Issues s t 215 w { i := 3, ok := decide (w.i < 3) } v ∧ w.i = 2 ∧ (s.pwin v.part).win ≠ Window.bulk) ∧
    (∃ (s : Machine.State) (t : Site) (w : GWord) (v : MInv),
      Issues s t 216 w { d := Use.x, i := 3, ok := decide (w.i < 3) } v ∧ w.i = 0 ∧ (s.getPart v.part).conf = false) ∧
    (∃ (s : Machine.State) (t : Site) (w : GWord) (v : MInv),
      Issues s t 216 w { d := Use.x, i := 3, ok := decide (w.i < 3) } v ∧ w.i = 1 ∧ (s.getPart v.part).conf = false) ∧
    (∃ (s : Machine.State) (t : Site) (w : GWord) (v : MInv),
      Issues s t 216 w { d := Use.x, i := 3, ok := decide (w.i < 3) } v ∧ w.i = 2 ∧ (s.getPart v.part).conf = false) ∧
    (∃ (s : Machine.State) (t : Site) (w : GWord) (v : MInv),
      Issues s t 217 w { i := 3, ok := w.i == 1 || w.i == 2 } v ∧ (v.cls = InvClass.prefill ∨ v.cls = InvClass.bulk)) ∧
    (∃ (s : Machine.State) (t : Site) (w : GWord) (v : MInv),
      Issues s t 217 w { i := 3, ok := w.i == 1 || w.i == 2 } v ∧ v.cls ≠ InvClass.prefill ∧ v.cls ≠ InvClass.bulk) :=
  ⟨⟨(runs inv0 ({ ops := [{ tag := 15, value := 3, engine := 3 }] }) 208 { d := 3, f := 15 }), t0, { d := 3, f := 15 }, inv0, issues_of (by decide), by decide +kernel⟩,
   ⟨(runs inv0 ({ ops := [{ tag := 15, value := 3, engine := 3 }] }) 208 { d := 3, f := 14 }), t0, { d := 3, f := 14 }, inv0, issues_of (by decide), by decide +kernel⟩,
   ⟨(runs inv0 ({ ops := [{ tag := 15, value := 3, engine := 3 }] }) 209 { d := 3, f := 15 }), t0, { d := 3, f := 15 }, inv0, issues_of (by decide), by decide +kernel⟩,
   ⟨(runs inv0 ({ ops := [{ tag := 15, value := 3, engine := 3 }] }) 209 { d := 3, f := 14 }), t0, { d := 3, f := 14 }, inv0, issues_of (by decide), by decide +kernel⟩,
   ⟨(runs inv0 ({ ops := [{ tag := 15, value := 3, engine := 3 }] }) 0 {}), 0, 0, 15, { tag := 15, value := 3, engine := 3 }, [], by decide +kernel⟩,
   ⟨(runs inv0 {} 210 {}), t0, {}, inv0, issues_of (by decide)⟩,
   ⟨(runs inv0 ({ ops := [{ tag := 15, value := 3, engine := 3 }] }) 211 {}), t0, {}, inv0, issues_of (by decide), by decide +kernel⟩,
   ⟨(runs inv0 ({ ops := [{ tag := 15, value := 3 }] }) 211 {}), t0, {}, inv0, issues_of (by decide), by decide +kernel⟩,
   ⟨(broken1 (runs { inv0 with call := 5 } {} 212 { i := 7 })), t0, { i := 7 }, { inv0 with call := 5 }, { call1 with broken := true }, by decide +kernel, by decide +kernel, issues_of (by decide), by decide +kernel⟩,
   ⟨(inCall (runs { inv0 with call := 5 } {} 212 { i := 7 })), t0, { i := 7 }, { inv0 with call := 5 }, call1, by decide +kernel, by decide +kernel, issues_of (by decide), by decide +kernel⟩,
   ⟨(inCall2 (runs { inv0 with call := 5 } {} 212 { i := 7 })), t0, { i := 7 }, { inv0 with call := 5 }, { call1 with cores := [0, 1] }, by decide +kernel, by decide +kernel, issues_of (by decide), by decide +kernel⟩,
   ⟨(broken1 (runs { inv0 with call := 5 } {} 213 { i := 7 })), t0, { i := 7 }, { inv0 with call := 5 }, { call1 with broken := true }, by decide +kernel, by decide +kernel, issues_of (by decide), by decide +kernel⟩,
   ⟨(inCall (runs { inv0 with call := 5 } {} 213 { i := 7 })), t0, { i := 7 }, { inv0 with call := 5 }, call1, by decide +kernel, by decide +kernel, issues_of (by decide), by decide +kernel⟩,
   ⟨(inCall2 (runs { inv0 with call := 5 } {} 213 { i := 7 })), t0, { i := 7 }, { inv0 with call := 5 }, { call1 with cores := [0, 1] }, by decide +kernel, by decide +kernel, issues_of (by decide), by decide +kernel⟩,
   ⟨(runs inv0 {} 214 {}), t0, {}, inv0, by decide +kernel, issues_of (by decide)⟩,
   ⟨(inWin .decode (runs inv0 {} 215 {})), t0, {}, inv0, by decide +kernel, issues_of (by decide), by decide +kernel⟩,
   ⟨(inWin .bulk (runs inv0 {} 215 {})), t0, {}, inv0, by decide +kernel, issues_of (by decide), by decide +kernel⟩,
   ⟨(inWin .prefill (runs inv0 {} 215 { i := 1 })), t0, { i := 1 }, inv0, by decide +kernel, issues_of (by decide), by decide +kernel⟩,
   ⟨(inWin .decode (runs inv0 {} 215 { i := 1 })), t0, { i := 1 }, inv0, by decide +kernel, issues_of (by decide), by decide +kernel⟩,
   ⟨(inWin .bulk (runs inv0 {} 215 { i := 2 })), t0, { i := 2 }, inv0, by decide +kernel, issues_of (by decide), by decide +kernel⟩,
   ⟨(inWin .prefill (runs inv0 {} 215 { i := 2 })), t0, { i := 2 }, inv0, by decide +kernel, issues_of (by decide), by decide +kernel⟩,
   ⟨(runs inv0 {} 216 { d := 3 }), t0, { d := 3 }, inv0, issues_of (by decide), by decide +kernel⟩,
   ⟨(runs inv0 {} 216 { d := 3, i := 1 }), t0, { d := 3, i := 1 }, inv0, issues_of (by decide), by decide +kernel⟩,
   ⟨(runs inv0 {} 216 { d := 3, i := 2 }), t0, { d := 3, i := 2 }, inv0, issues_of (by decide), by decide +kernel⟩,
   ⟨(runs { inv0 with cls := .prefill, gate := .prefill } {} 217 { i := 1 }), t0, { i := 1 }, { inv0 with cls := .prefill, gate := .prefill }, issues_of (by decide), by decide +kernel⟩,
   ⟨(runs { inv0 with cls := .decode, gate := .decode } {} 217 { i := 2 }), t0, { i := 2 }, { inv0 with cls := .decode, gate := .decode }, issues_of (by decide), by decide +kernel⟩⟩

theorem test_witness_DoorbellsMoveRingIndexes :
    (∃ (s : Machine.State) (fn : Nat) (page : Nat) (v : Nat),
      s.up = true ∧ s.bound fn = true ∧ page / 4 < 64 ∧ (s.qs (fn * 64 + page / 4)).en = true ∧ page % 4 = 0 ∧ (s.qs (fn * 64 + page / 4)).cmdLog2 ≠ 0 ∧ v % 65536 < 2 ^ (s.qs (fn * 64 + page / 4)).cmdLog2) ∧
    (∃ (s : Machine.State) (fn : Nat) (page : Nat) (v : Nat),
      s.up = true ∧ s.bound fn = true ∧ page / 4 < 64 ∧ (s.qs (fn * 64 + page / 4)).en = true ∧ page % 4 = 1 ∧ (s.qs (fn * 64 + page / 4)).cplLog2 ≠ 0 ∧ v % 65536 < 2 ^ (s.qs (fn * 64 + page / 4)).cplLog2 ∧ (∀ (c : Call), c ∈ s.cores.calls → c.accepted = true) ∧ s.cores.bells = [] ∧ ∀ (x : Nat × Sess), x ∈ s.sess → x.snd.step = none) ∧
    (∃ (s : Machine.State) (fn : Nat) (page : Nat) (v : Nat),
      s.up = true ∧ s.bound fn = true ∧ page / 4 < 64 ∧ (s.qs (fn * 64 + page / 4)).en = true ∧ page % 4 = 1 ∧ (s.qs (fn * 64 + page / 4)).cplLog2 ≠ 0 ∧ v % 65536 < 2 ^ (s.qs (fn * 64 + page / 4)).cplLog2 ∧ (∀ (c : Call), c ∈ s.cores.calls → c.accepted = true) ∧ s.cores.bells = [] ∧ (∀ (x : Nat × Sess), x ∈ s.sess → x.snd.step = none) ∧ (s.qs (fn * 64 + page / 4)).cplTail < 2 ^ (s.qs (fn * 64 + page / 4)).cplLog2) ∧
    (∃ (s : Machine.State) (fn : Nat) (page : Nat) (v : Nat),
      s.up = true ∧ s.bound fn = true ∧ page / 4 < 64 ∧ (s.qs (fn * 64 + page / 4)).en = true ∧ page % 4 = 2 ∧ (s.qs (fn * 64 + page / 4)).emitLog2 ≠ 0 ∧ v % 65536 < 2 ^ (s.qs (fn * 64 + page / 4)).emitLog2 ∧ s.text.waits = [] ∧ ∀ (x : Nat × Sess), x ∈ s.sess → x.snd.step = none) ∧
    (∃ (s : Machine.State) (fn : Nat) (page : Nat) (v : Nat),
      s.up = true ∧ s.bound fn = true ∧ page / 4 < 64 ∧ (s.qs (fn * 64 + page / 4)).en = true ∧ page % 4 = 2 ∧ (s.qs (fn * 64 + page / 4)).emitLog2 ≠ 0 ∧ v % 65536 < 2 ^ (s.qs (fn * 64 + page / 4)).emitLog2 ∧ s.text.waits = [] ∧ (∀ (x : Nat × Sess), x ∈ s.sess → x.snd.step = none) ∧ (s.qs (fn * 64 + page / 4)).emitTail < 2 ^ (s.qs (fn * 64 + page / 4)).emitLog2) ∧
    (∃ (s : Machine.State) (fn : Nat) (page : Nat) (width : Nat),
      s.up = true ∧ s.bound fn = true ∧ (page % 4 = 0 ∨ page % 4 = 3 ∨ 64 ≤ page / 4) ∧ (width ≠ 4 ∨ page % 4 = 3 ∨ 64 ≤ page / 4 ∨ (s.qs (fn * 64 + page / 4)).en = false)) ∧
    (∃ (s : Machine.State) (fn : Nat),
      s.up = true ∧ s.bound fn = false) ∧
    (∃ (s : Machine.State) (fn : Nat) (page : Nat) (width : Nat),
      s.up = true ∧ s.bound fn = true ∧ (page % 4 = 1 ∨ page % 4 = 3 ∨ 64 ≤ page / 4) ∧ (width ≠ 4 ∨ page % 4 = 3 ∨ 64 ≤ page / 4 ∨ (s.qs (fn * 64 + page / 4)).en = false)) ∧
    (∃ (s : Machine.State) (fn : Nat) (page : Nat) (width : Nat),
      s.up = true ∧ s.bound fn = true ∧ (page % 4 = 2 ∨ page % 4 = 3 ∨ 64 ≤ page / 4) ∧ (width ≠ 4 ∨ page % 4 = 3 ∨ 64 ≤ page / 4 ∨ (s.qs (fn * 64 + page / 4)).en = false)) ∧
    (∃ (s : Machine.State) (fn : Nat) (page : Nat) (v : Nat),
      s.up = true ∧ s.bound fn = true ∧ page / 4 < 64 ∧ page % 4 = 0 ∧ 2 ^ (s.qs (fn * 64 + page / 4)).cmdLog2 ≤ v % 65536) ∧
    (∃ (s : Machine.State) (fn : Nat) (page : Nat) (v : Nat),
      s.up = true ∧ s.bound fn = true ∧ page / 4 < 64 ∧ page % 4 = 1 ∧ 2 ^ (s.qs (fn * 64 + page / 4)).cplLog2 ≤ v % 65536) ∧
    (∃ (s : Machine.State) (fn : Nat) (page : Nat) (v : Nat),
      s.up = true ∧ s.bound fn = true ∧ page / 4 < 64 ∧ page % 4 = 2 ∧ 2 ^ (s.qs (fn * 64 + page / 4)).emitLog2 ≤ v % 65536) ∧
    (∃ (s : Machine.State) (qk : Nat),
      s.up = true ∧ (s.qs qk).coalT ≠ 0 ∧ (s.qs qk).cplUnsig ≠ 0 ∧ (tabGet { } s.host.msix (qk / 64 * 128 + (s.qs qk).cplVec)).masked = false) ∧
    (∃ (s : Machine.State) (qk : Nat),
      s.up = true ∧ (s.qs qk).coalT ≠ 0 ∧ (s.qs qk).emitUnsig ≠ 0 ∧ (tabGet { } s.host.msix (qk / 64 * 128 + (s.qs qk).emitVec)).masked = true) :=
  ⟨⟨(rings qs1), 1, 0, 1, by decide +kernel⟩,
   ⟨(rings qs1), 1, 1, 1, by decide +kernel⟩,
   ⟨(rings qs1), 1, 1, 1, by decide +kernel⟩,
   ⟨(rings qs1), 1, 2, 1, by decide +kernel⟩,
   ⟨(rings qs1), 1, 2, 1, by decide +kernel⟩,
   ⟨(rings qs1), 1, 0, 8, by decide +kernel⟩,
   ⟨(rings qs1), 2, by decide +kernel⟩,
   ⟨(rings qs1), 1, 1, 2, by decide +kernel⟩,
   ⟨(rings qs1), 1, 256, 4, by decide +kernel⟩,
   ⟨(rings qs1), 1, 0, 2, by decide +kernel⟩,
   ⟨(rings qs1), 1, 1, 2, by decide +kernel⟩,
   ⟨(rings qs1), 1, 2, 65535, by decide +kernel⟩,
   ⟨{ rings { qs1 with coalT := 1, cplUnsig := 1 } with host := { qs := [(64, { qs1 with coalT := 1, cplUnsig := 1 })], msix := [(128, { masked := false })] } }, 64, by decide +kernel⟩,
   ⟨(rings { qs1 with coalT := 1, emitUnsig := 1 }), 64, by decide +kernel⟩⟩

theorem test_witness_FetchChecksInOrder :
    (∃ (s : Machine.State) (qk : Nat) (raw : List Byte),
      s.up = true ∧ (s.qs qk).en = true ∧ (s.qs qk).cmdHead ≠ (s.qs qk).cmdTail ∧ s.inFlight qk < cplFree (s.qs qk) ∧ byteAt (fit 0 64 raw) 1 % 16 ≠ 1) ∧
    (∃ (s : Machine.State) (qk : Nat) (raw : List Byte),
      s.up = true ∧ (s.qs qk).en = true ∧ (s.qs qk).cmdHead ≠ (s.qs qk).cmdTail ∧ s.inFlight qk < cplFree (s.qs qk) ∧ byteAt (fit 0 64 raw) 1 % 16 = 1 ∧ ¬byteAt (fit 0 64 raw) 0 ∈ [1, 2, 3, 4, 5, 6, 7, 8, 9, 10, 16, 17, 18, 32, 33, 34, 35, 36, 37, 38, 39, 40] ∧ ¬byteAt (fit 0 64 raw) 0 ∈ [48, 49, 50, 51, 64, 65, 66, 67, 68, 80, 81, 82, 83, 84, 85, 86, 96, 97]) ∧
    (∃ (s : Machine.State) (qk : Nat) (raw : List Byte),
      s.up = true ∧ (s.qs qk).en = true ∧ (s.qs qk).cmdHead ≠ (s.qs qk).cmdTail ∧ s.inFlight qk < cplFree (s.qs qk) ∧ byteAt (fit 0 64 raw) 1 % 16 = 1 ∧ byteAt (fit 0 64 raw) 0 ∈ [80, 81, 82, 83, 96, 97] ∧ qk / 64 % 17 ≠ 0) ∧
    (∃ (s : Machine.State) (qk : Nat) (raw : List Byte),
      s.up = true ∧ (s.qs qk).en = true ∧ (s.qs qk).cmdHead ≠ (s.qs qk).cmdTail ∧ s.inFlight qk < cplFree (s.qs qk) ∧ byteAt (fit 0 64 raw) 1 % 16 = 1 ∧ byteAt (fit 0 64 raw) 0 ∈ [80, 81, 82, 83, 96, 97] ∧ qk / 64 % 17 = 0 ∧ s.host.inReset = true) ∧
    (∃ (s : Machine.State) (qk : Nat) (raw : List Byte),
      s.up = true ∧ (s.qs qk).en = true ∧ (s.qs qk).cmdHead ≠ (s.qs qk).cmdTail ∧ s.inFlight qk < cplFree (s.qs qk) ∧ byteAt (fit 0 64 raw) 1 % 16 = 1 ∧ byteAt (fit 0 64 raw) 0 ∈ [1, 2, 3, 4, 5, 6, 7, 8, 9, 10, 16, 17, 18, 40, 48, 49, 50, 51, 66] ∧ s.fnPart (qk / 64) = none) ∧
    (∃ (s : Machine.State) (qk : Nat),
      s.up = true ∧ ((s.qs qk).en = false ∨ (s.qs qk).cmdHead = (s.qs qk).cmdTail ∨ cplFree (s.qs qk) ≤ s.inFlight qk)) ∧
    (∃ (s : Machine.State) (qk : Nat) (id : Nat) (w : List Nat),
      s.up = true ∧ (s.qs qk).en = true ∧ (s.qs qk).cmdHead ≠ (s.qs qk).cmdTail ∧ s.inFlight qk < cplFree (s.qs qk) ∧ (s.getSess id).st ∈ [SState.hot, SState.idle, SState.parked, SState.stripped, SState.opened] ∧ (w.getD 7 0 / 2 ^ 32 % 2 ^ 32 ≠ crc32c (List.flatMap (natLe 8) (List.take 7 w)) ∨ 10 < w.getD 0 0 / 2 ^ 4 % 2 ^ 4)) ∧
    (∃ (s : Machine.State) (qk : Nat) (id : Nat) (w : List Nat),
      s.up = true ∧ (s.qs qk).en = true ∧ (s.qs qk).cmdHead ≠ (s.qs qk).cmdTail ∧ s.inFlight qk < cplFree (s.qs qk) ∧ (s.getSess id).st ∈ [SState.hot, SState.idle, SState.parked, SState.stripped, SState.opened] ∧ w.getD 7 0 / 2 ^ 32 % 2 ^ 32 = crc32c (List.flatMap (natLe 8) (List.take 7 w)) ∧ w.getD 0 0 / 2 ^ 4 % 2 ^ 4 ≤ 10 ∧ w.getD 0 0 % 2 ^ 4 ≠ 1) ∧
    (∃ (m : Meter) (now : Nat) (b : Nat) (pre : Colour),
      m.pir ≠ 0 ∧ (pre = Colour.red ∨ (m.pbs * 10 ^ 9).min (m.tp + m.pir * (now - m.at_)) < b * 10 ^ 9)) ∧
    (∃ (m : Meter) (now : Nat) (b : Nat) (pre : Colour),
      m.pir ≠ 0 ∧ pre ≠ Colour.red ∧ b * 10 ^ 9 ≤ (m.pbs * 10 ^ 9).min (m.tp + m.pir * (now - m.at_)) ∧ (pre = Colour.yellow ∨ (m.cbs * 10 ^ 9).min (m.tc + m.cir * (now - m.at_)) < b * 10 ^ 9)) ∧
    (∃ (m : Meter) (now : Nat) (b : Nat) (pre : Colour),
      m.pir ≠ 0 ∧ pre = Colour.green ∧ b * 10 ^ 9 ≤ (m.pbs * 10 ^ 9).min (m.tp + m.pir * (now - m.at_)) ∧ b * 10 ^ 9 ≤ (m.cbs * 10 ^ 9).min (m.tc + m.cir * (now - m.at_))) :=
  ⟨⟨(rings { qs1 with cmdHead := 1 }), 64, [1, 2], by decide +kernel⟩,
   ⟨(rings { qs1 with cmdHead := 1 }), 64, [0, 1], by decide +kernel⟩,
   ⟨(rings { qs1 with cmdHead := 1 }), 64, [0x50, 1], by decide +kernel⟩,
   ⟨early, 0, [0x50, 1], by decide +kernel⟩,
   ⟨early, 128, [1, 1], by decide +kernel⟩,
   ⟨(rings qs1), 64, by decide +kernel⟩,
   ⟨({ rings { qs1 with cmdHead := 1 } with sess := [(7, fresh .hot)] }), 64, 7, (words8 1 1), by decide +kernel⟩,
   ⟨({ rings { qs1 with cmdHead := 1 } with sess := [(7, fresh .hot)] }), 64, 7, (words8 2 0), by decide +kernel⟩,
   ⟨{ cir := 1, pir := 1, cbs := 1, pbs := 2, tc := 0, tp := 0, at_ := 0 }, 1, 1, .green, by decide +kernel⟩,
   ⟨{ cir := 1, pir := 1, cbs := 1, pbs := 2, tc := 0, tp := 0, at_ := 0 }, 10 ^ 9, 1, .yellow, by decide +kernel⟩,
   ⟨{ cir := 1, pir := 1, cbs := 1, pbs := 2, tc := 0, tp := 0, at_ := 0 }, 10 ^ 9, 1, .green, by decide +kernel⟩⟩

theorem test_witness_QueueSetsStartAndStop :
    (∃ (s : Machine.State) (fn : Nat) (q : Nat) (v : Nat),
      s.up = true ∧ s.bound fn = true ∧ q < 64 ∧ (bits v 8 7 < if fn % 17 = 0 then 128 else 120) ∧ (bits v 16 7 < if fn % 17 = 0 then 128 else 120) ∧ bits v 24 8 ≠ 255 ∧ (s.qs (fn * 64 + q)).en = false ∧ (s.qs (fn * 64 + q)).busy = false ∧ (s.qs (fn * 64 + q)).cmdLog2 ≠ 0 ∧ (s.qs (fn * 64 + q)).cplLog2 ≠ 0) ∧
    (∃ (s : Machine.State) (fn : Nat) (q : Nat) (v : Nat),
      s.up = true ∧ s.bound fn = true ∧ q < 64 ∧ ((if fn % 17 = 0 then 128 else 120) ≤ bits v 8 7 ∨ (if fn % 17 = 0 then 128 else 120) ≤ bits v 16 7 ∨ bits v 24 8 = 255 ∨ (s.qs (fn * 64 + q)).en = false ∧ ((s.qs (fn * 64 + q)).busy = true ∨ (s.qs (fn * 64 + q)).cmdLog2 = 0 ∨ (s.qs (fn * 64 + q)).cplLog2 = 0))) ∧
    (∃ (s : Machine.State) (fn : Nat) (q : Nat) (v : Nat),
      s.up = true ∧ s.bound fn = true ∧ q < 64 ∧ (bits v 8 7 < if fn % 17 = 0 then 128 else 120) ∧ (bits v 16 7 < if fn % 17 = 0 then 128 else 120) ∧ bits v 24 8 ≠ 255 ∧ (s.qs (fn * 64 + q)).en = true ∧ s.cores.calls = [] ∧ s.text.waits = [] ∧ ∀ (y : Nat × Sess), y ∈ s.sess → y.snd.open? = none ∧ y.snd.held = none) ∧
    (∃ (s : Machine.State) (qk : Nat),
      s.up = true ∧ (s.qs qk).busy = true ∧ ∀ (c : Cmd), c ∈ s.host.cmds → c.qk ≠ qk) ∧
    (∃ (s : Machine.State) (fn : Nat),
      s.up = true ∧ fn < 34) ∧
    (∃ (s : Machine.State) (port : Nat),
      s.up = true ∧ port < 2) ∧
    (∃ (port : Nat),
      port < 2) ∧
    (∃ (s : Machine.State) (port : Nat),
      port < 2 ∧ s.up = true) :=
  ⟨⟨(rings { qs1 with en := false }), 1, 0, 0, by decide +kernel⟩,
   ⟨(rings qs1), 1, 0, 120 * 256, by decide +kernel⟩,
   ⟨(rings qs1), 1, 0, 0, by decide +kernel⟩,
   ⟨(rings { qs1 with en := false, busy := true }), 64, by decide +kernel⟩,
   ⟨State.reset, 33, by decide +kernel⟩,
   ⟨State.reset, 1, by decide +kernel⟩,
   ⟨1, by decide +kernel⟩,
   ⟨State.reset, 1, by decide +kernel⟩⟩

theorem test_witness_LeaseAndMailboxes :
    (∃ (s : Machine.State) (port : Nat),
      s.up = true ∧ port < 2 ∧ s.host.holder = port + 1) ∧
    (∃ (s : Machine.State) (port : Nat),
      s.up = true ∧ port < 2 ∧ s.host.holder ≠ port + 1 ∧ (s.host.holder = 0 ∨ 1000 ≤ s.host.age)) ∧
    (∃ (s : Machine.State) (port : Nat),
      s.up = true ∧ port < 2 ∧ s.host.holder ≠ port + 1 ∧ s.host.holder ≠ 0 ∧ s.host.age < 1000 ∧ (port = 1 ∨ s.host.claimedByB = false)) ∧
    (∃ (s : Machine.State),
      s.up = true ∧ s.host.holder = 2 ∧ s.host.age < 1000 ∧ s.host.claimedByB = true) ∧
    (∃ (s : Machine.State) (fn : Nat) (n : Nat),
      s.up = true ∧ n < 64 ∧ fn < 34 ∧ s.bound fn = true ∧ (fn / 17 * 17 + if n < 32 then 0 else 1 + (n - 32) / 2) = fn ∧ (s.mbxAt (fn / 17) n).go = false ∧ (s.mgmt.ready = false ∨ s.mgmt.failed = true ∨ s.host.inReset = true)) ∧
    (∃ (s : Machine.State) (fn : Nat) (n : Nat) (len : Nat),
      s.up = true ∧ n < 64 ∧ fn < 34 ∧ s.bound fn = true ∧ (fn / 17 * 17 + if n < 32 then 0 else 1 + (n - 32) / 2) = fn ∧ (s.mbxAt (fn / 17) n).go = false ∧ s.mgmt.ready = true ∧ s.mgmt.failed = false ∧ s.host.inReset = false ∧ (len % 32 < 8 ∨ 16 < len % 32)) ∧
    (∃ (s : Machine.State) (fn : Nat) (n : Nat),
      s.up = true ∧ n < 64 ∧ fn < 34 ∧ ((fn / 17 * 17 + if n < 32 then 0 else 1 + (n - 32) / 2) ≠ fn ∨ s.bound fn = false)) :=
  ⟨⟨({ host := { holder := 1, age := 0, claimedByB := false } } : State), 0, by decide +kernel⟩,
   ⟨({ host := { holder := 2, age := 1000, claimedByB := false } } : State), 0, by decide +kernel⟩,
   ⟨({ host := { holder := 1, age := 999, claimedByB := false } } : State), 1, by decide +kernel⟩,
   ⟨({ host := { holder := 2, age := 999, claimedByB := true } } : State), by decide +kernel⟩,
   ⟨State.reset, 0, 31, by decide +kernel⟩,
   ⟨({ mgmt := { ready := true }, host := { inReset := false } } : State), 0, 0, 7, by decide +kernel⟩,
   ⟨State.reset, 1, 32, by decide +kernel⟩⟩

theorem test_witness_OpenTakesTheLowestFreeEntry :
    (∃ (s : Machine.State) (qk : Nat) (c : Cmd) (id : Nat),
      Next s qk 1 c ∧ (byteAt c.raw 35 % 8 ≤ 4 ∧ field c.raw 32 2 ≠ 65535 ∧ byteAt c.raw 34 ≠ 255 ∧ (s.model c.part (byteAt c.raw 34)).valid = true ∧ (field c.raw 38 2 = 0 ∨ (tabGet? s.emit.sets (c.part * 65536 + field c.raw 38 2)).isSome = true) ∧ (field c.raw 46 2 = 0 ∨ (tabGet? s.text.stops (c.part * 65536 + field c.raw 46 2)).isSome = true)) ∧ (field c.raw 32 2 = 0 ∨ s.domBound c.part (field c.raw 32 2) = true) ∧ (s.getPart c.part).groupBase * 4096 ≤ id ∧ id < ((s.getPart c.part).groupBase + (s.getPart c.part).groups) * 4096 ∧ (s.getSess id).st = SState.free ∧ (∀ (n : Nat), (s.getPart c.part).groupBase * 4096 ≤ n → n < id → (s.getSess n).st ≠ SState.free) ∧ logPrimary 0 ≤ s.t1Free (s.pickHome (s.getPart c.part).clusters)) ∧
    (∃ (s : Machine.State) (qk : Nat) (c : Cmd),
      Next s qk 1 c ∧ (byteAt c.raw 35 % 8 ≤ 4 ∧ field c.raw 32 2 ≠ 65535 ∧ byteAt c.raw 34 ≠ 255 ∧ (s.model c.part (byteAt c.raw 34)).valid = true ∧ (field c.raw 38 2 = 0 ∨ (tabGet? s.emit.sets (c.part * 65536 + field c.raw 38 2)).isSome = true) ∧ (field c.raw 46 2 = 0 ∨ (tabGet? s.text.stops (c.part * 65536 + field c.raw 46 2)).isSome = true)) ∧ (field c.raw 32 2 = 0 ∨ s.domBound c.part (field c.raw 32 2) = true) ∧ ∀ (n : Nat), (s.getPart c.part).groupBase * 4096 ≤ n → n < ((s.getPart c.part).groupBase + (s.getPart c.part).groups) * 4096 → (s.getSess n).st ≠ SState.free) ∧
    (∃ (s : Machine.State) (qk : Nat) (c : Cmd),
      Next s qk 1 c ∧ ¬(byteAt c.raw 35 % 8 ≤ 4 ∧ field c.raw 32 2 ≠ 65535 ∧ byteAt c.raw 34 ≠ 255 ∧ (s.model c.part (byteAt c.raw 34)).valid = true ∧ (field c.raw 38 2 = 0 ∨ (tabGet? s.emit.sets (c.part * 65536 + field c.raw 38 2)).isSome = true) ∧ (field c.raw 46 2 = 0 ∨ (tabGet? s.text.stops (c.part * 65536 + field c.raw 46 2)).isSome = true))) ∧
    (∃ (s : Machine.State) (qk : Nat) (c : Cmd),
      Next s qk 1 c ∧ (byteAt c.raw 35 % 8 ≤ 4 ∧ field c.raw 32 2 ≠ 65535 ∧ byteAt c.raw 34 ≠ 255 ∧ (s.model c.part (byteAt c.raw 34)).valid = true ∧ (field c.raw 38 2 = 0 ∨ (tabGet? s.emit.sets (c.part * 65536 + field c.raw 38 2)).isSome = true) ∧ (field c.raw 46 2 = 0 ∨ (tabGet? s.text.stops (c.part * 65536 + field c.raw 46 2)).isSome = true)) ∧ field c.raw 32 2 ≠ 0 ∧ s.domBound c.part (field c.raw 32 2) = false) :=
  ⟨⟨(full0 (asks (cm 0x01 []) (fresh .hot))), 64, (cm 0x01 []), 1, next_of (by decide), by decide, by decide, by decide, by decide, by decide, fun n _ h => (Nat.lt_one_iff.mp h) ▸ (by decide), by decide⟩,
   ⟨(noEntries (asks (cm 0x01 []) (fresh .hot))), 64, (cm 0x01 []), next_of (by decide), by decide, by decide, fun n h1 h2 => absurd (Nat.lt_of_le_of_lt h1 h2) (Nat.lt_irrefl _)⟩,
   ⟨(asks (cm 0x01 [(34, 1, 1)]) (fresh .hot)), 64, (cm 0x01 [(34, 1, 1)]), next_of (by decide), by decide +kernel⟩,
   ⟨(asks (cm 0x01 [(32, 2, 4)]) (fresh .hot)), 64, (cm 0x01 [(32, 2, 4)]), next_of (by decide), by decide +kernel⟩⟩

theorem test_witness_CancelEndsWhatASessionHolds :
    (∃ (s : Machine.State) (qk : Nat) (c : Cmd) (id : Nat) (h : Held) (e : Cmd),
      NextSess s qk 8 c id ∧ ((s.getSess id).heldCmd = true ∧ ((s.getSess id).st = SState.reviving ∨ (s.getSess id).st = SState.moving ∧ (s.getSess id).exporting = false)) ∧ (s.getSess id).held = some h ∧ s.cmd? h.serial = some e ∧ h.serial ≠ c.serial) ∧
    (∃ (s : Machine.State) (qk : Nat) (c : Cmd) (id : Nat),
      NextSess s qk 8 c id ∧ (s.getSess id).st = SState.running ∧ (s.getSess id).step.isSome = true) ∧
    (∃ (s : Machine.State) (qk : Nat) (c : Cmd) (id : Nat) (g : Gen) (e : Cmd),
      NextSess s qk 8 c id ∧ (s.getSess id).st = SState.running ∧ (s.getSess id).step = none ∧ (s.getSess id).open? = some g ∧ s.cmd? g.serial = some e ∧ g.serial ≠ c.serial ∧ (s.getSess id).closeSerial = 0 ∧ (s.getSess id).policy ≠ Policy.cold) ∧
    (∃ (s : Machine.State) (qk : Nat) (c : Cmd) (id : Nat),
      NextSess s qk 8 c id ∧ ¬((s.getSess id).heldCmd = true ∧ ((s.getSess id).st = SState.reviving ∨ (s.getSess id).st = SState.moving ∧ (s.getSess id).exporting = false)) ∧ (s.getSess id).st ≠ SState.running) :=
  ⟨⟨(alsoHeld (asks (cm 0x08 []) ({ fresh .reviving with heldCmd := true, held := some { serial := 0, isGen := true, data := [] } }))), 64, (cm 0x08 []), 7, { serial := 0, isGen := true, data := [] }, { cm 3 [] with serial := 0, started := true }, sess_of (by decide), by decide +kernel⟩,
   ⟨(asks (cm 0x08 []) ({ fresh .running with step := some {} })), 64, (cm 0x08 []), 7, sess_of (by decide), by decide +kernel⟩,
   ⟨(alsoHeld (asks (cm 0x08 []) ({ fresh .running with open? := some { serial := 0, qk := 64 } }))), 64, (cm 0x08 []), 7, { serial := 0, qk := 64 }, { cm 3 [] with serial := 0, started := true }, sess_of (by decide), by decide +kernel⟩,
   ⟨(asks (cm 0x08 []) (fresh .hot)), 64, (cm 0x08 []), 7, sess_of (by decide), by decide +kernel⟩⟩

theorem test_witness_HintsAndClosing :
    (∃ (s : Machine.State) (qk : Nat) (c : Cmd) (id : Nat),
      NextSess s qk 7 c id ∧ ((s.getSess id).st ∈ [SState.hot, SState.running, SState.idle, SState.parked, SState.reviving] ∨ (s.getSess id).st = SState.moving ∧ (s.getSess id).exporting = false) ∧ field c.raw 32 4 = 0) ∧
    (∃ (s : Machine.State) (qk : Nat) (c : Cmd) (id : Nat),
      NextSess s qk 7 c id ∧ ((s.getSess id).st ∈ [SState.hot, SState.running, SState.idle, SState.parked, SState.reviving] ∨ (s.getSess id).st = SState.moving ∧ (s.getSess id).exporting = false) ∧ field c.raw 32 4 ≠ 0) ∧
    (∃ (s : Machine.State) (qk : Nat) (c : Cmd) (id : Nat),
      NextSess s qk 7 c id ∧ ((s.getSess id).st ∈ [SState.opened, SState.stripped, SState.ended, SState.faulted] ∨ (s.getSess id).st = SState.moving ∧ (s.getSess id).exporting = true)) ∧
    (∃ (s : Machine.State) (qk : Nat) (c : Cmd) (id : Nat),
      NextSess s qk 9 c id ∧ (s.getSess id).st ∈ [SState.hot, SState.idle, SState.parked, SState.stripped, SState.opened, SState.faulted] ∧ (∀ (q : Pub), q ∈ s.dir.pubs → q.sess ≠ id) ∧ (∀ (m : MoveIn), m ∈ s.link.ins → m.sess ≠ id) ∧ (s.getSess id).closeSerial = 0) ∧
    (∃ (s : Machine.State) (qk : Nat) (c : Cmd) (id : Nat),
      NextSess s qk 9 c id ∧ (s.getSess id).st = SState.running ∧ (s.getSess id).step.isSome = true) ∧
    (∃ (s : Machine.State) (qk : Nat) (c : Cmd) (id : Nat),
      NextSess s qk 9 c id ∧ (s.getSess id).st = SState.ended) :=
  ⟨⟨(asks (cm 0x07 []) (fresh .parked)), 64, (cm 0x07 []), 7, sess_of (by decide), by decide +kernel⟩,
   ⟨(asks (cm 0x07 [(32, 4, 1)]) (fresh .hot)), 64, (cm 0x07 [(32, 4, 1)]), 7, sess_of (by decide), by decide +kernel⟩,
   ⟨(asks (cm 0x07 []) ({ fresh .moving with exporting := true })), 64, (cm 0x07 []), 7, sess_of (by decide), by decide +kernel⟩,
   ⟨(asks (cm 0x09 []) (fresh .faulted)), 64, (cm 0x09 []), 7, sess_of (by decide), by decide +kernel⟩,
   ⟨(asks (cm 0x09 []) ({ fresh .running with step := some {} })), 64, (cm 0x09 []), 7, sess_of (by decide), by decide +kernel⟩,
   ⟨(asks (cm 0x09 []) (fresh .ended)), 64, (cm 0x09 []), 7, sess_of (by decide), by decide +kernel⟩⟩

theorem test_witness_AppendsAndGenerates :
    (∃ (s : Machine.State) (qk : Nat) (c : Cmd) (id : Nat),
      NextSess s qk 2 c id ∧ bitAt (byteAt c.raw 36) 0 = false ∧ ((s.getSess id).st = SState.hot ∨ (s.getSess id).st = SState.idle) ∧ field c.raw 32 4 ≠ 0 ∧ field c.raw 32 4 < 2 ^ 32 - 1 ∧ 4 * field c.raw 32 4 ≤ field c.raw 24 4 ∧ (s.getSess id).total + field c.raw 32 4 ≤ 2097152 ∧ ((s.getSess id).total ≠ 0 ∨ (s.getSess id).domain = 0) ∧ s.logRoom id (field c.raw 32 4) = none) ∧
    (∃ (s : Machine.State) (qk : Nat) (c : Cmd) (id : Nat),
      NextSess s qk 2 c id ∧ bitAt (byteAt c.raw 36) 0 = false ∧ (s.getSess id).st = SState.opened ∧ 65 ≤ field c.raw 32 4 ∧ field c.raw 32 4 < 2 ^ 32 - 1 ∧ 4 * field c.raw 32 4 ≤ field c.raw 24 4 ∧ (s.getSess id).total = 0 ∧ field c.raw 32 4 ≤ 2097152 ∧ (s.getSess id).domain ≠ 0) ∧
    (∃ (s : Machine.State) (qk : Nat) (c : Cmd) (id : Nat),
      NextSess s qk 2 c id ∧ bitAt (byteAt c.raw 36) 0 = false ∧ ((s.getSess id).st = SState.hot ∨ (s.getSess id).st = SState.idle ∨ (s.getSess id).st = SState.opened) ∧ (field c.raw 32 4 = 2 ^ 32 - 1 ∨ field c.raw 24 4 < 4 * field c.raw 32 4)) ∧
    (∃ (s : Machine.State) (qk : Nat) (c : Cmd) (id : Nat),
      NextSess s qk 2 c id ∧ bitAt (byteAt c.raw 36) 0 = false ∧ ((s.getSess id).st = SState.hot ∨ (s.getSess id).st = SState.idle ∨ (s.getSess id).st = SState.opened) ∧ field c.raw 32 4 < 2 ^ 32 - 1 ∧ 4 * field c.raw 32 4 ≤ field c.raw 24 4 ∧ 2097152 < (s.getSess id).total + field c.raw 32 4) ∧
    (∃ (s : Machine.State) (qk : Nat) (c : Cmd) (id : Nat),
      NextSess s qk 2 c id ∧ bitAt (byteAt c.raw 36) 0 = false ∧ ((s.getSess id).st = SState.hot ∨ (s.getSess id).st = SState.idle ∨ (s.getSess id).st = SState.opened) ∧ field c.raw 32 4 = 0 ∧ (s.getSess id).total ≤ 2097152) ∧
    (∃ (s : Machine.State) (qk : Nat) (c : Cmd) (id : Nat),
      NextSess s qk 2 c id ∧ bitAt (byteAt c.raw 36) 0 = false ∧ (s.getSess id).st = SState.running) ∧
    (∃ (s : Machine.State) (qk : Nat) (c : Cmd) (id : Nat) (b : Nat),
      NextSess s qk 2 c id ∧ bitAt (byteAt c.raw 36) 0 = false ∧ (s.getSess id).st = SState.parked ∧ field c.raw 32 4 ≠ 0 ∧ field c.raw 32 4 < 2 ^ 32 - 1 ∧ 4 * field c.raw 32 4 ≤ field c.raw 24 4 ∧ (s.getSess id).total + field c.raw 32 4 ≤ 2097152 ∧ b < (s.getSess id).pages.length ∧ ((s.getSess id).desc b).valid = true ∧ ((s.getSess id).desc b).shared = false ∧ 2 ≤ ((s.getSess id).desc b).tier) ∧
    (∃ (s : Machine.State) (qk : Nat) (c : Cmd) (id : Nat),
      NextSess s qk 3 c id ∧ (s.getSess id).kvsvc = false ∧ (s.qs c.qk).emitLog2 ≠ 0 ∧ ((s.getSess id).st = SState.hot ∨ (s.getSess id).st = SState.idle) ∧ field c.raw 32 4 % 2 ^ 20 ≠ 0 ∧ field c.raw 32 4 % 2 ^ 20 ≠ 1048575 ∧ (s.getSess id).total ≠ 0 ∧ (s.getSess id).total ≠ 2097152) ∧
    (∃ (s : Machine.State) (qk : Nat) (c : Cmd) (id : Nat),
      NextSess s qk 3 c id ∧ (s.getSess id).kvsvc = false ∧ (s.qs c.qk).emitLog2 ≠ 0 ∧ ((s.getSess id).st = SState.hot ∨ (s.getSess id).st = SState.idle ∨ (s.getSess id).st = SState.parked) ∧ (field c.raw 32 4 % 2 ^ 20 = 0 ∨ field c.raw 32 4 % 2 ^ 20 = 1048575)) ∧
    (∃ (s : Machine.State) (qk : Nat) (c : Cmd) (id : Nat),
      NextSess s qk 3 c id ∧ (s.getSess id).kvsvc = false ∧ (s.qs c.qk).emitLog2 ≠ 0 ∧ ((s.getSess id).st = SState.hot ∨ (s.getSess id).st = SState.idle) ∧ field c.raw 32 4 % 2 ^ 20 ≠ 0 ∧ field c.raw 32 4 % 2 ^ 20 ≠ 1048575 ∧ (s.getSess id).total = 0) ∧
    (∃ (s : Machine.State) (qk : Nat) (c : Cmd) (id : Nat) (b : Nat),
      NextSess s qk 3 c id ∧ (s.getSess id).kvsvc = false ∧ (s.qs c.qk).emitLog2 ≠ 0 ∧ (s.getSess id).st = SState.parked ∧ field c.raw 32 4 % 2 ^ 20 ≠ 0 ∧ field c.raw 32 4 % 2 ^ 20 ≠ 1048575 ∧ (s.getSess id).total ≠ 0 ∧ (s.getSess id).total ≠ 2097152 ∧ b < (s.getSess id).pages.length ∧ ((s.getSess id).desc b).valid = true ∧ ((s.getSess id).desc b).shared = false ∧ 2 ≤ ((s.getSess id).desc b).tier) :=
  ⟨⟨(asks (cm 0x02 [(24, 4, 4), (32, 4, 1), (36, 1, 0)]) ({ fresh .idle with length := 2097151 })), 64, (cm 0x02 [(24, 4, 4), (32, 4, 1), (36, 1, 0)]), 7, sess_of (by decide), by decide +kernel⟩,
   ⟨(asks (cm 0x02 [(24, 4, 260), (32, 4, 65), (36, 1, 0)]) ({ fresh .opened with domain := 3 })), 64, (cm 0x02 [(24, 4, 260), (32, 4, 65), (36, 1, 0)]), 7, sess_of (by decide), by decide +kernel⟩,
   ⟨(asks (cm 0x02 [(24, 4, 3), (32, 4, 1), (36, 1, 0)]) (fresh .opened)), 64, (cm 0x02 [(24, 4, 3), (32, 4, 1), (36, 1, 0)]), 7, sess_of (by decide), by decide +kernel⟩,
   ⟨(asks (cm 0x02 [(24, 4, 4), (32, 4, 1), (36, 1, 0)]) ({ fresh .idle with length := 2097152 })), 64, (cm 0x02 [(24, 4, 4), (32, 4, 1), (36, 1, 0)]), 7, sess_of (by decide), by decide +kernel⟩,
   ⟨(asks (cm 0x02 [(24, 4, 0), (32, 4, 0), (36, 1, 0)]) ({ fresh .idle with length := 2097152 })), 64, (cm 0x02 [(24, 4, 0), (32, 4, 0), (36, 1, 0)]), 7, sess_of (by decide), by decide +kernel⟩,
   ⟨(asks (cm 0x02 [(24, 4, 4), (32, 4, 1), (36, 1, 0)]) (fresh .running)), 64, (cm 0x02 [(24, 4, 4), (32, 4, 1), (36, 1, 0)]), 7, sess_of (by decide), by decide +kernel⟩,
   ⟨(asks (cm 0x02 [(24, 4, 4), (32, 4, 1), (36, 1, 0)]) ({ fresh .parked with length := 5, pages := [{ valid := true, tier := 2 }] })), 64, (cm 0x02 [(24, 4, 4), (32, 4, 1), (36, 1, 0)]), 7, 0, sess_of (by decide), by decide +kernel⟩,
   ⟨(asks (cm 0x03 [(32, 4, 1)]) ({ fresh .hot with length := 2097151 })), 64, (cm 0x03 [(32, 4, 1)]), 7, sess_of (by decide), by decide +kernel⟩,
   ⟨(asks (cm 0x03 [(32, 4, 1048575)]) (fresh .hot)), 64, (cm 0x03 [(32, 4, 1048575)]), 7, sess_of (by decide), by decide +kernel⟩,
   ⟨(asks (cm 0x03 [(32, 4, 1048574)]) (fresh .hot)), 64, (cm 0x03 [(32, 4, 1048574)]), 7, sess_of (by decide), by decide +kernel⟩,
   ⟨(asks (cm 0x03 [(32, 4, 1)]) ({ fresh .parked with length := 5, pages := [{ valid := true, tier := 2 }] })), 64, (cm 0x03 [(32, 4, 1)]), 7, 0, sess_of (by decide), by decide +kernel⟩⟩

theorem test_witness_ParksStripsAndResumes :
    (∃ (s : Machine.State) (qk : Nat) (c : Cmd) (id : Nat),
      NextSess s qk 4 c id ∧ ((s.getSess id).st = SState.hot ∨ (s.getSess id).st = SState.idle) ∧ s.parkTier (s.getSess id).part = true ∧ s.parkBytes (s.getSess id) ≤ s.parkFree (s.getSess id).part ∧ ∀ (q : Pub), q ∈ s.dir.pubs → q.sess ≠ id) ∧
    (∃ (s : Machine.State) (qk : Nat) (c : Cmd) (id : Nat),
      NextSess s qk 4 c id ∧ ((s.getSess id).st = SState.hot ∨ (s.getSess id).st = SState.idle) ∧ s.parkTier (s.getSess id).part = true ∧ s.parkBytes (s.getSess id) ≤ s.parkFree (s.getSess id).part ∧ (∀ (q : Pub), q ∈ s.dir.pubs → q.sess ≠ id) ∧ ∀ (b : Nat), b < (s.getSess id).pages.length ∧ ((s.getSess id).desc b).valid = true ∧ ((s.getSess id).desc b).shared = false → 2 ≤ ((s.getSess id).desc b).tier) ∧
    (∃ (s : Machine.State) (qk : Nat) (c : Cmd) (id : Nat),
      NextSess s qk 4 c id ∧ ((s.getSess id).st = SState.hot ∨ (s.getSess id).st = SState.idle) ∧ s.parkTier (s.getSess id).part = true ∧ s.parkBytes (s.getSess id) ≤ s.parkFree (s.getSess id).part ∧ (∀ (q : Pub), q ∈ s.dir.pubs → q.sess ≠ id) ∧ (∀ (b : Nat), b < (s.getSess id).pages.length ∧ ((s.getSess id).desc b).valid = true ∧ ((s.getSess id).desc b).shared = false → 2 ≤ ((s.getSess id).desc b).tier) ∧ ∀ (f : FReq), f ∈ s.fab.float → f.onRec = false → f.sess = id → f.kind ≠ FKind.copyExtend) ∧
    (∃ (s : Machine.State) (qk : Nat) (c : Cmd) (id : Nat),
      NextSess s qk 4 c id ∧ ((s.getSess id).st = SState.hot ∨ (s.getSess id).st = SState.idle) ∧ s.parkTier (s.getSess id).part = false) ∧
    (∃ (s : Machine.State) (qk : Nat) (c : Cmd) (id : Nat),
      NextSess s qk 4 c id ∧ (s.getSess id).st ≠ SState.hot ∧ (s.getSess id).st ≠ SState.idle) ∧
    (∃ (s : Machine.State) (qk : Nat) (c : Cmd) (id : Nat),
      NextSess s qk 5 c id ∧ (s.getSess id).st ∈ [SState.opened, SState.hot, SState.idle, SState.parked] ∧ ∀ (q : Pub), q ∈ s.dir.pubs → q.sess ≠ id) ∧
    (∃ (s : Machine.State) (qk : Nat) (c : Cmd) (id : Nat),
      NextSess s qk 5 c id ∧ ¬(s.getSess id).st ∈ [SState.opened, SState.hot, SState.idle, SState.parked]) ∧
    (∃ (s : Machine.State) (qk : Nat) (c : Cmd) (id : Nat) (b : Nat),
      NextSess s qk 6 c id ∧ (s.getSess id).st = SState.parked ∧ (b < (s.getSess id).pages.length ∧ ((s.getSess id).desc b).valid = true ∧ ((s.getSess id).desc b).shared = false) ∧ 2 ≤ ((s.getSess id).desc b).tier) ∧
    (∃ (s : Machine.State) (qk : Nat) (c : Cmd) (id : Nat) (b : Nat),
      NextSess s qk 6 c id ∧ (s.getSess id).st = SState.moving ∧ (s.getSess id).exporting = false ∧ (b < (s.getSess id).pages.length ∧ ((s.getSess id).desc b).valid = true ∧ ((s.getSess id).desc b).shared = false) ∧ 2 ≤ ((s.getSess id).desc b).tier) ∧
    (∃ (s : Machine.State) (qk : Nat) (c : Cmd) (id : Nat),
      NextSess s qk 6 c id ∧ (s.getSess id).st = SState.stripped ∧ ((s.getSess id).domain = 0 ∨ (s.getSess id).log = [])) ∧
    (∃ (s : Machine.State) (qk : Nat) (c : Cmd) (id : Nat),
      NextSess s qk 6 c id ∧ (s.getSess id).st = SState.stripped ∧ (s.getSess id).domain ≠ 0 ∧ 65 ≤ (s.getSess id).log.length) ∧
    (∃ (s : Machine.State) (qk : Nat) (c : Cmd) (id : Nat),
      NextSess s qk 6 c id ∧ ¬(s.getSess id).st ∈ [SState.parked, SState.stripped, SState.moving]) :=
  ⟨⟨(asks (cm 0x04 []) (fresh .hot)), 64, (cm 0x04 []), 7, sess_of (by decide), by decide +kernel⟩,
   ⟨(asks (cm 0x04 []) ({ fresh .hot with pages := [{ valid := true, tier := 2 }] })), 64, (cm 0x04 []), 7, sess_of (by decide), by decide, by decide +kernel, by decide +kernel, by decide, fun b h => by cases Nat.lt_one_iff.mp (show b < 1 from h.1); decide⟩,
   ⟨(asks (cm 0x04 []) ({ fresh .hot with pages := [{ valid := true, tier := 2 }] })), 64, (cm 0x04 []), 7, sess_of (by decide), by decide, by decide +kernel, by decide +kernel, by decide, (fun b h => by cases Nat.lt_one_iff.mp (show b < 1 from h.1); decide), by decide⟩,
   ⟨(orderN (asks (cm 0x04 []) (fresh .hot))), 64, (cm 0x04 []), 7, sess_of (by decide), by decide +kernel⟩,
   ⟨(asks (cm 0x04 []) (fresh .running)), 64, (cm 0x04 []), 7, sess_of (by decide), by decide +kernel⟩,
   ⟨(asks (cm 0x05 []) (fresh .hot)), 64, (cm 0x05 []), 7, sess_of (by decide), by decide +kernel⟩,
   ⟨(asks (cm 0x05 []) (fresh .running)), 64, (cm 0x05 []), 7, sess_of (by decide), by decide +kernel⟩,
   ⟨(asks (cm 0x06 []) ({ fresh .parked with length := 5, pages := [{ valid := true, tier := 2 }] })), 64, (cm 0x06 []), 7, 0, sess_of (by decide), by decide +kernel⟩,
   ⟨(asks (cm 0x06 []) ({ fresh .moving with pages := [{ valid := true, tier := 2 }] })), 64, (cm 0x06 []), 7, 0, sess_of (by decide), by decide +kernel⟩,
   ⟨(asks (cm 0x06 []) (fresh .stripped)), 64, (cm 0x06 []), 7, sess_of (by decide), by decide +kernel⟩,
   ⟨(asks (cm 0x06 []) ({ fresh .stripped with domain := 3, log := List.replicate 65 { tok := 0, src := 0 } })), 64, (cm 0x06 []), 7, sess_of (by decide), by decide +kernel⟩,
   ⟨(asks (cm 0x06 []) (fresh .opened)), 64, (cm 0x06 []), 7, sess_of (by decide), by decide +kernel⟩⟩

theorem test_witness_LoadsFillAndEmptyTheStores :
    (∃ (s : Machine.State) (qk : Nat) (c : Cmd) (data : List Byte),
      Next s qk 32 c ∧ (field c.raw 36 2 ≠ 0 ∧ field c.raw 36 2 ≠ 65535) ∧ (field c.raw 32 4 < 2 ^ 32 - 1 ∧ field c.raw 32 4 ≤ field c.raw 24 4) ∧ stencilOk (fit 0 (field c.raw 32 4) data) = true ∧ tabGet? s.emit.sets (c.part * 65536 + field c.raw 36 2) = none ∧ s.emitPages c.part + ceilDiv (field c.raw 32 4) 4096 ≤ s.emitStore c.part) ∧
    (∃ (s : Machine.State) (qk : Nat) (c : Cmd) (data : List Byte),
      Next s qk 32 c ∧ (field c.raw 36 2 ≠ 0 ∧ field c.raw 36 2 ≠ 65535) ∧ (field c.raw 32 4 < 2 ^ 32 - 1 ∧ field c.raw 32 4 ≤ field c.raw 24 4) ∧ stencilOk (fit 0 (field c.raw 32 4) data) = true ∧ (tabGet? s.emit.sets (c.part * 65536 + field c.raw 36 2)).isSome = true) ∧
    (∃ (s : Machine.State) (qk : Nat) (c : Cmd) (data : List Byte),
      Next s qk 32 c ∧ (field c.raw 36 2 ≠ 0 ∧ field c.raw 36 2 ≠ 65535) ∧ (field c.raw 32 4 < 2 ^ 32 - 1 ∧ field c.raw 32 4 ≤ field c.raw 24 4) ∧ stencilOk (fit 0 (field c.raw 32 4) data) = true ∧ tabGet? s.emit.sets (c.part * 65536 + field c.raw 36 2) = none ∧ s.emitStore c.part < s.emitPages c.part + ceilDiv (field c.raw 32 4) 4096) ∧
    (∃ (s : Machine.State) (qk : Nat) (c : Cmd) (data : List Byte) (f : Profile),
      Next s qk 34 c ∧ (field c.raw 36 2 ≠ 0 ∧ field c.raw 36 2 ≠ 65535) ∧ (field c.raw 32 4 < 2 ^ 32 - 1 ∧ field c.raw 32 4 ≤ field c.raw 24 4) ∧ profileOk (fit 0 (field c.raw 32 4) data) = some f ∧ s.emitPages c.part + f.pages ≤ s.emitStore c.part) ∧
    (∃ (s : Machine.State) (qk : Nat) (c : Cmd) (data : List Byte) (l : List Bytes),
      Next s qk 38 c ∧ (field c.raw 36 2 ≠ 0 ∧ field c.raw 36 2 ≠ 65535) ∧ (field c.raw 32 4 < 2 ^ 32 - 1 ∧ field c.raw 32 4 ≤ field c.raw 24 4) ∧ stopOk (fit 0 (field c.raw 32 4) data) = some l ∧ tabGet? s.text.stops (c.part * 65536 + field c.raw 36 2) = none ∧ s.textPages c.part + 66 ≤ s.textStore c.part) ∧
    (∃ (s : Machine.State) (qk : Nat) (c : Cmd) (data : List Byte) (l : List Bytes),
      Next s qk 38 c ∧ (field c.raw 36 2 ≠ 0 ∧ field c.raw 36 2 ≠ 65535) ∧ (field c.raw 32 4 < 2 ^ 32 - 1 ∧ field c.raw 32 4 ≤ field c.raw 24 4) ∧ stopOk (fit 0 (field c.raw 32 4) data) = some l ∧ (tabGet? s.text.stops (c.part * 65536 + field c.raw 36 2)).isSome = true) ∧
    (∃ (s : Machine.State) (qk : Nat) (c : Cmd) (data : List Byte),
      Next s qk 36 c ∧ byteAt c.raw 36 ≠ 255 ∧ (field c.raw 32 4 < 2 ^ 32 - 1 ∧ field c.raw 32 4 ≤ field c.raw 24 4) ∧ tokOk (fit 0 (field c.raw 32 4) data) (s.model c.part (byteAt c.raw 36)).vocab = true ∧ s.modelInUse c.part (byteAt c.raw 36) = false ∧ tabGet? s.text.toks (c.part * 256 + byteAt c.raw 36) = none ∧ s.textPages c.part + ceilDiv (field c.raw 32 4) 4096 ≤ s.textStore c.part) ∧
    (∃ (s : Machine.State) (qk : Nat) (c : Cmd) (data : List Byte),
      Next s qk 32 c ∧ ¬((field c.raw 32 4 < 2 ^ 32 - 1 ∧ field c.raw 32 4 ≤ field c.raw 24 4) ∧ (field c.raw 36 2 ≠ 0 ∧ field c.raw 36 2 ≠ 65535) ∧ stencilOk (fit 0 (field c.raw 32 4) data) = true)) ∧
    (∃ (s : Machine.State) (qk : Nat) (c : Cmd) (data : List Byte),
      Next s qk 34 c ∧ ¬((field c.raw 32 4 < 2 ^ 32 - 1 ∧ field c.raw 32 4 ≤ field c.raw 24 4) ∧ (field c.raw 36 2 ≠ 0 ∧ field c.raw 36 2 ≠ 65535) ∧ (profileOk (fit 0 (field c.raw 32 4) data)).isSome = true)) ∧
    (∃ (s : Machine.State) (qk : Nat) (c : Cmd) (data : List Byte),
      Next s qk 38 c ∧ ¬((field c.raw 32 4 < 2 ^ 32 - 1 ∧ field c.raw 32 4 ≤ field c.raw 24 4) ∧ (field c.raw 36 2 ≠ 0 ∧ field c.raw 36 2 ≠ 65535) ∧ (stopOk (fit 0 (field c.raw 32 4) data)).isSome = true)) ∧
    (∃ (s : Machine.State) (qk : Nat) (c : Cmd) (data : List Byte),
      Next s qk 36 c ∧ ¬((field c.raw 32 4 < 2 ^ 32 - 1 ∧ field c.raw 32 4 ≤ field c.raw 24 4) ∧ byteAt c.raw 36 ≠ 255 ∧ tokOk (fit 0 (field c.raw 32 4) data) (s.model c.part (byteAt c.raw 36)).vocab = true)) ∧
    (∃ (s : Machine.State) (qk : Nat) (c : Cmd),
      Next s qk 33 c ∧ (field c.raw 36 2 ≠ 0 ∧ field c.raw 36 2 ≠ 65535) ∧ (tabGet? s.emit.sets (c.part * 65536 + field c.raw 36 2)).isSome = true ∧ ∀ (x : Nat × Sess), x ∈ s.live c.part → x.snd.stencilSet ≠ field c.raw 36 2) ∧
    (∃ (s : Machine.State) (qk : Nat) (c : Cmd),
      Next s qk 35 c ∧ (field c.raw 36 2 ≠ 0 ∧ field c.raw 36 2 ≠ 65535) ∧ (tabGet? s.emit.profs (c.part * 65536 + field c.raw 36 2)).isSome = true) ∧
    (∃ (s : Machine.State) (qk : Nat) (c : Cmd),
      Next s qk 39 c ∧ (field c.raw 36 2 ≠ 0 ∧ field c.raw 36 2 ≠ 65535) ∧ (tabGet? s.text.stops (c.part * 65536 + field c.raw 36 2)).isSome = true ∧ ∀ (x : Nat × Sess), x ∈ s.live c.part → x.snd.stopSet ≠ field c.raw 36 2) ∧
    (∃ (s : Machine.State) (qk : Nat) (c : Cmd),
      Next s qk 37 c ∧ byteAt c.raw 36 ≠ 255 ∧ (tabGet? s.text.toks (c.part * 256 + byteAt c.raw 36)).isSome = true ∧ s.modelInUse c.part (byteAt c.raw 36) = false) ∧
    (∃ (s : Machine.State) (qk : Nat) (c : Cmd),
      Next s qk 33 c ∧ (field c.raw 36 2 ≠ 0 ∧ field c.raw 36 2 ≠ 65535) ∧ (tabGet? s.emit.sets (c.part * 65536 + field c.raw 36 2) = none ∨ ∃ (x : Nat × Sess), x ∈ s.live c.part ∧ x.snd.stencilSet = field c.raw 36 2)) ∧
    (∃ (s : Machine.State) (qk : Nat) (c : Cmd),
      Next s qk 35 c ∧ (field c.raw 36 2 ≠ 0 ∧ field c.raw 36 2 ≠ 65535) ∧ tabGet? s.emit.profs (c.part * 65536 + field c.raw 36 2) = none) ∧
    (∃ (s : Machine.State) (qk : Nat) (c : Cmd),
      Next s qk 39 c ∧ (field c.raw 36 2 ≠ 0 ∧ field c.raw 36 2 ≠ 65535) ∧ (tabGet? s.text.stops (c.part * 65536 + field c.raw 36 2) = none ∨ ∃ (x : Nat × Sess), x ∈ s.live c.part ∧ x.snd.stopSet = field c.raw 36 2)) ∧
    (∃ (s : Machine.State) (qk : Nat) (c : Cmd),
      Next s qk 37 c ∧ byteAt c.raw 36 ≠ 255 ∧ (tabGet? s.text.toks (c.part * 256 + byteAt c.raw 36) = none ∨ s.modelInUse c.part (byteAt c.raw 36) = true)) :=
  ⟨⟨(asks (cm 0x20 [(24, 4, 16400), (32, 4, 16400), (36, 2, 5)]) (fresh .hot)), 64, (cm 0x20 [(24, 4, 16400), (32, 4, 16400), (36, 2, 5)]), sten, next_of (by decide), by decide +kernel, by decide +kernel, sten_fit (by decide), by decide +kernel, by decide +kernel⟩,
   ⟨(loaded (asks (cm 0x20 [(24, 4, 16400), (32, 4, 16400), (36, 2, 5)]) (fresh .hot))), 64, (cm 0x20 [(24, 4, 16400), (32, 4, 16400), (36, 2, 5)]), sten, next_of (by decide), by decide +kernel, by decide +kernel, sten_fit (by decide), by decide +kernel⟩,
   ⟨(noCl (asks (cm 0x20 [(24, 4, 16400), (32, 4, 16400), (36, 2, 5)]) (fresh .hot))), 64, (cm 0x20 [(24, 4, 16400), (32, 4, 16400), (36, 2, 5)]), sten, next_of (by decide), by decide +kernel, by decide +kernel, sten_fit (by decide), by decide +kernel, by decide +kernel⟩,
   ⟨(asks (cm 0x22 [(24, 4, 64), (32, 4, 64), (36, 2, 5)]) (fresh .hot)), 64, (cm 0x22 [(24, 4, 64), (32, 4, 64), (36, 2, 5)]), profB, { pages := 1 }, next_of (by decide), by decide +kernel, by decide +kernel, by decide +kernel, by decide +kernel⟩,
   ⟨(asks (cm 0x26 [(24, 4, 65), (32, 4, 65), (36, 2, 5)]) (fresh .hot)), 64, (cm 0x26 [(24, 4, 65), (32, 4, 65), (36, 2, 5)]), stopB, [[66]], next_of (by decide), by decide +kernel, by decide +kernel, by decide +kernel, by decide +kernel, by decide +kernel⟩,
   ⟨(loaded (asks (cm 0x26 [(24, 4, 65), (32, 4, 65), (36, 2, 5)]) (fresh .hot))), 64, (cm 0x26 [(24, 4, 65), (32, 4, 65), (36, 2, 5)]), stopB, [[66]], next_of (by decide), by decide +kernel, by decide +kernel, by decide +kernel, by decide +kernel⟩,
   ⟨(vocab1 (asks (cm 0x24 [(24, 4, 45056), (32, 4, 45056), (36, 2, 1)]) (fresh .hot))), 64, (cm 0x24 [(24, 4, 45056), (32, 4, 45056), (36, 2, 1)]), tokV, next_of (by decide), by decide +kernel, by decide +kernel, tok_fit (by decide) (by decide), by decide +kernel, by decide +kernel, by decide +kernel⟩,
   ⟨(asks (cm 0x20 [(32, 4, 4294967295), (36, 2, 5)]) (fresh .hot)), 64, (cm 0x20 [(32, 4, 4294967295), (36, 2, 5)]), [], next_of (by decide), fun h => absurd h.1 (by decide)⟩,
   ⟨(asks (cm 0x22 [(24, 4, 63), (32, 4, 64), (36, 2, 5)]) (fresh .hot)), 64, (cm 0x22 [(24, 4, 63), (32, 4, 64), (36, 2, 5)]), [], next_of (by decide), fun h => absurd h.1 (by decide)⟩,
   ⟨(asks (cm 0x26 [(24, 4, 64), (32, 4, 65), (36, 2, 5)]) (fresh .hot)), 64, (cm 0x26 [(24, 4, 64), (32, 4, 65), (36, 2, 5)]), [], next_of (by decide), fun h => absurd h.1 (by decide)⟩,
   ⟨(asks (cm 0x24 [(32, 4, 4294967295), (36, 1, 1)]) (fresh .hot)), 64, (cm 0x24 [(32, 4, 4294967295), (36, 1, 1)]), [], next_of (by decide), fun h => absurd h.1 (by decide)⟩,
   ⟨(loaded (asks (cm 0x21 [(36, 2, 5)]) (fresh .hot))), 64, (cm 0x21 [(36, 2, 5)]), next_of (by decide), by decide +kernel⟩,
   ⟨(loaded (asks (cm 0x23 [(36, 2, 5)]) (fresh .hot))), 64, (cm 0x23 [(36, 2, 5)]), next_of (by decide), by decide +kernel⟩,
   ⟨(loaded (asks (cm 0x27 [(36, 2, 5)]) (fresh .hot))), 64, (cm 0x27 [(36, 2, 5)]), next_of (by decide), by decide +kernel⟩,
   ⟨(loaded (asks (cm 0x25 [(36, 1, 1)]) (fresh .hot))), 64, (cm 0x25 [(36, 1, 1)]), next_of (by decide), by decide +kernel⟩,
   ⟨(asks (cm 0x21 [(36, 2, 5)]) (fresh .hot)), 64, (cm 0x21 [(36, 2, 5)]), next_of (by decide), by decide +kernel⟩,
   ⟨(asks (cm 0x23 [(36, 2, 5)]) (fresh .hot)), 64, (cm 0x23 [(36, 2, 5)]), next_of (by decide), by decide +kernel⟩,
   ⟨(asks (cm 0x27 [(36, 2, 5)]) (fresh .hot)), 64, (cm 0x27 [(36, 2, 5)]), next_of (by decide), by decide +kernel⟩,
   ⟨(asks (cm 0x25 [(36, 1, 1)]) (fresh .hot)), 64, (cm 0x25 [(36, 1, 1)]), next_of (by decide), by decide +kernel⟩⟩

theorem test_witness_LanesTokeniseTheirText :
    (∃ (s : Machine.State) (qk : Nat) (c : Cmd),
      Next s qk 40 c ∧ (tabGet? s.text.toks (c.part * 256 + byteAt c.raw 36)).isSome = true ∧ field c.raw 32 4 ≤ field c.raw 24 4 ∧ field c.raw 32 4 ≤ 67108864) ∧
    (∃ (s : Machine.State) (qk : Nat) (c : Cmd),
      Next s qk 40 c ∧ (tabGet? s.text.toks (c.part * 256 + byteAt c.raw 36) = none ∨ field c.raw 24 4 < field c.raw 32 4 ∨ 67108864 < field c.raw 32 4)) ∧
    (∃ (s : Machine.State) (cl : Nat) (j : LaneJob) (l : List LaneJob) (img : Bytes) (c : Cmd),
      s.up = true ∧ tabGet [] s.text.lanes cl = j :: l ∧ tabGet? s.text.toks (j.part * 256 + j.model) = some img ∧ s.cmd? j.serial = some c ∧ j.encode = true ∧ ((tokenise (openTok img) j.text).snd = none ∨ (fitPieces j.room (tokenise (openTok img) j.text).fst).length < (tokenise (openTok img) j.text).fst.length)) ∧
    (∃ (s : Machine.State) (cl : Nat) (j : LaneJob) (l : List LaneJob) (img : Bytes) (c : Cmd),
      s.up = true ∧ tabGet [] s.text.lanes cl = j :: l ∧ tabGet? s.text.toks (j.part * 256 + j.model) = some img ∧ s.cmd? j.serial = some c ∧ j.encode = false ∧ (tokenise (openTok img) j.text).snd = none ∧ handleOf (hId j.handle) (s.getSess (hId j.handle)) = j.handle ∧ ((s.getSess (hId j.handle)).st = SState.hot ∨ (s.getSess (hId j.handle)).st = SState.idle) ∧ (s.getSess (hId j.handle)).exporting = false ∧ ((s.getSess (hId j.handle)).total ≠ 0 ∨ (s.getSess (hId j.handle)).domain = 0) ∧ (List.flatMap (fun (x : PieceTok) => x.toks) (tokenise (openTok img) j.text).fst).length ≠ 0 ∧ (s.getSess (hId j.handle)).total + (List.flatMap (fun (x : PieceTok) => x.toks) (tokenise (openTok img) j.text).fst).length ≤ 2097152 ∧ s.logRoom (hId j.handle) (List.flatMap (fun (x : PieceTok) => x.toks) (tokenise (openTok img) j.text).fst).length = none) ∧
    (∃ (s : Machine.State) (cl : Nat),
      s.up = true ∧ tabGet [] s.text.lanes cl = []) :=
  ⟨⟨(loaded (asks (cm 0x28 [(24, 4, 67108864), (32, 4, 67108864), (36, 1, 1)]) (fresh .hot))), 64, (cm 0x28 [(24, 4, 67108864), (32, 4, 67108864), (36, 1, 1)]), next_of (by decide), by decide +kernel⟩,
   ⟨(loaded (asks (cm 0x28 [(24, 4, 67108865), (32, 4, 67108865), (36, 1, 1)]) (fresh .hot))), 64, (cm 0x28 [(24, 4, 67108865), (32, 4, 67108865), (36, 1, 1)]), next_of (by decide), by decide +kernel⟩,
   ⟨(inLane true (asks (cm 0x28 []) (fresh .hot))), 0, (job true), [], [], (cm 0x28 []), by decide +kernel⟩,
   ⟨(inLane false (asks (cm 0x02 []) ({ fresh .idle with length := 2097151 }))), 0, (job false), [], [], (cm 0x02 []), by decide +kernel⟩,
   ⟨State.reset, 0, by decide +kernel⟩⟩

theorem test_witness_ProgramsSwitchAtBeats :
    (∃ (s : Machine.State) (qk : Nat) (c : Cmd) (data : List Byte) (im : Nat) (ld : Nat) (cw : Nat),
      Next s qk 48 c ∧ field c.raw 32 4 < 2 ^ 32 - 1 ∧ field c.raw 32 4 ≤ field c.raw 24 4 ∧ progFormOk (fit 0 (field c.raw 32 4) data) = true ∧ progNumOk (byteAt (fit 0 (field c.raw 32 4) data) 4) = true ∧ progEntriesOk (fit 0 (field c.raw 32 4) data) = true ∧ byteAt (fit 0 (field c.raw 32 4) data) 1 = 1 ∧ byteAt (fit 0 (field c.raw 32 4) data) 2 = 0 ∧ field (fit 0 (field c.raw 32 4) data) 24 8 < 2 ^ 7 ∧ (s.getPart c.part).conf = false ∧ (∀ (g : Prog), g ∈ s.cores.progs → g.part = c.part → g.id = byteAt (fit 0 (field c.raw 32 4) data) 4 → byteAt (fit 0 (field c.raw 32 4) data) 4 < 32 ∨ g.gone = true) ∧ s.progPlace c.part (fit 0 (field c.raw 32 4) data) = some (im, ld, cw)) ∧
    (∃ (s : Machine.State) (qk : Nat) (c : Cmd) (data : List Byte),
      Next s qk 48 c ∧ field c.raw 32 4 < 2 ^ 32 - 1 ∧ field c.raw 32 4 ≤ field c.raw 24 4 ∧ progFormOk (fit 0 (field c.raw 32 4) data) = false) ∧
    (∃ (s : Machine.State) (qk : Nat) (c : Cmd) (data : List Byte),
      Next s qk 48 c ∧ field c.raw 32 4 < 2 ^ 32 - 1 ∧ field c.raw 32 4 ≤ field c.raw 24 4 ∧ progFormOk (fit 0 (field c.raw 32 4) data) = true ∧ 2 ≤ byteAt (fit 0 (field c.raw 32 4) data) 4 ∧ byteAt (fit 0 (field c.raw 32 4) data) 4 ≠ 4 ∧ byteAt (fit 0 (field c.raw 32 4) data) 4 < 32) ∧
    (∃ (s : Machine.State) (qk : Nat) (c : Cmd) (data : List Byte),
      Next s qk 48 c ∧ field c.raw 32 4 < 2 ^ 32 - 1 ∧ field c.raw 32 4 ≤ field c.raw 24 4 ∧ progFormOk (fit 0 (field c.raw 32 4) data) = true ∧ progNumOk (byteAt (fit 0 (field c.raw 32 4) data) 4) = true ∧ progEntriesOk (fit 0 (field c.raw 32 4) data) = true ∧ byteAt (fit 0 (field c.raw 32 4) data) 1 = 1 ∧ byteAt (fit 0 (field c.raw 32 4) data) 2 = 0 ∧ field (fit 0 (field c.raw 32 4) data) 24 8 < 2 ^ 7 ∧ (s.getPart c.part).conf = true ∧ sigBlockOk 1 (s.getPart c.part).owner "YK-PROG-1" (List.take (progBody (fit 0 (field c.raw 32 4) data)) (fit 0 (field c.raw 32 4) data)) (List.drop (progBody (fit 0 (field c.raw 32 4) data)) (fit 0 (field c.raw 32 4) data)) = false) ∧
    (∃ (s : Machine.State) (qk : Nat) (c : Cmd),
      Next s qk 49 c ∧ (s.livePr c.part (byteAt c.raw 36)).isSome = true) ∧
    (∃ (s : Machine.State) (qk : Nat) (c : Cmd),
      Next s qk 49 c ∧ s.livePr c.part (byteAt c.raw 36) = none) ∧
    (∃ (s : Machine.State) (w : ProgSwitch) (c : Cmd),
      s.up = true ∧ s.beat.tick = 0 ∧ s.beat.hold = false ∧ s.cores.switches = [w] ∧ w.armed = true ∧ s.cmd? w.serial = some c ∧ w.unload = false ∧ ∃ (g : Prog), g ∈ s.cores.progs ∧ g.part = w.part ∧ g.id = w.prog ∧ g.ver = w.ver ∧ g.gone = false) ∧
    (∃ (s : Machine.State) (w : ProgSwitch) (c : Cmd),
      s.up = true ∧ s.beat.tick = 0 ∧ s.beat.hold = false ∧ s.cores.switches = [w] ∧ w.armed = true ∧ s.cmd? w.serial = some c ∧ w.unload = true ∧ (s.livePr w.part w.prog).isSome = true ∧ ∀ (g : Prog), g ∈ s.cores.progs → g.ver ≠ w.ver) ∧
    (∃ (s : Machine.State),
      s.up = true ∧ (s.beat.tick ≠ 0 ∨ s.beat.hold = true)) :=
  ⟨⟨(asks (cm 0x30 [(24, 4, 200), (32, 4, 200)]) (fresh .hot)), 64, (cm 0x30 [(24, 4, 200), (32, 4, 200)]), (progB 32 1770056804), 0x6000, 0x28000, 0x500000, next_of (by decide), by decide +kernel, by decide +kernel, by decide +kernel, by decide +kernel, by decide +kernel, by decide +kernel, by decide +kernel, by decide +kernel, by decide +kernel, by decide +kernel, by decide +kernel⟩,
   ⟨(asks (cm 0x30 [(24, 4, 200), (32, 4, 200)]) (fresh .hot)), 64, (cm 0x30 [(24, 4, 200), (32, 4, 200)]), [], next_of (by decide), by decide +kernel, by decide +kernel, by decide +kernel⟩,
   ⟨(asks (cm 0x30 [(24, 4, 200), (32, 4, 200)]) (fresh .hot)), 64, (cm 0x30 [(24, 4, 200), (32, 4, 200)]), (progB 2 3377556070), next_of (by decide), by decide +kernel, by decide +kernel, by decide +kernel, by decide +kernel, by decide +kernel, by decide +kernel⟩,
   ⟨(conf (asks (cm 0x30 [(24, 4, 200), (32, 4, 200)]) (fresh .hot))), 64, (cm 0x30 [(24, 4, 200), (32, 4, 200)]), (progB 32 1770056804), next_of (by decide), by decide +kernel, by decide +kernel, by decide +kernel, by decide +kernel, by decide +kernel, by decide +kernel, by decide +kernel, by decide +kernel, by decide +kernel, by simp only [sigBlockOk, Bool.and_eq_false_iff]; exact Or.inl (Or.inl (Or.inl (Or.inl (by decide +kernel))))⟩,
   ⟨(live32 (asks (cm 0x31 [(36, 1, 32)]) (fresh .hot))), 64, (cm 0x31 [(36, 1, 32)]), next_of (by decide), by decide +kernel⟩,
   ⟨(asks (cm 0x31 [(36, 1, 32)]) (fresh .hot)), 64, (cm 0x31 [(36, 1, 32)]), next_of (by decide), by decide +kernel⟩,
   ⟨({ asks (cm 0x30 []) (fresh .hot) with cores := { progs := [{ prog1 with live := false }], switches := [{ serial := 1, part := 0, prog := 32, ver := 1, unload := false, armed := true }] } }), { serial := 1, part := 0, prog := 32, ver := 1, unload := false, armed := true }, (cm 0x30 []), by decide +kernel, by decide +kernel, by decide +kernel, by decide +kernel, by decide +kernel, by decide +kernel, by decide +kernel, ⟨{ prog1 with live := false }, by decide +kernel⟩⟩,
   ⟨({ asks (cm 0x30 []) (fresh .hot) with cores := { progs := [{ prog1 with ver := 2 }], switches := [{ serial := 1, part := 0, prog := 32, ver := 1, unload := true, armed := true }] } }), { serial := 1, part := 0, prog := 32, ver := 1, unload := true, armed := true }, (cm 0x30 []), by decide +kernel⟩,
   ⟨({ beat := { hold := true } } : State), by decide +kernel⟩⟩

theorem test_witness_CallsStartRunAndCancel :
    (∃ (s : Machine.State) (qk : Nat) (c : Cmd) (g : Prog),
      Next s qk 50 c ∧ s.livePr c.part (byteAt c.raw 12) = some g ∧ byteAt c.raw 13 % 16 < byteAt g.img 5 % 32 ∧ (progEntry g.img (byteAt c.raw 13 % 16)).kind = 1 ∧ field c.raw 8 4 = 0 ∧ (∀ (x : Call), x ∈ s.cores.calls → x.serial ≠ c.serial ∧ x.id ≠ s.cores.nextInv) ∧ byteAt c.raw 14 = 0 ∧ byteAt c.raw 15 / 8 ∈ s.clustersOf c.part ∧ (s.ctxAt { core := byteAt c.raw 15, ctx := if (progEntry g.img (byteAt c.raw 13 % 16)).cls = 0 then 0 else if (progEntry g.img (byteAt c.raw 13 % 16)).cls = 1 then 1 else if (progEntry g.img (byteAt c.raw 13 % 16)).cls = 2 then 2 else 3 }).queue.length < 64 ∧ (s.qs c.qk).en = true ∧ s.inFlight c.qk < cplFree (s.qs c.qk) ∧ ∀ (x : Call), x ∈ s.cores.calls → x.qk ≠ c.qk ∨ x.accepted = true) ∧
    (∃ (s : Machine.State) (qk : Nat) (c : Cmd) (g : Prog),
      Next s qk 50 c ∧ s.livePr c.part (byteAt c.raw 12) = some g ∧ byteAt c.raw 13 % 16 < byteAt g.img 5 % 32 ∧ (progEntry g.img (byteAt c.raw 13 % 16)).kind = 1 ∧ field c.raw 8 4 = 0 ∧ (∀ (x : Call), x ∈ s.cores.calls → x.serial ≠ c.serial ∧ x.id ≠ s.cores.nextInv) ∧ byteAt c.raw 14 = 1 ∧ byteAt c.raw 15 ∈ s.clustersOf c.part ∧ ∀ (j : Nat), j < 8 → (s.ctxAt { core := 8 * byteAt c.raw 15 + j, ctx := if (progEntry g.img (byteAt c.raw 13 % 16)).cls = 0 then 0 else if (progEntry g.img (byteAt c.raw 13 % 16)).cls = 1 then 1 else if (progEntry g.img (byteAt c.raw 13 % 16)).cls = 2 then 2 else 3 }).queue.length < 64) ∧
    (∃ (s : Machine.State) (qk : Nat) (c : Cmd),
      Next s qk 50 c ∧ s.livePr c.part (byteAt c.raw 12) = none ∧ byteAt c.raw 14 = 0 ∧ byteAt c.raw 15 / 8 ∈ s.clustersOf c.part) ∧
    (∃ (s : Machine.State) (core : Nat) (ctx : Nat) (v : MInv) (l : List MInv) (call : Call) (g : Prog),
      s.up = true ∧ (s.ctxAt { core := core, ctx := ctx }).inv = none ∧ (s.ctxAt { core := core, ctx := ctx }).queue = v :: l ∧ List.find? (fun (k : Call) => k.id == v.call) s.cores.calls = some call ∧ v.args.length = 4 ∧ s.livePr v.part v.prog = some g ∧ (s.onLive v).isSome = true) ∧
    (∃ (s : Machine.State) (core : Nat) (ctx : Nat) (v : MInv) (l : List MInv) (call : Call) (w : MInv),
      s.up = true ∧ (s.ctxAt { core := core, ctx := ctx }).inv = none ∧ (s.ctxAt { core := core, ctx := ctx }).queue = v :: l ∧ List.find? (fun (k : Call) => k.id == v.call) s.cores.calls = some call ∧ v.args.length = 4 ∧ s.onLive v = some w) ∧
    (∃ (s : Machine.State) (core : Nat) (ctx : Nat) (v : MInv) (l : List MInv) (call : Call),
      s.up = true ∧ (s.ctxAt { core := core, ctx := ctx }).inv = none ∧ (s.ctxAt { core := core, ctx := ctx }).queue = v :: l ∧ List.find? (fun (k : Call) => k.id == v.call) s.cores.calls = some call ∧ v.args.length = 4 ∧ s.onLive v = none ∧ v.event = 0) ∧
    (∃ (s : Machine.State) (core : Nat) (ctx : Nat) (v : MInv),
      s.up = true ∧ (s.ctxAt { core := core, ctx := ctx }).inv = some v ∧ v.maxBeats ≠ 0 ∧ v.maxBeats ≤ (s.beat.num + 2 ^ 48 - v.startBeat) % 2 ^ 48) ∧
    (∃ (s : Machine.State) (core : Nat) (ctx : Nat) (v : MInv),
      s.up = true ∧ (s.ctxAt { core := core, ctx := ctx }).inv = some v ∧ (v.maxBeats = 0 ∨ (s.beat.num + 2 ^ 48 - v.startBeat) % 2 ^ 48 < v.maxBeats)) ∧
    (∃ (s : Machine.State) (qk : Nat) (c : Cmd) (k : Call) (e : Cmd),
      Next s qk 51 c ∧ s.cores.calls = [k] ∧ k.part = c.part ∧ k.cancelled = false ∧ k.accepted = true ∧ k.cores ≠ [] ∧ k.id < 2 ^ 32 ∧ field c.raw 32 4 = k.id ∧ s.cmd? k.serial = some e ∧ k.serial ≠ c.serial) ∧
    (∃ (s : Machine.State) (qk : Nat) (c : Cmd),
      Next s qk 51 c ∧ s.cores.calls = []) :=
  ⟨⟨(live32 (asks (cm 0x32 [(8, 4, 0), (12, 1, 32)]) (fresh .hot))), 64, (cm 0x32 [(8, 4, 0), (12, 1, 32)]), prog1, next_of (by decide), by decide +kernel⟩,
   ⟨(live32 (asks (cm 0x32 [(8, 4, 0), (12, 1, 32), (14, 1, 1)]) (fresh .hot))), 64, (cm 0x32 [(8, 4, 0), (12, 1, 32), (14, 1, 1)]), prog1, next_of (by decide), by decide +kernel⟩,
   ⟨(asks (cm 0x32 [(8, 4, 0), (12, 1, 32), (15, 1, 7)]) (fresh .hot)), 64, (cm 0x32 [(8, 4, 0), (12, 1, 32), (15, 1, 7)]), next_of (by decide), by decide +kernel⟩,
   ⟨(queued ({ inv0 with call := 5, args := [1, 2, 3, 4] })), 0, 3, { inv0 with call := 5, args := [1, 2, 3, 4] }, [], call1, prog1, by decide +kernel⟩,
   ⟨(queued ({ inv0 with call := 5, args := [1, 2, 3, 4] })), 0, 3, { inv0 with call := 5, args := [1, 2, 3, 4] }, [], call1, ((State.onLive (queued ({ inv0 with call := 5, args := [1, 2, 3, 4] })) ({ inv0 with call := 5, args := [1, 2, 3, 4] })).get (by decide +kernel)), by decide +kernel, by decide +kernel, by decide +kernel, by decide +kernel, by decide +kernel, (Option.some_get _).symm⟩,
   ⟨(queued ({ inv0 with call := 5, args := [1, 2, 3, 4], entry := 31 })), 0, 3, { inv0 with call := 5, args := [1, 2, 3, 4], entry := 31 }, [], call1, by decide +kernel⟩,
   ⟨({ runs ({ inv0 with maxBeats := 3, startBeat := 2 ^ 48 - 1 }) {} 0 {} with beat := { num := 2 } }), 0, 0, { inv0 with maxBeats := 3, startBeat := 2 ^ 48 - 1 }, by decide +kernel⟩,
   ⟨({ runs ({ inv0 with maxBeats := 3, startBeat := 2 ^ 48 - 1 }) {} 0 {} with beat := { num := 1 } }), 0, 0, { inv0 with maxBeats := 3, startBeat := 2 ^ 48 - 1 }, by decide +kernel⟩,
   ⟨({ asks (cm 0x33 [(32, 4, 5)]) (fresh .hot) with cores := { calls := [{ call1 with serial := 0, accepted := true }] }, host := { cmds := [(cm 0x33 [(32, 4, 5)]), { cm 0x32 [] with serial := 0, started := true }] } }), 64, (cm 0x33 [(32, 4, 5)]), { call1 with serial := 0, accepted := true }, { cm 0x32 [] with serial := 0, started := true }, next_of (by decide), by decide +kernel⟩,
   ⟨(asks (cm 0x33 []) (fresh .hot)), 64, (cm 0x33 []), next_of (by decide), by decide +kernel⟩⟩

theorem test_witness_LookupsWalkTheDirectory :
    (∃ (s : Machine.State) (cl : Nat) (q : LaneReq) (l : List LaneReq) (w : Walk),
      s.up = true ∧ tabGet [] s.dir.lanes cl = q :: l ∧ q.kind = LaneKind.chain ∧ List.find? (fun (v : Walk) => v.sess == q.sess) s.dir.walks = some w ∧ w.keys.length < 8) ∧
    (∃ (s : Machine.State) (part : Nat) (w : Walk) (k : Nat) (ks : List Nat),
      s.up = true ∧ leastBy (fun (x : Walk) => x.arr) (List.filter (fun (v : Walk) => v.phase == WalkPhase.walk && !v.keys.isEmpty && (s.getSess v.sess).part == part) s.dir.walks) = some w ∧ w.keys = k :: ks ∧ s.turn part w.arr = false) ∧
    (∃ (s : Machine.State) (part : Nat) (w : Walk) (k : Nat) (ks : List Nat) (e : Nat),
      s.up = true ∧ leastBy (fun (x : Walk) => x.arr) (List.filter (fun (v : Walk) => v.phase == WalkPhase.walk && !v.keys.isEmpty && (s.getSess v.sess).part == part) s.dir.walks) = some w ∧ w.keys = k :: ks ∧ s.turn part w.arr = true ∧ s.search0 part (s.getSess w.sess).domain (s.getSess w.sess).model k = some e ∧ w.held = none ∧ 64 * (w.b + 2) ≤ w.n - 1) ∧
    (∃ (s : Machine.State) (part : Nat) (w : Walk) (k : Nat) (ks : List Nat) (c : Cmd),
      s.up = true ∧ leastBy (fun (x : Walk) => x.arr) (List.filter (fun (v : Walk) => v.phase == WalkPhase.walk && !v.keys.isEmpty && (s.getSess v.sess).part == part) s.dir.walks) = some w ∧ w.keys = k :: ks ∧ s.turn part w.arr = true ∧ s.search0 part (s.getSess w.sess).domain (s.getSess w.sess).model k = none ∧ w.held = none ∧ w.hits = [] ∧ w.b = 0 ∧ w.resume = false ∧ s.cmd? w.serial = some c ∧ s.link.ins = [] ∧ s.logRoom w.sess w.toks.length = none) ∧
    (∃ (s : Machine.State) (part : Nat) (w : Walk) (c : Cmd),
      s.up = true ∧ leastBy (fun (x : Walk) => x.arr) (List.filter (fun (v : Walk) => v.phase == WalkPhase.tailSlot && (s.getSess v.sess).part == part) s.dir.walks) = some w ∧ s.turn part w.arr = true ∧ s.cmd? w.serial = some c ∧ s.link.ins = []) ∧
    (∃ (s : Machine.State) (n : Nat),
      s.up = true ∧ tabGet [] s.dir.lanes n = []) ∧
    (∃ (s : Machine.State),
      s.up = true ∧ s.dir.walks = []) :=
  ⟨⟨(dirSt (dom3 .hot) { lanes := [(0, [{ sess := 7, kind := .chain }])], walks := [walk []] }), 0, { sess := 7, kind := .chain }, [], (walk []), by decide +kernel⟩,
   ⟨(dirSt (dom3 .hot) { walks := [{ walk [5] with arr := 1 }], retires := [{ serial := 1, part := 0, todo := [9] }] }), 0, { walk [5] with arr := 1 }, 5, [], by decide +kernel⟩,
   ⟨(dirSt (dom3 .hot) { slots := [(320, slot 3 5)], walks := [walk [5]] }), 0, (walk [5]), 5, [], 100, by decide +kernel⟩,
   ⟨(dirSt (dom3 .hot) { slots := [(320, slot 4 5)], walks := [walk [5]] }), 0, (walk [5]), 5, [], (cm 0x10 []), by decide +kernel⟩,
   ⟨(dirSt (dom3 .hot) { walks := [{ walk [] with phase := .tailSlot }] }), 0, { walk [] with phase := .tailSlot }, (cm 0x10 []), by decide +kernel⟩,
   ⟨State.reset, 31, by decide +kernel⟩,
   ⟨State.reset, by decide +kernel⟩⟩

theorem test_witness_PublishesTakeTheirSlots :
    (∃ (s : Machine.State) (qk : Nat) (c : Cmd) (id : Nat),
      NextSess s qk 16 c id ∧ (s.getSess id).st ≠ SState.hot ∧ (s.getSess id).st ≠ SState.idle) ∧
    (∃ (s : Machine.State) (qk : Nat) (c : Cmd) (id : Nat),
      NextSess s qk 16 c id ∧ ((s.getSess id).st = SState.hot ∨ (s.getSess id).st = SState.idle) ∧ (s.getSess id).domain = 0) ∧
    (∃ (s : Machine.State) (qk : Nat) (c : Cmd) (id : Nat),
      NextSess s qk 16 c id ∧ ((s.getSess id).st = SState.hot ∨ (s.getSess id).st = SState.idle) ∧ (s.getSess id).domain ≠ 0 ∧ (field c.raw 32 4 % 2 ^ 22 < 64 ∨ (s.getSess id).length < field c.raw 32 4 % 2 ^ 22 ∨ field c.raw 32 4 % 2 ^ 22 = 4194303)) ∧
    (∃ (s : Machine.State) (qk : Nat) (c : Cmd) (id : Nat),
      NextSess s qk 16 c id ∧ ((s.getSess id).st = SState.hot ∨ (s.getSess id).st = SState.idle) ∧ (s.getSess id).domain ≠ 0 ∧ 64 ≤ field c.raw 32 4 % 2 ^ 22 ∧ field c.raw 32 4 % 2 ^ 22 ≤ (s.getSess id).length ∧ field c.raw 32 4 % 2 ^ 22 ≠ 4194303 ∧ ∃ (e : Desc), e ∈ List.take (field c.raw 32 4 % 2 ^ 22 / 64) (s.getSess id).pages ∧ e.shared = true ∧ (s.dirRec e.ix).st ≠ RState.valid) ∧
    (∃ (s : Machine.State) (qk : Nat) (c : Cmd) (id : Nat),
      NextSess s qk 16 c id ∧ ((s.getSess id).st = SState.hot ∨ (s.getSess id).st = SState.idle) ∧ (s.getSess id).domain ≠ 0 ∧ 64 ≤ field c.raw 32 4 % 2 ^ 22 ∧ field c.raw 32 4 % 2 ^ 22 ≤ (s.getSess id).length ∧ field c.raw 32 4 % 2 ^ 22 ≠ 4194303 ∧ (∀ (e : Desc), e ∈ List.take (field c.raw 32 4 % 2 ^ 22 / 64) (s.getSess id).pages → e.shared = true → (s.dirRec e.ix).st = RState.valid) ∧ s.rowsFree (s.getSess id).part (List.filter (fun (k : Nat) => (s.search0 (s.getSess id).part (s.getSess id).domain (s.getSess id).model k).isNone) (chains (chainRoot (s.getSess id).domain (s.getSess id).model) (s.getSess id).log 0 (field c.raw 32 4 % 2 ^ 22 / 64))) = true ∧ ((List.filter (fun (k : Nat) => (s.search0 (s.getSess id).part (s.getSess id).domain (s.getSess id).model k).isNone) (chains (chainRoot (s.getSess id).domain (s.getSess id).model) (s.getSess id).log 0 (field c.raw 32 4 % 2 ^ 22 / 64))).length + if field c.raw 32 4 % 2 ^ 22 % 64 = 0 then 0 else 1) ≤ s.recsFree (s.getSess id).part) ∧
    (∃ (s : Machine.State) (part : Nat) (q : Pub),
      s.up = true ∧ leastBy (fun (x : Pub) => x.arr) (List.filter (fun (p : Pub) => p.part == part && s.pubReady p) s.dir.pubs) = some q ∧ s.turn part q.arr = false) ∧
    (∃ (s : Machine.State) (part : Nat) (q : Pub) (c : Cmd) (b : Nat) (ix : Nat) (sl : Nat),
      s.up = true ∧ leastBy (fun (x : Pub) => x.arr) (List.filter (fun (p : Pub) => p.part == part && s.pubReady p) s.dir.pubs) = some q ∧ s.turn part q.arr = true ∧ s.cmd? q.serial = some c ∧ q.step = PubStep.reserve b ∧ s.search0 q.part q.domain q.model (q.chains.getD b 0) = none ∧ (b + 1 < q.d ∨ q.tailFill = 0) ∧ s.freeRec q.part = some ix ∧ s.lowSlot (rowOf (s.getPart q.part) (q.chains.getD b 0)) = some sl) ∧
    (∃ (s : Machine.State) (part : Nat) (q : Pub) (c : Cmd) (b : Nat),
      s.up = true ∧ leastBy (fun (x : Pub) => x.arr) (List.filter (fun (p : Pub) => p.part == part && s.pubReady p) s.dir.pubs) = some q ∧ s.turn part q.arr = true ∧ s.cmd? q.serial = some c ∧ q.step = PubStep.reserve b ∧ s.search0 q.part q.domain q.model (q.chains.getD b 0) = none ∧ (s.freeRec q.part = none ∨ s.lowSlot (rowOf (s.getPart q.part) (q.chains.getD b 0)) = none)) ∧
    (∃ (s : Machine.State) (part : Nat) (q : Pub) (c : Cmd),
      s.up = true ∧ leastBy (fun (x : Pub) => x.arr) (List.filter (fun (p : Pub) => p.part == part && s.pubReady p) s.dir.pubs) = some q ∧ s.turn part q.arr = true ∧ s.cmd? q.serial = some c ∧ q.step = PubStep.switch) ∧
    (∃ (s : Machine.State) (part : Nat) (q : Pub) (c : Cmd) (b : Nat),
      s.up = true ∧ leastBy (fun (x : Pub) => x.arr) (List.filter (fun (p : Pub) => p.part == part && s.pubReady p) s.dir.pubs) = some q ∧ s.turn part q.arr = true ∧ s.cmd? q.serial = some c ∧ q.step = PubStep.validate b ∧ (q.firstNew = 0 ∨ q.pointPassed = true) ∧ (s.dirRec (q.ixs.getD b 0)).st = RState.writing) ∧
    (∃ (s : Machine.State) (part : Nat) (q : Pub) (c : Cmd),
      s.up = true ∧ leastBy (fun (x : Pub) => x.arr) (List.filter (fun (p : Pub) => p.part == part && s.pubReady p) s.dir.pubs) = some q ∧ s.turn part q.arr = true ∧ s.cmd? q.serial = some c ∧ q.step = PubStep.done ∧ (s.getSess q.sess).st ≠ SState.free) :=
  ⟨⟨(asks (cm 0x10 []) (fresh .running)), 64, (cm 0x10 []), 7, sess_of (by decide), by decide +kernel⟩,
   ⟨(asks (cm 0x10 []) (fresh .hot)), 64, (cm 0x10 []), 7, sess_of (by decide), by decide +kernel⟩,
   ⟨(asks (cm 0x10 [(32, 4, 65)]) ({ dom3 .idle with length := 64 })), 64, (cm 0x10 [(32, 4, 65)]), 7, sess_of (by decide), by decide +kernel⟩,
   ⟨(asks (cm 0x10 [(32, 4, 64)]) ({ dom3 .idle with length := 64, pages := [{ valid := true, shared := true, ix := 9 }] })), 64, (cm 0x10 [(32, 4, 64)]), 7, sess_of (by decide), by decide +kernel⟩,
   ⟨(asks (cm 0x10 [(32, 4, 64)]) ({ dom3 .hot with length := 64, log := log64, pages := [{ valid := true }] })), 64, (cm 0x10 [(32, 4, 64)]), 7, sess_of (by decide), by decide +kernel⟩,
   ⟨(dirSt (dom3 .hot) { pubs := [{ pub (.reserve 0) with arr := 1 }], retires := [{ serial := 1, part := 0, todo := [9] }] }), 0, { pub (.reserve 0) with arr := 1 }, by decide +kernel⟩,
   ⟨(dirSt (dom3 .hot) { pubs := [(pub (.reserve 0))] }), 0, (pub (.reserve 0)), (cm 0x10 []), 0, 0, 320, by decide +kernel⟩,
   ⟨(dirSt (dom3 .hot) { pubs := [(pub (.reserve 0))], slots := fullRow }), 0, (pub (.reserve 0)), (cm 0x10 []), 0, by decide +kernel⟩,
   ⟨(dirSt (dom3 .hot) { pubs := [(pub .switch)] }), 0, (pub .switch), (cm 0x10 []), by decide +kernel⟩,
   ⟨(dirSt (dom3 .hot) { pubs := [(pub (.validate 0))], recs := [(9, { st := .writing })] }), 0, (pub (.validate 0)), (cm 0x10 []), 0, by decide +kernel⟩,
   ⟨(dirSt (dom3 .hot) { pubs := [(pub .done)] }), 0, (pub .done), (cm 0x10 []), by decide +kernel⟩⟩

theorem test_witness_RetirementsLearningAndScans :
    (∃ (s : Machine.State) (qk : Nat) (c : Cmd),
      Next s qk 17 c ∧ (s.getPart c.part).rowBase * 64 ≤ field c.raw 32 4 % 2 ^ 18 ∧ field c.raw 32 4 % 2 ^ 18 < ((s.getPart c.part).rowBase + (s.getPart c.part).rows) * 64 ∧ (s.dirRec (field c.raw 32 4 % 2 ^ 18)).st = RState.valid) ∧
    (∃ (s : Machine.State) (qk : Nat) (c : Cmd),
      Next s qk 17 c ∧ ¬((s.getPart c.part).rowBase * 64 ≤ field c.raw 32 4 % 2 ^ 18 ∧ field c.raw 32 4 % 2 ^ 18 < ((s.getPart c.part).rowBase + (s.getPart c.part).rows) * 64 ∧ (s.dirRec (field c.raw 32 4 % 2 ^ 18)).st = RState.valid)) ∧
    (∃ (s : Machine.State) (qk : Nat) (c : Cmd),
      Next s qk 18 c ∧ field c.raw 32 2 ≠ 0 ∧ s.domBound c.part (field c.raw 32 2) = true) ∧
    (∃ (s : Machine.State) (qk : Nat) (c : Cmd),
      Next s qk 18 c ∧ (field c.raw 32 2 = 0 ∨ s.domBound c.part (field c.raw 32 2) = false)) ∧
    (∃ (s : Machine.State) (part : Nat) (r : Retire),
      s.up = true ∧ leastBy (fun (x : Retire) => x.arr) (List.filter (fun (q : Retire) => q.part == part) s.dir.retires) = some r ∧ s.turn part r.arr = false) ∧
    (∃ (s : Machine.State) (part : Nat) (r : Retire) (ix : Nat) (row : Nat),
      s.up = true ∧ leastBy (fun (x : Retire) => x.arr) (List.filter (fun (q : Retire) => q.part == part) s.dir.retires) = some r ∧ s.turn part r.arr = true ∧ r.below = some (ix, row)) ∧
    (∃ (s : Machine.State) (part : Nat) (r : Retire) (ix : Nat) (l : List Nat),
      s.up = true ∧ leastBy (fun (x : Retire) => x.arr) (List.filter (fun (q : Retire) => q.part == part) s.dir.retires) = some r ∧ s.turn part r.arr = true ∧ r.below = none ∧ r.todo = ix :: l ∧ ((s.dirRec ix).st = RState.valid ∨ (s.dirRec ix).st = RState.writing)) ∧
    (∃ (s : Machine.State) (part : Nat) (r : Retire) (row : Nat),
      s.up = true ∧ leastBy (fun (x : Retire) => x.arr) (List.filter (fun (q : Retire) => q.part == part) s.dir.retires) = some r ∧ s.turn part r.arr = true ∧ r.below = none ∧ r.todo = [] ∧ r.sweepRow = some row) ∧
    (∃ (s : Machine.State) (part : Nat) (r : Retire) (c : Cmd),
      s.up = true ∧ leastBy (fun (x : Retire) => x.arr) (List.filter (fun (q : Retire) => q.part == part) s.dir.retires) = some r ∧ s.turn part r.arr = true ∧ r.below = none ∧ r.todo = [] ∧ r.sweepRow = none ∧ s.cmd? r.serial = some c ∧ byteAt c.raw 0 ≠ 85) ∧
    (∃ (s : Machine.State) (id : Nat) (n : Learn) (k : Nat) (ix : Nat),
      s.up = true ∧ List.find? (fun (m : Learn) => m.sess == id) s.dir.learns = some n ∧ n.key = some k ∧ (s.getSess id).st ∈ [SState.hot, SState.running, SState.idle] ∧ s.learnable (s.getSess id) n.block = true ∧ n.block < (s.getSess id).pages.length ∧ s.turn (s.getSess id).part n.arr = true ∧ s.search0 (s.getSess id).part (s.getSess id).domain (s.getSess id).model k = some ix) ∧
    (∃ (s : Machine.State) (id : Nat) (n : Learn) (k : Nat) (ix : Nat) (h : Nat),
      s.up = true ∧ List.find? (fun (m : Learn) => m.sess == id) s.dir.learns = some n ∧ n.key = some k ∧ (s.getSess id).st ∈ [SState.hot, SState.running, SState.idle] ∧ s.learnable (s.getSess id) n.block = true ∧ n.block < (s.getSess id).pages.length ∧ s.turn (s.getSess id).part n.arr = true ∧ s.search0 (s.getSess id).part (s.getSess id).domain (s.getSess id).model k = none ∧ s.highSlot (rowOf (s.getPart (s.getSess id).part) k) = some h ∧ s.freeRec (s.getSess id).part = some ix) ∧
    (∃ (s : Machine.State) (id : Nat) (n : Learn) (k : Nat),
      s.up = true ∧ List.find? (fun (m : Learn) => m.sess == id) s.dir.learns = some n ∧ n.key = some k ∧ (s.getSess id).st ∈ [SState.hot, SState.running, SState.idle] ∧ s.learnable (s.getSess id) n.block = true ∧ n.block < (s.getSess id).pages.length ∧ s.turn (s.getSess id).part n.arr = true ∧ s.search0 (s.getSess id).part (s.getSess id).domain (s.getSess id).model k = none ∧ s.highSlot (rowOf (s.getPart (s.getSess id).part) k) = none ∧ (∀ (e : Nat × Slot), e ∈ s.rowSlots (rowOf (s.getPart (s.getSess id).part) k) → e.snd.domain ≠ (s.getSess id).domain ∨ e.snd.valid = false ∨ (s.dirRec e.snd.ix).published = true ∨ (s.dirRec e.snd.ix).refs ≠ 0) ∧ ((s.getSess id).step.bind fun (x : InStep) => x.stall) ≠ some 6) ∧
    (∃ (s : Machine.State) (part : Nat) (e : Nat × Nat) (k : Nat),
      s.up = true ∧ List.find? (fun (f : Nat × Nat) => f.fst == part) s.dir.rebuild = some e ∧ s.turn part (tabGet 0 s.dir.rebuildArr part) = true ∧ (s.dirRec e.snd).st = RState.valid ∧ (if (s.dirRec e.snd).published = true then s.lowSlot (rowOf (s.getPart part) (s.dirRec e.snd).chain) else s.highSlot (rowOf (s.getPart part) (s.dirRec e.snd).chain)) = some k) ∧
    (∃ (s : Machine.State) (part : Nat) (e : Nat × Nat),
      s.up = true ∧ List.find? (fun (f : Nat × Nat) => f.fst == part) s.dir.rebuild = some e ∧ s.turn part (tabGet 0 s.dir.rebuildArr part) = true ∧ (s.dirRec e.snd).st = RState.valid ∧ (if (s.dirRec e.snd).published = true then s.lowSlot (rowOf (s.getPart part) (s.dirRec e.snd).chain) else s.highSlot (rowOf (s.getPart part) (s.dirRec e.snd).chain)) = none) ∧
    (∃ (s : Machine.State) (part : Nat) (e : Nat × Nat),
      s.up = true ∧ List.find? (fun (f : Nat × Nat) => f.fst == part) s.dir.rebuild = some e ∧ s.turn part (tabGet 0 s.dir.rebuildArr part) = true ∧ (s.dirRec e.snd).st ≠ RState.valid ∧ (s.dirRec e.snd).st ≠ RState.writing) ∧
    (∃ (s : Machine.State) (part : Nat) (q : FaultScan),
      s.up = true ∧ List.find? (fun (d : FaultScan) => d.part == part) s.dir.scans = some q ∧ s.bulkOpen part = false) ∧
    (∃ (s : Machine.State) (part : Nat) (q : FaultScan),
      s.up = true ∧ List.find? (fun (d : FaultScan) => d.part == part) s.dir.scans = some q ∧ s.bulkOpen part = true ∧ ((s.getSess q.next).part ≠ part ∨ s.holds (s.getSess q.next) q.ix = false) ∧ q.next + 1 < ((s.getPart part).groupBase + (s.getPart part).groups) * 4096) ∧
    (∃ (s : Machine.State) (part : Nat) (q : FaultScan),
      s.up = true ∧ List.find? (fun (d : FaultScan) => d.part == part) s.dir.scans = some q ∧ s.bulkOpen part = true ∧ (s.getSess q.next).st = SState.hot ∧ (s.getSess q.next).part = part ∧ s.holds (s.getSess q.next) q.ix = true ∧ (s.getSess q.next).lostCopy ≠ 3 ∧ (s.getSess q.next).open? = none ∧ (s.getSess q.next).held = none ∧ (s.getSess q.next).closeSerial = 0 ∧ (∀ (p : Pub), p ∈ s.dir.pubs → p.sess ≠ q.next) ∧ ∀ (m : MoveIn), m ∈ s.link.ins → m.sess ≠ q.next) :=
  ⟨⟨(rec639 (asks (cm 0x11 [(32, 4, 639)]) (fresh .hot))), 64, (cm 0x11 [(32, 4, 639)]), next_of (by decide), by decide +kernel⟩,
   ⟨(rec639 (asks (cm 0x11 [(32, 4, 640)]) (fresh .hot))), 64, (cm 0x11 [(32, 4, 640)]), next_of (by decide), by decide +kernel⟩,
   ⟨(asks (cm 0x12 [(32, 2, 3)]) (fresh .hot)), 64, (cm 0x12 [(32, 2, 3)]), next_of (by decide), by decide +kernel⟩,
   ⟨(asks (cm 0x12 [(32, 2, 4)]) (fresh .hot)), 64, (cm 0x12 [(32, 2, 4)]), next_of (by decide), by decide +kernel⟩,
   ⟨(dirSt (dom3 .hot) { retires := [{ serial := 1, part := 0, todo := [9], arr := 1 }], walks := [walk [5]] }), 0, { serial := 1, part := 0, todo := [9], arr := 1 }, by decide +kernel⟩,
   ⟨(dirSt (dom3 .hot) { retires := [{ serial := 1, part := 0, todo := [], below := some (9, 3) }] }), 0, { serial := 1, part := 0, todo := [], below := some (9, 3) }, 9, 3, by decide +kernel⟩,
   ⟨(dirSt (dom3 .hot) { retires := [{ serial := 1, part := 0, todo := [9] }], recs := [(9, { st := .writing })] }), 0, { serial := 1, part := 0, todo := [9] }, 9, [], by decide +kernel⟩,
   ⟨(dirSt (dom3 .hot) { retires := [{ serial := 1, part := 0, todo := [], sweepRow := some 3 }] }), 0, { serial := 1, part := 0, todo := [], sweepRow := some 3 }, 3, by decide +kernel⟩,
   ⟨(dirSt (dom3 .hot) { retires := [{ serial := 1, part := 0, todo := [] }] }), 0, { serial := 1, part := 0, todo := [] }, (cm 0x10 []), by decide +kernel⟩,
   ⟨(dirSt ({ dom3 .hot with log := log64, pages := [{ valid := true }] }) { learns := [{ sess := 7, block := 0, key := some 5 }], slots := [(320, slot 3 5)] }), 7, { sess := 7, block := 0, key := some 5 }, 5, 100, by decide +kernel⟩,
   ⟨(dirSt ({ dom3 .hot with log := log64, pages := [{ valid := true }] }) { learns := [{ sess := 7, block := 0, key := some 5 }] }), 7, { sess := 7, block := 0, key := some 5 }, 5, 0, 383, by decide +kernel⟩,
   ⟨(dirSt ({ dom3 .hot with log := log64, pages := [{ valid := true }] }) { learns := [{ sess := 7, block := 0, key := some 5 }], slots := fullRow }), 7, { sess := 7, block := 0, key := some 5 }, 5, by decide +kernel⟩,
   ⟨(dirSt (dom3 .hot) { rebuild := [(0, 9)], recs := [(9, { st := .valid, published := true, chain := 5 })] }), 0, (0, 9), 320, by decide +kernel⟩,
   ⟨(dirSt (dom3 .hot) { rebuild := [(0, 9)], recs := [(9, { st := .valid, published := false, chain := 5 })], slots := fullRow }), 0, (0, 9), by decide +kernel⟩,
   ⟨(dirSt (dom3 .hot) { rebuild := [(0, 9)], recs := [(9, { st := .retired, published := false, chain := 5 })] }), 0, (0, 9), by decide +kernel⟩,
   ⟨(inDecode (dirSt (dom3 .hot) { scans := [{ part := 0, ix := 9, next := 7 }] })), 0, { part := 0, ix := 9, next := 7 }, by decide +kernel⟩,
   ⟨(dirSt (dom3 .hot) { scans := [{ part := 0, ix := 9, next := 4094 }] }), 0, { part := 0, ix := 9, next := 4094 }, by decide +kernel⟩,
   ⟨(dirSt ({ dom3 .hot with pages := [{ valid := true, shared := true, ix := 9 }] }) { scans := [{ part := 0, ix := 9, next := 7 }] }), 0, { part := 0, ix := 9, next := 7 }, by decide +kernel⟩⟩

theorem test_witness_KvWritesMoveTheMark :
    (∃ (s : Machine.State) (port : Nat) (part : Nat) (m : Msg) (e : Status),
      s.up = true ∧ s.att.held = [] ∧ s.headMsg port 1 5 = some m ∧ s.portPart port = some part ∧ s.kvCheck part (s.isV10 port) (kvMsgOf port 1 m) = Except.error e) ∧
    (∃ (s : Machine.State) (port : Nat) (part : Nat) (m : Msg) (id : Nat),
      s.up = true ∧ s.att.held = [] ∧ s.headMsg port 1 5 = some m ∧ s.portPart port = some part ∧ (kvMsgOf port 1 m).bodyVer = 1 ∧ s.handle? part (kvMsgOf port 1 m).handle = some id ∧ (s.getSess id).st = SState.hot ∧ (kvMsgOf port 1 m).count ≠ 0 ∧ (kvMsgOf port 1 m).pos % 64 + (kvMsgOf port 1 m).count ≤ 64 ∧ (kvMsgOf port 1 m).kvIn = 0 ∧ (kvMsgOf port 1 m).layer < (s.model (s.getSess id).part (s.getSess id).model).layers ∧ List.length (kvMsgOf port 1 m).data = 4 * (s.model (s.getSess id).part (s.getSess id).model).kvheads * (kvMsgOf port 1 m).count * (s.model (s.getSess id).part (s.getSess id).model).headDim ∧ (kvMsgOf port 1 m).pos < (s.getSess id).length) ∧
    (∃ (s : Machine.State) (port : Nat) (part : Nat) (m : Msg) (id : Nat),
      s.up = true ∧ s.att.held = [] ∧ s.headMsg port 1 5 = some m ∧ s.portPart port = some part ∧ s.kvCheck part (s.isV10 port) (kvMsgOf port 1 m) = Except.ok id ∧ ((s.getSess id).desc ((kvMsgOf port 1 m).pos / 64)).valid = true ∧ ((s.getSess id).desc ((kvMsgOf port 1 m).pos / 64)).shared = false ∧ (s.getSess id).mark (kvMsgOf port 1 m).layer ≤ (kvMsgOf port 1 m).pos ∧ (kvMsgOf port 1 m).pos / 64 < (s.getSess id).pages.length ∧ s.promoting id ((kvMsgOf port 1 m).pos / 64) (kvMsgOf port 1 m).layer ((kvMsgOf port 1 m).pos % 64 == 0) = false ∧ s.link.ins = [] ∧ (s.model (s.getSess id).part (s.getSess id).model).kvheads ≤ 256 ∧ (kvMsgOf port 1 m).layer + 1 = (s.model (s.getSess id).part (s.getSess id).model).layers) ∧
    (∃ (s : Machine.State) (port : Nat) (part : Nat) (m : Msg) (id : Nat),
      s.up = true ∧ s.att.held = [] ∧ s.headMsg port 1 5 = some m ∧ s.portPart port = some part ∧ s.kvCheck part (s.isV10 port) (kvMsgOf port 1 m) = Except.ok id ∧ ((s.getSess id).desc ((kvMsgOf port 1 m).pos / 64)).valid = true ∧ ((s.getSess id).desc ((kvMsgOf port 1 m).pos / 64)).shared = false ∧ (s.getSess id).mark (kvMsgOf port 1 m).layer ≤ (kvMsgOf port 1 m).pos ∧ (kvMsgOf port 1 m).pos / 64 < (s.getSess id).pages.length ∧ s.promoting id ((kvMsgOf port 1 m).pos / 64) (kvMsgOf port 1 m).layer ((kvMsgOf port 1 m).pos % 64 == 0) = false ∧ s.link.ins = [] ∧ (s.model (s.getSess id).part (s.getSess id).model).kvheads ≤ 256 ∧ (kvMsgOf port 1 m).layer + 1 ≠ (s.model (s.getSess id).part (s.getSess id).model).layers) ∧
    (∃ (s : Machine.State) (port : Nat) (part : Nat) (m : Msg) (id : Nat),
      s.up = true ∧ s.att.held = [] ∧ s.headMsg port 1 5 = some m ∧ s.portPart port = some part ∧ s.kvCheck part (s.isV10 port) (kvMsgOf port 1 m) = Except.ok id ∧ ((s.getSess id).desc ((kvMsgOf port 1 m).pos / 64)).valid = true ∧ ((s.getSess id).desc ((kvMsgOf port 1 m).pos / 64)).shared = false ∧ (s.getSess id).mark (kvMsgOf port 1 m).layer ≤ (kvMsgOf port 1 m).pos ∧ (kvMsgOf port 1 m).pos / 64 < (s.getSess id).pages.length ∧ s.promoting id ((kvMsgOf port 1 m).pos / 64) (kvMsgOf port 1 m).layer ((kvMsgOf port 1 m).pos % 64 == 0) = false ∧ s.link.ins = [] ∧ (s.model (s.getSess id).part (s.getSess id).model).kvheads ≤ 256 ∧ (s.model (s.getSess id).part (s.getSess id).model).kvFmt = 0 ∧ (kvMsgOf port 1 m).kvIn = 1) ∧
    (∃ (s : Machine.State) (port : Nat) (part : Nat) (m : Msg) (id : Nat),
      s.up = true ∧ s.att.held = [] ∧ s.headMsg port 1 5 = some m ∧ s.portPart port = some part ∧ s.kvCheck part (s.isV10 port) (kvMsgOf port 1 m) = Except.ok id ∧ ((s.getSess id).desc ((kvMsgOf port 1 m).pos / 64)).valid = true ∧ ((s.getSess id).desc ((kvMsgOf port 1 m).pos / 64)).shared = false ∧ (s.getSess id).mark (kvMsgOf port 1 m).layer ≤ (kvMsgOf port 1 m).pos ∧ (kvMsgOf port 1 m).pos / 64 < (s.getSess id).pages.length ∧ s.promoting id ((kvMsgOf port 1 m).pos / 64) (kvMsgOf port 1 m).layer ((kvMsgOf port 1 m).pos % 64 == 0) = false ∧ s.link.ins = [] ∧ (s.model (s.getSess id).part (s.getSess id).model).kvheads ≤ 256 ∧ (kvMsgOf port 1 m).layer = 0) ∧
    (∃ (s : Machine.State) (port : Nat) (m : Msg),
      s.up = true ∧ s.headMsg port 2 3 = some m ∧ s.kvReadStatus (kvReadOf port m) = Status.ok ∧ (s.takeMsg port 2 m).walkFault (kvReadOf port m).sess ((kvReadOf port m).pos / 64) PageCheck.ok = none) ∧
    (∃ (s : Machine.State) (port : Nat) (m : Msg) (t : Machine.State),
      s.up = true ∧ s.headMsg port 2 3 = some m ∧ s.kvReadStatus (kvReadOf port m) = Status.ok ∧ (s.takeMsg port 2 m).walkFault (kvReadOf port m).sess ((kvReadOf port m).pos / 64) PageCheck.ok = some t) ∧
    (∃ (s : Machine.State) (port : Nat) (m : Msg),
      s.up = true ∧ s.headMsg port 2 3 = some m ∧ s.kvReadStatus (kvReadOf port m) ≠ Status.ok) ∧
    (∃ (s : Machine.State) (id : Nat) (r : KvRead),
      s.up = true ∧ List.find? (fun (q : KvRead) => q.sess == id) s.att.reads = some r ∧ (s.port r.port).st = PortSt.up ∧ (s.portPart r.port).isSome = true) :=
  ⟨⟨(inbox (kvs 5) (kvm 5 0 2 0)), 2, 0, (kvm 5 0 2 0), .versionUnsupported, by decide +kernel, by decide +kernel, by decide +kernel, by decide +kernel, error_of (by decide +kernel)⟩,
   ⟨(inbox (kvs 5) (kvm 4 0 1 0)), 2, 0, (kvm 4 0 1 0), 7, by decide +kernel⟩,
   ⟨(inbox (kvs 6) (kvm 5 1 1 0)), 2, 0, (kvm 5 1 1 0), 7, by decide +kernel, by decide +kernel, by decide +kernel, by decide +kernel, ok_of (by decide +kernel), by decide +kernel⟩,
   ⟨(inbox (kvs 5) (kvm 5 0 1 0)), 2, 0, (kvm 5 0 1 0), 7, by decide +kernel, by decide +kernel, by decide +kernel, by decide +kernel, ok_of (by decide +kernel), by decide +kernel⟩,
   ⟨(inbox (kvs 5) (kvm 5 0 1 1)), 2, 0, (kvm 5 0 1 1), 7, by decide +kernel, by decide +kernel, by decide +kernel, by decide +kernel, ok_of (by decide +kernel), by decide +kernel⟩,
   ⟨(inbox (kvs 5) (kvm 5 0 1 0)), 2, 0, (kvm 5 0 1 0), 7, by decide +kernel, by decide +kernel, by decide +kernel, by decide +kernel, ok_of (by decide +kernel), by decide +kernel⟩,
   ⟨(inbox (kvs 5) (kvr 5)), 2, (kvr 5), by decide +kernel⟩,
   ⟨(inbox short (kvr 5)), 2, (kvr 5), (((State.takeMsg (inbox short (kvr 5)) 2 2 (kvr 5)).walkFault 7 0 .ok).get (by decide +kernel)), by decide +kernel, by decide +kernel, by decide +kernel, (Option.some_get _).symm⟩,
   ⟨(inbox (kvs 5) (kvr 6)), 2, (kvr 6), by decide +kernel⟩,
   ⟨({ inbox (kvs 5) (kvr 5) with att := { models := [(0, mdl)], reads := [{ port := 2, handle := h7, sess := 7, pos := 0, layer := 1, count := 5, replyVc := 2 }] } }), 7, { port := 2, handle := h7, sess := 7, pos := 0, layer := 1, count := 5, replyVc := 2 }, by decide +kernel⟩⟩

theorem test_witness_AttentionIsDealtAndAnswered :
    (∃ (s : Machine.State) (port : Nat) (part : Nat) (m : Msg) (e : Status),
      s.up = true ∧ s.headMsg port 1 4 = some m ∧ s.portPart port = some part ∧ (s.roster part).fixed = true ∧ s.qCheck part (byteAt m.body 9 % 16) (qMsgOf port 1 m) = Except.error e ∧ (s.port port).st = PortSt.up) ∧
    (∃ (s : Machine.State) (port : Nat) (part : Nat) (m : Msg) (id : Nat),
      s.up = true ∧ s.headMsg port 1 4 = some m ∧ s.portPart port = some part ∧ (s.roster part).fixed = true ∧ s.qCheck part (byteAt m.body 9 % 16) (qMsgOf port 1 m) = Except.ok id) ∧
    (∃ (s : Machine.State),
      s.up = true ∧ s.tick % 16 ≠ 0) ∧
    (∃ (s : Machine.State),
      s.up = true ∧ s.tick % 16 = 0) ∧
    (∃ (s : Machine.State) (core : Nat) (it : AttItem) (l : List AttItem) (r : QReq),
      s.up = true ∧ tabGet [] s.att.decodeQ core = it :: l ∧ List.find? (fun (q : QReq) => q.id == it.req) s.att.reqs = some r ∧ s.eventProg r.part 1 = none ∧ s.stdReady { core := core, ctx := InvClass.decode.ctx } = true ∧ (s.port r.port).st = PortSt.up ∧ (s.portPart r.port).isSome = true ∧ r.vc = 1 ∧ it.cont = false ∧ it.row = 0 ∧ it.rows = 1 ∧ r.groups = [(0, 1)] ∧ r.outs = [] ∧ r.todo = [] ∧ r.dealt = [(0, core)] ∧ r.parts = [] ∧ s.finishCluster r (core / 8) = core / 8 ∧ r.wantLse = false ∧ s.learning r = false ∧ (r.kept ≠ [] ∨ (s.popDecode core).walkFault (hId r.handle) it.block PageCheck.ok = none)) ∧
    (∃ (s : Machine.State) (core : Nat) (it : AttItem) (l : List AttItem) (r : QReq) (check : PageCheck),
      s.up = true ∧ tabGet [] s.att.decodeQ core = it :: l ∧ List.find? (fun (q : QReq) => q.id == it.req) s.att.reqs = some r ∧ s.eventProg r.part 1 = none ∧ s.stdReady { core := core, ctx := InvClass.decode.ctx } = true ∧ (s.port r.port).st = PortSt.up ∧ (s.portPart r.port).isSome = true ∧ r.vc = 1 ∧ it.cont = false ∧ (∀ (q : QReq), q ∈ s.att.reqs → q.id = r.id → q = r) ∧ r.kept = [] ∧ (check = PageCheck.leaf ∨ check = PageCheck.desc ∨ check = PageCheck.page) ∧ ((s.getSess (hId r.handle)).desc it.block).valid = true) ∧
    (∃ (s : Machine.State) (core : Nat) (it : AttItem) (l : List AttItem) (r : QReq),
      s.up = true ∧ tabGet [] s.att.decodeQ core = it :: l ∧ List.find? (fun (q : QReq) => q.id == it.req) s.att.reqs = some r ∧ s.eventProg r.part 1 = none ∧ s.stdReady { core := core, ctx := InvClass.decode.ctx } = true ∧ (s.port r.port).st = PortSt.up ∧ (s.portPart r.port).isSome = true ∧ r.vc = 1 ∧ it.cont = true ∧ it.level = 8 ∧ it.ref2 = 0 ∧ it.row = 0 ∧ r.groups = [(0, 1)] ∧ r.outs = [] ∧ it.cover = s.nodeTotal r 0 8 (s.nodeOf r.part 8 core) ∧ s.finishCluster r (core / 8) = core / 8 ∧ s.learning r = false) ∧
    (∃ (s : Machine.State) (core : Nat) (it : AttItem) (l : List AttItem) (r : QReq),
      s.up = true ∧ tabGet [] s.att.prefillQ core = it :: l ∧ List.find? (fun (q : QReq) => q.id == it.req) s.att.reqs = some r ∧ (s.coreDecodes core = true ∨ s.beat.hold = true ∨ (s.pwin r.part).win ≠ Window.prefill ∨ (s.pwin r.part).d + (s.pwin r.part).f < s.beat.tick + s.prefillEst r it)) ∧
    (∃ (s : Machine.State) (core : Nat) (it : AttItem) (l : List AttItem) (r : QReq),
      s.up = true ∧ tabGet [] s.att.prefillQ core = it :: l ∧ List.find? (fun (q : QReq) => q.id == it.req) s.att.reqs = some r ∧ s.coreDecodes core = false ∧ s.beat.hold = false ∧ s.beat.none_ = false ∧ (s.pwin r.part).win = Window.prefill ∧ r.vc ≠ 1 ∧ r.late = false ∧ s.beat.tick + s.prefillEst r it ≤ (s.pwin r.part).d + (s.pwin r.part).f ∧ s.dieLost r.part = false ∧ s.eventProg r.part 2 = none ∧ s.stdReady { core := core, ctx := InvClass.prefill.ctx } = true ∧ (r.kept ≠ [] ∨ (s.popPrefill core).walkFault (hId r.handle) it.block PageCheck.ok = none)) :=
  ⟨⟨(inbox (stp {}) (qm 4 2)), 2, 0, (qm 4 2), .versionUnsupported, by decide +kernel, by decide +kernel, by decide +kernel, by decide +kernel, error_of (by decide +kernel), by decide +kernel⟩,
   ⟨(inbox (stp {}) (qm 4 1)), 2, 0, (qm 4 1), 7, by decide +kernel, by decide +kernel, by decide +kernel, by decide +kernel, ok_of (by decide +kernel)⟩,
   ⟨{ tick := 15 }, by decide +kernel⟩,
   ⟨{ tick := 16 }, by decide +kernel⟩,
   ⟨(deals ({ req1 with wantLse := false, dealt := [(0, 0)] }) false { req := 9 }), 0, { req := 9 }, [], { req1 with wantLse := false, dealt := [(0, 0)] }, by decide +kernel⟩,
   ⟨(deals req1 false { req := 9 }), 0, { req := 9 }, [], req1, .desc, by decide +kernel⟩,
   ⟨(deals ({ req1 with wantLse := false, dealt := [(0, 0)] }) false { req := 9, cont := true, level := 8 }), 0, { req := 9, cont := true, level := 8 }, [], { req1 with wantLse := false, dealt := [(0, 0)] }, by decide +kernel⟩,
   ⟨({ deals req1 true { req := 9 } with beat := { hold := true } }), 0, { req := 9 }, [], req1, by decide +kernel⟩,
   ⟨({ deals { req1 with vc := 2 } true { req := 9 } with beat := { none_ := false, wins := [(0, { d := 1, f := 10000, win := .prefill })] } }), 0, { req := 9 }, [], { req1 with vc := 2 }, by decide +kernel⟩⟩

theorem test_witness_StepsAreSampledAndCommitted :
    (∃ (s : Machine.State) (port : Nat) (part : Nat) (m : Msg) (e : Status),
      s.up = true ∧ s.headMsg port 1 7 = some m ∧ s.portPart port = some part ∧ (s.roster part).fixed = true ∧ s.logitsCheck part port (pieceOf m) = Except.error e) ∧
    (∃ (s : Machine.State) (port : Nat) (part : Nat) (m : Msg) (id : Nat) (st : InStep),
      s.up = true ∧ s.headMsg port 1 7 = some m ∧ s.portPart port = some part ∧ (s.roster part).fixed = true ∧ s.logitsCheck part port (pieceOf m) = Except.ok id ∧ (s.getSess id).step = some st ∧ s.maskAway (s.getSess id) = false) ∧
    (∃ (s : Machine.State) (port : Nat) (part : Nat) (m : Msg) (id : Nat) (st : InStep),
      s.up = true ∧ s.headMsg port 1 7 = some m ∧ s.portPart port = some part ∧ (s.roster part).fixed = true ∧ s.logitsCheck part port (pieceOf m) = Except.ok id ∧ (s.getSess id).step = some st ∧ s.maskAway (s.getSess id) = true ∧ st.emit.waitStencil = false) ∧
    (∃ (s : Machine.State) (id : Nat) (st : InStep),
      s.up = true ∧ id ∈ s.emit.fetch ∧ (s.getSess id).step = some st) ∧
    (∃ (s : Machine.State) (id : Nat) (st : InStep) (g : Gen),
      s.up = true ∧ (s.getSess id).step = some st ∧ (s.getSess id).open? = some g ∧ st.emit.complete = true ∧ st.committed = false ∧ ¬id ∈ s.emit.fetch ∧ st.emit.ranked = none ∧ st.emit.drawn = none ∧ (s.getSess id).closeSerial = 0 ∧ (s.getSess id).policy ≠ Policy.cold ∧ (∃ (k : Nat), k < 8 ∧ s.stdReady { core := 8 * (s.getSess id).home + k, ctx := InvClass.emit.ctx } = false) ∧ s.eventProg (s.getSess id).part 3 = none) ∧
    (∃ (s : Machine.State) (id : Nat) (st : InStep) (g : Gen),
      s.up = true ∧ (s.getSess id).step = some st ∧ (s.getSess id).open? = some g ∧ st.emit.complete = true ∧ st.committed = false ∧ ¬id ∈ s.emit.fetch ∧ st.emit.ranked = none ∧ st.emit.drawn = none ∧ (s.getSess id).closeSerial = 0 ∧ (s.getSess id).policy ≠ Policy.cold ∧ (∀ (k : Nat), k < 8 → s.stdReady { core := 8 * (s.getSess id).home + k, ctx := InvClass.emit.ctx } = true) ∧ (s.getSess id).cancelReq = true ∧ ((s.qs g.qk).en = false ∨ cplFree (s.qs g.qk) ≠ 0)) ∧
    (∃ (s : Machine.State) (id : Nat) (st : InStep) (g : Gen),
      s.up = true ∧ (s.getSess id).step = some st ∧ (s.getSess id).open? = some g ∧ st.emit.complete = true ∧ st.committed = false ∧ ¬id ∈ s.emit.fetch ∧ st.emit.ranked = none ∧ st.emit.drawn = none ∧ (s.getSess id).closeSerial = 0 ∧ (s.getSess id).policy ≠ Policy.cold ∧ (∀ (k : Nat), k < 8 → s.stdReady { core := 8 * (s.getSess id).home + k, ctx := InvClass.emit.ctx } = true) ∧ (s.getSess id).cancelReq = false ∧ st.profile.temp = 0 ∧ st.profile.k ≠ 0 ∧ st.profile.ends = [] ∧ st.emit.accEnd = false ∧ (s.getSess id).stopSet = 0 ∧ 2 ≤ (s.getSess id).maxnew ∧ (s.getSess id).total + 1 ≠ 2097152 ∧ (s.getSess id).st = SState.running ∧ s.eventProg (s.getSess id).part 4 = none ∧ s.logRoom id 1 = none ∧ (s.getSess id).stageFull = false ∧ st.emit.cands ≠ []) ∧
    (∃ (s : Machine.State) (id : Nat) (st : InStep) (g : Gen),
      s.up = true ∧ (s.getSess id).step = some st ∧ (s.getSess id).open? = some g ∧ st.emit.complete = true ∧ st.committed = false ∧ ¬id ∈ s.emit.fetch ∧ st.emit.ranked = none ∧ st.emit.drawn = none ∧ (s.getSess id).closeSerial = 0 ∧ (s.getSess id).policy ≠ Policy.cold ∧ (∀ (k : Nat), k < 8 → s.stdReady { core := 8 * (s.getSess id).home + k, ctx := InvClass.emit.ctx } = true) ∧ (s.getSess id).cancelReq = false ∧ st.emit.cands = [] ∧ s.deadTok (s.getSess id) = 0) ∧
    (∃ (s : Machine.State) (id : Nat) (st : InStep),
      s.up = true ∧ (s.getSess id).step = some st ∧ (st.emit.complete = false ∨ st.committed = true ∨ id ∈ s.emit.fetch)) :=
  ⟨⟨(inbox (stp {}) (lgm 2)), 2, 0, (lgm 2), .versionUnsupported, by decide +kernel, by decide +kernel, by decide +kernel, by decide +kernel, error_of (by decide +kernel)⟩,
   ⟨(vocab4 (inbox (stp {}) (lgm 1))), 2, 0, (lgm 1), 7, { position := 4 }, by decide +kernel, by decide +kernel, by decide +kernel, by decide +kernel, ok_of (by decide +kernel), by decide +kernel⟩,
   ⟨(vocab4 (uncached (inbox (stp {}) (lgm 1)))), 2, 0, (lgm 1), 7, { position := 4 }, by decide +kernel, by decide +kernel, by decide +kernel, by decide +kernel, ok_of (by decide +kernel), by decide +kernel⟩,
   ⟨({ inbox (stp {}) (lgm 1) with emit := { fetch := [7] } }), 7, { position := 4 }, by decide +kernel⟩,
   ⟨(halted (asks (cm 3 []) (stp (come [(3, 0x3F800000)])))), 7, (come [(3, 0x3F800000)]), { serial := 1, qk := 64 }, by decide +kernel⟩,
   ⟨(asks (cm 3 []) { stp (come [(3, 0x3F800000)]) with cancelReq := true }), 7, (come [(3, 0x3F800000)]), { serial := 1, qk := 64 }, by decide +kernel⟩,
   ⟨(asks (cm 3 []) (stp (come [(3, 0x3F800000)]))), 7, (come [(3, 0x3F800000)]), { serial := 1, qk := 64 }, by decide +kernel⟩,
   ⟨(asks (cm 3 []) (stp (come []))), 7, (come []), { serial := 1, qk := 64 }, by decide +kernel⟩,
   ⟨(asks (cm 3 []) (stp {})), 7, { position := 4 }, by decide +kernel⟩⟩

theorem test_witness_FloatCopiesSwitchesAndReleases :
    (∃ (s : Machine.State) (part : Nat) (f : FReq) (d : Desc) (pl : Place) (s1 : Machine.State),
      s.up = true ∧ s.fab.float = [f] ∧ f.part = part ∧ f.running = false ∧ f.copied = false ∧ f.dst = none ∧ ¬f.kind ∈ [FKind.release, FKind.remirror, FKind.send] ∧ s.quiesced part = false ∧ s.moveSrc f = some d ∧ s.moveHeld f = false ∧ (f.onRec = true ∨ ((s.getSess f.sess).desc f.block).shared = false) ∧ s.fab.chanWait = [] ∧ s.moveDst f d = some (pl, s1) ∧ s.bulkOpen part = true ∧ (s.bulkEndless = true ∨ s.beat.tick + s.unitEst part (if f.units = 0 then (s.moveModel f).hdrBytes else (s.moveModel f).pageBytes.min 262144) d.tier pl.tier ≤ s.beat.period) ∧ s.decodeOn (dieOf d.cluster) = false ∧ s.decodeOn (dieOf pl.cluster) = false) ∧
    (∃ (s : Machine.State) (part : Nat) (f : FReq) (d : Desc) (pl : Place) (s1 : Machine.State),
      s.up = true ∧ s.fab.float = [f] ∧ f.part = part ∧ f.running = false ∧ f.copied = false ∧ f.dst = none ∧ ¬f.kind ∈ [FKind.release, FKind.remirror, FKind.send] ∧ s.quiesced part = false ∧ s.moveSrc f = some d ∧ s.moveHeld f = false ∧ (f.onRec = true ∨ ((s.getSess f.sess).desc f.block).shared = false) ∧ s.fab.chanWait = [] ∧ s.moveDst f d = some (pl, s1) ∧ ¬(s.bulkOpen part = true ∧ (s.bulkEndless = true ∨ s.beat.tick + s.unitEst part (if f.units = 0 then (s.moveModel f).hdrBytes else (s.moveModel f).pageBytes.min 262144) d.tier pl.tier ≤ s.beat.period) ∧ s.decodeOn (dieOf d.cluster) = false ∧ s.decodeOn (dieOf pl.cluster) = false)) ∧
    (∃ (s : Machine.State) (part : Nat) (f : FReq) (d : Desc) (pl : Place),
      s.up = true ∧ s.fab.float = [f] ∧ f.part = part ∧ f.running = true ∧ f.dst = some pl ∧ ¬f.kind ∈ [FKind.release, FKind.remirror, FKind.send] ∧ s.quiesced part = false ∧ s.moveSrc f = some d ∧ s.moveHeld f = false ∧ (f.onRec = true ∨ ((s.getSess f.sess).desc f.block).shared = false) ∧ s.fab.chanWait = [] ∧ f.units + 1 < f.need ∧ s.bulkOpen part = false) ∧
    (∃ (s : Machine.State) (part : Nat) (f : FReq) (d : Desc) (pl : Place),
      s.up = true ∧ s.fab.float = [f] ∧ f.part = part ∧ f.running = true ∧ f.dst = some pl ∧ ¬f.kind ∈ [FKind.release, FKind.remirror, FKind.send] ∧ s.quiesced part = false ∧ s.moveSrc f = some d ∧ s.moveHeld f = false ∧ (f.onRec = true ∨ ((s.getSess f.sess).desc f.block).shared = false) ∧ s.fab.chanWait = [] ∧ f.retried = false) ∧
    (∃ (s : Machine.State) (part : Nat) (f : FReq) (d : Desc) (pl : Place) (ch : Nat),
      s.up = true ∧ s.fab.float = [f] ∧ f.part = part ∧ f.running = true ∧ f.dst = some pl ∧ ¬f.kind ∈ [FKind.release, FKind.remirror, FKind.send] ∧ s.quiesced part = false ∧ s.moveSrc f = some d ∧ s.moveHeld f = false ∧ (f.onRec = true ∨ ((s.getSess f.sess).desc f.block).shared = false) ∧ s.fab.chanWait = [] ∧ s.chanFor f d = some ch) ∧
    (∃ (s : Machine.State) (part : Nat) (f : FReq),
      s.up = true ∧ s.fab.float = [f] ∧ f.part = part ∧ f.running = false ∧ f.kind = FKind.release ∧ f.onRec = false ∧ (s.quiesced part = false ∨ f.queue = FQueue.b) ∧ (s.getSess f.sess).st = SState.ended ∧ s.referred f.sess = false) ∧
    (∃ (s : Machine.State) (part : Nat) (f : FReq) (pl : Place) (r : Rec),
      s.up = true ∧ s.fab.float = [f] ∧ f.part = part ∧ f.running = false ∧ f.copied = true ∧ f.dst = some pl ∧ s.quiesced part = false ∧ s.reqBusy f = false ∧ f.onRec = true ∧ ¬f.kind ∈ [FKind.release, FKind.remirror, FKind.send] ∧ s.dirRec f.sess = r ∧ r.st ≠ RState.free) ∧
    (∃ (s : Machine.State) (part : Nat) (f : FReq) (pl : Place) (x : Sess) (d : Desc),
      s.up = true ∧ s.fab.float = [f] ∧ f.part = part ∧ f.running = false ∧ f.copied = true ∧ f.dst = some pl ∧ s.quiesced part = false ∧ s.reqBusy f = false ∧ f.onRec = false ∧ s.getSess f.sess = x ∧ f.block < x.pages.length ∧ x.desc f.block = d ∧ f.kind ∈ [FKind.demote, FKind.promote, FKind.give]) ∧
    (∃ (s : Machine.State) (part : Nat) (f : FReq) (pl : Place) (x : Sess) (d : Desc),
      s.up = true ∧ s.fab.float = [f] ∧ f.part = part ∧ f.running = false ∧ f.copied = true ∧ f.dst = some pl ∧ s.quiesced part = false ∧ s.reqBusy f = false ∧ f.onRec = false ∧ s.getSess f.sess = x ∧ f.block < x.pages.length ∧ x.desc f.block = d ∧ f.kind = FKind.park ∧ x.st = SState.moving ∧ x.exporting = false) ∧
    (∃ (s : Machine.State) (part : Nat) (f : FReq) (pl : Place) (x : Sess) (d : Desc),
      s.up = true ∧ s.fab.float = [f] ∧ f.part = part ∧ f.running = false ∧ f.copied = true ∧ f.dst = some pl ∧ s.quiesced part = false ∧ s.reqBusy f = false ∧ f.onRec = false ∧ s.getSess f.sess = x ∧ f.block < x.pages.length ∧ x.desc f.block = d ∧ f.kind = FKind.revive ∧ x.st = SState.reviving ∧ x.held = none ∧ ({ x with pages := x.pages.set f.block { d with tier := pl.tier, cluster := pl.cluster, hdrT := pl.hdrT, base := pl.base, hdr := pl.hdr } } : Sess).length ≤ ({ x with pages := x.pages.set f.block { d with tier := pl.tier, cluster := pl.cluster, hdrT := pl.hdrT, base := pl.base, hdr := pl.hdr } } : Sess).covered) ∧
    (∃ (s : Machine.State) (id : Nat) (f : FReq) (pl : Place),
      s.up = true ∧ s.fab.float = [f] ∧ f.kind = FKind.remirror ∧ f.sess = id ∧ f.running = false ∧ f.copied = true ∧ f.dst = some pl ∧ (s.getSess id).lostCopy = 1) ∧
    (∃ (s : Machine.State) (id : Nat) (f : FReq) (pl : Place),
      s.up = true ∧ s.fab.float = [f] ∧ f.kind = FKind.remirror ∧ f.sess = id ∧ f.running = false ∧ f.copied = true ∧ f.dst = some pl ∧ (s.getSess id).lostCopy = 2) ∧
    (∃ (s : Machine.State) (id : Nat) (f : FReq) (pl : Place),
      s.up = true ∧ s.fab.float = [f] ∧ f.kind = FKind.remirror ∧ f.sess = id ∧ f.running = false ∧ f.copied = true ∧ f.dst = some pl ∧ (s.getSess id).otherBad = []) ∧
    (∃ (s : Machine.State) (id : Nat) (f : FReq) (pl : Place),
      s.up = true ∧ s.fab.float = [f] ∧ f.kind = FKind.remirror ∧ f.sess = id ∧ f.running = false ∧ f.copied = true ∧ f.dst = some pl ∧ (s.getSess id).otherBad ≠ []) ∧
    (∃ (s : Machine.State) (id : Nat) (read : List Byte),
      s.up = true ∧ (s.getSess id).st ≠ SState.free ∧ (read = [] ∨ logReadOk read = true) ∧ s.flushDue (s.getSess id) = true ∧ s.hasCopy id (s.getSess id) 2 = true) ∧
    (∃ (s : Machine.State) (id : Nat) (read : List Byte),
      s.up = true ∧ (s.getSess id).st ≠ SState.free ∧ (read = [] ∨ logReadOk read = true) ∧ (s.flushDue (s.getSess id) = false ∨ s.hasCopy id (s.getSess id) 2 = false)) ∧
    (∃ (s : Machine.State) (id : Nat) (read : List Byte),
      s.up = true ∧ (s.getSess id).st ≠ SState.free ∧ read ≠ [] ∧ logReadOk read = false ∧ (s.getSess id).lostCopy = 0) :=
  ⟨⟨(flt (ses (blk 0 0)) (freq .park)), 0, (freq .park), (blk 0 0), (State.parkAt (flt (ses (blk 0 0)) (freq .park)) mdl 0 2 0).1, (State.parkAt (flt (ses (blk 0 0)) (freq .park)) mdl 0 2 0).2, by decide +kernel, by decide +kernel, by decide +kernel, by decide +kernel, by decide +kernel, by decide +kernel, by decide +kernel, by decide +kernel, by decide +kernel, by decide +kernel, by decide +kernel, by decide +kernel, moveDst_park rfl (by decide +kernel) (by decide +kernel), by decide +kernel, by decide +kernel, by decide +kernel, by decide +kernel⟩,
   ⟨(inPrefill (flt (ses (blk 0 0)) (freq .park))), 0, (freq .park), (blk 0 0), (State.parkAt (inPrefill (flt (ses (blk 0 0)) (freq .park))) mdl 0 2 0).1, (State.parkAt (inPrefill (flt (ses (blk 0 0)) (freq .park))) mdl 0 2 0).2, by decide +kernel, by decide +kernel, by decide +kernel, by decide +kernel, by decide +kernel, by decide +kernel, by decide +kernel, by decide +kernel, by decide +kernel, by decide +kernel, by decide +kernel, by decide +kernel, moveDst_park rfl (by decide +kernel) (by decide +kernel), by decide +kernel⟩,
   ⟨(inPrefill (flt (ses (blk 0 0)) ({ freq .park with running := true, dst := some pl1, need := 2 }))), 0, { freq .park with running := true, dst := some pl1, need := 2 }, (blk 0 0), pl1, by decide +kernel⟩,
   ⟨(flt (ses (blk 0 0)) ({ freq .park with running := true, dst := some pl1, need := 2 })), 0, { freq .park with running := true, dst := some pl1, need := 2 }, (blk 0 0), pl1, by decide +kernel⟩,
   ⟨(flt (ses (blk 0 0)) ({ freq .park with running := true, units := 1, dst := some { pl1 with tier := 2 }, need := 2 })), 0, { freq .park with running := true, units := 1, dst := some { pl1 with tier := 2 }, need := 2 }, (blk 0 0), { pl1 with tier := 2 }, 7, by decide +kernel⟩,
   ⟨(flt (fresh .ended) (freq .release)), 0, (freq .release), by decide +kernel⟩,
   ⟨({ flt (ses (blk 0 0)) ({ freq .promote with copied := true, dst := some pl1, onRec := true, sess := 9 }) with dir := { recs := [(9, { st := .valid })] } }), 0, { freq .promote with copied := true, dst := some pl1, onRec := true, sess := 9 }, pl1, { st := .valid }, by decide +kernel⟩,
   ⟨(flt (ses (blk 0 0)) ({ freq .demote with copied := true, dst := some pl1 })), 0, { freq .demote with copied := true, dst := some pl1 }, pl1, (ses (blk 0 0)), (blk 0 0), by decide +kernel⟩,
   ⟨(flt ({ ses (blk 0 0) with st := .moving }) ({ freq .park with copied := true, dst := some pl1 })), 0, { freq .park with copied := true, dst := some pl1 }, pl1, ({ ses (blk 0 0) with st := .moving }), (blk 0 0), by decide +kernel⟩,
   ⟨(flt ({ ses (blk 0 0) with st := .reviving }) ({ freq .revive with copied := true, dst := some pl1 })), 0, { freq .revive with copied := true, dst := some pl1 }, pl1, ({ ses (blk 0 0) with st := .reviving }), (blk 0 0), by decide +kernel⟩,
   ⟨(flt { fresh .hot with lostCopy := 1 } ({ freq .remirror with copied := true, dst := some pl1 })), 7, { freq .remirror with copied := true, dst := some pl1 }, pl1, by decide +kernel⟩,
   ⟨(flt { fresh .hot with lostCopy := 2 } ({ freq .remirror with copied := true, dst := some pl1 })), 7, { freq .remirror with copied := true, dst := some pl1 }, pl1, by decide +kernel⟩,
   ⟨(flt { fresh .hot with lostCopy := 1 } ({ freq .remirror with copied := true, dst := some pl1 })), 7, { freq .remirror with copied := true, dst := some pl1 }, pl1, by decide +kernel⟩,
   ⟨(flt { fresh .hot with lostCopy := 1, otherBad := [0] } ({ freq .remirror with copied := true, dst := some pl1 })), 7, { freq .remirror with copied := true, dst := some pl1 }, pl1, by decide +kernel⟩,
   ⟨(asks (cm 3 []) { fresh .hot with log := [⟨0, 0⟩] }), 7, [], by decide +kernel⟩,
   ⟨(asks (cm 3 []) (fresh .hot)), 7, [], by decide +kernel⟩,
   ⟨(asks (cm 3 []) (fresh .hot)), 7, [1, 0, 0, 0, 0], by decide +kernel⟩⟩

theorem test_witness_ScraperAndPrimerChooseInOrder :
    (∃ (s : Machine.State) (part : Nat),
      s.up = true ∧ ∀ (cl : Nat), cl ∈ s.clustersOf part → ¬cl ∈ s.fab.scrap0 ∧ bits (s.reg Reg.sfWmark part) 0 7 * t0Size ≤ 100 * s.t0Free cl) ∧
    (∃ (s : Machine.State) (part : Nat) (cl : Nat),
      s.up = true ∧ s.clustersOf part = [cl] ∧ s.idleLearned cl = none ∧ tabGet? s.fab.choice part = none ∧ 100 * s.t1Free cl < bits (s.reg Reg.sfWmark part) 16 7 * t1Size ∧ 100 * (s.t1Free cl + s.freeing cl 1) < bits (s.reg Reg.sfWmark part) 24 7 * t1Size ∧ ∃ (n : Nat), ∃ (y : Sess), (n, y) ∈ s.live part ∧ y.home = cl ∧ s.eligible y = true) ∧
    (∃ (s : Machine.State) (part : Nat),
      s.up = true ∧ ∀ (cl : Nat), cl ∈ s.clustersOf part → ¬cl ∈ s.fab.scrap1 ∧ bits (s.reg Reg.sfWmark part) 16 7 * t1Size ≤ 100 * s.t1Free cl) ∧
    (∃ (s : Machine.State) (part : Nat) (id : Nat) (st : SState),
      s.up = true ∧ tabGet? s.fab.choice part = some (id, st) ∧ (s.getSess id).st ≠ st) ∧
    (∃ (s : Machine.State) (part : Nat) (id : Nat) (st : SState),
      s.up = true ∧ tabGet? s.fab.choice part = some (id, st) ∧ (s.getSess id).st = st ∧ (s.getSess id).part = part ∧ (s.getSess id).busyCmd = false ∧ ∀ (q : Pub), q ∈ s.dir.pubs → q.sess ≠ id) ∧
    (∃ (s : Machine.State) (part : Nat) (id : Nat) (st : SState),
      s.up = true ∧ tabGet? s.fab.choice part = some (id, st) ∧ (s.getSess id).st = st ∧ (s.getSess id).part = part ∧ (s.getSess id).busyCmd = false ∧ (∀ (q : Pub), q ∈ s.dir.pubs → q.sess ≠ id) ∧ (s.getSess id).policy = Policy.stripOk) ∧
    (∃ (s : Machine.State) (part : Nat) (id : Nat) (st : SState),
      s.up = true ∧ tabGet? s.fab.choice part = some (id, st) ∧ (s.getSess id).st = st ∧ (s.getSess id).part = part ∧ (s.getSess id).busyCmd = false ∧ (∀ (q : Pub), q ∈ s.dir.pubs → q.sess ≠ id) ∧ (s.getSess id).policy ≠ Policy.stripOk ∧ ∀ (b : Nat), b < (s.getSess id).pages.length → ((s.getSess id).desc b).valid = true → ((s.getSess id).desc b).shared = false → 2 ≤ ((s.getSess id).desc b).tier) ∧
    (∃ (s : Machine.State) (part : Nat) (id : Nat) (st : SState),
      s.up = true ∧ tabGet? s.fab.choice part = some (id, st) ∧ (s.getSess id).st = st ∧ (s.getSess id).part = part ∧ (s.getSess id).busyCmd = false ∧ (∀ (q : Pub), q ∈ s.dir.pubs → q.sess ≠ id) ∧ (s.getSess id).policy ≠ Policy.stripOk ∧ (∀ (b : Nat), b < (s.getSess id).pages.length → ((s.getSess id).desc b).valid = true → ((s.getSess id).desc b).shared = false → 2 ≤ ((s.getSess id).desc b).tier) ∧ ∀ (f : FReq), f ∈ s.fab.float → f.sess = id → f.kind ≠ FKind.copyExtend) ∧
    (∃ (s : Machine.State) (part : Nat),
      s.up = true ∧ ∀ (x : Nat × Sess), x ∈ s.primerDue part → s.reviveFits x.fst = false) ∧
    (∃ (s : Machine.State) (part : Nat) (x : Nat × Sess) (b : Nat),
      s.up = true ∧ List.find? (fun (y : Nat × Sess) => s.reviveFits y.fst) (s.primerDue part) = some x ∧ s.getSess x.fst = x.snd ∧ (∀ (f : FReq), f ∈ s.fab.float → f.sess ≠ x.fst) ∧ b < x.snd.pages.length ∧ (x.snd.desc b).valid = true ∧ (x.snd.desc b).shared = false ∧ 2 ≤ (x.snd.desc b).tier) :=
  ⟨⟨(asks (cm 3 []) (fresh .hot)), 0, by decide +kernel⟩,
   ⟨({ asks (cm 3 []) { fresh .idle with policy := .normal } with fab := { dieT1Out := [0] } }), 0, 0, by decide +kernel, by decide +kernel, by decide +kernel, by decide +kernel, by decide +kernel, by decide +kernel, ⟨7, { fresh .idle with policy := .normal }, by decide +kernel⟩⟩,
   ⟨(asks (cm 3 []) (fresh .hot)), 0, by decide +kernel⟩,
   ⟨({ asks (cm 3 []) (fresh .hot) with fab := { choice := [(0, (7, .idle))] } }), 0, 7, .idle, by decide +kernel⟩,
   ⟨({ asks (cm 3 []) (fresh .idle) with fab := { choice := [(0, (7, .idle))] } }), 0, 7, .idle, by decide +kernel⟩,
   ⟨({ asks (cm 3 []) { fresh .idle with policy := .stripOk } with fab := { choice := [(0, (7, .idle))] } }), 0, 7, .idle, by decide +kernel⟩,
   ⟨({ asks (cm 3 []) { fresh .idle with policy := .normal, pages := [{ valid := true, tier := 2 }] } with fab := { choice := [(0, (7, .idle))] } }), 0, 7, .idle, by decide +kernel, by decide +kernel, by decide +kernel, by decide +kernel, by decide +kernel, by decide +kernel, by decide +kernel, fun b h => by cases Nat.lt_one_iff.mp (show b < 1 from h); decide⟩,
   ⟨({ asks (cm 3 []) { fresh .idle with policy := .normal, pages := [{ valid := true, tier := 2 }] } with fab := { choice := [(0, (7, .idle))] } }), 0, 7, .idle, by decide +kernel, by decide +kernel, by decide +kernel, by decide +kernel, by decide +kernel, by decide +kernel, by decide +kernel, (fun b h => by cases Nat.lt_one_iff.mp (show b < 1 from h); decide), by decide +kernel⟩,
   ⟨(asks (cm 3 []) (fresh .hot)), 0, by decide +kernel⟩,
   ⟨(asks (cm 3 []) { fresh .parked with wakeSet := true, pages := [{ valid := true, tier := 2 }] }), 0, (7, { fresh .parked with wakeSet := true, pages := [{ valid := true, tier := 2 }] }), 0, by decide +kernel⟩⟩

theorem test_witness_IndexesAreWrittenSearchedAndDropped :
    (∃ (s : Machine.State) (qk : Nat) (c : Cmd) (data : List Byte),
      Next s qk 64 c ∧ s.isN = false ∧ (field c.raw 32 4 ≠ 2 ^ 32 - 1 ∧ field c.raw 32 4 ≤ c.len0 ∧ field c.raw 32 4 = 64 + 8 * (field (fit 0 (field c.raw 32 4) data) 4 2 % 2 ^ 13) + 4 * (field (fit 0 (field c.raw 32 4) data) 8 4 % 2 ^ 17) * (field (fit 0 (field c.raw 32 4) data) 4 2 % 2 ^ 13)) ∧ (byteAt (fit 0 (field c.raw 32 4) data) 0 % 16 = 1 ∧ field (fit 0 (field c.raw 32 4) data) 60 4 = crc32c (slice (fit 0 (field c.raw 32 4) data) 0 60) ∧ 1 ≤ byteAt (fit 0 (field c.raw 32 4) data) 1 ∧ byteAt (fit 0 (field c.raw 32 4) data) 1 ≤ 254 ∧ 64 ≤ field (fit 0 (field c.raw 32 4) data) 4 2 % 2 ^ 13 ∧ field (fit 0 (field c.raw 32 4) data) 4 2 % 2 ^ 13 ≤ 4096 ∧ field (fit 0 (field c.raw 32 4) data) 4 2 % 2 ^ 13 % 64 = 0 ∧ 1 ≤ field (fit 0 (field c.raw 32 4) data) 6 2 ∧ field (fit 0 (field c.raw 32 4) data) 6 2 ≤ 65534 ∧ 1 ≤ field (fit 0 (field c.raw 32 4) data) 8 4 % 2 ^ 17 ∧ field (fit 0 (field c.raw 32 4) data) 8 4 % 2 ^ 17 ≤ 65536 ∧ field (fit 0 (field c.raw 32 4) data) 12 4 % 2 ^ 21 ≤ 1048576 ∧ (∀ (k : Nat), k < 2 * (field (fit 0 (field c.raw 32 4) data) 4 2 % 2 ^ 13) + field (fit 0 (field c.raw 32 4) data) 8 4 % 2 ^ 17 * (field (fit 0 (field c.raw 32 4) data) 4 2 % 2 ^ 13) → isFinite (imgVal (fit 0 (field c.raw 32 4) data) k) = true) ∧ ∀ (k : Nat), k < field (fit 0 (field c.raw 32 4) data) 4 2 % 2 ^ 13 → fLt (f32 0) (f32 (imgVal (fit 0 (field c.raw 32 4) data) (field (fit 0 (field c.raw 32 4) data) 4 2 % 2 ^ 13 + k))) = true) ∧ s.domBound c.part (field (fit 0 (field c.raw 32 4) data) 6 2) = true ∧ (s.index c.part (byteAt (fit 0 (field c.raw 32 4) data) 1)).st = IxState.free ∧ cmemPages (field (fit 0 (field c.raw 32 4) data) 8 4 % 2 ^ 17) (field (fit 0 (field c.raw 32 4) data) 4 2 % 2 ^ 13) (field (fit 0 (field c.raw 32 4) data) 12 4 % 2 ^ 21) ≤ s.cmemFree c.part ∧ catalogBytes (field (fit 0 (field c.raw 32 4) data) 8 4 % 2 ^ 17) ≤ s.ixFree c.part) ∧
    (∃ (s : Machine.State) (qk : Nat) (c : Cmd) (data : List Byte),
      Next s qk 64 c ∧ s.isN = false ∧ ¬((field c.raw 32 4 ≠ 2 ^ 32 - 1 ∧ field c.raw 32 4 ≤ c.len0 ∧ field c.raw 32 4 = 64 + 8 * (field (fit 0 (field c.raw 32 4) data) 4 2 % 2 ^ 13) + 4 * (field (fit 0 (field c.raw 32 4) data) 8 4 % 2 ^ 17) * (field (fit 0 (field c.raw 32 4) data) 4 2 % 2 ^ 13)) ∧ byteAt (fit 0 (field c.raw 32 4) data) 0 % 16 = 1 ∧ field (fit 0 (field c.raw 32 4) data) 60 4 = crc32c (slice (fit 0 (field c.raw 32 4) data) 0 60) ∧ 1 ≤ byteAt (fit 0 (field c.raw 32 4) data) 1 ∧ byteAt (fit 0 (field c.raw 32 4) data) 1 ≤ 254 ∧ 64 ≤ field (fit 0 (field c.raw 32 4) data) 4 2 % 2 ^ 13 ∧ field (fit 0 (field c.raw 32 4) data) 4 2 % 2 ^ 13 ≤ 4096 ∧ field (fit 0 (field c.raw 32 4) data) 4 2 % 2 ^ 13 % 64 = 0 ∧ 1 ≤ field (fit 0 (field c.raw 32 4) data) 6 2 ∧ field (fit 0 (field c.raw 32 4) data) 6 2 ≤ 65534 ∧ 1 ≤ field (fit 0 (field c.raw 32 4) data) 8 4 % 2 ^ 17 ∧ field (fit 0 (field c.raw 32 4) data) 8 4 % 2 ^ 17 ≤ 65536 ∧ field (fit 0 (field c.raw 32 4) data) 12 4 % 2 ^ 21 ≤ 1048576 ∧ (∀ (k : Nat), k < 2 * (field (fit 0 (field c.raw 32 4) data) 4 2 % 2 ^ 13) + field (fit 0 (field c.raw 32 4) data) 8 4 % 2 ^ 17 * (field (fit 0 (field c.raw 32 4) data) 4 2 % 2 ^ 13) → isFinite (imgVal (fit 0 (field c.raw 32 4) data) k) = true) ∧ ∀ (k : Nat), k < field (fit 0 (field c.raw 32 4) data) 4 2 % 2 ^ 13 → fLt (f32 0) (f32 (imgVal (fit 0 (field c.raw 32 4) data) (field (fit 0 (field c.raw 32 4) data) 4 2 % 2 ^ 13 + k))) = true)) ∧
    (∃ (s : Machine.State) (qk : Nat) (c : Cmd) (data : List Byte),
      Next s qk 64 c ∧ s.isN = false ∧ (field c.raw 32 4 ≠ 2 ^ 32 - 1 ∧ field c.raw 32 4 ≤ c.len0 ∧ field c.raw 32 4 = 64 + 8 * (field (fit 0 (field c.raw 32 4) data) 4 2 % 2 ^ 13) + 4 * (field (fit 0 (field c.raw 32 4) data) 8 4 % 2 ^ 17) * (field (fit 0 (field c.raw 32 4) data) 4 2 % 2 ^ 13)) ∧ (byteAt (fit 0 (field c.raw 32 4) data) 0 % 16 = 1 ∧ field (fit 0 (field c.raw 32 4) data) 60 4 = crc32c (slice (fit 0 (field c.raw 32 4) data) 0 60) ∧ 1 ≤ byteAt (fit 0 (field c.raw 32 4) data) 1 ∧ byteAt (fit 0 (field c.raw 32 4) data) 1 ≤ 254 ∧ 64 ≤ field (fit 0 (field c.raw 32 4) data) 4 2 % 2 ^ 13 ∧ field (fit 0 (field c.raw 32 4) data) 4 2 % 2 ^ 13 ≤ 4096 ∧ field (fit 0 (field c.raw 32 4) data) 4 2 % 2 ^ 13 % 64 = 0 ∧ 1 ≤ field (fit 0 (field c.raw 32 4) data) 6 2 ∧ field (fit 0 (field c.raw 32 4) data) 6 2 ≤ 65534 ∧ 1 ≤ field (fit 0 (field c.raw 32 4) data) 8 4 % 2 ^ 17 ∧ field (fit 0 (field c.raw 32 4) data) 8 4 % 2 ^ 17 ≤ 65536 ∧ field (fit 0 (field c.raw 32 4) data) 12 4 % 2 ^ 21 ≤ 1048576 ∧ (∀ (k : Nat), k < 2 * (field (fit 0 (field c.raw 32 4) data) 4 2 % 2 ^ 13) + field (fit 0 (field c.raw 32 4) data) 8 4 % 2 ^ 17 * (field (fit 0 (field c.raw 32 4) data) 4 2 % 2 ^ 13) → isFinite (imgVal (fit 0 (field c.raw 32 4) data) k) = true) ∧ ∀ (k : Nat), k < field (fit 0 (field c.raw 32 4) data) 4 2 % 2 ^ 13 → fLt (f32 0) (f32 (imgVal (fit 0 (field c.raw 32 4) data) (field (fit 0 (field c.raw 32 4) data) 4 2 % 2 ^ 13 + k))) = true) ∧ s.domBound c.part (field (fit 0 (field c.raw 32 4) data) 6 2) = true ∧ (s.index c.part (byteAt (fit 0 (field c.raw 32 4) data) 1)).st ≠ IxState.free) ∧
    (∃ (s : Machine.State) (qk : Nat) (c : Cmd) (data : List Byte),
      Next s qk 65 c ∧ s.isN = false ∧ ((s.index c.part (byteAt c.raw 36)).st = IxState.ready ∨ (s.index c.part (byteAt c.raw 36)).st = IxState.compacting) ∧ 1 ≤ field c.raw 32 4 ∧ field c.raw 32 4 ≤ 65536 ∧ c.len0 = field c.raw 32 4 * (24 + 2 * (s.index c.part (byteAt c.raw 36)).dim) ∧ (∀ (w : WriteRec), w ∈ writeRecs (s.index c.part (byteAt c.raw 36)).dim (field c.raw 32 4) (fit 0 (field c.raw 32 4 * (24 + 2 * (s.index c.part (byteAt c.raw 36)).dim)) data) → w.op ≠ 3 ∧ (w.op ≠ 2 → w.vec.all isFinite = true)) ∧ ((s.index c.part (byteAt c.raw 36)).accept s.free c.serial (s.index c.part (byteAt c.raw 36)).nextSeq (field c.raw 32 4) (writeRecs (s.index c.part (byteAt c.raw 36)).dim (field c.raw 32 4) (fit 0 (field c.raw 32 4 * (24 + 2 * (s.index c.part (byteAt c.raw 36)).dim)) data))).bytes ≤ s.ixFree c.part + (s.index c.part (byteAt c.raw 36)).bytes ∧ (s.index c.part (byteAt c.raw 36)).retire.length + (List.filter (fun (w : WriteRec) => w.op != 0) (writeRecs (s.index c.part (byteAt c.raw 36)).dim (field c.raw 32 4) (fit 0 (field c.raw 32 4 * (24 + 2 * (s.index c.part (byteAt c.raw 36)).dim)) data))).length ≤ (s.index c.part (byteAt c.raw 36)).retireMax) ∧
    (∃ (s : Machine.State) (part : Nat) (ix : Nat) (r : IxPend) (rest : List IxPend),
      s.up = true ∧ (s.index part ix).pend = r :: rest ∧ s.retireWaits part ix (s.index part ix) r = true) ∧
    (∃ (s : Machine.State) (part : Nat) (ix : Nat) (r : IxPend) (rest : List IxPend),
      s.up = true ∧ (s.index part ix).pend = r :: rest ∧ s.retireWaits part ix (s.index part ix) r = false ∧ r.last = false) ∧
    (∃ (s : Machine.State) (part : Nat) (ix : Nat) (r : IxPend) (rest : List IxPend) (e : Cmd),
      s.up = true ∧ (s.index part ix).pend = r :: rest ∧ s.cmd? r.serial = some e ∧ (s.index part ix).before = none) ∧
    (∃ (s : Machine.State) (qk : Nat) (c : Cmd) (data : List Byte),
      Next s qk 66 c ∧ s.isN = false ∧ ((s.index c.part (byteAt c.raw 8)).st = IxState.ready ∨ (s.index c.part (byteAt c.raw 8)).st = IxState.compacting) ∧ s.domBound c.part (field c.raw 10 2) = true ∧ field c.raw 10 2 = (s.index c.part (byteAt c.raw 8)).domain ∧ 1 ≤ field c.raw 12 2 ∧ field c.raw 12 2 ≤ 1024 ∧ 1 ≤ field c.raw 14 2 ∧ field c.raw 14 2 ≤ (s.index c.part (byteAt c.raw 8)).cells.min 1024 ∧ 1 ≤ field c.raw 2 2 ∧ field c.raw 2 2 ≤ 256 ∧ byteAt c.raw 9 < 2 ∧ (c.len0 = (s.index c.part (byteAt c.raw 8)).dim * if byteAt c.raw 9 = 0 then 2 else 4) ∧ (searchVals (s.index c.part (byteAt c.raw 8)).dim (byteAt c.raw 9) (fit 0 ((s.index c.part (byteAt c.raw 8)).dim * if byteAt c.raw 9 = 0 then 2 else 4) data)).all isFinite = true ∧ 32 + 32 * field c.raw 12 2 ≤ field c.raw 56 4) ∧
    (∃ (s : Machine.State) (qk : Nat) (c : Cmd) (data : List Byte),
      Next s qk 66 c ∧ s.isN = false ∧ ((s.index c.part (byteAt c.raw 8)).st = IxState.ready ∨ (s.index c.part (byteAt c.raw 8)).st = IxState.compacting) ∧ s.domBound c.part (field c.raw 10 2) = true ∧ field c.raw 10 2 = (s.index c.part (byteAt c.raw 8)).domain ∧ ¬(1 ≤ field c.raw 12 2 ∧ field c.raw 12 2 ≤ 1024 ∧ 1 ≤ field c.raw 14 2 ∧ field c.raw 14 2 ≤ (s.index c.part (byteAt c.raw 8)).cells.min 1024 ∧ 1 ≤ field c.raw 2 2 ∧ field c.raw 2 2 ≤ 256 ∧ byteAt c.raw 9 < 2 ∧ (c.len0 = (s.index c.part (byteAt c.raw 8)).dim * if byteAt c.raw 9 = 0 then 2 else 4) ∧ (searchVals (s.index c.part (byteAt c.raw 8)).dim (byteAt c.raw 9) (fit 0 ((s.index c.part (byteAt c.raw 8)).dim * if byteAt c.raw 9 = 0 then 2 else 4) data)).all isFinite = true ∧ 32 + 32 * field c.raw 12 2 ≤ field c.raw 56 4)) ∧
    (∃ (s : Machine.State) (qk : Nat) (c : Cmd),
      Next s qk 66 c ∧ s.isN = false ∧ ((s.index c.part (byteAt c.raw 8)).st = IxState.ready ∨ (s.index c.part (byteAt c.raw 8)).st = IxState.compacting) ∧ (s.domBound c.part (field c.raw 10 2) = false ∨ field c.raw 10 2 ≠ (s.index c.part (byteAt c.raw 8)).domain)) ∧
    (∃ (s : Machine.State) (qk : Nat) (c : Cmd),
      Next s qk 66 c ∧ s.isN = false ∧ (s.index c.part (byteAt c.raw 8)).st ≠ IxState.ready ∧ (s.index c.part (byteAt c.raw 8)).st ≠ IxState.compacting) ∧
    (∃ (s : Machine.State) (n : Nat) (ch : Nat) (q : Search),
      s.up = true ∧ List.find? (fun (w : Search) => w.serial == n) s.ret.searches = some q ∧ ch < 32 ∧ ¬ch ∈ q.channels ∧ s.ckpt.lostChannels = []) ∧
    (∃ (l : List IxHit) (g : IxHit),
      g ∈ dedupHits l) ∧
    (∃ (l : List IxHit) (h : IxHit),
      h ∈ l) ∧
    (∃ (s : Machine.State) (n : Nat) (q : Search) (e : Cmd),
      s.up = true ∧ List.find? (fun (w : Search) => w.serial == n) s.ret.searches = some q ∧ s.cmd? n = some e ∧ 32 ≤ q.channels.length ∧ s.ctxFree { core := s.mergeCore q, ctx := 2 } = true) ∧
    (∃ (s : Machine.State) (qk : Nat) (c : Cmd),
      s.isN = false ∧ Next s qk 67 c ∧ (s.index c.part (byteAt c.raw 36)).st = IxState.ready) ∧
    (∃ (s : Machine.State) (qk : Nat) (c : Cmd),
      s.isN = false ∧ Next s qk 67 c ∧ (s.index c.part (byteAt c.raw 36)).st ≠ IxState.ready) ∧
    (∃ (s : Machine.State) (qk : Nat) (c : Cmd),
      s.isN = false ∧ Next s qk 68 c ∧ (s.index c.part (byteAt c.raw 36)).st ≠ IxState.free ∧ (s.index c.part (byteAt c.raw 36)).st ≠ IxState.dropping ∧ (s.index c.part (byteAt c.raw 36)).pend = [] ∧ (s.index c.part (byteAt c.raw 36)).compactSerial = 0 ∧ s.ixSearches c.part (byteAt c.raw 36) = []) ∧
    (∃ (s : Machine.State) (qk : Nat) (c : Cmd),
      s.isN = false ∧ Next s qk 68 c ∧ (s.index c.part (byteAt c.raw 36)).st ≠ IxState.free ∧ (s.index c.part (byteAt c.raw 36)).st ≠ IxState.dropping ∧ (s.index c.part (byteAt c.raw 36)).pend = [] ∧ (s.index c.part (byteAt c.raw 36)).compactSerial = 0 ∧ s.ixSearches c.part (byteAt c.raw 36) ≠ []) ∧
    (∃ (s : Machine.State) (qk : Nat) (c : Cmd),
      s.isN = false ∧ Next s qk 68 c ∧ ((s.index c.part (byteAt c.raw 36)).st = IxState.free ∨ (s.index c.part (byteAt c.raw 36)).st = IxState.dropping)) ∧
    (∃ (s : Machine.State) (part : Nat) (ix : Nat),
      s.up = true ∧ (s.index part ix).st = IxState.compacting ∧ (s.index part ix).compactCell + 1 < (s.index part ix).cells) ∧
    (∃ (s : Machine.State) (part : Nat) (ix : Nat),
      s.up = true ∧ (s.index part ix).st = IxState.compacting ∧ (s.index part ix).cells ≤ (s.index part ix).compactCell + 1) ∧
    (∃ (s : Machine.State) (qk : Nat) (c : Cmd),
      s.isN = true ∧ Next s qk 64 c) ∧
    (∃ (s : Machine.State) (qk : Nat) (c : Cmd),
      s.isN = true ∧ Next s qk 66 c) :=
  ⟨⟨(ixRoom (asks (cm 0x40 [(24, 4, 832), (32, 4, 832)]) (fresh .hot))), 64, (cm 0x40 [(24, 4, 832), (32, 4, 832)]), ixB, next_of (by decide), by decide +kernel⟩,
   ⟨(asks (cm 0x40 [(24, 4, 832), (32, 4, 831)]) (fresh .hot)), 64, (cm 0x40 [(24, 4, 832), (32, 4, 831)]), [], next_of (by decide), by decide +kernel, fun h => absurd h.1.2.2 (by decide +kernel)⟩,
   ⟨(ixIs (ix5 .dropping) (asks (cm 0x40 [(24, 4, 832), (32, 4, 832)]) (fresh .hot))), 64, (cm 0x40 [(24, 4, 832), (32, 4, 832)]), ixB, next_of (by decide), by decide +kernel⟩,
   ⟨(ixIs { ix5 .ready with retireMax := 1 } (asks (cm 0x41 [(24, 4, 152), (32, 4, 1), (36, 1, 5)]) (fresh .hot))), 64, (cm 0x41 [(24, 4, 152), (32, 4, 1), (36, 1, 5)]), [2], next_of (by decide), by decide +kernel⟩,
   ⟨({ ixIs { ix5 .ready with pend := [pend1 true], retire := [{ id := 8, seq := 1, prev := 0 }] } {} with ret := { ixs := [(5, { ix5 .ready with pend := [pend1 true], retire := [{ id := 8, seq := 1, prev := 0 }] })], searches := [srch []] } }), 0, 5, (pend1 true), [], by decide +kernel⟩,
   ⟨(ixIs { ix5 .ready with pend := [pend1 false] } {}), 0, 5, (pend1 false), [], by decide +kernel⟩,
   ⟨({ asks (cm 0x41 []) (fresh .hot) with ret := { ixs := [(5, { ix5 .ready with pend := [pend1 true] })] } }), 0, 5, (pend1 true), [], (cm 0x41 []), by decide +kernel⟩,
   ⟨(ixIs (ix5 .ready) (asks (cm 0x42 [(8, 1, 5), (9, 1, 0), (10, 2, 3), (12, 2, 1024), (14, 2, 1), (2, 2, 256), (24, 4, 128), (56, 4, 32800)]) (fresh .hot))), 64, (cm 0x42 [(8, 1, 5), (9, 1, 0), (10, 2, 3), (12, 2, 1024), (14, 2, 1), (2, 2, 256), (24, 4, 128), (56, 4, 32800)]), [], next_of (by decide), by decide +kernel⟩,
   ⟨(ixIs (ix5 .ready) (asks (cm 0x42 [(8, 1, 5), (9, 1, 0), (10, 2, 3), (12, 2, 1025), (14, 2, 1), (2, 2, 256), (24, 4, 128), (56, 4, 32800)]) (fresh .hot))), 64, (cm 0x42 [(8, 1, 5), (9, 1, 0), (10, 2, 3), (12, 2, 1025), (14, 2, 1), (2, 2, 256), (24, 4, 128), (56, 4, 32800)]), [], next_of (by decide), by decide +kernel, by decide +kernel, by decide +kernel, by decide +kernel, fun h => absurd h.2.1 (by decide +kernel)⟩,
   ⟨(ixIs (ix5 .compacting) (asks (cm 0x42 [(8, 1, 5), (9, 1, 0), (10, 2, 4), (12, 2, 1024), (14, 2, 1), (2, 2, 256), (24, 4, 128), (56, 4, 32800)]) (fresh .hot))), 64, (cm 0x42 [(8, 1, 5), (9, 1, 0), (10, 2, 4), (12, 2, 1024), (14, 2, 1), (2, 2, 256), (24, 4, 128), (56, 4, 32800)]), next_of (by decide), by decide +kernel⟩,
   ⟨(ixIs (ix5 .faulted) (asks (cm 0x42 [(8, 1, 5), (9, 1, 0), (10, 2, 3), (12, 2, 1024), (14, 2, 1), (2, 2, 256), (24, 4, 128), (56, 4, 32800)]) (fresh .hot))), 64, (cm 0x42 [(8, 1, 5), (9, 1, 0), (10, 2, 3), (12, 2, 1024), (14, 2, 1), (2, 2, 256), (24, 4, 128), (56, 4, 32800)]), next_of (by decide), by decide +kernel⟩,
   ⟨({ ret := { searches := [srch [0, 1]] } } : State), 1, 31, (srch [0, 1]), by decide +kernel⟩,
   ⟨[{ id := 8, attr := 0, seq := 1, dist := 0 }], { id := 8, attr := 0, seq := 1, dist := 0 }, by decide +kernel⟩,
   ⟨[{ id := 8, attr := 0, seq := 1, dist := 0 }], { id := 8, attr := 0, seq := 1, dist := 0 }, by decide +kernel⟩,
   ⟨({ asks (cm 0x42 []) (fresh .hot) with ret := { searches := [srch (List.range 32)] } }), 1, (srch (List.range 32)), (cm 0x42 []), by decide +kernel⟩,
   ⟨(ixIs (ix5 .ready) (asks (cm 0x43 [(36, 1, 5)]) (fresh .hot))), 64, (cm 0x43 [(36, 1, 5)]), by decide +kernel, next_of (by decide), by decide +kernel⟩,
   ⟨(ixIs (ix5 .compacting) (asks (cm 0x43 [(36, 1, 5)]) (fresh .hot))), 64, (cm 0x43 [(36, 1, 5)]), by decide +kernel, next_of (by decide), by decide +kernel⟩,
   ⟨(ixIs (ix5 .faulted) (asks (cm 0x44 [(36, 1, 5)]) (fresh .hot))), 64, (cm 0x44 [(36, 1, 5)]), by decide +kernel, next_of (by decide), by decide +kernel⟩,
   ⟨(searched <| ixIs (ix5 .ready) (asks (cm 0x44 [(36, 1, 5)]) (fresh .hot))), 64, (cm 0x44 [(36, 1, 5)]), by decide +kernel, next_of (by decide), by decide +kernel⟩,
   ⟨(ixIs (ix5 .dropping) (asks (cm 0x44 [(36, 1, 5)]) (fresh .hot))), 64, (cm 0x44 [(36, 1, 5)]), by decide +kernel, next_of (by decide), by decide +kernel⟩,
   ⟨(ixIs { ix5 .compacting with cells := 2 } {}), 0, 5, by decide +kernel⟩,
   ⟨(ixIs (ix5 .compacting) {}), 0, 5, by decide +kernel⟩,
   ⟨(orderN (asks (cm 0x40 []) (fresh .hot))), 64, (cm 0x40 []), by decide +kernel, next_of (by decide)⟩,
   ⟨(orderN (asks (cm 0x42 []) (fresh .hot))), 64, (cm 0x42 []), by decide +kernel, next_of (by decide)⟩⟩

theorem test_witness_PartitionsAreCreatedBoundAndDestroyed :
    (∃ (s : Machine.State) (qk : Nat) (c : Cmd),
      Next s qk 80 c ∧ s.part.composable = false) ∧
    (∃ (s : Machine.State) (qk : Nat) (c : Cmd),
      Next s qk 80 c ∧ s.part.composable = true ∧ s.partBusy = true) ∧
    (∃ (s : Machine.State) (qk : Nat) (c : Cmd) (data : Bytes),
      Next s qk 80 c ∧ s.part.composable = true ∧ s.partBusy = false ∧ createOk c.raw (createFields c.raw data) = false) ∧
    (∃ (s : Machine.State) (qk : Nat) (c : Cmd) (data : Bytes),
      Next s qk 80 c ∧ s.part.composable = true ∧ s.partBusy = false ∧ createOk c.raw (createFields c.raw data) = true ∧ s.partExists (byteAt c.raw 12 % 16) = false ∧ (∀ (k : Nat), k ∈ (createFields c.raw data).clusters → s.ckpt.lostDies.contains (dieOf k) = false) ∧ s.createOverlaps (createFields c.raw data) = true) ∧
    (∃ (s : Machine.State) (qk : Nat) (c : Cmd) (data : Bytes) (row : Nat),
      Next s qk 80 c ∧ s.part.composable = true ∧ s.partBusy = false ∧ createOk c.raw (createFields c.raw data) = true ∧ s.partExists (byteAt c.raw 12 % 16) = false ∧ (∀ (k : Nat), k ∈ (createFields c.raw data).clusters → s.ckpt.lostDies.contains (dieOf k) = false) ∧ s.createOverlaps (createFields c.raw data) = false ∧ s.quotasFit [(16, (createFields c.raw data).t2Quota, (createFields c.raw data).ixQuota)] = true ∧ s.rowPlace [] (128 * (createFields c.raw data).clusters.length) = some row ∧ s.beat.none_ = false ∧ s.beat.hold = false) ∧
    (∃ (s : Machine.State) (p : Nat) (serial : Nat) (e : Cmd),
      s.up = true ∧ s.part.creating = some (p, serial) ∧ s.cmd? serial = some e ∧ s.atTick0 = false) ∧
    (∃ (s : Machine.State) (p : Nat) (serial : Nat) (e : Cmd),
      s.up = true ∧ s.part.creating = some (p, serial) ∧ s.cmd? serial = some e ∧ s.atTick0 = true ∧ (s.getPart p).conf = true) ∧
    (∃ (s : Machine.State) (qk : Nat) (c : Cmd),
      Next s qk 81 c ∧ s.part.composable = false) ∧
    (∃ (s : Machine.State) (qk : Nat) (c : Cmd),
      Next s qk 81 c ∧ s.part.composable = true ∧ s.partBusy = false ∧ byteAt c.raw 12 < 16 ∧ s.partLive (byteAt c.raw 12 % 16) = true ∧ s.live (byteAt c.raw 12 % 16) = [] ∧ (∀ (f : Nat × Nat), f ∈ s.part.fns → f.snd ≠ byteAt c.raw 12 % 16) ∧ ∀ (r : Nat × Rec), r ∈ s.dir.recs → r.snd.part ≠ byteAt c.raw 12 % 16) ∧
    (∃ (s : Machine.State) (p : Nat) (serial : Nat) (e : Cmd),
      s.up = true ∧ s.part.destroying = some (p, serial) ∧ s.cmd? serial = some e ∧ s.partIdle p = true ∧ (∀ (f : Nat × Nat), f ∈ s.part.fns → f.snd ≠ p) ∧ ∀ (f : Nat × Nat), f ∈ s.part.ports → f.snd ≠ p) ∧
    (∃ (s : Machine.State) (qk : Nat) (c : Cmd),
      Next s qk 83 c ∧ s.part.composable = true ∧ byteAt c.raw 12 < 16 ∧ byteAt c.raw 15 < 16 ∧ byteAt c.raw 32 < 2 ∧ s.partLive (byteAt c.raw 12 % 16) = true ∧ byteAt c.raw 13 = 0 ∧ byteAt c.raw 14 < 2 ∧ bitAt (byteAt c.raw 32) 0 = false ∧ s.fnPart (byteAt c.raw 14 * 17 + 1 + byteAt c.raw 15) = none ∧ s.partOnPort (byteAt c.raw 12 % 16) (byteAt c.raw 14) = false) ∧
    (∃ (s : Machine.State) (qk : Nat) (c : Cmd),
      Next s qk 83 c ∧ s.part.composable = true ∧ byteAt c.raw 12 < 16 ∧ byteAt c.raw 15 < 16 ∧ byteAt c.raw 32 < 2 ∧ s.partLive (byteAt c.raw 12 % 16) = true ∧ byteAt c.raw 13 = 0 ∧ byteAt c.raw 14 < 2 ∧ bitAt (byteAt c.raw 32) 0 = false ∧ ((s.fnPart (byteAt c.raw 14 * 17 + 1 + byteAt c.raw 15)).isSome = true ∨ s.partOnPort (byteAt c.raw 12 % 16) (byteAt c.raw 14) = true)) ∧
    (∃ (s : Machine.State) (qk : Nat) (c : Cmd),
      Next s qk 83 c ∧ s.part.composable = true ∧ byteAt c.raw 12 < 16 ∧ byteAt c.raw 15 < 16 ∧ byteAt c.raw 32 < 2 ∧ s.partLive (byteAt c.raw 12 % 16) = true ∧ byteAt c.raw 13 = 0 ∧ byteAt c.raw 14 < 2 ∧ bitAt (byteAt c.raw 32) 0 = true ∧ s.fnPart (byteAt c.raw 14 * 17 + 1 + byteAt c.raw 15) ≠ some (byteAt c.raw 12 % 16)) ∧
    (∃ (s : Machine.State) (qk : Nat) (c : Cmd),
      Next s qk 83 c ∧ s.part.composable = true ∧ byteAt c.raw 12 < 16 ∧ byteAt c.raw 15 < 16 ∧ byteAt c.raw 32 < 2 ∧ s.partLive (byteAt c.raw 12 % 16) = true ∧ byteAt c.raw 13 = 0 ∧ byteAt c.raw 14 < 2 ∧ bitAt (byteAt c.raw 32) 0 = true ∧ s.fnPart (byteAt c.raw 14 * 17 + 1 + byteAt c.raw 15) = some (byteAt c.raw 12 % 16) ∧ ∀ (q : Nat × QueueSet), q ∈ s.host.qs → q.fst / 64 ≠ byteAt c.raw 14 * 17 + 1 + byteAt c.raw 15) ∧
    (∃ (s : Machine.State) (qk : Nat) (c : Cmd),
      Next s qk 83 c ∧ s.part.composable = true ∧ byteAt c.raw 12 < 16 ∧ byteAt c.raw 15 < 16 ∧ byteAt c.raw 32 < 2 ∧ s.partLive (byteAt c.raw 12 % 16) = true ∧ byteAt c.raw 13 = 1 ∧ byteAt c.raw 14 < 16 ∧ bitAt (byteAt c.raw 32) 0 = false ∧ s.portPart (byteAt c.raw 14) = none ∧ ∃ (k : Nat), k ∈ s.clustersOf (byteAt c.raw 12 % 16) ∧ dieOf k = byteAt c.raw 14 / 4) ∧
    (∃ (s : Machine.State) (qk : Nat) (c : Cmd),
      Next s qk 83 c ∧ s.part.composable = true ∧ byteAt c.raw 12 < 16 ∧ byteAt c.raw 15 < 16 ∧ byteAt c.raw 32 < 2 ∧ s.partLive (byteAt c.raw 12 % 16) = true ∧ byteAt c.raw 13 = 1 ∧ byteAt c.raw 14 < 16 ∧ bitAt (byteAt c.raw 32) 0 = false ∧ ((s.portPart (byteAt c.raw 14)).isSome = true ∨ ∀ (k : Nat), k ∈ s.clustersOf (byteAt c.raw 12 % 16) → dieOf k ≠ byteAt c.raw 14 / 4)) ∧
    (∃ (s : Machine.State) (qk : Nat) (c : Cmd),
      Next s qk 83 c ∧ s.part.composable = true ∧ byteAt c.raw 12 < 16 ∧ byteAt c.raw 15 < 16 ∧ byteAt c.raw 32 < 2 ∧ s.partLive (byteAt c.raw 12 % 16) = true ∧ byteAt c.raw 13 = 1 ∧ byteAt c.raw 14 < 16 ∧ bitAt (byteAt c.raw 32) 0 = true ∧ s.portPart (byteAt c.raw 14) = some (byteAt c.raw 12 % 16)) ∧
    (∃ (s : Machine.State) (qk : Nat) (c : Cmd),
      Next s qk 84 c ∧ (field c.raw 32 2 = 0 ∨ field c.raw 32 2 = 65535)) ∧
    (∃ (s : Machine.State) (qk : Nat) (c : Cmd),
      Next s qk 84 c ∧ field c.raw 32 2 ≠ 0 ∧ field c.raw 32 2 ≠ 65535 ∧ ¬((s.getPart c.part).domBase ≤ field c.raw 32 2 ∧ field c.raw 32 2 < (s.getPart c.part).domBase + (s.getPart c.part).domCount)) ∧
    (∃ (s : Machine.State) (qk : Nat) (c : Cmd),
      Next s qk 84 c ∧ field c.raw 32 2 ≠ 0 ∧ field c.raw 32 2 ≠ 65535 ∧ ((s.getPart c.part).domBase ≤ field c.raw 32 2 ∧ field c.raw 32 2 < (s.getPart c.part).domBase + (s.getPart c.part).domCount) ∧ s.domBound c.part (field c.raw 32 2) = false ∧ (List.filter (fun (e : Nat × Domain) => e.snd.part == c.part) s.part.doms).length < 4096) ∧
    (∃ (s : Machine.State) (qk : Nat) (c : Cmd),
      Next s qk 84 c ∧ field c.raw 32 2 ≠ 0 ∧ field c.raw 32 2 ≠ 65535 ∧ ((s.getPart c.part).domBase ≤ field c.raw 32 2 ∧ field c.raw 32 2 < (s.getPart c.part).domBase + (s.getPart c.part).domCount) ∧ s.domBound c.part (field c.raw 32 2) = true) ∧
    (∃ (s : Machine.State) (qk : Nat) (c : Cmd),
      Next s qk 85 c ∧ field c.raw 32 2 ≠ 0 ∧ field c.raw 32 2 ≠ 65535 ∧ ((s.getPart c.part).domBase ≤ field c.raw 32 2 ∧ field c.raw 32 2 < (s.getPart c.part).domBase + (s.getPart c.part).domCount) ∧ s.domBound c.part (field c.raw 32 2) = true ∧ (∀ (y : Nat × Sess), y ∈ s.live c.part → y.snd.domain ≠ field c.raw 32 2) ∧ ∀ (i : Nat × Index), i ∈ s.indexes c.part → i.snd.domain ≠ field c.raw 32 2) ∧
    (∃ (s : Machine.State) (qk : Nat) (c : Cmd),
      Next s qk 85 c ∧ field c.raw 32 2 ≠ 0 ∧ field c.raw 32 2 ≠ 65535 ∧ ((s.getPart c.part).domBase ≤ field c.raw 32 2 ∧ field c.raw 32 2 < (s.getPart c.part).domBase + (s.getPart c.part).domCount) ∧ (s.domBound c.part (field c.raw 32 2) = false ∨ ∃ (y : Nat × Sess), y ∈ s.live c.part ∧ y.snd.domain = field c.raw 32 2)) ∧
    (∃ (s : Machine.State) (qk : Nat) (c : Cmd),
      Next s qk 86 c ∧ c.len0 < 80) ∧
    (∃ (s : Machine.State) (qk : Nat) (c : Cmd),
      Next s qk 86 c ∧ 80 ≤ c.len0 ∧ (s.getPart (if s.part.composable = true ∧ fnIsPf0 (qk / 64) = true then byteAt c.raw 12 % 16 else c.part)).comp? (byteAt c.raw 32 % 16) = none) ∧
    (∃ (s : Machine.State) (qk : Nat) (c : Cmd) (k : CompRec),
      Next s qk 86 c ∧ 80 ≤ c.len0 ∧ (s.getPart (if s.part.composable = true ∧ fnIsPf0 (qk / 64) = true then byteAt c.raw 12 % 16 else c.part)).comp? (byteAt c.raw 32 % 16) = some k) :=
  ⟨⟨(asks (cm 0x50 []) (fresh .hot)), 64, (cm 0x50 []), next_of (by decide), by decide +kernel⟩,
   ⟨(creating <| composable (asks (cm 0x50 []) (fresh .hot))), 64, (cm 0x50 []), next_of (by decide), by decide +kernel⟩,
   ⟨(composable (asks (cm 0x50 [(8, 4, 0), (12, 1, 1), (32, 4, 2), (36, 1, 1), (38, 2, 256), (40, 2, 10), (42, 2, 65525)]) (fresh .hot))), 64, (cm 0x50 [(8, 4, 0), (12, 1, 1), (32, 4, 2), (36, 1, 1), (38, 2, 256), (40, 2, 10), (42, 2, 65525)]), [], next_of (by decide), by decide +kernel⟩,
   ⟨(composable (asks (cm 0x50 [(8, 4, 0), (12, 1, 1), (32, 4, 1), (36, 1, 1), (38, 2, 255), (40, 2, 10), (42, 2, 65525)]) (fresh .hot))), 64, (cm 0x50 [(8, 4, 0), (12, 1, 1), (32, 4, 1), (36, 1, 1), (38, 2, 255), (40, 2, 10), (42, 2, 65525)]), [], next_of (by decide), by decide +kernel⟩,
   ⟨(small0 <| composable (asks (cm 0x50 [(8, 4, 0), (12, 1, 1), (32, 4, 2), (36, 1, 1), (38, 2, 255), (40, 2, 10), (42, 2, 65525)]) (fresh .hot))), 64, (cm 0x50 [(8, 4, 0), (12, 1, 1), (32, 4, 2), (36, 1, 1), (38, 2, 255), (40, 2, 10), (42, 2, 65525)]), [], 0, next_of (by decide), by decide +kernel⟩,
   ⟨(part1 false false (asks (cm 0x50 []) (fresh .hot))), 1, 1, (cm 0x50 []), by decide +kernel⟩,
   ⟨(part1 true true (asks (cm 0x50 []) (fresh .hot))), 1, 1, (cm 0x50 []), by decide +kernel⟩,
   ⟨(asks (cm 0x51 []) (fresh .hot)), 64, (cm 0x51 []), next_of (by decide), by decide +kernel⟩,
   ⟨(idle1 (asks (cm 0x51 [(8, 4, 0), (12, 1, 1)]) (fresh .hot))), 64, (cm 0x51 [(8, 4, 0), (12, 1, 1)]), next_of (by decide), by decide +kernel⟩,
   ⟨(destroy1 (asks (cm 0x51 []) (fresh .hot))), 1, 1, (cm 0x51 []), by decide +kernel⟩,
   ⟨(idle1 (asks (cm 0x53 [(8, 4, 0), (12, 1, 1), (13, 1, 0), (14, 1, 1), (15, 1, 15), (32, 1, 0)]) (fresh .hot))), 64, (cm 0x53 [(8, 4, 0), (12, 1, 1), (13, 1, 0), (14, 1, 1), (15, 1, 15), (32, 1, 0)]), next_of (by decide), by decide +kernel⟩,
   ⟨(idle1 (asks (cm 0x53 [(8, 4, 0), (12, 1, 1), (13, 1, 0), (14, 1, 0), (15, 1, 0), (32, 1, 0)]) (fresh .hot))), 64, (cm 0x53 [(8, 4, 0), (12, 1, 1), (13, 1, 0), (14, 1, 0), (15, 1, 0), (32, 1, 0)]), next_of (by decide), by decide +kernel⟩,
   ⟨(idle1 (asks (cm 0x53 [(8, 4, 0), (12, 1, 1), (13, 1, 0), (14, 1, 1), (15, 1, 15), (32, 1, 1)]) (fresh .hot))), 64, (cm 0x53 [(8, 4, 0), (12, 1, 1), (13, 1, 0), (14, 1, 1), (15, 1, 15), (32, 1, 1)]), next_of (by decide), by decide +kernel⟩,
   ⟨(bound1 (asks (cm 0x53 [(8, 4, 0), (12, 1, 1), (13, 1, 0), (14, 1, 1), (15, 1, 15), (32, 1, 1)]) (fresh .hot))), 64, (cm 0x53 [(8, 4, 0), (12, 1, 1), (13, 1, 0), (14, 1, 1), (15, 1, 15), (32, 1, 1)]), next_of (by decide), by decide +kernel⟩,
   ⟨(idle1 (asks (cm 0x53 [(8, 4, 0), (12, 1, 1), (13, 1, 1), (14, 1, 3), (15, 1, 0), (32, 1, 0)]) (fresh .hot))), 64, (cm 0x53 [(8, 4, 0), (12, 1, 1), (13, 1, 1), (14, 1, 3), (15, 1, 0), (32, 1, 0)]), next_of (by decide), by decide +kernel⟩,
   ⟨(idle1 (asks (cm 0x53 [(8, 4, 0), (12, 1, 1), (13, 1, 1), (14, 1, 8), (15, 1, 0), (32, 1, 0)]) (fresh .hot))), 64, (cm 0x53 [(8, 4, 0), (12, 1, 1), (13, 1, 1), (14, 1, 8), (15, 1, 0), (32, 1, 0)]), next_of (by decide), by decide +kernel⟩,
   ⟨(bound1 (asks (cm 0x53 [(8, 4, 0), (12, 1, 1), (13, 1, 1), (14, 1, 7), (15, 1, 0), (32, 1, 1)]) (fresh .hot))), 64, (cm 0x53 [(8, 4, 0), (12, 1, 1), (13, 1, 1), (14, 1, 7), (15, 1, 0), (32, 1, 1)]), next_of (by decide), by decide +kernel⟩,
   ⟨(doms (asks (cm 0x54 [(32, 2, 65535)]) (fresh .hot))), 64, (cm 0x54 [(32, 2, 65535)]), next_of (by decide), by decide +kernel⟩,
   ⟨(doms (asks (cm 0x54 [(32, 2, 6)]) (fresh .hot))), 64, (cm 0x54 [(32, 2, 6)]), next_of (by decide), by decide +kernel⟩,
   ⟨(doms (asks (cm 0x54 [(32, 2, 5)]) (fresh .hot))), 64, (cm 0x54 [(32, 2, 5)]), next_of (by decide), by decide +kernel⟩,
   ⟨(doms (asks (cm 0x54 [(32, 2, 3)]) (fresh .hot))), 64, (cm 0x54 [(32, 2, 3)]), next_of (by decide), by decide +kernel⟩,
   ⟨(doms (asks (cm 0x55 [(32, 2, 3)]) (fresh .hot))), 64, (cm 0x55 [(32, 2, 3)]), next_of (by decide), by decide +kernel⟩,
   ⟨(doms (asks (cm 0x55 [(32, 2, 5)]) (fresh .hot))), 64, (cm 0x55 [(32, 2, 5)]), next_of (by decide), by decide +kernel⟩,
   ⟨(asks (cm 0x56 [(24, 4, 79)]) (fresh .hot)), 64, (cm 0x56 [(24, 4, 79)]), next_of (by decide), by decide +kernel⟩,
   ⟨(doms (asks (cm 0x56 [(24, 4, 80), (32, 1, 15)]) (fresh .hot))), 64, (cm 0x56 [(24, 4, 80), (32, 1, 15)]), next_of (by decide), by decide +kernel⟩,
   ⟨(doms (asks (cm 0x56 [(24, 4, 80)]) (fresh .hot))), 64, (cm 0x56 [(24, 4, 80)]), { num := 1, startMs := 0 }, next_of (by decide), by decide +kernel⟩⟩

theorem test_witness_RecompositionRunsInFourStages :
    (∃ (s : Machine.State) (qk : Nat) (c : Cmd),
      Next s qk 82 c ∧ s.part.composable = false) ∧
    (∃ (s : Machine.State) (qk : Nat) (c : Cmd),
      Next s qk 82 c ∧ s.part.composable = true ∧ s.partBusy = true) ∧
    (∃ (s : Machine.State) (qk : Nat) (c : Cmd) (data : Bytes),
      Next s qk 82 c ∧ s.part.composable = true ∧ s.partBusy = false ∧ (byteAt c.raw 12 = 0 ∨ 16 < byteAt c.raw 12 ∨ c.len0 ≠ 16 * byteAt c.raw 12 ∨ recompRsv (byteAt c.raw 12) data = false ∨ ∃ (r : RecompRec), r ∈ recompRecs (byteAt c.raw 12) data ∧ (r.clusters.length = 0 ∨ 16 < r.clusters.length))) ∧
    (∃ (s : Machine.State) (qk : Nat) (c : Cmd) (data : Bytes),
      Next s qk 82 c ∧ s.part.composable = true ∧ s.partBusy = false ∧ 1 ≤ byteAt c.raw 12 ∧ byteAt c.raw 12 ≤ 16 ∧ c.len0 = 16 * byteAt c.raw 12 ∧ recompRsv (byteAt c.raw 12) data = true ∧ (List.map (fun (x : RecompRec) => x.part) (recompRecs (byteAt c.raw 12) data)).Nodup ∧ (∀ (r : RecompRec), r ∈ recompRecs (byteAt c.raw 12) data → 1 ≤ r.clusters.length ∧ r.clusters.length ≤ 16) ∧ s.recompStateBad (recompRecs (byteAt c.raw 12) data) = false ∧ s.recompNoRoom (List.filter s.concerned (recompRecs (byteAt c.raw 12) data)) = true) ∧
    (∃ (s : Machine.State) (qk : Nat) (c : Cmd) (data : Bytes),
      Next s qk 82 c ∧ s.part.composable = true ∧ s.partBusy = false ∧ 1 ≤ byteAt c.raw 12 ∧ byteAt c.raw 12 ≤ 16 ∧ c.len0 = 16 * byteAt c.raw 12 ∧ recompRsv (byteAt c.raw 12) data = true ∧ (List.map (fun (x : RecompRec) => x.part) (recompRecs (byteAt c.raw 12) data)).Nodup ∧ (∀ (r : RecompRec), r ∈ recompRecs (byteAt c.raw 12) data → 1 ≤ r.clusters.length ∧ r.clusters.length ≤ 16) ∧ s.recompStateBad (recompRecs (byteAt c.raw 12) data) = false ∧ s.recompNoRoom (List.filter s.concerned (recompRecs (byteAt c.raw 12) data)) = false ∧ s.beat.none_ = false ∧ s.beat.hold = false) ∧
    (∃ (s : Machine.State) (r : Recomp),
      s.up = true ∧ s.part.recomp = some r ∧ r.stage = RecompStage.accepted ∧ s.atTick0 = false) ∧
    (∃ (s : Machine.State) (r : Recomp),
      s.up = true ∧ s.part.recomp = some r ∧ r.stage = RecompStage.accepted ∧ s.atTick0 = true) ∧
    (∃ (s : Machine.State) (r : Recomp) (q : RecompRec),
      s.up = true ∧ s.part.recomp = some r ∧ r.stage = RecompStage.quiesced ∧ r.recs = [q] ∧ ∃ (x : Nat × Sess), x ∈ s.live q.part ∧ x.snd.step.isSome = true) ∧
    (∃ (s : Machine.State) (r : Recomp) (q : RecompRec),
      s.up = true ∧ s.part.recomp = some r ∧ r.stage = RecompStage.quiesced ∧ r.recs = [q] ∧ (∀ (x : Nat × Sess), x ∈ s.live q.part → x.snd.step = none) ∧ List.filter q.clusters.contains (s.clustersOf q.part) ≠ [] ∧ ∀ (k : Nat), k ∈ s.leavingCores q → ∀ (j : Nat), j < 4 → ((s.core k).ctx j).inv = none ∧ ((s.core k).ctx j).queue = []) ∧
    (∃ (s : Machine.State) (r : Recomp) (q : RecompRec),
      s.up = true ∧ s.part.recomp = some r ∧ r.stage = RecompStage.evacuated ∧ r.recs = [q] ∧ s.evacuated r = true) ∧
    (∃ (s : Machine.State) (r : Recomp) (q : RecompRec) (e : Cmd),
      s.up = true ∧ s.part.recomp = some r ∧ r.stage = RecompStage.switched ∧ r.recs = [q] ∧ s.cmd? r.serial = some e ∧ s.atTick0 = false) ∧
    (∃ (s : Machine.State) (r : Recomp) (q : RecompRec) (e : Cmd),
      s.up = true ∧ s.part.recomp = some r ∧ r.stage = RecompStage.switched ∧ r.recs = [q] ∧ s.cmd? r.serial = some e ∧ s.atTick0 = true) :=
  ⟨⟨(asks (cm 0x52 []) (fresh .hot)), 64, (cm 0x52 []), next_of (by decide), by decide +kernel⟩,
   ⟨(creating <| composable (asks (cm 0x52 []) (fresh .hot))), 64, (cm 0x52 []), next_of (by decide), by decide +kernel⟩,
   ⟨(composable (asks (cm 0x52 [(8, 4, 0)]) (fresh .hot))), 64, (cm 0x52 [(8, 4, 0)]), [], next_of (by decide), by decide +kernel⟩,
   ⟨(small0 <| composable (asks (cm 0x52 [(8, 4, 0), (12, 1, 1), (24, 4, 16)]) (fresh .hot))), 64, (cm 0x52 [(8, 4, 0), (12, 1, 1), (24, 4, 16)]), (natLe 4 1 ++ natLe 12 65535), next_of (by decide), by decide +kernel⟩,
   ⟨(small0 <| composable (asks (cm 0x52 [(8, 4, 0), (12, 1, 1), (24, 4, 16)]) (fresh .hot))), 64, (cm 0x52 [(8, 4, 0), (12, 1, 1), (24, 4, 16)]), (natLe 16 2), next_of (by decide), by decide +kernel⟩,
   ⟨(recs .accepted false (fresh .hot)), (recomp .accepted), by decide +kernel⟩,
   ⟨(recs .accepted true (fresh .hot)), (recomp .accepted), by decide +kernel⟩,
   ⟨(recs .quiesced true { fresh .running with step := some {} }), (recomp .quiesced), rec1, by decide +kernel, by decide +kernel, by decide +kernel, by decide +kernel, ⟨(7, { fresh .running with step := some {} }), by decide +kernel⟩⟩,
   ⟨(recs .quiesced true (fresh .hot)), (recomp .quiesced), rec1, by decide +kernel⟩,
   ⟨(recs .evacuated true { fresh .hot with home := 1, priCl := 1 }), (recomp .evacuated), rec1, by decide +kernel⟩,
   ⟨(recs .switched false (fresh .hot)), (recomp .switched), rec1, (cm 0x52 []), by decide +kernel⟩,
   ⟨(recs .switched true (fresh .hot)), (recomp .switched), rec1, (cm 0x52 []), by decide +kernel⟩⟩

theorem test_witness_CheckpointsAreTakenAndWritten :
    (∃ (s : Machine.State) (qk : Nat) (c : Cmd),
      Next s qk 96 c ∧ s.ckBusy = true) ∧
    (∃ (s : Machine.State) (qk : Nat) (c : Cmd),
      Next s qk 96 c ∧ s.ckBusy = false ∧ (2 < byteAt c.raw 12 ∨ 16 ≤ byteAt c.raw 13 ∨ contentOk (byteAt c.raw 13) = false)) ∧
    (∃ (s : Machine.State) (qk : Nat) (c : Cmd) (k : Nat),
      Next s qk 96 c ∧ s.ckBusy = false ∧ byteAt c.raw 13 < 16 ∧ contentOk (byteAt c.raw 13) = true ∧ (byteAt c.raw 12 < 2 ∧ k = byteAt c.raw 12 ∨ byteAt c.raw 12 = 2 ∧ s.ckSelect = some k) ∧ (s.ckSlot k).en = true) ∧
    (∃ (s : Machine.State) (qk : Nat) (c : Cmd),
      Next s qk 96 c ∧ s.ckBusy = false ∧ byteAt c.raw 13 < 16 ∧ contentOk (byteAt c.raw 13) = true ∧ (byteAt c.raw 12 < 2 ∧ (s.ckSlot (byteAt c.raw 12)).en = false ∨ byteAt c.raw 12 = 2 ∧ s.ckSelect = none)) ∧
    (∃ (s : Machine.State) (k : Nat),
      s.ckSelect = some k) ∧
    (∃ (s : Machine.State) (i : Instr) (due : Bool),
      (i = Instr.ckptTimerHalf ∧ due = halfDue s.ckpt.msHalf (bits (s.reg Reg.ckptCfg 0) 0 16) ∨ i = Instr.ckptBeatHalf ∧ due = halfDue s.ckpt.beatHalf (bits (s.reg Reg.ckptCfg 0) 16 16)) ∧ s.up = true ∧ due = false) ∧
    (∃ (s : Machine.State) (i : Instr) (due : Bool) (k : Nat),
      (i = Instr.ckptTimerHalf ∧ due = halfDue s.ckpt.msHalf (bits (s.reg Reg.ckptCfg 0) 0 16) ∨ i = Instr.ckptBeatHalf ∧ due = halfDue s.ckpt.beatHalf (bits (s.reg Reg.ckptCfg 0) 16 16)) ∧ s.up = true ∧ due = true ∧ s.partBusy = false ∧ s.ckSelect = some k) ∧
    (∃ (s : Machine.State) (i : Instr) (due : Bool),
      (i = Instr.ckptTimerHalf ∧ due = halfDue s.ckpt.msHalf (bits (s.reg Reg.ckptCfg 0) 0 16) ∨ i = Instr.ckptBeatHalf ∧ due = halfDue s.ckpt.beatHalf (bits (s.reg Reg.ckptCfg 0) 16 16)) ∧ s.up = true ∧ due = true ∧ s.partBusy = false ∧ s.ckSelect = none) ∧
    (∃ (s : Machine.State) (i : Instr) (due : Bool),
      (i = Instr.ckptTimerHalf ∧ due = halfDue s.ckpt.msHalf (bits (s.reg Reg.ckptCfg 0) 0 16) ∨ i = Instr.ckptBeatHalf ∧ due = halfDue s.ckpt.beatHalf (bits (s.reg Reg.ckptCfg 0) 16 16)) ∧ s.up = true ∧ due = true ∧ s.partBusy = true ∧ s.ckpt.deferred = false) ∧
    (∃ (s : Machine.State),
      s.up = true ∧ ¬(s.ckpt.deferred = true ∧ s.ckpt.armed = true ∧ s.partBusy = false ∧ s.beat.tick = 0)) ∧
    (∃ (s : Machine.State) (k : Nat),
      s.up = true ∧ (s.ckpt.deferred = true ∧ s.ckpt.armed = true ∧ s.partBusy = false ∧ s.beat.tick = 0) ∧ s.ckSelect = some k) ∧
    (∃ (s : Machine.State) (t : CkTake),
      s.up = true ∧ s.ckpt.take = some t ∧ t.image = none ∧ t.now = false ∧ ¬(t.armed = true ∧ s.beat.tick = 0)) ∧
    (∃ (s : Machine.State) (t : CkTake),
      s.up = true ∧ s.ckpt.take = some t ∧ t.image = none ∧ (t.now = true ∨ t.armed = true ∧ s.beat.tick = 0) ∧ bitAt t.content 2 = false ∧ bitAt t.content 3 = false) ∧
    (∃ (s : Machine.State) (t : CkTake),
      s.up = true ∧ s.ckpt.take = some t ∧ t.image = none ∧ (t.now = true ∨ t.armed = true ∧ s.beat.tick = 0) ∧ t.cmd ≠ 0) ∧
    (∃ (s : Machine.State) (t : CkTake) (im : CkImage),
      s.up = true ∧ s.ckpt.take = some t ∧ t.image = some im ∧ t.lost = false ∧ t.reads ≠ []) ∧
    (∃ (s : Machine.State) (t : CkTake) (im : CkImage) (e : Cmd),
      s.up = true ∧ s.ckpt.take = some t ∧ t.image = some im ∧ t.lost = false ∧ t.reads = [] ∧ 4 * 2 ^ 20 + (im.written (Config.pick s.free)).snd.fst ≤ (s.ckSlot t.slot).sizeMib * 2 ^ 20 ∧ s.cmd? t.cmd = some e) ∧
    (∃ (s : Machine.State) (t : CkTake) (im : CkImage) (fails : Bool),
      s.up = true ∧ s.ckpt.take = some t ∧ t.image = some im ∧ (fails = true ∨ t.lost = true) ∧ t.reads = []) ∧
    (∃ (s : Machine.State) (t : CkTake) (im : CkImage) (e : Cmd) (fails : Bool),
      s.up = true ∧ s.ckpt.take = some t ∧ t.image = some im ∧ (fails = true ∨ t.lost = true) ∧ s.cmd? t.cmd = some e) :=
  ⟨⟨(ckp { take := some (tak false none) } (asks (cm 0x60 []) (fresh .hot))), 64, (cm 0x60 []), next_of (by decide), by decide +kernel⟩,
   ⟨(asks (cm 0x60 [(8, 4, 0), (13, 1, 9)]) (fresh .hot)), 64, (cm 0x60 [(8, 4, 0), (13, 1, 9)]), next_of (by decide), by decide +kernel⟩,
   ⟨(ckp { slots := slots2 } (asks (cm 0x60 [(8, 4, 0), (12, 1, 2), (13, 1, 13)]) (fresh .hot))), 64, (cm 0x60 [(8, 4, 0), (12, 1, 2), (13, 1, 13)]), 0, next_of (by decide), by decide +kernel⟩,
   ⟨(asks (cm 0x60 [(8, 4, 0), (12, 1, 1), (13, 1, 1)]) (fresh .hot)), 64, (cm 0x60 [(8, 4, 0), (12, 1, 1), (13, 1, 1)]), next_of (by decide), by decide +kernel⟩,
   ⟨(ckp { slots := slots2 } {}), 0, by decide +kernel⟩,
   ⟨{}, .ckptTimerHalf, false, Or.inl ⟨rfl, by decide +kernel⟩, by decide +kernel, by decide +kernel⟩,
   ⟨(State.setReg (ckp { slots := slots2, msHalf := 1, beatHalf := 1 } {}) .ckptCfg 0 (1 + 2 ^ 16)), .ckptTimerHalf, true, 0, Or.inl ⟨rfl, by decide +kernel⟩, by decide +kernel, by decide +kernel, by decide +kernel, by decide +kernel⟩,
   ⟨(State.setReg (ckp { slots := [], msHalf := 1, beatHalf := 1 } {}) .ckptCfg 0 (1 + 2 ^ 16)), .ckptBeatHalf, true, Or.inr ⟨rfl, by decide +kernel⟩, by decide +kernel, by decide +kernel, by decide +kernel, by decide +kernel⟩,
   ⟨(State.setReg (ckp { slots := slots2, msHalf := 1, beatHalf := 1, take := some (tak false none) } {}) .ckptCfg 0 (1 + 2 ^ 16)), .ckptBeatHalf, true, Or.inr ⟨rfl, by decide +kernel⟩, by decide +kernel, by decide +kernel, by decide +kernel, by decide +kernel⟩,
   ⟨{}, by decide +kernel⟩,
   ⟨(ckp { slots := slots2, deferred := true, armed := true } {}), 0, by decide +kernel⟩,
   ⟨(ckp { take := some (tak false none) } {}), (tak false none), by decide +kernel⟩,
   ⟨(ckp { take := some (tak true none) } {}), (tak true none), by decide +kernel⟩,
   ⟨(ckp { take := some (tak true none) } {}), (tak true none), by decide +kernel⟩,
   ⟨(ckp { take := some reading } {}), reading, im1, by decide +kernel⟩,
   ⟨(written (asks (cm 0x60 []) (fresh .hot))), (tak true (some im1)), im1, (cm 0x60 []), by decide +kernel, by decide +kernel, by decide +kernel, by decide +kernel, by decide +kernel, show 4 * 2 ^ 20 + (im1.written (Config.pick 0)).2.1 ≤ (4 + (im1.written (Config.pick 0)).2.1) * 2 ^ 20 from by omega, by decide +kernel⟩,
   ⟨(ckp { take := some unread } {}), unread, im1, false, by decide +kernel⟩,
   ⟨(written (asks (cm 0x60 []) (fresh .hot))), (tak true (some im1)), im1, (cm 0x60 []), true, by decide +kernel⟩⟩

theorem test_witness_RestoresAndLosses :
    (∃ (s : Machine.State) (qk : Nat) (c : Cmd),
      Next s qk 97 c ∧ s.ckBusy = true) ∧
    (∃ (s : Machine.State) (qk : Nat) (c : Cmd),
      Next s qk 97 c ∧ s.ckBusy = false ∧ 2 < byteAt c.raw 12) ∧
    (∃ (s : Machine.State) (qk : Nat) (c : Cmd),
      Next s qk 97 c ∧ s.ckBusy = false ∧ byteAt c.raw 12 ≤ 2 ∧ (s.restorable = false ∨ byteAt c.raw 12 < 2 ∧ (s.ckSlot (byteAt c.raw 12)).en = false)) ∧
    (∃ (s : Machine.State) (qk : Nat) (a : Nat) (b : Nat) (c : Cmd) (im : CkImage),
      Next s qk 97 c ∧ s.ckBusy = false ∧ byteAt c.raw 12 < 2 ∧ s.restorable = true ∧ (s.ckSlot (byteAt c.raw 12)).en = true ∧ s.restoreCheck (byteAt c.raw 12) (if byteAt c.raw 12 = 0 then a else b) = Except.ok im) ∧
    (∃ (s : Machine.State) (qk : Nat) (a : Nat) (b : Nat) (c : Cmd) (st : Status),
      Next s qk 97 c ∧ s.ckBusy = false ∧ byteAt c.raw 12 < 2 ∧ s.restorable = true ∧ (s.ckSlot (byteAt c.raw 12)).en = true ∧ s.restoreCheck (byteAt c.raw 12) (if byteAt c.raw 12 = 0 then a else b) = Except.error st) ∧
    (∃ (s : Machine.State) (qk : Nat) (a : Nat) (c : Cmd) (ia : CkImage) (ib : CkImage) (im : CkImage),
      Next s qk 97 c ∧ s.ckBusy = false ∧ byteAt c.raw 12 = 2 ∧ s.restorable = true ∧ s.ckHeld 0 = some ia ∧ s.ckHeld 1 = some ib ∧ ib.serial < ia.serial ∧ a ≠ 1 ∧ s.restoreCheck 0 a = Except.ok im) ∧
    (∃ (s : Machine.State) (t : CkRestore),
      s.up = true ∧ s.ckpt.restore = some t ∧ ¬(t.armed = true ∧ s.beat.tick = 0)) ∧
    (∃ (s : Machine.State) (t : CkRestore) (t1 : Machine.State) (e : Cmd),
      s.up = true ∧ s.ckpt.restore = some t ∧ t.armed = true ∧ s.beat.tick = 0 ∧ ({ s with ckpt := { s.ckpt with restore := none } } : State).restored t.image = some t1 ∧ t1.cmd? t.cmd = some e) ∧
    (∃ (s : Machine.State) (im : CkImage) (id : Nat) (x : Sess) (t1 : Machine.State) (st : Status),
      im.sess = [(id, x)] ∧ s.restored im = some t1 ∧ x.flaw = some st ∧ x.st ≠ SState.free ∧ x.st ≠ SState.ended ∧ x.st ≠ SState.faulted) ∧
    (∃ (s : Machine.State) (im : CkImage) (id : Nat) (x : Sess) (t1 : Machine.State),
      im.sess = [(id, x)] ∧ s.restored im = some t1 ∧ x.flaw = none ∧ (x.st = SState.parked ∨ x.st = SState.reviving ∨ x.st = SState.moving ∨ x.st.resident = true ∧ bitAt im.content 3 = false)) ∧
    (∃ (s : Machine.State) (im : CkImage) (id : Nat) (x : Sess) (t1 : Machine.State),
      im.sess = [(id, x)] ∧ s.restored im = some t1 ∧ x.flaw = none ∧ (x.st = SState.opened ∨ x.st = SState.stripped ∨ x.st = SState.faulted)) ∧
    (∃ (s : Machine.State) (im : CkImage) (id : Nat) (x : Sess) (t1 : Machine.State),
      im.sess = [(id, x)] ∧ s.restored im = some t1 ∧ x.flaw = none ∧ (x.st = SState.free ∨ x.st = SState.ended)) ∧
    (∃ (s : Machine.State) (die : Nat),
      s.up = true ∧ die < 4 ∧ die ∈ s.ckpt.lostDies) ∧
    (∃ (s : Machine.State) (die : Nat),
      s.up = true ∧ die < 4 ∧ ¬die ∈ s.ckpt.lostDies) ∧
    (∃ (s : Machine.State) (ch : Nat),
      s.up = true ∧ ch < 32 ∧ (s.isN = true ∨ ch ∈ s.ckpt.lostChannels)) ∧
    (∃ (s : Machine.State) (ch : Nat),
      s.up = true ∧ ch < 32 ∧ s.isN = false ∧ ¬ch ∈ s.ckpt.lostChannels) :=
  ⟨⟨(ckp { take := some (tak false none) } (asks (cm 0x61 []) (fresh .hot))), 64, (cm 0x61 []), next_of (by decide), by decide +kernel⟩,
   ⟨(asks (cm 0x61 [(8, 4, 0), (12, 1, 3)]) (fresh .hot)), 64, (cm 0x61 [(8, 4, 0), (12, 1, 3)]), next_of (by decide), by decide +kernel⟩,
   ⟨(asks (cm 0x61 [(8, 4, 0), (12, 1, 2)]) (fresh .hot)), 64, (cm 0x61 [(8, 4, 0), (12, 1, 2)]), next_of (by decide), by decide +kernel⟩,
   ⟨(held2 (asks (cm 0x61 [(8, 4, 0), (12, 1, 1)]) (fresh .hot))), 64, 0, 0, (cm 0x61 [(8, 4, 0), (12, 1, 1)]), im1, next_of (by decide), by decide +kernel, by decide +kernel, by decide +kernel, by decide +kernel, ok_of (by decide +kernel)⟩,
   ⟨(held2 (asks (cm 0x61 [(8, 4, 0), (12, 1, 1)]) (fresh .hot))), 64, 0, 1, (cm 0x61 [(8, 4, 0), (12, 1, 1)]), .ckptIncomplete, next_of (by decide), by decide +kernel, by decide +kernel, by decide +kernel, by decide +kernel, error_of (by decide +kernel)⟩,
   ⟨(held2 (asks (cm 0x61 [(8, 4, 0), (12, 1, 2)]) (fresh .hot))), 64, 0, (cm 0x61 [(8, 4, 0), (12, 1, 2)]), { im1 with serial := 2 }, im1, { im1 with serial := 2 }, next_of (by decide), by decide +kernel, by decide +kernel, by decide +kernel, by decide +kernel, by decide +kernel, by decide +kernel, by decide +kernel, ok_of (by decide +kernel)⟩,
   ⟨(restoring (some { slot := 0, cmd := 1, image := im1 }) {}), { slot := 0, cmd := 1, image := im1 }, by decide +kernel⟩,
   ⟨(restoring (some { slot := 0, cmd := 1, image := im1, armed := true }) (asks (cm 0x61 []) (fresh .hot))), { slot := 0, cmd := 1, image := im1, armed := true }, (((restoring none (asks (cm 0x61 []) (fresh .hot))).restored im1).get (by decide +kernel)), (cm 0x61 []), by decide +kernel, by decide +kernel, by decide +kernel, by decide +kernel, (Option.some_get _).symm, by decide +kernel⟩,
   ⟨{}, (imBad .hot 2), 7, { fresh .hot with ver := 2 }, ((State.restored {} (imBad .hot 2)).get (by decide +kernel)), .versionUnsupported, by decide +kernel, (Option.some_get _).symm, by decide +kernel, by decide +kernel, by decide +kernel, by decide +kernel⟩,
   ⟨{}, (imBad .hot 1), 7, { fresh .hot with ver := 1 }, ((State.restored {} (imBad .hot 1)).get (by decide +kernel)), by decide +kernel, (Option.some_get _).symm, by decide +kernel, by decide +kernel⟩,
   ⟨{}, (imBad .stripped 1), 7, { fresh .stripped with ver := 1 }, ((State.restored {} (imBad .stripped 1)).get (by decide +kernel)), by decide +kernel, (Option.some_get _).symm, by decide +kernel, by decide +kernel⟩,
   ⟨{}, (imBad .ended 1), 7, { fresh .ended with ver := 1 }, ((State.restored {} (imBad .ended 1)).get (by decide +kernel)), by decide +kernel, (Option.some_get _).symm, by decide +kernel, by decide +kernel⟩,
   ⟨(ckp { lostDies := [3] } {}), 3, by decide +kernel⟩,
   ⟨{}, 3, by decide +kernel⟩,
   ⟨(ckp { lostChannels := [31] } {}), 31, by decide +kernel⟩,
   ⟨{}, 31, by decide +kernel⟩⟩

theorem test_witness_BeatsTakeJumpAndHold :
    (∃ (s : Machine.State) (p : Nat),
      s.up = true ∧ s.headMsg p 0 2 = none) ∧
    (∃ (s : Machine.State) (p : Nat) (m : Msg),
      s.up = true ∧ s.headMsg p 0 2 = some m ∧ p = s.beat.port ∧ byteAt m.body 0 % 16 = 1 ∧ 10000 ≤ field m.body 16 3 ∧ field m.body 16 3 ≤ 16777214) ∧
    (∃ (s : Machine.State) (p : Nat) (m : Msg),
      s.up = true ∧ s.headMsg p 0 2 = some m ∧ p = s.beat.port ∧ ¬(byteAt m.body 0 % 16 = 1 ∧ 10000 ≤ field m.body 16 3 ∧ field m.body 16 3 ≤ 16777214)) ∧
    (∃ (s : Machine.State) (p : Nat) (m : Msg),
      s.up = true ∧ s.headMsg p 0 2 = some m ∧ p ≠ s.beat.port) ∧
    (∃ (s : Machine.State) (p : Nat),
      s.up = true ∧ (s.roster p).fixed = true) ∧
    (∃ (s : Machine.State) (p : Nat),
      s.up = true ∧ (s.roster p).fixed = false ∧ (s.upPorts p).Nodup) ∧
    (∃ (s : Machine.State) (b : PendBeat),
      s.up = true ∧ s.beat.pend = [b] ∧ s.beat.none_ = false ∧ s.beat.resyncPend = false ∧ b.num ≤ s.beat.num) ∧
    (∃ (s : Machine.State) (b : PendBeat),
      s.up = true ∧ s.beat.pend = [b] ∧ ¬(s.beat.none_ = false ∧ s.beat.resyncPend = false ∧ b.num ≤ s.beat.num)) ∧
    (∃ (s : Machine.State),
      s.up = true ∧ s.beat.pend = []) ∧
    (∃ (s : Machine.State) (loads : List (Nat × List Nat)),
      s.up = true ∧ ∀ (e : Nat × List Nat), e ∈ loads → entryFlaw e.snd = none) ∧
    (∃ (s : Machine.State) (loads : List (Nat × List Nat)) (id : Nat) (w : List Nat) (st : Status) (b : PendBeat),
      s.up = true ∧ loads = [(id, w)] ∧ entryFlaw w = some st ∧ s.beat.pend = [b] ∧ s.beat.none_ = false ∧ s.beat.resyncPend = false ∧ b.num ≤ s.beat.num ∧ (s.getSess id).st ≠ SState.free ∧ (s.getSess id).st ≠ SState.ended ∧ (s.getSess id).st ≠ SState.faulted) ∧
    (∃ (s : Machine.State) (p : Nat),
      s.up = true ∧ ((s.pwin p).win ≠ Window.decode ∨ (s.pwin p).f = 0)) ∧
    (∃ (s : Machine.State) (p : Nat),
      s.up = true ∧ (s.pwin p).win = Window.decode ∧ (s.pwin p).f ≠ 0 ∧ s.beat.tick ≤ (s.pwin p).d ∧ (s.pwin p).d ≤ tickMax) ∧
    (∃ (s : Machine.State) (p : Nat),
      s.up = true ∧ ((s.pwin p).win = Window.bulk ∨ (s.pwin p).win = Window.decode ∧ (s.pwin p).f ≠ 0)) ∧
    (∃ (s : Machine.State) (p : Nat),
      s.up = true ∧ ((s.pwin p).win = Window.prefill ∨ (s.pwin p).win = Window.decode ∧ (s.pwin p).f = 0) ∧ s.beat.tick ≤ (s.pwin p).d + (s.pwin p).f ∧ (s.pwin p).d + (s.pwin p).f ≤ tickMax) ∧
    (∃ (s : Machine.State),
      s.up = true ∧ ((s.beat.none_ = true ∨ s.beat.hold = true ∨ s.beat.pend ≠ []) ∨ 8 ≤ s.beat.synthRun)) ∧
    (∃ (s : Machine.State),
      s.up = true ∧ ¬(s.beat.none_ = true ∨ s.beat.hold = true ∨ s.beat.pend ≠ []) ∧ s.beat.synthRun < 8) ∧
    (∃ (s : Machine.State),
      s.up = true ∧ ((s.beat.none_ = true ∨ s.beat.hold = true ∨ s.beat.pend ≠ []) ∨ s.beat.synthRun < 8)) ∧
    (∃ (s : Machine.State),
      s.up = true ∧ ¬(s.beat.none_ = true ∨ s.beat.hold = true ∨ s.beat.pend ≠ []) ∧ 8 ≤ s.beat.synthRun) ∧
    (∃ (s : Machine.State) (fn : Nat),
      s.up = true ∧ (fnIsPf0 fn = true ∨ (s.fnPart fn).isSome = true)) ∧
    (∃ (s : Machine.State) (fn : Nat),
      s.up = true ∧ fnIsPf0 fn = false ∧ s.fnPart fn = none) ∧
    (∃ (s : Machine.State) (id : Nat),
      s.up = true ∧ ∀ (st : InStep), (s.getSess id).step = some st → s.stallOver (s.getSess id) st = false) ∧
    (∃ (s : Machine.State) (id : Nat),
      s.up = true ∧ ∀ (st : InStep), (s.getSess id).step = some st → s.carryOver id (s.getSess id) st = false) ∧
    (∃ (s : Machine.State) (id : Nat) (st : InStep) (i : Instr),
      s.up = true ∧ (s.getSess id).step = some st ∧ (i = Instr.stallTimeout id ∧ s.stallOver (s.getSess id) st = true ∨ i = Instr.carryLimit id ∧ s.carryOver id (s.getSess id) st = true) ∧ (s.getSess id).cancelReq = false ∧ (s.getSess id).closeSerial = 0 ∧ (s.getSess id).policy ≠ Policy.cold) :=
  ⟨⟨{}, 0, by decide +kernel⟩,
   ⟨({ link := { ports := [(0, { st := .up, vc0 := { inbox := [{ vc := 0, type := 2, body := [1] ++ List.replicate 15 0 ++ natLe 3 16777214 ++ List.replicate 13 0 }] } })] } } : State), 0, { vc := 0, type := 2, body := [1] ++ List.replicate 15 0 ++ natLe 3 16777214 ++ List.replicate 13 0 }, by decide +kernel⟩,
   ⟨({ link := { ports := [(0, { st := .up, vc0 := { inbox := [{ vc := 0, type := 2, body := [1] ++ List.replicate 15 0 ++ natLe 3 9999 ++ List.replicate 13 0 }] } })] } } : State), 0, { vc := 0, type := 2, body := [1] ++ List.replicate 15 0 ++ natLe 3 9999 ++ List.replicate 13 0 }, by decide +kernel⟩,
   ⟨({ link := { ports := [(2, { st := .up, vc0 := { inbox := [{ vc := 0, type := 2, body := [1] ++ List.replicate 15 0 ++ natLe 3 10000 ++ List.replicate 13 0 }] } })] } } : State), 2, { vc := 0, type := 2, body := [1] ++ List.replicate 15 0 ++ natLe 3 10000 ++ List.replicate 13 0 }, by decide +kernel⟩,
   ⟨{}, 0, by decide +kernel⟩,
   ⟨({ beat := { rosters := [(0, { fixed := false })] } } : State), 0, by decide +kernel⟩,
   ⟨({ beat := { none_ := false, num := 5, pend := [{ num := 5, period := 100, phase0 := 0, left := 3 }] } } : State), { num := 5, period := 100, phase0 := 0, left := 3 }, by decide +kernel⟩,
   ⟨({ beat := { none_ := false, num := 4, pend := [{ num := 5, period := 100, phase0 := 0, left := 3 }] } } : State), { num := 5, period := 100, phase0 := 0, left := 3 }, by decide +kernel⟩,
   ⟨{}, by decide +kernel⟩,
   ⟨{}, [(7, words8 1 0)], by decide +kernel⟩,
   ⟨({ beat := { none_ := false, num := 5, pend := [{ num := 5, period := 100, phase0 := 0, left := 3 }] }, sess := [(7, fresh .hot)] } : State), [(7, words8 2 0)], 7, (words8 2 0), .versionUnsupported, { num := 5, period := 100, phase0 := 0, left := 3 }, by decide +kernel⟩,
   ⟨({ beat := { wins := [(0, { d := 1, f := 0, win := .decode })], tick := 0 } } : State), 0, by decide +kernel⟩,
   ⟨({ beat := { wins := [(0, { d := 1000, f := 1, win := .decode })], tick := 1000 } } : State), 0, by decide +kernel⟩,
   ⟨{}, 0, by decide +kernel⟩,
   ⟨({ beat := { wins := [(0, { d := 10, f := 5, win := .prefill })], tick := 15 } } : State), 0, by decide +kernel⟩,
   ⟨{}, by decide +kernel⟩,
   ⟨({ beat := { none_ := false, synthRun := 7 } } : State), by decide +kernel⟩,
   ⟨{}, by decide +kernel⟩,
   ⟨({ beat := { none_ := false, synthRun := 8 } } : State), by decide +kernel⟩,
   ⟨{}, 17, by decide +kernel⟩,
   ⟨{}, 33, by decide +kernel⟩,
   ⟨(asks (cm 3 []) { fresh .running with step := some {} }), 7, by decide +kernel, fun st h => Option.some.inj (show some ({} : InStep) = some st from h) ▸ (by decide +kernel)⟩,
   ⟨(asks (cm 3 []) { fresh .running with step := some {} }), 7, by decide +kernel, fun st h => Option.some.inj (show some ({} : InStep) = some st from h) ▸ (by decide +kernel)⟩,
   ⟨({ asks (cm 3 []) { fresh .running with step := some {} } with beat := { num := 1000 } }), 7, {}, (.carryLimit 7), by decide +kernel, by decide +kernel, Or.inr ⟨rfl, by decide +kernel⟩, by decide +kernel, by decide +kernel, by decide +kernel⟩⟩

theorem test_witness_PortsComeUpAndGoDown :
    (∃ (s : Machine.State) (p : Nat),
      s.up = true ∧ p < 16 ∧ (s.port p).phyUp = true) ∧
    (∃ (s : Machine.State) (p : Nat),
      s.up = true ∧ p < 16 ∧ (s.port p).phyUp = false ∧ (s.port p).en = false) ∧
    (∃ (s : Machine.State) (p : Nat),
      s.up = true ∧ p < 16 ∧ (s.port p).phyUp = false ∧ (s.port p).en = true) ∧
    (∃ (s : Machine.State) (p : Nat) (m : Msg),
      s.up = true ∧ p < 16 ∧ s.headMsg p 0 0 = some m ∧ byteAt m.body 4 = 0 ∧ ((s.port p).st = PortSt.hello ∨ (s.port p).st = PortSt.refused) ∧ s.helloRefusal p ((byteAt m.body 1).min 17) (bits (byteAt m.body 3) 1 3) (field m.body 16 4) = none ∧ bitAt (byteAt m.body 3) 0 = false) ∧
    (∃ (s : Machine.State) (p : Nat) (m : Msg),
      s.up = true ∧ p < 16 ∧ s.headMsg p 0 0 = some m ∧ byteAt m.body 4 = 0 ∧ ((s.port p).st = PortSt.hello ∨ (s.port p).st = PortSt.refused) ∧ s.helloRefusal p ((byteAt m.body 1).min 17) (bits (byteAt m.body 3) 1 3) (field m.body 16 4) = none ∧ bitAt (byteAt m.body 3) 0 = true ∧ byteAt m.body 2 = (byteAt m.body 1).min 17) ∧
    (∃ (s : Machine.State) (p : Nat) (m : Msg) (st : Status),
      s.up = true ∧ p < 16 ∧ s.headMsg p 0 0 = some m ∧ byteAt m.body 4 = 0 ∧ ((s.port p).st = PortSt.hello ∨ (s.port p).st = PortSt.refused) ∧ s.helloRefusal p ((byteAt m.body 1).min 17) (bits (byteAt m.body 3) 1 3) (field m.body 16 4) = some st) ∧
    (∃ (s : Machine.State) (p : Nat) (m : Msg),
      s.up = true ∧ p < 16 ∧ s.headMsg p 0 0 = some m ∧ (s.port p).st = PortSt.down) ∧
    (∃ (s : Machine.State) (p : Nat) (m : Msg),
      s.up = true ∧ p < 16 ∧ s.headMsg p 0 0 = some m ∧ byteAt m.body 4 ≠ 0 ∧ (s.port p).st ≠ PortSt.down) ∧
    (∃ (s : Machine.State) (p : Nat) (m : Msg),
      s.up = true ∧ p < 16 ∧ s.headMsg p 0 0 = some m ∧ byteAt m.body 4 = 0 ∧ (s.port p).st = PortSt.up ∧ bitAt (byteAt m.body 3) 0 = true ∧ (s.port p).peerInst = field m.body 20 4) ∧
    (∃ (s : Machine.State) (p : Nat),
      s.up = true ∧ p < 16 ∧ (s.port p).st ≠ PortSt.hello) ∧
    (∃ (s : Machine.State) (p : Nat),
      s.up = true ∧ p < 16 ∧ (s.port p).st = PortSt.hello) ∧
    (∃ (s : Machine.State) (fn : Nat),
      s.up = true ∧ s.bound fn = true ∧ fn ≠ 0) ∧
    (∃ (s : Machine.State) (p : Nat) (v : Nat),
      s.up = true ∧ s.bound 0 = true ∧ p < 16 ∧ bitAt v 2 = false) ∧
    (∃ (s : Machine.State) (p : Nat) (v : Nat),
      s.up = true ∧ s.bound 0 = true ∧ p < 16 ∧ bitAt v 2 = true ∧ (s.port p).st ≠ PortSt.down ∧ (s.port p).en = true ∧ (s.port p).phyUp = true) ∧
    (∃ (s : Machine.State) (p : Nat) (v : Nat),
      s.up = true ∧ s.bound 0 = true ∧ p < 16 ∧ bitAt v 0 = (s.port p).en) ∧
    (∃ (s : Machine.State) (p : Nat) (v : Nat),
      s.up = true ∧ s.bound 0 = true ∧ p < 16 ∧ bitAt v 0 = false ∧ (s.port p).en = true) ∧
    (∃ (s : Machine.State) (p : Nat) (v : Nat),
      s.up = true ∧ s.bound 0 = true ∧ p < 16 ∧ bitAt v 0 = true ∧ (s.port p).en = false ∧ (s.port p).phyUp = true) ∧
    (∃ (s : Machine.State) (p : Nat) (v : Nat),
      s.up = true ∧ s.bound 0 = true ∧ p < 16 ∧ bitAt v 1 = (s.port p).framing) ∧
    (∃ (s : Machine.State) (p : Nat) (v : Nat),
      s.up = true ∧ s.bound 0 = true ∧ p < 16 ∧ bitAt v 1 ≠ (s.port p).framing) :=
  ⟨⟨(prt { phyUp := true } {}), 2, by decide +kernel⟩,
   ⟨(prt { en := false } {}), 2, by decide +kernel⟩,
   ⟨(prt {} {}), 2, by decide +kernel⟩,
   ⟨(prt (vc0In [(hello 17 0 0 0)] { st := .hello }) {}), 2, (hello 17 0 0 0), by decide +kernel⟩,
   ⟨(prt (vc0In [(hello 17 17 1 0)] { st := .refused }) {}), 2, (hello 17 17 1 0), by decide +kernel⟩,
   ⟨(prt (vc0In [(hello 15 0 0 0)] { st := .hello }) {}), 2, (hello 15 0 0 0), .versionUnsupported, by decide +kernel⟩,
   ⟨(prt (vc0In [(hello 17 0 0 0)] { st := .down }) {}), 2, (hello 17 0 0 0), by decide +kernel⟩,
   ⟨(prt (vc0In [(hello 17 0 0 3)] { st := .hello }) {}), 2, (hello 17 0 0 3), by decide +kernel⟩,
   ⟨(prt (vc0In [(hello 17 17 1 0)] { st := .up }) {}), 2, (hello 17 17 1 0), by decide +kernel⟩,
   ⟨(prt { st := .up } {}), 2, by decide +kernel⟩,
   ⟨(prt { st := .hello } {}), 2, by decide +kernel⟩,
   ⟨(asks (cm 3 []) (fresh .hot)), 1, by decide +kernel⟩,
   ⟨(prt {} {}), 2, 1, by decide +kernel⟩,
   ⟨(prt { st := .up, phyUp := true } {}), 2, 5, by decide +kernel⟩,
   ⟨(prt {} {}), 2, 1, by decide +kernel⟩,
   ⟨(prt {} {}), 2, 0, by decide +kernel⟩,
   ⟨(prt { en := false, phyUp := true } {}), 2, 1, by decide +kernel⟩,
   ⟨(prt {} {}), 2, 1, by decide +kernel⟩,
   ⟨(prt {} {}), 2, 3, by decide +kernel⟩⟩

theorem test_witness_FramesCarryMessagesUnderCredit :
    (∃ (s : Machine.State) (p : Nat),
      s.up = true ∧ (16 ≤ p ∨ (s.port p).phyUp = false)) ∧
    (∃ (s : Machine.State) (p : Nat) (f : Bytes),
      s.up = true ∧ p < 16 ∧ (s.port p).phyUp = true ∧ (s.port p).framing = false ∧ (List.length f < 18 ∨ field f (List.length f - 4) 4 ≠ crc32 (List.take (List.length f - 4) f))) ∧
    (∃ (s : Machine.State) (p : Nat) (f : Bytes),
      s.up = true ∧ p < 16 ∧ (s.port p).phyUp = true ∧ (s.port p).framing = true ∧ List.length f = 256 ∧ field f 6 2 ≠ crc16 (List.take 6 f)) ∧
    (∃ (s : Machine.State) (p : Nat) (f : Bytes),
      s.up = true ∧ p < 16 ∧ (s.port p).phyUp = true ∧ (s.port p).framing = true ∧ List.length f = 256 ∧ field f 6 2 = crc16 (List.take 6 f) ∧ byteAt f 0 < 32 ∧ 16 ≤ byteAt f 0 ∧ field f 4 2 = 0) ∧
    (∃ (s : Machine.State) (p : Nat) (f : Bytes),
      s.up = true ∧ p < 16 ∧ (s.port p).phyUp = true ∧ (s.port p).framing = true ∧ (s.port p).st = PortSt.up ∧ List.length f = 256 ∧ field f 6 2 = crc16 (List.take 6 f) ∧ byteAt f 0 = 12 ∧ byteAt f 1 = 48 ∧ field f 4 2 = 0 ∧ field f 2 2 = (s.port p).vc0.fseqIn % 2 ^ 16 ∧ (s.port p).vc0.part_ = [] ∧ field (slice f 8 48) 12 4 = crc32c (List.take 12 (slice f 8 48)) ∧ byteAt (slice f 8 48) 0 = 18 ∧ byteAt (slice f 8 48) 1 % 4 = 0 ∧ msgLen (slice f 8 48) = 32) ∧
    (∃ (s : Machine.State) (p : Nat) (m : Msg),
      s.up = true ∧ s.headMsg p 0 1 = some m) ∧
    (∃ (s : Machine.State) (p : Nat),
      s.up = true ∧ s.headMsg p 0 1 = none) ∧
    (∃ (s : Machine.State) (p : Nat) (k : Nat),
      s.up = true ∧ (16 ≤ p ∨ 4 ≤ k ∨ (s.port p).st ≠ PortSt.up ∨ ((s.port p).vc k).freed = 0)) ∧
    (∃ (s : Machine.State) (p : Nat) (k : Nat),
      s.up = true ∧ p < 16 ∧ k < 4 ∧ (s.port p).st = PortSt.up ∧ ((s.port p).vc k).freed ≠ 0 ∧ ((s.port p).vc k).freed < 8) ∧
    (∃ (s : Machine.State) (p : Nat),
      s.up = true ∧ (16 ≤ p ∨ (s.port p).st = PortSt.down)) ∧
    (∃ (s : Machine.State) (p : Nat),
      s.up = true ∧ (s.port p).vc0.egress = [] ∧ (s.port p).vc1.egress = [] ∧ (s.port p).vc2.egress = [] ∧ (s.port p).vc3.egress = [] ∧ (s.port p).framing = false) ∧
    (∃ (s : Machine.State) (p : Nat),
      s.up = true ∧ (s.port p).vc0.egress = [] ∧ (s.port p).vc1.egress = [] ∧ (s.port p).vc2.egress = [] ∧ (s.port p).vc3.egress = [] ∧ p < 16 ∧ (s.port p).st ≠ PortSt.down ∧ (s.port p).framing = true) ∧
    (∃ (s : Machine.State) (p : Nat) (m : Msg) (rest : List Msg),
      s.up = true ∧ p < 16 ∧ (s.port p).st ≠ PortSt.down ∧ (s.port p).vc0.egress = m :: rest ∧ m.type < 2 ∧ m.since = none ∧ (s.nextFrame p 0 m).last = true) ∧
    (∃ (s : Machine.State) (p : Nat) (m : Msg),
      s.up = true ∧ p < 16 ∧ (s.port p).st ≠ PortSt.down ∧ (s.port p).vc0.egress = [] ∧ (s.port p).vc1.egress = [m] ∧ (s.port p).vc2.egress = [] ∧ (s.port p).vc3.egress = [] ∧ (s.port p).vc1.credit < (s.nextFrame p 1 m).cost ∧ m.waited = false) ∧
    (∃ (s : Machine.State) (p : Nat) (m : Msg),
      s.up = true ∧ p < 16 ∧ (s.port p).st ≠ PortSt.down ∧ (s.port p).vc0.egress = [] ∧ (s.port p).vc1.egress = [m] ∧ (s.port p).vc2.egress = [] ∧ (s.port p).vc3.egress = [] ∧ (s.nextFrame p 1 m).cost ≤ (s.port p).vc1.credit) ∧
    (∃ (s : Machine.State) (p : Nat) (m : Msg) (part : Nat),
      s.up = true ∧ p < 16 ∧ (s.port p).st ≠ PortSt.down ∧ (s.port p).vc0.egress = [] ∧ (s.port p).vc1.egress = [] ∧ (s.port p).vc2.egress = [] ∧ (s.port p).vc3.egress = [m] ∧ s.portPart p = some part ∧ s.bulkOpen part = false ∧ (s.port p).vc3.gated = false) :=
  ⟨⟨(prt {} {}), 2, by decide +kernel⟩,
   ⟨(prt { phyUp := true, st := .up } {}), 2, (List.replicate 64 0), by decide +kernel⟩,
   ⟨(prt { phyUp := true, st := .up, framing := true } {}), 2, (List.replicate 256 0), by decide +kernel⟩,
   ⟨(prt { phyUp := true, st := .up, framing := true } {}), 2, (flt0 [16, 0, 0, 0] []), by decide +kernel⟩,
   ⟨(prt { phyUp := true, st := .up, framing := true } {}), 2, (flt0 [12, 48, 0, 0] (hdr 18)), by decide +kernel⟩,
   ⟨(prt (vc0In [msg 0 1] { st := .up }) {}), 2, (msg 0 1), by decide +kernel⟩,
   ⟨(prt {} {}), 2, by decide +kernel⟩,
   ⟨(prt {} {}), 2, 1, by decide +kernel⟩,
   ⟨(prt { st := .up, vc1 := { freed := 3 } } {}), 2, 1, by decide +kernel⟩,
   ⟨(prt {} {}), 2, by decide +kernel⟩,
   ⟨(prt {} {}), 2, by decide +kernel⟩,
   ⟨(prt { st := .up, framing := true } {}), 2, by decide +kernel⟩,
   ⟨(prt { st := .up, vc0 := { egress := [msg 0 1] } } {}), 2, (msg 0 1), [], by decide +kernel⟩,
   ⟨(prt { st := .up, vc1 := { egress := [msg 1 4] } } {}), 2, (msg 1 4), by decide +kernel⟩,
   ⟨(prt { st := .up, vc1 := { egress := [msg 1 4], credit := 9 } } {}), 2, (msg 1 4), by decide +kernel⟩,
   ⟨({ prt { st := .up, vc3 := { egress := [msg 3 9] } } (inPart {} {}) with beat := { none_ := false, wins := [(0, { win := .decode })] } }), 2, (msg 3 9), 0, by decide +kernel⟩⟩

theorem test_witness_SessionsMoveBetweenUnits :
    (∃ (s : Machine.State) (qk : Nat) (c : Cmd) (id : Nat),
      NextSess s qk 10 c id ∧ (s.port (byteAt c.raw 32 % 16)).framing = true ∧ s.portPart (byteAt c.raw 32 % 16) = some c.part ∧ c.part = (s.getSess id).part ∧ (s.port (byteAt c.raw 32 % 16)).st = PortSt.up ∧ bitAt (s.port (byteAt c.raw 32 % 16)).feat 1 = true ∧ ((s.getSess id).st = SState.hot ∨ (s.getSess id).st = SState.idle) ∧ ∀ (o : MoveOut), o ∈ s.link.outs → o.sess ≠ id) ∧
    (∃ (s : Machine.State) (qk : Nat) (c : Cmd) (id : Nat),
      NextSess s qk 10 c id ∧ ((s.port (byteAt c.raw 32 % 16)).framing = false ∨ s.portPart (byteAt c.raw 32 % 16) ≠ some c.part ∨ (s.port (byteAt c.raw 32 % 16)).st = PortSt.up ∧ bitAt (s.port (byteAt c.raw 32 % 16)).feat 1 = false)) ∧
    (∃ (s : Machine.State) (qk : Nat) (c : Cmd) (id : Nat),
      NextSess s qk 10 c id ∧ (s.port (byteAt c.raw 32 % 16)).framing = true ∧ s.portPart (byteAt c.raw 32 % 16) = some c.part ∧ (s.port (byteAt c.raw 32 % 16)).st = PortSt.up ∧ bitAt (s.port (byteAt c.raw 32 % 16)).feat 1 = true ∧ (s.getSess id).st ≠ SState.hot ∧ (s.getSess id).st ≠ SState.idle) ∧
    (∃ (s : Machine.State) (port : Nat) (part : Nat) (m : Msg) (id : Nat),
      s.up = true ∧ s.headMsg port 3 9 = some m ∧ s.portPart port = some part ∧ (s.port port).st = PortSt.up ∧ (moveBodyOf m).sub = 0 ∧ s.handle? part (moveBodyOf m).dst = some id ∧ s.moveIn? id = none ∧ (s.getSess id).st = SState.opened ∧ (s.getSess id).total = 0 ∧ leNat (List.take 8 m.data) % 2 ^ 36 = (s.model part (s.getSess id).model).geom36 ∧ (moveBodyOf m).total ≤ maxPositions ∧ (moveBodyOf m).kvLen ≤ (moveBodyOf m).total ∧ (moveBodyOf m).total ≠ 0) ∧
    (∃ (s : Machine.State) (port : Nat) (part : Nat) (m : Msg),
      s.up = true ∧ s.headMsg port 3 9 = some m ∧ s.portPart port = some part ∧ (s.port port).st = PortSt.up ∧ (moveBodyOf m).sub = 0 ∧ (s.handle? part (moveBodyOf m).dst = none ∨ ∃ (id : Nat), s.handle? part (moveBodyOf m).dst = some id ∧ s.moveIn? id = none ∧ ((s.getSess id).st ≠ SState.opened ∨ (s.getSess id).total ≠ 0))) ∧
    (∃ (s : Machine.State) (port : Nat) (part : Nat) (m : Msg) (r : MoveIn),
      s.up = true ∧ s.headMsg port 3 9 = some m ∧ s.portPart port = some part ∧ (s.port port).st = PortSt.up ∧ s.reserved? port (moveBodyOf m) = some r ∧ (moveBodyOf m).sub = 3 ∧ r.applied = false ∧ r.staged.length + (moveBodyOf m).total < r.total ∧ (s.getSess r.sess).st = SState.opened ∧ (s.getSess r.sess).total = 0 ∧ (s.getSess r.sess).busyCmd = false ∧ 1 ≤ (moveBodyOf m).total ∧ (moveBodyOf m).total ≤ 1008 ∧ List.length m.data = 4 * (moveBodyOf m).total ∧ (moveBodyOf m).pos = r.staged.length) ∧
    (∃ (s : Machine.State) (port : Nat) (part : Nat) (m : Msg) (r : MoveIn) (id : Nat),
      s.up = true ∧ s.headMsg port 3 9 = some m ∧ s.portPart port = some part ∧ (s.port port).st = PortSt.up ∧ s.reserved? port (moveBodyOf m) = some r ∧ (moveBodyOf m).sub = 4 ∧ s.kvCheck part false { port := port, vc := 3, handle := (moveBodyOf m).dst, pos := (moveBodyOf m).pos, layer := (moveBodyOf m).layer, bodyVer := byteAt m.body 1 % 16, count := (moveBodyOf m).count, kvIn := 1, data := m.data, cost := m.cost } = Except.ok id) ∧
    (∃ (s : Machine.State) (port : Nat) (part : Nat) (m : Msg) (r : MoveIn) (st : Status),
      s.up = true ∧ s.headMsg port 3 9 = some m ∧ s.portPart port = some part ∧ (s.port port).st = PortSt.up ∧ s.reserved? port (moveBodyOf m) = some r ∧ (moveBodyOf m).sub = 4 ∧ s.kvCheck part false { port := port, vc := 3, handle := (moveBodyOf m).dst, pos := (moveBodyOf m).pos, layer := (moveBodyOf m).layer, bodyVer := byteAt m.body 1 % 16, count := (moveBodyOf m).count, kvIn := 1, data := m.data, cost := m.cost } = Except.error st) ∧
    (∃ (s : Machine.State) (port : Nat) (part : Nat) (m : Msg) (r : MoveIn),
      s.up = true ∧ s.headMsg port 3 9 = some m ∧ s.portPart port = some part ∧ (s.port port).st = PortSt.up ∧ s.reserved? port (moveBodyOf m) = some r ∧ (moveBodyOf m).sub = 6 ∧ r.applied = false ∧ s.moveIn? r.sess = some r) ∧
    (∃ (s : Machine.State) (port : Nat) (part : Nat) (m : Msg) (r : MoveIn),
      s.up = true ∧ s.headMsg port 3 9 = some m ∧ s.portPart port = some part ∧ (s.port port).st = PortSt.up ∧ s.reserved? port (moveBodyOf m) = some r ∧ (moveBodyOf m).sub = 6 ∧ r.applied = true ∧ s.moveIn? r.sess = some r ∧ (s.getSess r.sess).length = r.kvLen) ∧
    (∃ (s : Machine.State) (port : Nat) (part : Nat) (m : Msg) (r : MoveIn),
      s.up = true ∧ s.headMsg port 3 9 = some m ∧ s.portPart port = some part ∧ (s.port port).st = PortSt.up ∧ s.reserved? port (moveBodyOf m) = some r ∧ (moveBodyOf m).sub = 8) ∧
    (∃ (s : Machine.State) (port : Nat) (part : Nat) (m : Msg) (o : MoveOut),
      s.up = true ∧ s.headMsg port 3 9 = some m ∧ s.portPart port = some part ∧ (s.port port).st = PortSt.up ∧ s.export? port (moveBodyOf m) = some o ∧ (moveBodyOf m).sub = 1 ∧ o.phase = MovePhase.offered ∧ (s.getSess o.sess).st = o.prev ∧ (s.getSess o.sess).length = o.len ∧ (s.getSess o.sess).pend = o.pend ∧ ∀ (q : Pub), q ∈ s.dir.pubs → q.sess ≠ o.sess) ∧
    (∃ (s : Machine.State) (port : Nat) (part : Nat) (m : Msg) (o : MoveOut) (e : Cmd),
      s.up = true ∧ s.headMsg port 3 9 = some m ∧ s.portPart port = some part ∧ (s.port port).st = PortSt.up ∧ s.export? port (moveBodyOf m) = some o ∧ (moveBodyOf m).sub = 1 ∧ o.phase = MovePhase.offered ∧ ((s.getSess o.sess).st ≠ o.prev ∨ (s.getSess o.sess).length ≠ o.len ∨ (s.getSess o.sess).pend ≠ o.pend) ∧ s.cmd? o.serial = some e) ∧
    (∃ (s : Machine.State) (port : Nat) (part : Nat) (m : Msg) (o : MoveOut),
      s.up = true ∧ s.headMsg port 3 9 = some m ∧ s.portPart port = some part ∧ (s.port port).st = PortSt.up ∧ s.export? port (moveBodyOf m) = some o ∧ (moveBodyOf m).sub = 5 ∧ o.phase = MovePhase.logSent ∧ ∀ (q : MoveOut), q ∈ s.link.outs → q.sess = o.sess → q = o) ∧
    (∃ (s : Machine.State) (port : Nat) (part : Nat) (m : Msg) (o : MoveOut),
      s.up = true ∧ s.headMsg port 3 9 = some m ∧ s.portPart port = some part ∧ (s.port port).st = PortSt.up ∧ s.export? port (moveBodyOf m) = some o ∧ (moveBodyOf m).sub = 5 ∧ o.phase = MovePhase.logSent ∧ (∀ (q : MoveOut), q ∈ s.link.outs → q.sess = o.sess → q = o) ∧ (moveBodyOf m).pos < o.len) ∧
    (∃ (s : Machine.State) (port : Nat) (part : Nat) (m : Msg) (o : MoveOut),
      s.up = true ∧ s.headMsg port 3 9 = some m ∧ s.portPart port = some part ∧ (s.port port).st = PortSt.up ∧ s.export? port (moveBodyOf m) = some o ∧ (moveBodyOf m).sub = 5 ∧ o.phase = MovePhase.logSent ∧ (∀ (q : MoveOut), q ∈ s.link.outs → q.sess = o.sess → q = o) ∧ o.len ≤ (moveBodyOf m).pos) ∧
    (∃ (s : Machine.State) (port : Nat) (part : Nat) (m : Msg) (o : MoveOut) (e : Cmd),
      s.up = true ∧ s.headMsg port 3 9 = some m ∧ s.portPart port = some part ∧ (s.port port).st = PortSt.up ∧ s.export? port (moveBodyOf m) = some o ∧ (moveBodyOf m).sub = 2 ∧ o.phase = MovePhase.offered ∧ s.cmd? o.serial = some e) ∧
    (∃ (s : Machine.State) (port : Nat) (part : Nat) (m : Msg) (o : MoveOut) (e : Cmd),
      s.up = true ∧ s.headMsg port 3 9 = some m ∧ s.portPart port = some part ∧ (s.port port).st = PortSt.up ∧ s.export? port (moveBodyOf m) = some o ∧ (moveBodyOf m).sub = 7 ∧ o.phase ≠ MovePhase.offered ∧ s.cmd? o.serial = some e ∧ ({ s with link := { s.link with outs := s.link.outs.filter (fun q => q.sess != o.sess) } } : State).referred o.sess = false) :=
  ⟨⟨(mvs (fresh .hot) [] [] []), 64, (cm 0x0A [(32, 1, 2)]), 7, sess_of (by decide), by decide +kernel⟩,
   ⟨(asks (cm 0x0A [(32, 1, 2)]) (fresh .hot)), 64, (cm 0x0A [(32, 1, 2)]), 7, sess_of (by decide), by decide +kernel⟩,
   ⟨(mvs (fresh .ended) [] [] []), 64, (cm 0x0A [(32, 1, 2)]), 7, sess_of (by decide), by decide +kernel⟩,
   ⟨(mvs (fresh .opened) [mvm 0 5 (natLe 8 mdl.geom36)] [] []), 2, 0, (mvm 0 5 (natLe 8 mdl.geom36)), 7, by decide +kernel⟩,
   ⟨(mvs (fresh .hot) [mvm 0 5 []] [] []), 2, 0, (mvm 0 5 []), by decide +kernel, by decide +kernel, by decide +kernel, by decide +kernel, by decide +kernel, Or.inr ⟨7, by decide +kernel⟩⟩,
   ⟨(mvs (fresh .opened) [mvm 3 1 (natLe 4 1)] [] [mi false]), 2, 0, (mvm 3 1 (natLe 4 1)), (mi false), by decide +kernel⟩,
   ⟨(mvs ({ ses (blk 0 0) with st := .hot }) [(moveMsg { sub := 4, src := h7, dst := h7, pos := 5, count := 1 } (List.replicate 128 0))] [] [mi true]), 2, 0, (moveMsg { sub := 4, src := h7, dst := h7, pos := 5, count := 1 } (List.replicate 128 0)), (mi true), 7, by decide +kernel, by decide +kernel, by decide +kernel, by decide +kernel, by decide +kernel, by decide +kernel, ok_of (by decide +kernel)⟩,
   ⟨(mvs ({ ses (blk 0 0) with st := .hot, pend := 0 }) [(moveMsg { sub := 4, src := h7, dst := h7, pos := 5, count := 0 } (List.replicate 128 0))] [] [mi true]), 2, 0, (moveMsg { sub := 4, src := h7, dst := h7, pos := 5, count := 0 } (List.replicate 128 0)), (mi true), .formatInvalid, by decide +kernel, by decide +kernel, by decide +kernel, by decide +kernel, by decide +kernel, by decide +kernel, error_of (by decide +kernel)⟩,
   ⟨(mvs (fresh .opened) [mvm 6 0 []] [] [mi false]), 2, 0, (mvm 6 0 []), (mi false), by decide +kernel⟩,
   ⟨(mvs ({ ses (blk 0 0) with st := .hot, pend := 0 }) [mvm 6 0 []] [] [mi true]), 2, 0, (mvm 6 0 []), (mi true), by decide +kernel⟩,
   ⟨(mvs ({ ses (blk 0 0) with st := .hot, pend := 0 }) [mvm 8 0 []] [] [mi true]), 2, 0, (mvm 8 0 []), (mi true), by decide +kernel⟩,
   ⟨(mvs ({ ses (blk 0 0) with st := .hot, pend := 0 }) [mvm 1 0 []] [mo .offered] []), 2, 0, (mvm 1 0 []), (mo .offered), by decide +kernel⟩,
   ⟨(mvs (fresh .hot) [mvm 1 0 []] [mo .offered] []), 2, 0, (mvm 1 0 []), (mo .offered), (cm 0x0A [(32, 1, 2)]), by decide +kernel⟩,
   ⟨(mvs (fresh .moving) [mvm 5 0 []] [mo .logSent] []), 2, 0, (mvm 5 0 []), (mo .logSent), by decide +kernel⟩,
   ⟨(mvs (fresh .moving) [(moveMsg { sub := 5, src := h7, dst := h7, pos := 4 } [])] [mo .logSent] []), 2, 0, (moveMsg { sub := 5, src := h7, dst := h7, pos := 4 } []), (mo .logSent), by decide +kernel⟩,
   ⟨(mvs (fresh .moving) [(moveMsg { sub := 5, src := h7, dst := h7, pos := 5 } [])] [mo .logSent] []), 2, 0, (moveMsg { sub := 5, src := h7, dst := h7, pos := 5 } []), (mo .logSent), by decide +kernel⟩,
   ⟨(mvs ({ ses (blk 0 0) with st := .hot, pend := 0 }) [mvm 2 0 []] [mo .offered] []), 2, 0, (mvm 2 0 []), (mo .offered), (cm 0x0A [(32, 1, 2)]), by decide +kernel⟩,
   ⟨(mvs (fresh .moving) [mvm 7 0 []] [mo .logSent] []), 2, 0, (mvm 7 0 []), (mo .logSent), (cm 0x0A [(32, 1, 2)]), by decide +kernel⟩⟩

theorem test_witness_HawkServesItsRequests :
    (∃ (s : Machine.State) (r : MReq),
      s.nextReq = some r ∧ s.fullMbx true ≠ []) ∧
    (∃ (s : Machine.State) (r : MReq) (p : Pup) (l : List Pup),
      s.nextReq = some r ∧ s.fullMbx true = [] ∧ s.mgmt.pup = p :: l) ∧
    (∃ (r : MReq) (seq : Nat),
      r.path = ReqPath.pupoac seq) ∧
    (∃ (r : MReq) (port : Nat) (n : Nat) (tag : Nat),
      r.path = ReqPath.mailbox port n tag) ∧
    (∃ (s : Machine.State) (r : MReq),
      Asks s 1 1 r) ∧
    (∃ (s : Machine.State) (r : MReq),
      Asks s 2 1 r) ∧
    (∃ (s : Machine.State) (r : MReq),
      Asks s 2 2 r) ∧
    (∃ (s : Machine.State) (r : MReq),
      Asks s 2 3 r) ∧
    (∃ (s : Machine.State) (r : MReq),
      Asks s 3 1 r) ∧
    (∃ (s : Machine.State) (r : MReq),
      Asks s 5 1 r ∧ (s.getPart (Config.reqField 5 1 0 r.payload % 16)).comp? (Config.reqField 5 1 1 r.payload % 16) = none) ∧
    (∃ (s : Machine.State) (r : MReq) (c : CompRec),
      Asks s 5 1 r ∧ (s.getPart (Config.reqField 5 1 0 r.payload % 16)).comp? (Config.reqField 5 1 1 r.payload % 16) = some c) ∧
    (∃ (s : Machine.State) (r : MReq),
      Asks s 6 1 r) ∧
    (∃ (s : Machine.State) (r : MReq),
      Asks s 6 2 r ∧ (bootCfgOf r.payload).ok = true) ∧
    (∃ (s : Machine.State) (r : MReq),
      Asks s 6 2 r ∧ (bootCfgOf r.payload).ok = false) ∧
    (∃ (s : Machine.State) (r : MReq),
      Asks s 4 1 r ∧ s.attestAllowed r.path (Config.reqField 4 1 0 r.payload % 2) (Config.reqField 4 1 1 r.payload % 16) = false) ∧
    (∃ (s : Machine.State) (r : MReq),
      Asks s 4 1 r ∧ s.attestAllowed r.path (Config.reqField 4 1 0 r.payload % 2) (Config.reqField 4 1 1 r.payload % 16) = true ∧ (r.path.isMgmt = true ∨ reportLen ≤ r.buffer.snd) ∧ (Config.reqField 4 1 0 r.payload % 2 = 0 ∨ s.partExists (Config.reqField 4 1 1 r.payload % 16) = true) ∧ 8 ≤ (List.filter (fun (a : Attest) => !a.ready) s.sec.attests).length) ∧
    (∃ (s : Machine.State) (r : MReq),
      Asks s 4 1 r ∧ s.attestAllowed r.path (Config.reqField 4 1 0 r.payload % 2) (Config.reqField 4 1 1 r.payload % 16) = true ∧ (r.path.isMgmt = true ∨ reportLen ≤ r.buffer.snd) ∧ (Config.reqField 4 1 0 r.payload % 2 = 0 ∨ s.partExists (Config.reqField 4 1 1 r.payload % 16) = true) ∧ (List.filter (fun (a : Attest) => !a.ready) s.sec.attests).length < 8) ∧
    (∃ (s : Machine.State) (r : MReq),
      Asks s 4 2 r ∧ List.find? (fun (a : Attest) => a.ticket == Config.reqField 4 2 0 r.payload % 2 ^ 32) s.sec.attests = none) ∧
    (∃ (s : Machine.State) (r : MReq) (a : Attest),
      Asks s 4 2 r ∧ List.find? (fun (a : Attest) => a.ticket == Config.reqField 4 2 0 r.payload % 2 ^ 32) s.sec.attests = some a ∧ (a.mgmt ≠ r.path.isMgmt ∨ a.fn ≠ r.path.fn)) ∧
    (∃ (s : Machine.State) (r : MReq) (a : Attest),
      Asks s 4 2 r ∧ List.find? (fun (a : Attest) => a.ticket == Config.reqField 4 2 0 r.payload % 2 ^ 32) s.sec.attests = some a ∧ a.mgmt = r.path.isMgmt ∧ a.fn = r.path.fn ∧ a.ready = false) ∧
    (∃ (s : Machine.State) (r : MReq) (a : Attest),
      Asks s 4 2 r ∧ List.find? (fun (a : Attest) => a.ticket == Config.reqField 4 2 0 r.payload % 2 ^ 32) s.sec.attests = some a ∧ a.mgmt = r.path.isMgmt ∧ a.fn = r.path.fn ∧ a.ready = true) ∧
    (∀ b : Bytes, (Config.reqField 7 1 0 b = 0 ∨ fwMax < Config.reqField 7 1 0 b) →
      ∃ (s : State) (r : MReq), Asks s 7 1 r ∧ (Config.reqField 7 1 0 r.payload = 0 ∨ fwMax < Config.reqField 7 1 0 r.payload)) ∧
    (∀ b : Bytes, (Config.reqField 7 1 0 b ≠ 0 ∧ Config.reqField 7 1 0 b ≤ fwMax) →
      ∃ (s : State) (r : MReq), Asks s 7 1 r ∧ Config.reqField 7 1 0 r.payload ≠ 0 ∧ Config.reqField 7 1 0 r.payload ≤ fwMax) ∧
    (∃ (s : Machine.State) (r : MReq),
      Asks s 7 2 r ∧ s.mgmt.staging = none) ∧
    (∃ (s : Machine.State) (r : MReq) (g : Staging),
      Asks s 7 2 r ∧ s.mgmt.staging = some g ∧ g.committed = false ∧ List.drop 4 r.payload ≠ [] ∧ (List.drop 4 r.payload).length ≤ 1024 ∧ field r.payload 0 4 + (List.drop 4 r.payload).length ≤ g.size) ∧
    (∃ (s : Machine.State) (r : MReq) (g : Staging),
      Asks s 7 2 r ∧ s.mgmt.staging = some g ∧ g.committed = false ∧ g.size < field r.payload 0 4 + (List.drop 4 r.payload).length) ∧
    (∃ (s : Machine.State) (r : MReq),
      Asks s 7 3 r ∧ s.mgmt.staging = none) ∧
    (∃ (s : Machine.State) (r : MReq) (g : Staging),
      Asks s 7 3 r ∧ s.mgmt.staging = some g ∧ ¬(g.size ≤ g.got ∧ sigLen ≤ g.size ∧ bitAt s.sec.revoked (byteAt (List.drop (g.size - sigLen) (memRead g.data 0 g.size)) 3 % 4) = false ∧ sigBlockOk 0 (Config.vendorKey (byteAt (List.drop (g.size - sigLen) (memRead g.data 0 g.size)) 3 % 4)) "YK-FW-1" (List.take (g.size - sigLen) (memRead g.data 0 g.size)) (List.drop (g.size - sigLen) (memRead g.data 0 g.size)) = true)) ∧
    (sigBlockOk 0 (Config.vendorKey (byteAt (List.drop ((sigImg 0).size - sigLen) (memRead (sigImg 0).data 0 (sigImg 0).size)) 3 % 4)) "YK-FW-1" (List.take ((sigImg 0).size - sigLen) (memRead (sigImg 0).data 0 (sigImg 0).size)) (List.drop ((sigImg 0).size - sigLen) (memRead (sigImg 0).data 0 (sigImg 0).size)) = true →
      ∃ (s : State) (r : MReq) (g : Staging), Asks s 7 3 r ∧ s.mgmt.staging = some g ∧ (g.size ≤ g.got ∧ sigLen ≤ g.size ∧ bitAt s.sec.revoked (byteAt (List.drop (g.size - sigLen) (memRead g.data 0 g.size)) 3 % 4) = false ∧ sigBlockOk 0 (Config.vendorKey (byteAt (List.drop (g.size - sigLen) (memRead g.data 0 g.size)) 3 % 4)) "YK-FW-1" (List.take (g.size - sigLen) (memRead g.data 0 g.size)) (List.drop (g.size - sigLen) (memRead g.data 0 g.size)) = true) ∧ (field (List.drop (g.size - sigLen) (memRead g.data 0 g.size)) 4 4 % 128 < s.sec.fuseSvn ∨ 64 < field (List.drop (g.size - sigLen) (memRead g.data 0 g.size)) 4 4 % 128)) ∧
    (sigBlockOk 0 (Config.vendorKey (byteAt (List.drop ((sigImg 1).size - sigLen) (memRead (sigImg 1).data 0 (sigImg 1).size)) 3 % 4)) "YK-FW-1" (List.take ((sigImg 1).size - sigLen) (memRead (sigImg 1).data 0 (sigImg 1).size)) (List.drop ((sigImg 1).size - sigLen) (memRead (sigImg 1).data 0 (sigImg 1).size)) = true →
      ∃ (s : State) (r : MReq) (g : Staging), Asks s 7 3 r ∧ s.mgmt.staging = some g ∧ (g.size ≤ g.got ∧ sigLen ≤ g.size ∧ bitAt s.sec.revoked (byteAt (List.drop (g.size - sigLen) (memRead g.data 0 g.size)) 3 % 4) = false ∧ sigBlockOk 0 (Config.vendorKey (byteAt (List.drop (g.size - sigLen) (memRead g.data 0 g.size)) 3 % 4)) "YK-FW-1" (List.take (g.size - sigLen) (memRead g.data 0 g.size)) (List.drop (g.size - sigLen) (memRead g.data 0 g.size)) = true) ∧ s.sec.fuseSvn ≤ field (List.drop (g.size - sigLen) (memRead g.data 0 g.size)) 4 4 % 128 ∧ field (List.drop (g.size - sigLen) (memRead g.data 0 g.size)) 4 4 % 128 ≤ 64) ∧
    (∃ (s : Machine.State) (r : MReq),
      Asks s 7 4 r) ∧
    (∃ (s : Machine.State) (r : MReq),
      Asks s 8 1 r ∧ byteAt r.payload 0 = 90) ∧
    (∃ (s : Machine.State) (r : MReq),
      Asks s 8 1 r ∧ byteAt r.payload 0 ≠ 90) ∧
    (∃ (s : Machine.State) (r : MReq),
      Asks s 8 2 r ∧ byteAt r.payload 0 = 90) ∧
    (∃ (s : Machine.State) (r : MReq),
      Asks s 8 2 r ∧ byteAt r.payload 0 ≠ 90) ∧
    (∃ (s : Machine.State) (r : MReq) (i : Instr) (svc : Nat) (op : Nat) (port : Nat) (n : Nat) (tag : Nat),
      (i, svc, op) ∈ [(Instr.meter, 5, 1), (Instr.bootcfgSet, 6, 2), (Instr.firmwareBegin, 7, 1), (Instr.firmwareWrite, 7, 2), (Instr.firmwareCommit, 7, 3), (Instr.pupoacResetMgmt, 8, 1), (Instr.pupoacResetModule, 8, 2)] ∧ s.up = true ∧ s.hawkUp = true ∧ s.nextReq = some r ∧ r.svc = svc ∧ r.op = op ∧ r.path = ReqPath.mailbox port n tag ∧ 16 ≤ n) :=
  ⟨⟨(hmbx 1 1 3), (mreq 1 1 3), by decide +kernel⟩,
   ⟨(hawk 1 1 []), (hreq 1 1 []), { svc := 1, op := 1, seq := 1, payload := [] }, [], by decide +kernel⟩,
   ⟨(hreq 1 1 []), 1, by decide +kernel⟩,
   ⟨(mreq 1 1 3), 0, 3, 0, by decide +kernel⟩,
   ⟨(hawk 1 1 []), (hreq 1 1 []), asks_of (by decide)⟩,
   ⟨(hawk 2 1 []), (hreq 2 1 []), asks_of (by decide)⟩,
   ⟨(hawk 2 2 []), (hreq 2 2 []), asks_of (by decide)⟩,
   ⟨(hawk 2 3 []), (hreq 2 3 []), asks_of (by decide)⟩,
   ⟨(hawk 3 1 []), (hreq 3 1 []), asks_of (by decide)⟩,
   ⟨(hawk 5 1 []), (hreq 5 1 []), asks_of (by decide), comp_none _⟩,
   ⟨(named 5 1 0 (hawk 5 1 [])), (hreq 5 1 []), { num := 1, startMs := 0, endMs := if Config.reqField 5 1 1 [] % 16 = 0 then none else some 0 }, ⟨rfl, rfl, rfl, ⟨rfl, rfl⟩, rfl⟩, named_comp _⟩,
   ⟨(hawk 6 1 []), (hreq 6 1 []), asks_of (by decide)⟩,
   ⟨(hawk 6 2 [1, 0, 0xD0, 0x07]), (hreq 6 2 [1, 0, 0xD0, 0x07]), asks_of (by decide), by decide +kernel⟩,
   ⟨(hawk 6 2 []), (hreq 6 2 []), asks_of (by decide), by decide +kernel⟩,
   ⟨(hmbx 4 1 33), (mreq 4 1 33), asks_of (by decide), Bool.and_false _⟩,
   ⟨(reps (List.replicate 8 (rep 0 false)) <| named 4 1 1 (hawk 4 1 [])), (hreq 4 1 []), ⟨rfl, rfl, rfl, ⟨rfl, rfl⟩, rfl⟩, rfl, Or.inl rfl, Or.inr (named_exists (hawk 4 1 [])), Nat.le_refl 8⟩,
   ⟨(named 4 1 1 (hawk 4 1 [])), (hreq 4 1 []), ⟨rfl, rfl, rfl, ⟨rfl, rfl⟩, rfl⟩, rfl, Or.inl rfl, Or.inr (named_exists (hawk 4 1 [])), by decide +kernel⟩,
   ⟨(hawk 4 2 []), (hreq 4 2 []), asks_of (by decide), rfl⟩,
   ⟨(reps [rep 1 true] (hawk 4 2 [])), (hreq 4 2 []), (rep 1 true), ⟨rfl, rfl, rfl, ⟨rfl, rfl⟩, rfl⟩, reps_find _ _ _, Or.inr (show (1 : Nat) ≠ fnCount by decide)⟩,
   ⟨(reps [rep fnCount false] (hawk 4 2 [])), (hreq 4 2 []), (rep fnCount false), ⟨rfl, rfl, rfl, ⟨rfl, rfl⟩, rfl⟩, reps_find _ _ _, rfl, rfl, rfl⟩,
   ⟨(reps [rep fnCount true] (hawk 4 2 [])), (hreq 4 2 []), (rep fnCount true), ⟨rfl, rfl, rfl, ⟨rfl, rfl⟩, rfl⟩, reps_find _ _ _, rfl, rfl, rfl⟩,
   fun b h => ⟨hawk 7 1 b, hreq 7 1 b, ⟨rfl, rfl, rfl, ⟨rfl, rfl⟩, rfl⟩, h⟩,
   fun b h => ⟨hawk 7 1 b, hreq 7 1 b, ⟨rfl, rfl, rfl, ⟨rfl, rfl⟩, rfl⟩, h⟩,
   ⟨(hawk 7 2 []), (hreq 7 2 []), asks_of (by decide), by decide +kernel⟩,
   ⟨(stag { size := 10 } (hawk 7 2 [0, 0, 0, 0, 7])), (hreq 7 2 [0, 0, 0, 0, 7]), { size := 10 }, asks_of (by decide), by decide +kernel⟩,
   ⟨(stag { size := 10 } (hawk 7 2 [9, 0, 0, 0, 7, 7])), (hreq 7 2 [9, 0, 0, 0, 7, 7]), { size := 10 }, asks_of (by decide), by decide +kernel⟩,
   ⟨(hawk 7 3 []), (hreq 7 3 []), asks_of (by decide), by decide +kernel⟩,
   ⟨(stag { size := 10 } (hawk 7 3 [])), (hreq 7 3 []), { size := 10 }, asks_of (by decide), by decide +kernel, fun h => absurd h.1 (by decide)⟩,
   fun h => ⟨{ stag (sigImg 0) (hawk 7 3 []) with sec := { fuseSvn := 1 } }, hreq 7 3 [], sigImg 0, ⟨rfl, rfl, rfl, ⟨rfl, rfl⟩, rfl⟩, rfl, ⟨by decide, by decide, by decide +kernel, h⟩, by decide +kernel⟩,
   fun h => ⟨{ stag (sigImg 1) (hawk 7 3 []) with sec := { fuseSvn := 1 } }, hreq 7 3 [], sigImg 1, ⟨rfl, rfl, rfl, ⟨rfl, rfl⟩, rfl⟩, rfl, ⟨by decide, by decide, by decide +kernel, h⟩, by decide +kernel⟩,
   ⟨(hawk 7 4 []), (hreq 7 4 []), asks_of (by decide)⟩,
   ⟨(hawk 8 1 [90]), (hreq 8 1 [90]), asks_of (by decide), by decide +kernel⟩,
   ⟨(hawk 8 1 []), (hreq 8 1 []), asks_of (by decide), by decide +kernel⟩,
   ⟨(hawk 8 2 [90]), (hreq 8 2 [90]), asks_of (by decide), by decide +kernel⟩,
   ⟨(hawk 8 2 []), (hreq 8 2 []), asks_of (by decide), by decide +kernel⟩,
   ⟨(hmbx 5 1 16), (mreq 5 1 16), Instr.meter, 5, 1, 0, 16, 0, List.Mem.head _, by decide +kernel, by decide +kernel, by decide +kernel, by decide +kernel, by decide +kernel, by decide +kernel, by decide +kernel⟩⟩

theorem test_witness_HawkAndMonitorsAct :
    (∃ (s : Machine.State),
      s.up = true ∧ (s.host.inReset = false ∨ s.sec.running = 2)) ∧
    (∃ (s : Machine.State),
      s.up = true ∧ s.host.inReset = true ∧ s.sec.running ≠ 2 ∧ s.mgmt.loaded = false ∧ s.part.composable = false ∧ s.partExists 0 = false) ∧
    (∃ (s : Machine.State),
      s.up = true ∧ s.host.inReset = true ∧ s.sec.running ≠ 2 ∧ s.mgmt.loaded = true) ∧
    (∃ (s : Machine.State),
      s.up = true ∧ s.hawkUp = true ∧ s.mgmt.hbAt + 10 ≤ s.mgmt.ms) ∧
    (∃ (s : Machine.State),
      s.up = true ∧ (s.hawkUp = false ∨ s.mgmt.ms < s.mgmt.hbAt + 10)) ∧
    (∃ (s : Machine.State),
      s.up = true ∧ s.hawkUp = false) ∧
    (∃ (s : Machine.State),
      s.up = true ∧ s.host.holder ≠ 0) ∧
    (∃ (s : Machine.State),
      s.up = true ∧ s.hawkUp = true ∧ 64 ≤ s.mgmt.pup.length) ∧
    (∃ (s : Machine.State) (d : Bytes),
      s.up = true ∧ s.hawkUp = true ∧ s.mgmt.pup.length < 64 ∧ s.pupOk d = false) ∧
    (∃ (s : Machine.State) (d : Bytes),
      s.up = true ∧ s.hawkUp = true ∧ s.mgmt.pup.length < 64 ∧ s.pupOk d = true) ∧
    (∃ (s : Machine.State) (v : Nat),
      s.up = true ∧ bitAt v 0 = false) ∧
    (∃ (s : Machine.State) (port : Nat) (v : Nat),
      s.up = true ∧ port < 2 ∧ bitAt v 0 = true ∧ (s.host.inReset = true ∨ s.host.holder ≠ port + 1 ∨ bits v 8 8 ≠ 90)) ∧
    (∃ (s : Machine.State) (port : Nat) (v : Nat),
      s.up = true ∧ port < 2 ∧ bitAt v 0 = true ∧ s.host.inReset = false ∧ s.host.holder = port + 1 ∧ bits v 8 8 = 90) ∧
    (∃ (s : Machine.State),
      s.up = true ∧ (s.hawkUp = false ∨ s.mgmt.ms < (s.mgmt.wearHour + 1) * 3600000)) ∧
    (∃ (s : Machine.State),
      s.up = true ∧ s.hawkUp = true ∧ (s.mgmt.wearHour + 1) * 3600000 ≤ s.mgmt.ms) ∧
    (∃ (s : Machine.State) (temps : List Int),
      s.up = true ∧ ∀ (n : Nat), n < 30 → temps.getD n 0 < ↑(tripLimit n * 16)) ∧
    (∃ (s : Machine.State) (temps : List Int),
      s.up = true ∧ ¬∀ (n : Nat), n < 30 → temps.getD n 0 < ↑(tripLimit n * 16)) ∧
    (∃ (s : Machine.State),
      s.up = true ∧ s.i3cUp = false) ∧
    (∃ (s : Machine.State) (v : Nat),
      s.up = true ∧ s.i3cUp = true ∧ (v ≠ 165 ∨ s.mgmt.resetReq = true)) ∧
    (∃ (s : Machine.State),
      s.up = true ∧ s.i3cUp = true ∧ s.mgmt.resetReq = false ∧ s.pwr.pendCause = 0) ∧
    (∃ (s : Machine.State),
      s.up = true ∧ (List.find? (fun (a : Attest) => !a.ready) s.sec.attests = none ∨ s.hawkUp = false)) ∧
    (∃ (s : Machine.State) (a : Attest),
      s.up = true ∧ List.find? (fun (a : Attest) => !a.ready) s.sec.attests = some a ∧ s.hawkUp = true) :=
  ⟨⟨{}, by decide +kernel⟩,
   ⟨{ host := { inReset := true } }, by decide +kernel⟩,
   ⟨{ host := { inReset := true }, mgmt := { loaded := true } }, by decide +kernel⟩,
   ⟨{ mgmt := { ready := true, ms := 10 } }, by decide +kernel⟩,
   ⟨{}, by decide +kernel⟩,
   ⟨{}, by decide +kernel⟩,
   ⟨{ host := { holder := 1 } }, by decide +kernel⟩,
   ⟨{ mgmt := { ready := true, pup := List.replicate 64 { svc := 1, op := 1, seq := 1, payload := [] } } }, by decide +kernel⟩,
   ⟨hk, [], by decide +kernel, by decide +kernel, by decide +kernel, rfl⟩,
   ⟨hk, dgram, by decide +kernel, by decide +kernel, by decide +kernel, dgram_ok⟩,
   ⟨{}, 2, by decide +kernel⟩,
   ⟨{}, 1, 1, by decide +kernel⟩,
   ⟨{ host := { holder := 2 } }, 1, (1 + 90 * 256), by decide +kernel⟩,
   ⟨{}, by decide +kernel⟩,
   ⟨{ mgmt := { ready := true, ms := 3600000 } }, by decide +kernel⟩,
   ⟨{}, [], by decide +kernel⟩,
   ⟨{}, [120 * 16], by decide +kernel, fun h => absurd (h 0 (by decide)) (by decide)⟩,
   ⟨{ host := { inReset := true }, mgmt := { loaded := true } }, by decide +kernel⟩,
   ⟨{}, 0, by decide +kernel⟩,
   ⟨{}, by decide +kernel⟩,
   ⟨{}, by decide +kernel⟩,
   ⟨(reps [rep 1 false] hk), (rep 1 false), by decide +kernel, rfl, by decide +kernel⟩⟩

theorem test_witness_PowerUpInItsSteps :
    (∃ (s : Machine.State),
      s.pwr.st ≠ PwrSt.off ∨ s.pwr.overVolt = true) ∧
    (∃ (s : Machine.State),
      s.pwr.st = PwrSt.off ∧ s.pwr.overVolt = false) ∧
    (∃ (high : Bool),
      high = false) ∧
    (∃ (s : Machine.State),
      s.pwr.st ≠ PwrSt.rising) ∧
    (∃ (s : Machine.State),
      s.pwr.st = PwrSt.rising ∧ ¬(s.pwr.bulk = true ∧ s.pwr.railWait = false ∧ s.pwr.rails < if s.unit.order = Order.n then 4 else 5)) ∧
    (∃ (s : Machine.State),
      s.pwr.st = PwrSt.rising ∧ s.pwr.bulk = true ∧ s.pwr.railWait = false ∧ s.pwr.rails < if s.unit.order = Order.n then 4 else 5) ∧
    (∃ (s : Machine.State),
      s.pwr.st = PwrSt.rising ∧ s.pwr.railWait = true ∧ s.pwr.railFails < 3) ∧
    (∃ (s : Machine.State),
      s.pwr.st = PwrSt.rising ∧ 3 ≤ s.pwr.railFails) ∧
    (∃ (s : Machine.State),
      s.pwr.st = PwrSt.rising ∧ ¬((s.pwr.rails = if s.unit.order = Order.n then 4 else 5) ∧ s.pwr.xoDone = true)) ∧
    (∃ (s : Machine.State),
      s.pwr.st = PwrSt.rising ∧ (s.pwr.rails = if s.unit.order = Order.n then 4 else 5) ∧ s.pwr.xoDone = true) ∧
    (∃ (s : Machine.State),
      s.pwr.st ≠ PwrSt.locking) ∧
    (∃ (s : Machine.State),
      s.pwr.st = PwrSt.locking) ∧
    (∃ (s : Machine.State),
      s.pwr.st ≠ PwrSt.held) ∧
    (∃ (s : Machine.State),
      s.pwr.st = PwrSt.held) ∧
    (∃ (s : Machine.State) (ns : Nat),
      ns < 1000 ∨ s.pwr.st = PwrSt.off) ∧
    (∃ (s : Machine.State) (ns : Nat),
      1000 ≤ ns ∧ ns < 10000 ∧ s.pwr.st ≠ PwrSt.off) ∧
    (∃ (s : Machine.State) (ns : Nat),
      10000 ≤ ns ∧ (s.pwr.st = PwrSt.running ∨ s.pwr.st = PwrSt.held)) ∧
    (∃ (s : Machine.State) (ns : Nat),
      10000 ≤ ns ∧ s.pwr.st = PwrSt.safeTrip) ∧
    (∃ (s : Machine.State),
      s.up = true ∧ (s.pwr.pendCause = 0 ∨ s.pwr.pendCause = 2 ∧ s.ckpt.take.isSome = true ∧ s.mgmt.ms < s.mgmt.resetAt + 5000)) ∧
    (∃ (s : Machine.State),
      s.up = true ∧ s.pwr.pendCause ≠ 0 ∧ ¬(s.pwr.pendCause = 2 ∧ s.ckpt.take.isSome = true ∧ s.mgmt.ms < s.mgmt.resetAt + 5000)) ∧
    (∃ (s : Machine.State),
      s.pwr.st = PwrSt.safeClock ∧ s.pwr.recover = false) ∧
    (∃ (s : Machine.State),
      s.pwr.st = PwrSt.safeClock ∧ (s.pwr.recover = false ∨ s.pwr.xoDone = false)) ∧
    (∃ (s : Machine.State),
      s.pwr.st = PwrSt.safeClock ∧ s.pwr.recover = true ∧ s.pwr.xoDone = true) ∧
    (∃ (s : Machine.State),
      s.pwr.st ≠ PwrSt.safeClock) :=
  ⟨⟨(pw {  }), by decide +kernel⟩,
   ⟨(pw { st := .off }), by decide +kernel⟩,
   ⟨false, by decide +kernel⟩,
   ⟨(pw {  }), by decide +kernel⟩,
   ⟨(pw { st := .rising, bulk := false }), by decide +kernel⟩,
   ⟨(pw { st := .rising, rails := 0 }), by decide +kernel⟩,
   ⟨(pw { st := .rising, railWait := true }), by decide +kernel⟩,
   ⟨(pw { st := .rising, railFails := 3 }), by decide +kernel⟩,
   ⟨(pw { st := .rising, xoDone := false }), by decide +kernel⟩,
   ⟨(pw { st := .rising }), by decide +kernel⟩,
   ⟨(pw {  }), by decide +kernel⟩,
   ⟨(pw { st := .locking }), by decide +kernel⟩,
   ⟨(pw {  }), by decide +kernel⟩,
   ⟨(pw { st := .held }), by decide +kernel⟩,
   ⟨(pw {  }), 999, by decide +kernel⟩,
   ⟨(pw {  }), 1000, by decide +kernel⟩,
   ⟨(pw {  }), 10000, by decide +kernel⟩,
   ⟨(pw { st := .safeTrip }), 10000, by decide +kernel⟩,
   ⟨(pw {  }), by decide +kernel⟩,
   ⟨(pw { pendCause := 3 }), by decide +kernel⟩,
   ⟨(pw { st := .safeClock }), by decide +kernel⟩,
   ⟨(pw { st := .safeClock }), by decide +kernel⟩,
   ⟨(pw { st := .safeClock, recover := true }), by decide +kernel⟩,
   ⟨(pw {  }), by decide +kernel⟩⟩

theorem test_witness_ReferenceSwitchesSource :
    (∃ (s : Machine.State),
      s.up = true ∧ s.pwr.fbOk = true ∧ s.pwr.recovered = true) ∧
    (∃ (s : Machine.State),
      s.up = true ∧ s.pwr.fbOk = true ∧ s.pwr.recovered = false ∧ s.pwr.recLock = true) ∧
    (∃ (s : Machine.State),
      s.up = true ∧ s.pwr.fbOk = true ∧ s.pwr.recovered = false ∧ s.pwr.recLock = false) ∧
    (∃ (s : Machine.State) (n : Nat),
      s.up = true ∧ n < 16 ∧ n ≠ s.pwr.clkPort) ∧
    (∃ (s : Machine.State) (n : Nat),
      s.up = true ∧ n < 16 ∧ n = s.pwr.clkPort ∧ (s.port n).en = true ∧ s.pwr.recLock = false) ∧
    (∃ (s : Machine.State) (n : Nat),
      s.up = true ∧ n < 16 ∧ n = s.pwr.clkPort ∧ s.pwr.recovered = false) ∧
    (∃ (s : Machine.State) (n : Nat),
      s.up = true ∧ n < 16 ∧ n = s.pwr.clkPort ∧ s.pwr.recovered = true ∧ s.pwr.fbOk = true) ∧
    (∃ (s : Machine.State) (n : Nat),
      s.up = true ∧ n < 16 ∧ n = s.pwr.clkPort ∧ s.pwr.recovered = true ∧ s.pwr.fbOk = false) ∧
    (∃ (s : Machine.State),
      s.up = true ∧ ¬(s.pwr.recovered = false ∧ s.pwr.recLock = true ∧ s.pwr.autoReturn = true ∧ s.pwr.forceFb = false)) ∧
    (∃ (s : Machine.State),
      s.up = true ∧ s.pwr.recovered = false ∧ s.pwr.recLock = true ∧ s.pwr.autoReturn = true ∧ s.pwr.forceFb = false) ∧
    (∃ (s : Machine.State),
      s.up = true ∧ (s.pwr.recovered = false ∧ s.pwr.recLock = true ∧ s.pwr.autoReturn = true ∧ s.pwr.forceFb = false) ∧ s.tick ≤ s.pwr.lockAt + 1000000) ∧
    (∃ (s : Machine.State) (fn : Nat),
      s.up = true ∧ fn ≠ 0 ∧ s.bound fn = true) ∧
    (∃ (s : Machine.State),
      s.up = true ∧ s.pwr.recovered = false ∧ s.pwr.recLock = true ∧ s.pwr.forceFb = false) ∧
    (∃ (s : Machine.State),
      s.up = true ∧ (s.pwr.recovered = true ∨ s.pwr.recLock = false ∨ s.pwr.forceFb = true)) ∧
    (∃ (s : Machine.State),
      s.up = true ∧ s.pwr.recovered = true ∧ s.pwr.fbOk = true) ∧
    (∃ (s : Machine.State),
      s.up = true ∧ s.pwr.recovered = true ∧ s.pwr.fbOk = false) ∧
    (∃ (s : Machine.State),
      s.up = true ∧ (s.pwr.recovered = false ∨ s.pwr.fbOk = true)) :=
  ⟨⟨(pw { recovered := true }), by decide +kernel⟩,
   ⟨(pw { recLock := true }), by decide +kernel⟩,
   ⟨(pw {  }), by decide +kernel⟩,
   ⟨(pw {  }), 1, by decide +kernel⟩,
   ⟨(pw {  }), 0, by decide +kernel⟩,
   ⟨(pw {  }), 0, by decide +kernel⟩,
   ⟨(pw { recovered := true }), 0, by decide +kernel⟩,
   ⟨(pw { recovered := true, fbOk := false }), 0, by decide +kernel⟩,
   ⟨(pw {  }), by decide +kernel⟩,
   ⟨(pw { recLock := true }), by decide +kernel⟩,
   ⟨(pw { recLock := true }), by decide +kernel⟩,
   ⟨(asks (cm 3 []) (fresh .hot)), 1, by decide +kernel⟩,
   ⟨(pw { recLock := true }), by decide +kernel⟩,
   ⟨(pw {  }), by decide +kernel⟩,
   ⟨(pw { recovered := true }), by decide +kernel⟩,
   ⟨(pw { recovered := true, fbOk := false }), by decide +kernel⟩,
   ⟨(pw {  }), by decide +kernel⟩⟩

theorem test_witness_RegisterWritesByTheirRules :
    (∃ (s : Machine.State) (fn : Nat) (p : Nat) (v : Nat),
      s.up = true ∧ s.reach fn 4194312 = Reach.yes p ∧ 1 ≤ v % 256 ∧ v % 256 ≤ 254) ∧
    (∃ (s : Machine.State) (fn : Nat) (p : Nat) (v : Nat),
      s.up = true ∧ s.reach fn 4194312 = Reach.yes p ∧ ¬(1 ≤ v % 256 ∧ v % 256 ≤ 254)) ∧
    (∃ (s : Machine.State) (fn : Nat) (p : Nat) (v : Nat),
      s.up = true ∧ s.reach fn 4194320 = Reach.yes p ∧ (1 ≤ v % 4096 ∧ v % 4096 ≤ 4094) ∧ v / 4096 % 256 ≤ 254) ∧
    (∃ (s : Machine.State) (fn : Nat) (p : Nat) (v : Nat),
      s.up = true ∧ s.reach fn 4194320 = Reach.yes p ∧ ¬((1 ≤ v % 4096 ∧ v % 4096 ≤ 4094) ∧ v / 4096 % 256 ≤ 254)) ∧
    (∃ (s : Machine.State) (fn : Nat) (p : Nat) (v : Nat),
      s.up = true ∧ s.reach fn 10486016 = Reach.yes p ∧ (1000 ≤ v % 2 ^ 24 ∧ v % 2 ^ 24 ≤ 16777214) ∧ v / 2 ^ 24 % 2 ^ 24 ≤ 16777214 ∧ 1000 ≤ v / 2 ^ 48 % 2 ^ 16 ∧ v / 2 ^ 48 % 2 ^ 16 ≤ 65534) ∧
    (∃ (s : Machine.State) (fn : Nat) (p : Nat) (v : Nat),
      s.up = true ∧ s.reach fn 10486016 = Reach.yes p ∧ ¬((1000 ≤ v % 2 ^ 24 ∧ v % 2 ^ 24 ≤ 16777214) ∧ v / 2 ^ 24 % 2 ^ 24 ≤ 16777214 ∧ 1000 ≤ v / 2 ^ 48 % 2 ^ 16 ∧ v / 2 ^ 48 % 2 ^ 16 ≤ 65534)) ∧
    (∃ (s : Machine.State) (fn : Nat) (p : Nat) (v : Nat),
      s.up = true ∧ s.reach fn 11534360 = Reach.yes p ∧ v % 2 ^ 16 ≠ 65535) ∧
    (∃ (s : Machine.State) (fn : Nat) (p : Nat) (v : Nat),
      s.up = true ∧ s.reach fn 11534360 = Reach.yes p ∧ ¬v % 2 ^ 16 ≠ 65535) ∧
    (∃ (s : Machine.State) (fn : Nat) (p : Nat),
      s.up = true ∧ s.reach fn 0 = Reach.yes p) ∧
    (∃ (s : Machine.State) (fn : Nat) (p : Nat),
      s.up = true ∧ s.reach fn 4 = Reach.yes p) ∧
    (∃ (s : Machine.State) (fn : Nat) (p : Nat),
      s.up = true ∧ s.reach fn 8 = Reach.yes p) ∧
    (∃ (s : Machine.State) (fn : Nat) (p : Nat),
      s.up = true ∧ s.reach fn 12 = Reach.yes p) ∧
    (∃ (s : Machine.State) (fn : Nat) (p : Nat),
      s.up = true ∧ s.reach fn 4194368 = Reach.yes p) ∧
    (∃ (s : Machine.State) (fn : Nat) (p : Nat),
      s.up = true ∧ s.reach fn 5242880 = Reach.yes p) ∧
    (∃ (s : Machine.State) (fn : Nat) (p : Nat),
      s.up = true ∧ s.reach fn 7340600 = Reach.yes p) ∧
    (∃ (s : Machine.State) (fn : Nat) (p : Nat),
      s.up = true ∧ s.reach fn 10485768 = Reach.yes p) ∧
    (∃ (s : Machine.State) (fn : Nat) (p : Nat),
      s.up = true ∧ s.reach fn 12582912 = Reach.yes p) ∧
    (∃ (s : Machine.State) (fn : Nat) (p : Nat),
      s.up = true ∧ s.reach fn 13631536 = Reach.yes p) ∧
    (∃ (s : Machine.State) (fn : Nat) (p : Nat),
      s.up = true ∧ s.reach fn 14680064 = Reach.yes p) ∧
    (∃ (s : Machine.State) (fn : Nat) (p : Nat),
      s.up = true ∧ s.reach fn 15728648 = Reach.yes p) ∧
    (∃ (s : Machine.State) (fn : Nat) (p : Nat),
      s.up = true ∧ s.reach fn 15728656 = Reach.yes p) ∧
    (∃ (s : Machine.State) (fn : Nat) (p : Nat),
      s.up = true ∧ s.reach fn 15728664 = Reach.yes p) ∧
    (∃ (s : Machine.State) (fn : Nat) (o : Nat),
      s.up = true ∧ o < coreBase ∧ s.reach fn o = Reach.denied) ∧
    (∃ (s : Machine.State) (fn : Nat) (v : Nat),
      s.up = true ∧ s.reach fn 12582920 = Reach.yes 0 ∧ fn = 0 ∧ s.anyConf = false ∧ v % 32 ≤ 20 ∧ (6 ≤ v / 256 % 32 ∧ v / 256 % 32 ≤ 20) ∧ v / 65536 % 16 ≤ 12) ∧
    (∃ (s : Machine.State) (fn : Nat) (v : Nat),
      s.up = true ∧ s.reach fn 12582920 = Reach.yes 0 ∧ ¬(fn = 0 ∧ s.anyConf = false ∧ v % 32 ≤ 20 ∧ (6 ≤ v / 256 % 32 ∧ v / 256 % 32 ≤ 20) ∧ v / 65536 % 16 ≤ 12)) ∧
    (∃ (s : Machine.State) (fn : Nat) (p : Nat) (v : Nat),
      s.up = true ∧ s.reach fn 4194352 = Reach.yes p ∧ s.handle? p (v % 2 ^ 32) = none) ∧
    (∃ (s : Machine.State) (fn : Nat) (p : Nat) (v : Nat),
      s.up = true ∧ s.reach fn 4194384 = Reach.yes p ∧ s.handle? p (v % 2 ^ 32) = none) ∧
    (∃ (s : Machine.State) (fn : Nat) (p : Nat),
      s.up = true ∧ s.reach fn 5242912 = Reach.yes p) ∧
    (∃ (s : Machine.State) (fn : Nat) (p : Nat) (v : Nat),
      s.up = true ∧ s.reach fn 7340592 = Reach.yes p ∧ s.handle? p (v % 2 ^ 32) = none) ∧
    (∃ (s : Machine.State) (fn : Nat) (p : Nat) (v : Nat),
      s.up = true ∧ s.reach fn 3145760 = Reach.yes p ∧ s.handle? p (v % 2 ^ 32) = none) ∧
    (∃ (s : Machine.State) (fn : Nat) (p : Nat),
      s.up = true ∧ s.reach fn 6291496 = Reach.yes p) ∧
    (∃ (s : Machine.State) (fn : Nat) (p : Nat) (off : Nat) (w : Nat),
      s.up = true ∧ s.reach fn 3670016 = Reach.yes p ∧ (w = 4 ∨ w = 8) ∧ w ∣ off ∧ 64 ≤ off % 128 ∧ off < 524288 ∧ inRange (s.getPart p) (s.reg Reg.sessWin fn % 256 * 4096 + off / 128) = true ∧ (s.getSess (s.reg Reg.sessWin fn % 256 * 4096 + off / 128)).st ≠ SState.free) ∧
    (∃ (s : Machine.State) (fn : Nat) (p : Nat) (off : Nat) (w : Nat),
      s.up = true ∧ s.reach fn 3670016 = Reach.yes p ∧ ¬((w = 4 ∨ w = 8) ∧ w ∣ off ∧ 64 ≤ off % 128 ∧ off < 524288 ∧ inRange (s.getPart p) (s.reg Reg.sessWin fn % 256 * 4096 + off / 128) = true ∧ (s.getSess (s.reg Reg.sessWin fn % 256 * 4096 + off / 128)).st ≠ SState.free)) ∧
    (∃ (s : Machine.State) (fn : Nat) (n : Nat) (m : Nat) (v : Nat),
      s.up = true ∧ s.bound fn = true ∧ s.coreReach fn n = Reach.yes m ∧ v / 2 ^ 63 % 2 = 0) ∧
    (∃ (s : Machine.State) (fn : Nat) (n : Nat) (m : Nat) (v : Nat),
      s.up = true ∧ s.bound fn = true ∧ s.coreReach fn n = Reach.yes m ∧ v / 2 ^ 63 % 2 = 1) ∧
    (∃ (s : Machine.State) (fn : Nat) (n : Nat) (m : Nat),
      s.up = true ∧ s.bound fn = true ∧ s.coreReach fn n = Reach.yes m ∧ s.coreConf n = true) ∧
    (∃ (s : Machine.State) (fn : Nat) (n : Nat) (m : Nat),
      s.up = true ∧ s.bound fn = true ∧ s.coreReach fn n = Reach.yes m ∧ s.coreConf n = false) ∧
    (∃ (s : Machine.State) (fn : Nat) (n : Nat) (m : Nat) (o : Nat),
      s.up = true ∧ s.bound fn = true ∧ s.coreReach fn n = Reach.yes m ∧ 131072 ≤ o ∧ o + 8 ≤ 196608 ∧ 8 ∣ o ∧ s.coreConf n = true) ∧
    (∃ (s : Machine.State) (fn : Nat) (n : Nat) (m : Nat) (o : Nat),
      s.up = true ∧ s.bound fn = true ∧ s.coreReach fn n = Reach.yes m ∧ 131072 ≤ o ∧ o + 8 ≤ 196608 ∧ 8 ∣ o ∧ s.coreConf n = false ∧ (s.core n).ldmPage * 65536 + (o - 131072) < 163840) ∧
    (∃ (s : Machine.State) (fn : Nat) (n : Nat) (m : Nat) (o : Nat),
      s.up = true ∧ s.bound fn = true ∧ s.coreReach fn n = Reach.yes m ∧ 131072 ≤ o ∧ o + 8 ≤ 196608 ∧ 8 ∣ o ∧ s.coreConf n = false ∧ 163840 ≤ (s.core n).ldmPage * 65536 + (o - 131072)) ∧
    (∃ (s : Machine.State),
      s.up = true ∧ ¬(s.beat.tick = 0 ∧ s.beat.hold = false ∧ s.beat.none_ = false ∧ s.beat.num % 2 ^ s.epochLog2 = 0)) ∧
    (∃ (s : Machine.State),
      s.up = true ∧ s.beat.tick = 0 ∧ s.beat.hold = false ∧ s.beat.none_ = false ∧ s.beat.num % 2 ^ s.epochLog2 = 0) :=
  ⟨⟨(asks (cm 3 []) (fresh .hot)), 1, 0, 254, by decide +kernel⟩,
   ⟨(asks (cm 3 []) (fresh .hot)), 1, 0, 255, by decide +kernel⟩,
   ⟨(asks (cm 3 []) (fresh .hot)), 1, 0, (4094 + 254 * 4096), by decide +kernel⟩,
   ⟨(asks (cm 3 []) (fresh .hot)), 1, 0, 4095, by decide +kernel⟩,
   ⟨(asks (cm 3 []) (fresh .hot)), 1, 0, (1000 + 16777214 * 2 ^ 24 + 65534 * 2 ^ 48), by decide +kernel⟩,
   ⟨(asks (cm 3 []) (fresh .hot)), 1, 0, 999, by decide +kernel⟩,
   ⟨(asks (cm 3 []) (fresh .hot)), 1, 0, 65534, by decide +kernel⟩,
   ⟨(asks (cm 3 []) (fresh .hot)), 1, 0, 65535, by decide +kernel⟩,
   ⟨(asks (cm 3 []) (fresh .hot)), 3, 3, by decide +kernel⟩,
   ⟨(asks (cm 3 []) (fresh .hot)), 3, 3, by decide +kernel⟩,
   ⟨(asks (cm 3 []) (fresh .hot)), 3, 3, by decide +kernel⟩,
   ⟨(asks (cm 3 []) (fresh .hot)), 3, 3, by decide +kernel⟩,
   ⟨(asks (cm 3 []) (fresh .hot)), 1, 0, by decide +kernel⟩,
   ⟨(asks (cm 3 []) (fresh .hot)), 1, 0, by decide +kernel⟩,
   ⟨(asks (cm 3 []) (fresh .hot)), 1, 0, by decide +kernel⟩,
   ⟨(asks (cm 3 []) (fresh .hot)), 1, 0, by decide +kernel⟩,
   ⟨(asks (cm 3 []) (fresh .hot)), 1, 0, by decide +kernel⟩,
   ⟨(asks (cm 3 []) (fresh .hot)), 0, 0, by decide +kernel⟩,
   ⟨(asks (cm 3 []) (fresh .hot)), 0, 0, by decide +kernel⟩,
   ⟨(asks (cm 3 []) (fresh .hot)), 0, 0, by decide +kernel⟩,
   ⟨(asks (cm 3 []) (fresh .hot)), 0, 0, by decide +kernel⟩,
   ⟨(asks (cm 3 []) (fresh .hot)), 0, 0, by decide +kernel⟩,
   ⟨(asks (cm 3 []) (fresh .hot)), 3, 0x100000, by decide +kernel⟩,
   ⟨(asks (cm 3 []) (fresh .hot)), 0, (20 + 6 * 256 + 12 * 65536), by decide +kernel⟩,
   ⟨(asks (cm 3 []) (fresh .hot)), 0, (21 + 6 * 256), by decide +kernel⟩,
   ⟨(asks (cm 3 []) (fresh .hot)), 1, 0, 0, by decide +kernel⟩,
   ⟨(asks (cm 3 []) (fresh .hot)), 1, 0, 0, by decide +kernel⟩,
   ⟨(asks (cm 3 []) (fresh .hot)), 1, 0, by decide +kernel⟩,
   ⟨(asks (cm 3 []) (fresh .hot)), 1, 0, 0, by decide +kernel⟩,
   ⟨(asks (cm 3 []) (fresh .hot)), 1, 0, 0, by decide +kernel⟩,
   ⟨(asks (cm 3 []) (fresh .hot)), 1, 0, by decide +kernel⟩,
   ⟨(asks (cm 3 []) (fresh .hot)), 1, 0, (7 * 128 + 64), 4, by decide +kernel⟩,
   ⟨(asks (cm 3 []) (fresh .hot)), 1, 0, (7 * 128), 4, by decide +kernel⟩,
   ⟨(asks (cm 3 []) (fresh .hot)), 1, 0, 0, 0, by decide +kernel⟩,
   ⟨(asks (cm 3 []) (fresh .hot)), 1, 0, 0, (2 ^ 63), by decide +kernel⟩,
   ⟨({ asks (cm 3 []) (fresh .hot) with part := { parts := [(0, { st := .active, clusters := [0], groups := 1, conf := true })], fns := [(1, 0)] } }), 1, 0, 0, by decide +kernel⟩,
   ⟨(asks (cm 3 []) (fresh .hot)), 1, 0, 0, by decide +kernel⟩,
   ⟨({ asks (cm 3 []) (fresh .hot) with part := { parts := [(0, { st := .active, clusters := [0], groups := 1, conf := true })], fns := [(1, 0)] } }), 1, 0, 0, 131072, by decide +kernel⟩,
   ⟨({ asks (cm 3 []) (fresh .hot) with cores := { core := [(0, { ldmPage := 2 })] } }), 1, 0, 0, (131072 + 32760), by decide +kernel⟩,
   ⟨({ asks (cm 3 []) (fresh .hot) with cores := { core := [(0, { ldmPage := 2 })] } }), 1, 0, 0, (131072 + 32768), by decide +kernel⟩,
   ⟨{ beat := { none_ := true } }, by decide +kernel⟩,
   ⟨{ beat := { none_ := false } }, by decide +kernel⟩⟩

theorem test_witness_StepRunsTheFirstCommand :
    (∃ (s : Machine.State),
      s.pending = []) :=
  ⟨{}, by decide +kernel⟩

theorem test_witness_StepsKeepFusesIdentityAndOrder :
    (∃ (s : Machine.State) (t : Machine.State),
      step s = Host.Outcome.next t ∧ s.sec.versionsFit) :=
  ⟨{}, (State.pass {} 1), rfl, ⟨by decide, by decide⟩⟩

theorem test_witness_OnlyAnUndefinedPulseFaults :
    (∃ (c : Instr),
      undefinedPulse c = false) ∧
    (∃ (c : Instr) (s : Machine.State),
      undefinedPulse c = true ∧ s.pwr.st ≠ PwrSt.off) ∧
    (∃ (c : Instr) (s : Machine.State),
      undefinedPulse c = true ∧ s.pwr.st = PwrSt.off) :=
  ⟨⟨(Instr.modResetN 999 { xo := 7, a := true, b := true }), by decide +kernel⟩,
   ⟨(Instr.modResetN 1000 { xo := 7, a := true, b := true }), {}, by decide +kernel⟩,
   ⟨(Instr.modResetN 9999 { xo := 7, a := true, b := true }), (pw { st := .off }), by decide +kernel⟩⟩

end Sys2Proof.Tests
end

section
/-! The FINAL of a command in flight, in the words of the statements: which commands stay in flight, what stays in what the device sent, what
a FINAL leaves of the state (12_host_interface R323, R325 to R331, R340). -/

namespace Sys2Proof.Machine

/-! ### The commands in flight -/

theorem find?_listMod {α : Type} {p q : α → Bool} {f : α → α} (h : ∀ x, q (f x) = q x) (l : List α) :
    (listMod p f l).find? q = (l.find? q).map (fun x => if p x then f x else x) := by
  have keeps : (q ∘ fun x => if p x then f x else x) = q := by
    funext x
    by_cases hp : p x = true <;> simp [hp, h]
  rw [listMod, List.find?_map, keeps]

theorem State.serial_of_cmd? {s : State} {n : Nat} {c : Cmd} (e : s.cmd? n = some c) : c.serial = n := by
  simpa using List.find?_some e

theorem State.cmd?_start (s : State) (n m : Nat) : (s.start n).cmd? m =
    (s.cmd? m).map (fun c => if c.serial == n then { c with started := true, fresh := true } else c) := by
  unfold State.cmd? State.start
  exact find?_listMod (by intro _; rfl) s.host.cmds

theorem State.cmd?_start_self {s : State} {n : Nat} {c : Cmd} (e : s.cmd? n = some c) :
    (s.start n).cmd? n = some { c with started := true, fresh := true } := by
  simp [State.cmd?_start, e, State.serial_of_cmd? e]

theorem State.cmd?_start_of_ne (s : State) {m n : Nat} (h : m ≠ n) : (s.start n).cmd? m = s.cmd? m := by
  rw [State.cmd?_start]
  cases e : s.cmd? m with
  | none => rfl
  | some c => simp [State.serial_of_cmd? e, h]

theorem State.cmd?_settle (s : State) (n m : Nat) : (s.settle n).cmd? m =
    (s.cmd? m).map (fun c => if c.serial == n then { c with fresh := false } else c) := by
  unfold State.cmd? State.settle
  exact find?_listMod (by intro _; rfl) s.host.cmds

theorem State.cmd?_settle_none {s : State} {m : Nat} (n : Nat) (e : s.cmd? m = none) : (s.settle n).cmd? m = none := by
  rw [State.cmd?_settle, e, Option.map_none]

theorem State.final_cmds (s : State) (n : Nat) (st : Status) (h a b d : Nat) :
    (s.final n st h a b d).host.cmds = s.host.cmds.filter (fun x => x.serial != n) := by
  unfold State.final
  split
  · next e =>
    refine (List.filter_eq_self.mpr fun x hx => ?_).symm
    simpa using List.find?_eq_none.mp e x hx
  · rw [State.postCpl_cmds]
    split <;> rfl

theorem State.cmd?_final_of_ne (s : State) {m n : Nat} (hne : m ≠ n) (st : Status) (h a b d : Nat) :
    (s.final n st h a b d).cmd? m = s.cmd? m := by
  have both : (fun x : Cmd => decide (x.serial != n ∧ x.serial == m)) = fun x => x.serial == m := by
    funext x
    by_cases hx : x.serial = m <;> simp [hx, hne]
  rw [State.cmd?, State.final_cmds, List.find?_filter, both, State.cmd?]

/-- A command out of flight does not come back with another's FINAL. -/
theorem State.cmd?_final_none {s : State} {m : Nat} (e : s.cmd? m = none) (n : Nat) (st : Status) (h a b d : Nat) :
    (s.final n st h a b d).cmd? m = none := by
  by_cases hne : m = n
  · rw [hne, State.cmd?_final]
  · rw [State.cmd?_final_of_ne s hne, e]

/-! ### What a FINAL leaves -/

theorem State.postCpl_out_mono (s : State) (qk : Nat) (c : Cpl) : ∀ o ∈ s.out, o ∈ (s.postCpl qk c).out := by
  intro o ho
  unfold State.postCpl
  dsimp only
  split
  · exact State.signalCpl_out _ _ _ (List.mem_cons_of_mem _ (List.mem_cons_of_mem _ ho))
  · exact ho

/-- Nothing the device sent is taken back. -/
theorem State.final_out_mono (s : State) (n : Nat) (st : Status) (h a b d : Nat) : ∀ o ∈ s.out, o ∈ (s.final n st h a b d).out := by
  intro o ho
  unfold State.final
  split
  · exact ho
  · refine State.postCpl_out_mono _ _ _ _ ?_
    split <;> exact ho

theorem State.qs_en_modQs (s : State) (k j : Nat) (f : QueueSet → QueueSet) (hf : ∀ q, (f q).en = q.en) :
    ((s.modQs k f).qs j).en = (s.qs j).en := by
  by_cases h : j = k
  · rw [h, State.qs_modQs_self, hf]
  · rw [State.qs_modQs_of_ne s h]

theorem State.qs_fireVec (s : State) (fn vec j : Nat) : (s.fireVec fn vec).qs j = s.qs j := by
  unfold State.fireVec
  dsimp only
  split <;> rfl

theorem State.qs_en_signalCpl (s : State) (k j : Nat) : ((s.signalCpl k).qs j).en = (s.qs j).en := by
  unfold State.signalCpl
  dsimp only
  split
  · rw [State.qs_fireVec]
    exact State.qs_en_modQs s k j _ (fun _ => rfl)
  · exact State.qs_en_modQs s k j _ (fun _ => rfl)

theorem State.qs_en_postCpl (s : State) (k j : Nat) (c : Cpl) : ((s.postCpl k c).qs j).en = (s.qs j).en := by
  unfold State.postCpl
  dsimp only
  split
  · rw [State.qs_en_signalCpl]
    exact State.qs_en_modQs _ k j _ (fun _ => rfl)
  · rfl

/-- A FINAL enables and disables no queue set. -/
theorem State.qs_en_final (s : State) (n j : Nat) (st : Status) (h a b d : Nat) : ((s.final n st h a b d).qs j).en = (s.qs j).en := by
  unfold State.final
  split
  · rfl
  · rw [State.qs_en_postCpl]
    split <;> rfl

/-- A FINAL changes the host interface, what the device sent and the counters only. -/
theorem State.final_onlyHost (s : State) (n : Nat) (st : Status) (h a b d : Nat) : OnlyHost s (s.final n st h a b d) := by
  obtain ⟨k1, k2, k3, k4, k5, k6, k7, k8, k9, k10, k11, k12, k13, k14, k15, k16, k17, k18, k19, k20⟩ := State.final_keeps s n st h a b d
  unfold OnlyHost
  generalize s.final n st h a b d = u at *
  cases u
  simp_all

theorem State.final_ctrs (s : State) (n : Nat) (st : Status) (h a b d : Nat) (hst : st.refuses = false) :
    (s.final n st h a b d).ctrs = s.ctrs := by
  unfold State.final
  split
  · rfl
  · simp [hst]

/-- The FINAL of a command that is not turned away counts nothing. -/
theorem State.final_eq (s : State) (n : Nat) (st : Status) (h a b d : Nat) (hst : st.refuses = false) :
    s.final n st h a b d = { s with host := (s.final n st h a b d).host, out := (s.final n st h a b d).out } := by
  have e := State.final_onlyHost s n st h a b d
  rwa [OnlyHost, State.final_ctrs s n st h a b d hst] at e

theorem State.final_ctrs_of_refused {s : State} {n : Nat} {c : Cmd} {st : Status} (e : s.cmd? n = some c) (fresh : c.fresh = true)
    (hst : st.refuses = true) (h a b d : Nat) : (s.final n st h a b d).ctrs = (s.bump .hifRejected (c.qk / 64)).ctrs := by
  unfold State.final
  simp [e, fresh, hst]

/-- The host interface, the sessions and what the device sent are all that may differ. -/
def OnlySess (s u : State) : Prop := u = { s with host := u.host, sess := u.sess, out := u.out }

theorem OnlySess.refl (s : State) : OnlySess s s := rfl

theorem onlySess_start (s : State) (n : Nat) : OnlySess s (s.start n) := rfl

theorem OnlySess.setSess {s u : State} (h : OnlySess s u) (id : Nat) (x : Sess) : OnlySess s (u.setSess id x) := by
  unfold OnlySess at *
  rw [h]
  rfl

theorem OnlySess.upd {s u : State} (h : OnlySess s u) (id : Nat) (f : Sess → Sess) : OnlySess s (u.upd id f) := h.setSess id _

theorem OnlySess.final {s u : State} (h : OnlySess s u) (n : Nat) {st : Status} (hst : st.refuses = false) (r a b d : Nat) :
    OnlySess s (u.final n st r a b d) := by
  unfold OnlySess at *
  rw [State.final_eq u n st r a b d hst, h]

theorem OnlySess.settle {s u : State} (h : OnlySess s u) (n : Nat) : OnlySess s (u.settle n) := by
  unfold OnlySess at *
  rw [h]
  rfl

theorem OnlySess.trans {s t u : State} (h : OnlySess s t) (k : OnlySess t u) : OnlySess s u := by
  unfold OnlySess at *
  rw [k, h]

@[simp] theorem State.getSess_final (s : State) (n : Nat) (st : Status) (h a b d k : Nat) :
    (s.final n st h a b d).getSess k = s.getSess k := by
  simp [State.getSess]

@[simp] theorem State.getSess_settle (s : State) (n k : Nat) : (s.settle n).getSess k = s.getSess k := rfl

@[simp] theorem State.getSess_start (s : State) (n k : Nat) : (s.start n).getSess k = s.getSess k := rfl

/-! ### Commands that have received their FINAL -/

section
variable {s t u v : State} {c : Cmd} {st : Status} {h a b r : Nat}

/-- A FINAL stays received while the command stays out of flight and nothing sent is taken back. -/
theorem Finished.later (f : Finished s u c st h a b r) (gone : u.cmd? c.serial = none → v.cmd? c.serial = none)
    (sent : ∀ o ∈ u.out, o ∈ v.out) : Finished s v c st h a b r :=
  ⟨gone f.1, fun en => sent _ (f.2 en)⟩

theorem Answered.later (f : Answered s u c st h a b r) (gone : u.cmd? c.serial = none → v.cmd? c.serial = none)
    (sent : ∀ o ∈ u.out, o ∈ v.out) : Answered s v c st h a b r := by
  refine ⟨gone f.1, fun en => ?_⟩
  obtain ⟨pos, head, phase, mem⟩ := f.2 en
  exact ⟨pos, head, phase, sent _ mem⟩

theorem Finished.answered (f : Finished s u c st h a b r) : Answered s u c st h a b r :=
  ⟨f.1, fun en => ⟨_, _, _, f.2 en⟩⟩

theorem Finished.settle (f : Finished s u c st h a b r) (n : Nat) : Finished s (u.settle n) c st h a b r :=
  f.later (State.cmd?_settle_none n) (fun _ ho => ho)

theorem Answered.settle (f : Answered s u c st h a b r) (n : Nat) : Answered s (u.settle n) c st h a b r :=
  f.later (State.cmd?_settle_none n) (fun _ ho => ho)

theorem Finished.upd (f : Finished s u c st h a b r) (id : Nat) (g : Sess → Sess) : Finished s (u.upd id g) c st h a b r :=
  f.later (fun gone => gone) (fun _ ho => ho)

theorem Answered.upd (f : Answered s u c st h a b r) (id : Nat) (g : Sess → Sess) : Answered s (u.upd id g) c st h a b r :=
  f.later (fun gone => gone) (fun _ ho => ho)

theorem Answered.final (f : Answered s u c st h a b r) (n : Nat) (st' : Status) (h' a' b' r' : Nat) :
    Answered s (u.final n st' h' a' b' r') c st h a b r :=
  f.later (fun e => State.cmd?_final_none e n st' h' a' b' r') (State.final_out_mono u n st' h' a' b' r')

/-- The FINAL of a command that has just started (R323): its ring stands as it stood before. -/
theorem finished_final (own : s.cmd? c.serial = some c) (ht : t.host = (s.start c.serial).host) (st : Status) (h a b r : Nat) :
    Finished s (t.final c.serial st h a b r) c st h a b r := by
  have started : t.cmd? c.serial = some { c with started := true, fresh := true } := by
    rw [State.cmd?, ht]
    exact State.cmd?_start_self own
  have ring : t.qs c.qk = s.qs c.qk := by
    rw [State.qs, ht]
    rfl
  refine ⟨State.cmd?_final .., fun en => ?_⟩
  rw [← ring] at en ⊢
  exact State.final_out t c.serial st h a b r { c with started := true, fresh := true } started en

/-- The FINAL of a command in flight, after others may have received theirs. -/
theorem answered_final {n : Nat} (inFlight : t.cmd? n = some c) (en : (t.qs c.qk).en = (s.qs c.qk).en) (st : Status) (h a b r : Nat) :
    Answered s (t.final n st h a b r) c st h a b r := by
  refine ⟨?_, fun on => ⟨_, _, _, State.final_out t n st h a b r c inFlight (en.trans on)⟩⟩
  rw [State.serial_of_cmd? inFlight, State.cmd?_final]

/-- What the owning chapter's checks turn away (R323, R340). -/
theorem turnedAway_done (own : s.cmd? c.serial = some c) (hst : st.refuses = true) :
    TurnedAway s (((s.start c.serial).done c.serial st).settle c.serial) c st 0 0 0 0 := by
  refine ⟨?_, (finished_final own rfl st 0 0 0 0).settle _, ?_⟩
  · rw [State.done, State.final_onlyHost (s.start c.serial)]
    rfl
  · exact State.final_ctrs_of_refused (State.cmd?_start_self own) rfl hst 0 0 0 0

end

end Sys2Proof.Machine
end

section
/-! SESS_OPEN (02_sessions R30, R69): what it can do, case by case. -/

namespace Sys2Proof.Machine

/-! ### The lowest free number -/

theorem lowestFree_eq_some {p : Nat → Bool} {id : Nat} (hid : p id = true) {base count : Nat} (lo : base ≤ id) (hi : id < base + count)
    (below : ∀ n, base ≤ n → n < id → p n = false) : lowestFree p base count = some id := by
  induction count generalizing base with
  | zero => omega
  | succ k ih =>
    unfold lowestFree
    by_cases e : base = id
    · rw [e, if_pos hid]
    · rw [if_neg (by simp [below base (Nat.le_refl _) (by omega)])]
      exact ih (by omega) (by omega) (fun n h => below n (by omega))

theorem lowestFree_eq_none {p : Nat → Bool} {base count : Nat} (h : ∀ n, base ≤ n → n < base + count → p n = false) :
    lowestFree p base count = none := by
  induction count generalizing base with
  | zero => rfl
  | succ k ih =>
    unfold lowestFree
    rw [if_neg (by simp [h base (Nat.le_refl _) (by omega)])]
    exact ih (fun n h1 h2 => h n (by omega) (by omega))

/-! ### The outcomes -/

/-- The fields of SESS_OPEN that FORMAT_INVALID is about are in order (R30): the policy, the domain, the model, the stencil set and the
stop set. -/
def OpenFieldsValid (s : State) (c : Cmd) : Prop :=
  byteAt c.raw 35 % 8 ≤ 4 ∧ field c.raw 32 2 ≠ 0xFFFF ∧ byteAt c.raw 34 ≠ 255 ∧ (s.model c.part (byteAt c.raw 34)).valid = true ∧
    (field c.raw 38 2 = 0 ∨ (tabGet? s.emit.sets (c.part * 65536 + field c.raw 38 2)).isSome = true) ∧
    (field c.raw 46 2 = 0 ∨ (tabGet? s.text.stops (c.part * 65536 + field c.raw 46 2)).isSome = true)

/-- The policy a SESS_OPEN names, where there is one of its number. -/
def openPolicy : Nat → Option Policy
  | 0 => some .pinHot
  | 1 => some .preferHot
  | 2 => some .normal
  | 3 => some .cold
  | 4 => some .stripOk
  | _ => none

theorem openPolicy_eq_none_iff : ∀ {n : Nat}, openPolicy n = none ↔ 4 < n
  | 0 | 1 | 2 | 3 | 4 => by simp [openPolicy]
  | n + 5 => iff_of_true rfl (by omega)

/-- The domain SESS_OPEN names is bound to the command's partition, or it names none. -/
def OpenDomainBound (s : State) (c : Cmd) : Prop := field c.raw 32 2 = 0 ∨ s.domBound c.part (field c.raw 32 2) = true

/-- A number names nothing or something loaded, unless it names what is not there. -/
theorem namesNone_or_isSome_iff {α : Type} (n : Nat) (o : Option α) : (n = 0 ∨ o.isSome = true) ↔ ¬ (n ≠ 0 ∧ o.isNone = true) := by
  by_cases h : n = 0
  · exact iff_of_true (.inl h) fun names => names.1 h
  · cases o with
    | none => exact iff_of_false (fun has => has.elim h Bool.noConfusion) fun lacks => lacks ⟨h, rfl⟩
    | some _ => exact iff_of_true (.inr rfl) fun lacks => Bool.noConfusion lacks.2

/-- Past the policy, the model's check of the fields. -/
theorem openFieldsValid_iff {s : State} {c : Cmd} (policy : byteAt c.raw 35 % 8 ≤ 4) : OpenFieldsValid s c ↔
    ¬ (field c.raw 32 2 = 0xFFFF ∨ byteAt c.raw 34 = 255 ∨ (!(s.model c.part (byteAt c.raw 34)).valid) = true ∨
      (field c.raw 38 2 ≠ 0 ∧ (s.set? c.part (field c.raw 38 2)).isNone = true) ∨
      (field c.raw 46 2 ≠ 0 ∧ (tabGet? s.text.stops (c.part * 65536 + field c.raw 46 2)).isNone = true)) := by
  rw [not_or, not_or, not_or, not_or, ← namesNone_or_isSome_iff, ← namesNone_or_isSome_iff, Bool.not_eq_true', Bool.not_eq_false]
  exact and_iff_right policy

theorem openDomainBound_iff {s : State} {c : Cmd} :
    OpenDomainBound s c ↔ ¬ (field c.raw 32 2 ≠ 0 ∧ (!s.domBound c.part (field c.raw 32 2)) = true) := by
  unfold OpenDomainBound
  by_cases h : field c.raw 32 2 = 0
  · exact iff_of_true (.inl h) fun denied => denied.1 h
  · rw [or_iff_right h, and_iff_right h, Bool.not_eq_true', Bool.not_eq_false]

/-- The lowest FREE entry of the command's partition. -/
def openEntry (s : State) (c : Cmd) : Option Nat :=
  lowestFree (fun id => (s.getSess id).st == .free) ((s.getPart c.part).groupBase * 4096) ((s.getPart c.part).groups * 4096)

/-- What SESS_OPEN writes into an entry (R30): the next generation, an empty OPEN session, the command's fields, its home (R69). -/
def OpenedAs (s : State) (c : Cmd) (id : Nat) (x : Sess) : Prop :=
  x.gen = ((s.getSess id).gen + 1) % 256 ∧ x.st = .opened ∧ x.part = c.part ∧ x.length = 0 ∧ x.pend = 0 ∧ x.log = [] ∧ x.pages = [] ∧
    x.coatPos = 0 ∧ x.domain = field c.raw 32 2 ∧ x.model = byteAt c.raw 34 ∧ x.prio = byteAt c.raw 35 / 16 ∧
    x.stencilSet = field c.raw 38 2 ∧ x.stencilState = field c.raw 40 4 ∧ x.profile = field c.raw 44 2 ∧ x.stopSet = field c.raw 46 2 ∧
    x.stoptext = bitAt (byteAt c.raw 36) 0 ∧ x.noLearn = bitAt (byteAt c.raw 36) 1 ∧ x.home = s.pickHome (s.getPart c.part).clusters

/-- The state a SESS_OPEN leaves that took an entry: the new session stands there and the command has completed with its handle. -/
def State.openedIn (s : State) (c : Cmd) (id : Nat) (x : Sess) : State :=
  ((s.start c.serial).draw.setSess id x).final c.serial .ok (handleOf id x) 0 0 0

theorem State.getSess_openedIn (s : State) (c : Cmd) (id k : Nat) (x : Sess) :
    (s.openedIn c id x).getSess k = if k = id then x else s.getSess k := by
  rw [State.openedIn, State.getSess_final, State.getSess_setSess]
  rfl

/-- What SESS_OPEN leaves of a state, by the first check that fails. -/
inductive OpenOutcome (s : State) (c : Cmd) : State → Prop
  | formatInvalid (bad : ¬ OpenFieldsValid s c) : OpenOutcome s c ((s.start c.serial).done c.serial .formatInvalid)
  | domainDenied (valid : OpenFieldsValid s c) (unbound : ¬ OpenDomainBound s c) :
      OpenOutcome s c ((s.start c.serial).done c.serial .domainDenied)
  | noEntry (valid : OpenFieldsValid s c) (bound : OpenDomainBound s c) (full : openEntry s c = none) :
      OpenOutcome s c ((s.start c.serial).done c.serial .noSpace)
  | noRoom (valid : OpenFieldsValid s c) (bound : OpenDomainBound s c)
      (short : s.t1Free (s.pickHome (s.getPart c.part).clusters) < logPrimary 0) :
      OpenOutcome s c ((s.start c.serial).done c.serial .noSpace)
  | opened (id : Nat) (x : Sess) (valid : OpenFieldsValid s c) (bound : OpenDomainBound s c) (entry : openEntry s c = some id)
      (written : OpenedAs s c id x) :
      OpenOutcome s c (s.openedIn c id x)

theorem exec_sessOpen {s : State} {qk : Nat} {c : Cmd} (h : Next s qk 0x01 c) :
    ∃ t, exec (.sessOpen qk) s = .next (t.settle c.serial) ∧ OpenOutcome s c t := by
  refine ⟨_, (withCmd_next h _ : execSessOpen qk s = _), ?_⟩
  dsimp only
  split
  · next noPolicy =>
    exact .formatInvalid fun valid => absurd valid.1 (Nat.not_le.mpr (openPolicy_eq_none_iff.mp noPolicy))
  · next pol policy =>
    have policyOk : byteAt c.raw 35 % 8 ≤ 4 := by
      refine Nat.le_of_not_lt fun big => ?_
      have unknown : openPolicy (byteAt c.raw 35 % 8) = none := openPolicy_eq_none_iff.mpr big
      exact nomatch unknown.symm.trans policy
    split
    · next bad => exact .formatInvalid fun valid => (openFieldsValid_iff policyOk).mp valid bad
    · next good =>
      have valid : OpenFieldsValid s c := (openFieldsValid_iff policyOk).mpr good
      split
      · next unbound => exact .domainDenied valid fun bound => openDomainBound_iff.mp bound unbound
      · next bound =>
        have bound : OpenDomainBound s c := openDomainBound_iff.mpr bound
        split
        · next full => exact .noEntry valid bound full
        · next id entry =>
          split
          · next short => exact .noRoom valid bound short
          · next =>
            exact .opened id _ valid bound entry
              ⟨rfl, rfl, rfl, rfl, rfl, rfl, rfl, rfl, rfl, rfl, rfl, rfl, rfl, rfl, rfl, rfl, rfl, rfl⟩

/-! ### The statement -/

/-- The lowest FREE entry of the range, as the statement names it. -/
theorem openEntry_eq_some {s : State} {c : Cmd} {id : Nat} (lo : (s.getPart c.part).groupBase * 4096 ≤ id)
    (hi : id < ((s.getPart c.part).groupBase + (s.getPart c.part).groups) * 4096) (free : (s.getSess id).st = .free)
    (below : ∀ n, (s.getPart c.part).groupBase * 4096 ≤ n → n < id → (s.getSess n).st ≠ .free) : openEntry s c = some id :=
  lowestFree_eq_some (by simp [free]) lo (by rwa [← Nat.add_mul]) (fun n h1 h2 => by simp [below n h1 h2])

theorem openEntry_eq_none {s : State} {c : Cmd} (taken : ∀ n, (s.getPart c.part).groupBase * 4096 ≤ n →
    n < ((s.getPart c.part).groupBase + (s.getPart c.part).groups) * 4096 → (s.getSess n).st ≠ .free) : openEntry s c = none :=
  lowestFree_eq_none (fun n h1 h2 => by simp [taken n h1 (by rwa [Nat.add_mul])])

/-- Settles O25: each clause rules out all outcomes of `exec_sessOpen` but its own. -/
theorem openTakesTheLowestFreeEntry : Obligations.OpenTakesTheLowestFreeEntry := by
  intro s qk c p lo hi dom m pol set stop valid starts
  obtain ⟨t, run, out⟩ := exec_sessOpen starts
  refine ⟨fun id fieldsOk domOk above below free first room => ⟨_, run, ?_⟩, fun fieldsOk domOk taken => ⟨_, run, ?_⟩,
    fun bad => ⟨_, run, ?_⟩, fun fieldsOk named unbound => ⟨_, run, ?_⟩⟩
  · have lowest : openEntry s c = some id := openEntry_eq_some above below free first
    cases out with
    | formatInvalid bad => exact absurd fieldsOk bad
    | domainDenied _ unbound => exact absurd domOk unbound
    | noEntry _ _ full => exact nomatch lowest.symm.trans full
    | noRoom _ _ short => exact absurd short (Nat.not_lt.mpr room)
    | opened id' x _ _ entry written =>
      cases lowest.symm.trans entry
      have handle : handleOf id x = id + (((s.getSess id).gen + 1) % 256) * 2 ^ 20 := by rw [handleOf, written.1]
      refine ⟨?_, fun n hn => ?_, ?_⟩
      · rw [State.openedIn, State.final_eq _ _ _ _ _ _ _ rfl]
        rfl
      · rw [State.getSess_settle, State.getSess_openedIn, if_neg hn]
      · dsimp only
        rw [State.getSess_settle, State.getSess_openedIn, if_pos rfl, ← handle]
        exact ⟨(finished_final (t := (s.start c.serial).draw.setSess id x) starts.own rfl .ok _ 0 0 0).settle _, written⟩
  · have full : openEntry s c = none := openEntry_eq_none taken
    cases out with
    | formatInvalid bad => exact absurd fieldsOk bad
    | domainDenied _ unbound => exact absurd domOk unbound
    | noEntry | noRoom => exact turnedAway_done starts.own rfl
    | opened _ _ _ _ entry => exact nomatch full.symm.trans entry
  · cases out with
    | formatInvalid => exact turnedAway_done starts.own rfl
    | domainDenied ok | noEntry ok | noRoom ok | opened _ _ ok => exact absurd ok bad
  · have denied : ¬ OpenDomainBound s c := fun bound => bound.elim named (fun isBound => nomatch unbound.symm.trans isBound)
    cases out with
    | formatInvalid bad => exact absurd fieldsOk bad
    | domainDenied => exact turnedAway_done starts.own rfl
    | noEntry _ ok | noRoom _ ok | opened _ _ _ ok => exact absurd ok denied

end Sys2Proof.Machine
end

section
/-! SESS_CANCEL (02_sessions R36, R45, R46): a held command, a session in a step, one between steps, every other case. -/

namespace Sys2Proof.Machine

/-! ### Its cases -/

/-- The session holds a command a SESS_CANCEL drops (R46). -/
def Sess.holdsCmd (x : Sess) : Prop := x.heldCmd = true ∧ (x.st = .reviving ∨ (x.st = .moving ∧ x.exporting = false))

theorem Sess.parking_iff (x : Sess) : x.parking = true ↔ x.st = .moving ∧ x.exporting = false := by
  simp [Sess.parking]

theorem Sess.not_running_of_holdsCmd {x : Sess} (h : x.holdsCmd) : x.st ≠ .running := by
  rcases h.2 with st | ⟨st, _⟩ <;> simp [st]

/-- A SESS_CANCEL of a RUNNING session has completed with OK; what it does to the session is still to come. -/
def State.cancelTaken (s : State) (c : Cmd) (id : Nat) : State := ((s.start c.serial).modSess id Sess.okd).done c.serial .ok

section
variable {s : State} {qk id : Nat} {c : Cmd}

theorem State.getSess_cancelTaken (s : State) (c : Cmd) (id k : Nat) :
    (s.cancelTaken c id).getSess k = if k = id then (s.getSess id).okd else s.getSess k := by
  rw [State.cancelTaken, State.done, State.getSess_final, State.getSess_modSess]
  rfl

theorem State.getSess_cancelTaken_self (s : State) (c : Cmd) (id : Nat) : (s.cancelTaken c id).getSess id = (s.getSess id).okd := by
  rw [State.getSess_cancelTaken, if_pos rfl]

theorem State.cancelTaken_onlySess (s : State) (c : Cmd) (id : Nat) : OnlySess s (s.cancelTaken c id) :=
  ((onlySess_start s c.serial).setSess id _).final _ rfl _ _ _ _

theorem State.cancelTaken_finished (own : s.cmd? c.serial = some c) (id : Nat) : Finished s (s.cancelTaken c id) c .ok 0 0 0 0 :=
  finished_final (t := (s.start c.serial).modSess id Sess.okd) own rfl .ok 0 0 0 0

theorem State.cmd?_cancelTaken_of_ne (s : State) (c : Cmd) (id : Nat) {n : Nat} (h : n ≠ c.serial) :
    (s.cancelTaken c id).cmd? n = s.cmd? n :=
  (State.cmd?_final_of_ne _ h .ok 0 0 0 0).trans (State.cmd?_start_of_ne s h)

theorem State.qs_en_cancelTaken (s : State) (c : Cmd) (id k : Nat) : ((s.cancelTaken c id).qs k).en = (s.qs k).en :=
  State.qs_en_final _ _ _ _ _ _ _ _

theorem exec_sessCancel_running (h : NextSess s qk 0x08 c id) (run : (s.getSess id).st = .running) :
    exec (.sessCancel qk) s = .next (((s.cancelTaken c id).cancelRun id).settle c.serial) := by
  refine (withSess_next h _ : execSessCancel qk s = _).trans ?_
  dsimp only
  rw [State.getSess_start, if_pos run]
  rfl

theorem exec_sessCancel_holding (h : NextSess s qk 0x08 c id) (holds : (s.getSess id).holdsCmd) : exec (.sessCancel qk) s =
    .next (((((s.start c.serial).dropHeld id .cancelled).upd id (fun x => { x.okd with heldCmd := false })).done c.serial .ok).settle
      c.serial) := by
  refine (withSess_next h _ : execSessCancel qk s = _).trans ?_
  dsimp only
  rw [State.getSess_start, if_neg (Sess.not_running_of_holdsCmd holds), if_pos]
  exact ⟨holds.1, holds.2.imp_right (Sess.parking_iff _).mpr⟩

theorem exec_sessCancel_otherwise (h : NextSess s qk 0x08 c id) (holds : ¬ (s.getSess id).holdsCmd)
    (run : (s.getSess id).st ≠ .running) :
    exec (.sessCancel qk) s = .next (((s.start c.serial).done c.serial .badState).settle c.serial) := by
  refine (withSess_next h _ : execSessCancel qk s = _).trans ?_
  dsimp only
  rw [State.getSess_start, if_neg run, if_neg]
  exact fun held => holds ⟨held.1, held.2.imp_right (Sess.parking_iff _).mp⟩

end

/-! ### What it calls -/

/-- The entry that a cancelled generate leaves: the generate is over (R36, R45), the text it held is discarded (R217). -/
def Sess.genCancelled (x : Sess) (now : Nat) : Sess :=
  { x.genOver .cancelled .idle now with seq := (x.seq + 2) % 65536, seam := [], utf8 := [] }

theorem Sess.genOver_cancelled (x : Sess) (now : Nat) : x.genOver .cancelled .idle now =
    { x.settled with st := .idle, lastStatus := 5, open? := none, cancelReq := false } := by
  unfold Sess.genOver
  cases x.open? with
  | none => rfl
  | some g => exact if_neg fun armed => armed.2 rfl

/-- What the statement says of the entry; no close becomes due. -/
theorem Sess.genCancelled_fields (x : Sess) (now : Nat) :
    ((x.genCancelled now).st = .idle ∧ (x.genCancelled now).lastStatus = 5 ∧ (x.genCancelled now).open? = none ∧
      (x.genCancelled now).length = x.length ∧ (x.genCancelled now).pend = x.pend ∧ (x.genCancelled now).log = x.log) ∧
    (x.genCancelled now).policy = x.policy ∧ (x.genCancelled now).closeSerial = x.closeSerial := by
  rw [Sess.genCancelled, Sess.genOver_cancelled]
  exact ⟨⟨rfl, rfl, rfl, rfl, rfl, rfl⟩, rfl, rfl⟩

/-- The entry as a cancelled generate leaves it, before the FINAL of the generate. -/
def State.genCancelledIn (s : State) (id : Nat) : State :=
  (s.upd id (fun x => x.genOver .cancelled .idle s.now)).modSess id (fun x => { x with seam := [], utf8 := [] })

theorem State.getSess_genCancelledIn (s : State) (id k : Nat) :
    (s.genCancelledIn id).getSess k = if k = id then (s.getSess id).genCancelled s.now else s.getSess k := by
  by_cases h : k = id
  · rw [h, if_pos rfl, State.genCancelledIn, State.getSess_modSess_self, State.getSess_upd_self]
    rfl
  · rw [if_neg h, State.genCancelledIn, State.getSess_modSess, if_neg h, State.getSess_upd, if_neg h]

section
variable {s : State} {id : Nat}

theorem State.dropHeld_eq {h : Held} (e : (s.getSess id).held = some h) (st : Status) : s.dropHeld id st =
    (s.upd id (fun x => { x with held := none, heldCmd := false, lastStatus := st.code })).final h.serial st
      (if h.isGen then handleOf id (s.getSess id) else 0) 0 0 0 := by
  simp only [State.dropHeld, e]

theorem State.getSess_dropHeld {h : Held} (e : (s.getSess id).held = some h) (st : Status) (k : Nat) : (s.dropHeld id st).getSess k =
    if k = id then { s.getSess id with held := none, heldCmd := false, lastStatus := st.code, seq := ((s.getSess id).seq + 2) % 65536 }
    else s.getSess k := by
  rw [State.dropHeld_eq e, State.getSess_final, State.getSess_upd]

theorem State.dropHeld_onlySess {h : Held} (e : (s.getSess id).held = some h) {st : Status} (hst : st.refuses = false) :
    OnlySess s (s.dropHeld id st) := by
  rw [State.dropHeld_eq e]
  exact ((OnlySess.refl s).upd id _).final _ hst _ _ _ _

/-- The command the session held receives its FINAL (R46). -/
theorem State.dropHeld_answered {h : Held} {c : Cmd} (e : (s.getSess id).held = some h) (inFlight : s.cmd? h.serial = some c)
    (st : Status) : Answered s (s.dropHeld id st) c st (if h.isGen then handleOf id (s.getSess id) else 0) 0 0 0 := by
  rw [State.dropHeld_eq e]
  exact answered_final (t := s.upd id _) inFlight rfl st _ 0 0 0

theorem State.cmd?_dropHeld_of_ne {h : Held} (e : (s.getSess id).held = some h) {n : Nat} (hn : n ≠ h.serial) (st : Status) :
    (s.dropHeld id st).cmd? n = s.cmd? n := by
  rw [State.dropHeld_eq e, State.cmd?_final_of_ne _ hn]
  rfl

theorem State.qs_en_dropHeld {h : Held} (e : (s.getSess id).held = some h) (st : Status) (k : Nat) :
    ((s.dropHeld id st).qs k).en = (s.qs k).en := by
  rw [State.dropHeld_eq e, State.qs_en_final]
  rfl

theorem State.dropHeld_out_mono {h : Held} (e : (s.getSess id).held = some h) (st : Status) :
    ∀ o ∈ s.out, o ∈ (s.dropHeld id st).out := by
  rw [State.dropHeld_eq e]
  exact State.final_out_mono (s.upd id _) h.serial st _ 0 0 0

theorem State.cancelRun_inStep (h : (s.getSess id).step.isSome = true) :
    s.cancelRun id = s.upd id (fun x => { x with cancelReq := true }) := by
  simp only [State.cancelRun, h, if_true]

theorem State.cancelRun_betweenSteps (h : (s.getSess id).step = none) : s.cancelRun id =
    (s.ctrlEndNext (s.getSess id).part (handleOf id (s.getSess id))).endGenIdle id .cancelled := by
  simp [State.cancelRun, h]

theorem State.endGen_cancelled {g : Gen} (e : (s.getSess id).open? = some g) : s.endGen id .cancelled .idle =
    (s.genCancelledIn id).final g.serial .cancelled (handleOf id (s.getSess id)) g.logged 0 0 := by
  simp only [State.endGen, e, if_true]
  rfl

/-- A session that waits for no close and is not COLD stays IDLE (R36, R67). -/
theorem State.endGenIdle_cancelled {g : Gen} (e : (s.getSess id).open? = some g) (noClose : (s.getSess id).closeSerial = 0)
    (notCold : (s.getSess id).policy ≠ .cold) : s.endGenIdle id .cancelled =
      (s.genCancelledIn id).final g.serial .cancelled (handleOf id (s.getSess id)) g.logged 0 0 := by
  obtain ⟨-, policy, close⟩ := (s.getSess id).genCancelled_fields s.now
  simp [State.endGenIdle, State.endGen_cancelled e, State.closeIfDue, State.enteredIdle, State.getSess_genCancelledIn, policy, close, noClose,
    notCold]

end

/-! ### CTRL END in the next beat -/

theorem State.mem_ctrlEndNext (s : State) (p h : Nat) : h ∈ ((s.ctrlEndNext p h).roster p).ctrlEnd := by
  rw [State.ctrlEndNext, State.roster_modRoster_self]
  exact List.mem_append_right _ (List.mem_singleton_self h)

theorem State.now_ctrlEndNext (s : State) (p h : Nat) : (s.ctrlEndNext p h).now = s.now := rfl

theorem State.now_cancelTaken (s : State) (c : Cmd) (id : Nat) : (s.cancelTaken c id).now = s.now := by
  simp [State.now, State.cancelTaken]

theorem State.getSess_ctrlEndNext (s : State) (p h k : Nat) : (s.ctrlEndNext p h).getSess k = s.getSess k := rfl

@[simp] theorem State.roster_final (s : State) (n : Nat) (st : Status) (h a b d p : Nat) :
    (s.final n st h a b d).roster p = s.roster p := by
  simp [State.roster]

theorem State.roster_settle (s : State) (n p : Nat) : (s.settle n).roster p = s.roster p := rfl

theorem State.roster_genCancelledIn (s : State) (id p : Nat) : (s.genCancelledIn id).roster p = s.roster p := rfl

theorem Answered.ctrlEndNext {s u : State} {c : Cmd} {st : Status} {h a b r : Nat} (f : Answered s u c st h a b r) (p k : Nat) :
    Answered s (u.ctrlEndNext p k) c st h a b r :=
  f.later (fun gone => gone) (fun _ ho => ho)

theorem Answered.genCancelledIn {s u : State} {c : Cmd} {st : Status} {h a b r : Nat} (f : Answered s u c st h a b r) (id : Nat) :
    Answered s (u.genCancelledIn id) c st h a b r :=
  f.later (fun gone => gone) (fun _ ho => ho)

/-- The FINAL of the generate that ends between steps. -/
theorem answered_of_genCancelled {s u : State} {n : Nat} {c : Cmd} (inFlight : u.cmd? n = some c)
    (en : (u.qs c.qk).en = (s.qs c.qk).en) (p k id h a : Nat) :
    Answered s (((u.ctrlEndNext p k).genCancelledIn id).final n .cancelled h a 0 0) c .cancelled h a 0 0 :=
  answered_final (t := (u.ctrlEndNext p k).genCancelledIn id) inFlight en .cancelled h a 0 0

/-! ### The statement -/

section
variable {s : State} {qk id : Nat} {c e : Cmd}

/-- The held command and the cancel both receive their FINAL; nothing but the entry, the rings and what was sent changes (R46). -/
theorem sessCancel_holding {h : Held} (starts : NextSess s qk 0x08 c id) (holds : (s.getSess id).holdsCmd)
    (held : (s.getSess id).held = some h) (inFlight : s.cmd? h.serial = some e) (other : h.serial ≠ c.serial) :
    ∃ u, exec (.sessCancel qk) s = .next u ∧ OnlySess s u ∧
      u.getSess id = { s.getSess id with
        held := none, heldCmd := false, lastStatus := 0, seq := (((s.getSess id).seq + 2) % 65536 + 2) % 65536 } ∧
      (∀ n, n ≠ id → u.getSess n = s.getSess n) ∧
      Answered s u e .cancelled (if h.isGen then handleOf id (s.getSess id) else 0) 0 0 0 ∧ Answered s u c .ok 0 0 0 0 ∧
      (∀ o ∈ s.out, o ∈ u.out) := by
  have held' : ((s.start c.serial).getSess id).held = some h := held
  have inFlight' : (s.start c.serial).cmd? h.serial = some e := (State.cmd?_start_of_ne s other).trans inFlight
  have own := (State.cmd?_dropHeld_of_ne held' other.symm .cancelled).trans (State.cmd?_start_self starts.own)
  refine ⟨_, exec_sessCancel_holding starts holds, ?_, ?_, fun n hn => ?_, ?_, ?_, fun o ho => ?_⟩
  · exact (((((onlySess_start s c.serial).trans (State.dropHeld_onlySess held' rfl)).upd id _).final _ rfl _ _ _ _).settle _)
  · rw [State.getSess_settle, State.done, State.getSess_final, State.getSess_upd_self, State.getSess_dropHeld held', if_pos rfl]
    rfl
  · rw [State.getSess_settle, State.done, State.getSess_final, State.getSess_upd, if_neg hn, State.getSess_dropHeld held', if_neg hn,
      State.getSess_start]
  · exact (((State.dropHeld_answered held' inFlight' .cancelled).upd id _).final _ _ _ _ _ _).settle _
  · exact answered_final (s := s) (c := { c with started := true, fresh := true })
      (t := ((s.start c.serial).dropHeld id .cancelled).upd id fun x => { x.okd with heldCmd := false }) own
      (State.qs_en_dropHeld held' .cancelled _) .ok 0 0 0 0 |>.settle _
  · exact State.final_out_mono _ _ _ _ _ _ _ _ (State.dropHeld_out_mono held' .cancelled o ho)

/-- In a step, CANCEL_REQ is set and the step runs on (R45). -/
theorem sessCancel_inStep (starts : NextSess s qk 0x08 c id) (run : (s.getSess id).st = .running)
    (inStep : (s.getSess id).step.isSome = true) : ∃ u, exec (.sessCancel qk) s = .next u ∧ OnlySess s u ∧
      (∀ n, n ≠ id → u.getSess n = s.getSess n) ∧
      u.getSess id = { s.getSess id with cancelReq := true, lastStatus := 0, seq := ((s.getSess id).seq + 2) % 65536 } ∧
      Finished s u c .ok 0 0 0 0 := by
  have entry := State.getSess_cancelTaken_self s c id
  have step := State.cancelRun_inStep (s := s.cancelTaken c id) (id := id) (by rw [entry]; exact inStep)
  refine ⟨_, (exec_sessCancel_running starts run).trans (by rw [step]), ?_, fun n hn => ?_, ?_, ?_⟩
  · exact ((State.cancelTaken_onlySess s c id).upd id _).settle _
  · rw [State.getSess_settle, State.getSess_upd, if_neg hn, State.getSess_cancelTaken, if_neg hn]
  · rw [State.getSess_settle, State.getSess_upd_self, entry]
    rfl
  · exact ((State.cancelTaken_finished starts.own id).upd id _).settle _

/-- Between steps, the generate ends (R45). -/
theorem sessCancel_betweenSteps {g : Gen} (starts : NextSess s qk 0x08 c id) (run : (s.getSess id).st = .running)
    (noStep : (s.getSess id).step = none) (gen : (s.getSess id).open? = some g) (inFlight : s.cmd? g.serial = some e)
    (other : g.serial ≠ c.serial) (noClose : (s.getSess id).closeSerial = 0) (notCold : (s.getSess id).policy ≠ .cold) :
    ∃ u, exec (.sessCancel qk) s = .next u ∧ u.getSess id = (s.getSess id).okd.genCancelled s.now ∧
      handleOf id (s.getSess id) ∈ (u.roster (s.getSess id).part).ctrlEnd ∧ (∀ n, n ≠ id → u.getSess n = s.getSess n) ∧
      Answered s u e .cancelled (handleOf id (s.getSess id)) g.logged 0 0 ∧ Answered s u c .ok 0 0 0 0 := by
  have entry := State.getSess_cancelTaken_self s c id
  have between := State.cancelRun_betweenSteps (s := s.cancelTaken c id) (id := id) (by rw [entry]; exact noStep)
  have ended := State.endGenIdle_cancelled (g := g) (id := id)
    (s := (s.cancelTaken c id).ctrlEndNext (s.getSess id).part (handleOf id (s.getSess id)))
    (by rw [State.getSess_ctrlEndNext, entry]; exact gen) (by rw [State.getSess_ctrlEndNext, entry]; exact noClose)
    (by rw [State.getSess_ctrlEndNext, entry]; exact notCold)
  rw [entry] at between
  rw [State.getSess_ctrlEndNext, entry] at ended
  refine ⟨_, (exec_sessCancel_running starts run).trans (by rw [between.trans ended]), ?_, ?_, fun n hn => ?_, ?_, ?_⟩
  · rw [State.getSess_settle, State.getSess_final, State.getSess_genCancelledIn, if_pos rfl, State.getSess_ctrlEndNext, entry,
      State.now_ctrlEndNext, State.now_cancelTaken]
  · rw [State.roster_settle, State.roster_final, State.roster_genCancelledIn]
    exact State.mem_ctrlEndNext _ _ _
  · rw [State.getSess_settle, State.getSess_final, State.getSess_genCancelledIn, if_neg hn, State.getSess_ctrlEndNext,
      State.getSess_cancelTaken, if_neg hn]
  · have inFlight' := (State.cmd?_cancelTaken_of_ne s c id other).trans inFlight
    exact (answered_of_genCancelled inFlight' (State.qs_en_cancelTaken s c id _) _ _ id _ _).settle _
  · exact ((((State.cancelTaken_finished starts.own id).answered.ctrlEndNext _ _).genCancelledIn id).final _ _ _ _ _ _).settle _

end

/-- Settles O26: the four cases of `execSessCancel`, one theorem each. -/
theorem cancelEndsWhatASessionHolds : Obligations.CancelEndsWhatASessionHolds := by
  intro s qk c id x holds starts
  refine ⟨fun h e holding held inFlight other => sessCancel_holding starts holding held inFlight other, sessCancel_inStep starts, ?_, ?_⟩
  · intro g e run noStep gen inFlight other noClose notCold
    obtain ⟨u, next, entry, due, rest⟩ := sessCancel_betweenSteps starts run noStep gen inFlight other noClose notCold
    obtain ⟨⟨st, lastStatus, noGen, length, pend, log⟩, -⟩ := (s.getSess id).okd.genCancelled_fields s.now
    rw [← entry] at st lastStatus noGen length pend log
    exact ⟨u, next, st, lastStatus, noGen, length, pend, log, due, rest⟩
  · exact fun notHolding run => ⟨_, exec_sessCancel_otherwise starts notHolding run, turnedAway_done starts.own rfl⟩

end Sys2Proof.Machine
end
